-- ==== Sys2Proof/Word.lean ====
section
/-!
DEFINITION. Sys2Proof/Word.lean: the 64-bit word, the tainted word, and sparse tables keyed by a natural number.
-/
namespace Sys2Proof

/-- A general register, a pointer image, a message word, a memory word (R129, R133, R46). -/
abbrev Word := BitVec 64

/-- One byte of a memory. -/
abbrev Byte := BitVec 8

/-- A word with its taint bit (R46, R129): `v` the 64 bits, `t` the taint. -/
structure TWord where
  v : Word
  t : Bool
deriving DecidableEq, Repr

/-- Zero, untainted: what every register of a fresh window reads (R130). -/
def TWord.zero : TWord := ⟨0, false⟩

/-- A sparse table: a list of (key, value) pairs in rising key order; a key that is not listed reads as a default the
reader names. -/
abbrev SMap (α : Type) := List (Nat × α)

namespace SMap

/-- The value at key `k`, or `d` where the table lists none. -/
def get {α : Type} (m : SMap α) (k : Nat) (d : α) : α :=
  match m with
  | [] => d
  | (j, v) :: rest => if j = k then v else get rest k d

/-- The value at key `k`, if the table lists one. -/
def get? {α : Type} (m : SMap α) (k : Nat) : Option α :=
  match m with
  | [] => none
  | (j, v) :: rest => if j = k then some v else get? rest k

/-- The table with `v` at key `k`; the other keys keep their values, and the keys stay in rising order. -/
def set {α : Type} (m : SMap α) (k : Nat) (v : α) : SMap α :=
  match m with
  | [] => [(k, v)]
  | (j, w) :: rest => if k < j then (k, v) :: (j, w) :: rest else if j = k then (k, v) :: rest else (j, w) :: set rest k v

/-- The table without key `k`. -/
def del {α : Type} (m : SMap α) (k : Nat) : SMap α :=
  match m with
  | [] => []
  | (j, w) :: rest => if j = k then del rest k else (j, w) :: del rest k

end SMap

/-- Element `i` of a list, or `d` past its end. -/
def nthD {α : Type} (l : List α) (i : Nat) (d : α) : α :=
  match l, i with
  | [], _ => d
  | x :: _, 0 => x
  | _ :: r, n + 1 => nthD r n d

/-- A list with element `i` replaced; unchanged when `i` is past its end. -/
def setNth {α : Type} (l : List α) (i : Nat) (v : α) : List α :=
  match l, i with
  | [], _ => []
  | _ :: r, 0 => v :: r
  | x :: r, n + 1 => x :: setNth r n v

/-- Insert a number into a strictly rising list (a set without order). -/
def insSorted (l : List Nat) (n : Nat) : List Nat :=
  match l with
  | [] => [n]
  | x :: r => if n < x then n :: x :: r else if x = n then x :: r else x :: insSorted r n

/-- Bits [hi:lo] of a number. -/
def bitsOf (n hi lo : Nat) : Nat := (n / 2 ^ lo) % 2 ^ (hi - lo + 1)

/-- Bits [hi:lo] of a word, as a number (R9). -/
def Word.bits (w : Word) (hi lo : Nat) : Nat := bitsOf w.toNat hi lo

/-- A word from a number, modulo 2^64. -/
def w64 (n : Nat) : Word := BitVec.ofNat 64 n

/-- A word from an integer, in two's complement modulo 2^64. -/
def w64i (z : Int) : Word := BitVec.ofInt 64 z

/-- All ones: the failure value many instructions write. -/
def allOnes : Word := w64 (2 ^ 64 - 1)

end Sys2Proof
end

