-- ==== Sys2Proof/Syntax.lean ====
section
/-!
DEFINITION. Sys2Proof/Syntax.lean: one constructor per row of the table of operations and events. An instruction carries
its decoded fields; an event of the machine
finds what it acts on (a core, a slot, a line, …) in the state's `arg`, in the order its line names.
-/
namespace Sys2Proof

/-- The decoded fields of an instruction (R15 to R22). A register field holds a register number 0 to 127, a vector
group as 8K, a pointer, tile or segment number, or a small selector, by the instruction's own use of it; `sd`, `sa`
and `sb` say that the field names the special operand of that index (R19). `three` says that register b is present
where it is optional (R21). `hi` and `lo` are the two halves of the modifiers (R22): segment or element type, and
size, rounding or option. -/
structure Fields where
  d     : Nat
  a     : Nat
  b     : Nat
  sd    : Bool
  sa    : Bool
  sb    : Bool
  three : Bool
  fx    : Nat
  la    : Nat
  hi    : Nat
  lo    : Nat
  imm   : Int
deriving DecidableEq, Repr

/-- The instructions (R28 to R35) and the events of the machine. -/
inductive Instr where
  | nop (f : Fields)  -- R151
  | mov (f : Fields)  -- R151
  | movk (f : Fields)  -- R151
  | movkh (f : Fields)  -- R151
  | add (f : Fields)  -- R151
  | sub (f : Fields)  -- R151
  | addk (f : Fields)  -- R151
  | neg (f : Fields)  -- R151
  | mul (f : Fields)  -- R151
  | mulh (f : Fields)  -- R151
  | div (f : Fields)  -- R152
  | rem (f : Fields)  -- R152
  | andOp (f : Fields)  -- R151
  | orOp (f : Fields)  -- R151
  | xor (f : Fields)  -- R151
  | andn (f : Fields)  -- R151
  | notOp (f : Fields)  -- R151
  | shl (f : Fields)  -- R151
  | shr (f : Fields)  -- R151
  | sar (f : Fields)  -- R151
  | shlk (f : Fields)  -- R151
  | shrk (f : Fields)  -- R151
  | sark (f : Fields)  -- R151
  | minOp (f : Fields)  -- R151
  | maxOp (f : Fields)  -- R151
  | cmpeq (f : Fields)  -- R151
  | cmpne (f : Fields)  -- R151
  | cmplt (f : Fields)  -- R151
  | cmple (f : Fields)  -- R151
  | sel (f : Fields)  -- R151
  | clz (f : Fields)  -- R151
  | popc (f : Fields)  -- R151
  | bfx (f : Fields)  -- R151
  | bfi (f : Fields)  -- R151
  | sext (f : Fields)  -- R151
  | br (f : Fields)  -- R153
  | call (f : Fields)  -- R153
  | jr (f : Fields)  -- R153
  | bz (f : Fields)  -- R153
  | bnz (f : Fields)  -- R153
  | bltz (f : Fields)  -- R153
  | bgez (f : Fields)  -- R153
  | ldg (f : Fields)  -- R61
  | stg (f : Fields)  -- R61
  | ldl (f : Fields)  -- R110
  | stl (f : Fields)  -- R110
  | ldlp (f : Fields)  -- R136
  | stlp (f : Fields)  -- R136
  | ldacq (f : Fields)  -- R62
  | strel (f : Fields)  -- R62
  | fence (f : Fields)  -- R63
  | fenceX (f : Fields)  -- R63
  | fenceA (f : Fields)  -- R63
  | fenceS (f : Fields)  -- R63
  | pref (f : Fields)  -- R64
  | scopeo (f : Fields)  -- R131
  | scopec (f : Fields)  -- R131
  | pset (f : Fields)  -- R135
  | pget (f : Fields)  -- R135
  | padd (f : Fields)  -- R134
  | vadd (f : Fields)  -- R162
  | vsub (f : Fields)  -- R162
  | vmul (f : Fields)  -- R162
  | vfma (f : Fields)  -- R162
  | vmin (f : Fields)  -- R162
  | vmax (f : Fields)  -- R162
  | vabs (f : Fields)  -- R162
  | vneg (f : Fields)  -- R162
  | vrcp (f : Fields)  -- R164
  | vrsq (f : Fields)  -- R164
  | vexp2 (f : Fields)  -- R164
  | vlog2 (f : Fields)  -- R164
  | vcvt (f : Fields)  -- R165
  | vcmp (f : Fields)  -- R163
  | vsel (f : Fields)  -- R163
  | vradd (f : Fields)  -- R166
  | vrmax (f : Fields)  -- R166
  | vbcst (f : Fields)  -- R167
  | vlane (f : Fields)  -- R167
  | vperm (f : Fields)  -- R167
  | vand (f : Fields)  -- R162
  | vor (f : Fields)  -- R162
  | vxor (f : Fields)  -- R162
  | vshl (f : Fields)  -- R162
  | vshr (f : Fields)  -- R162
  | vldl (f : Fields)  -- R169
  | vstl (f : Fields)  -- R169
  | vldg (f : Fields)  -- R169
  | vstg (f : Fields)  -- R169
  | vgath (f : Fields)  -- R170
  | vscat (f : Fields)  -- R170
  | vscale (f : Fields)  -- R162
  | vclamp (f : Fields)  -- R162
  | fadd (f : Fields)  -- R168
  | fsub (f : Fields)  -- R168
  | fmul (f : Fields)  -- R168
  | ffma (f : Fields)  -- R168
  | fmin (f : Fields)  -- R168
  | fmax (f : Fields)  -- R168
  | fcmp (f : Fields)  -- R168
  | fcvt (f : Fields)  -- R165
  | frcp (f : Fields)  -- R168
  | frsq (f : Fields)  -- R168
  | bpack (f : Fields)  -- R186
  | bunpk (f : Fields)  -- R186
  | plxp (f : Fields)  -- R187
  | pldot (f : Fields)  -- R188
  | mfmt (f : Fields)  -- R189
  | mzero (f : Fields)  -- R190
  | mma (f : Fields)  -- R191
  | mstore (f : Fields)  -- R192
  | mstat (f : Fields)  -- R193
  | mtest (f : Fields)  -- R193
  | mfree (f : Fields)  -- R190
  | vwnew (f : Fields)  -- R83
  | vwdup (f : Fields)  -- R84
  | vwsplit (f : Fields)  -- R85
  | vwnarrow (f : Fields)  -- R86
  | vwdrop (f : Fields)  -- R87
  | vwinfo (f : Fields)  -- R88
  | ldv (f : Fields)  -- R89
  | stv (f : Fields)  -- R89
  | sanew (f : Fields)  -- R207
  | saadd (f : Fields)  -- R208
  | saread (f : Fields)  -- R209
  | sainfo (f : Fields)  -- R210
  | saevict (f : Fields)  -- R211
  | safree (f : Fields)  -- R212
  | amoadd (f : Fields)  -- R65
  | amoand (f : Fields)  -- R65
  | amoor (f : Fields)  -- R65
  | amoxor (f : Fields)  -- R65
  | amomin (f : Fields)  -- R65
  | amomax (f : Fields)  -- R65
  | amoswap (f : Fields)  -- R65
  | amocas (f : Fields)  -- R65
  | amofadd (f : Fields)  -- R65
  | cflush (f : Fields)  -- R103
  | cinv (f : Fields)  -- R103
  | pghot (f : Fields)  -- R67
  | pgmig (f : Fields)  -- R68
  | xlate (f : Fields)  -- R69
  | setcoh (f : Fields)  -- R104
  | spawn (f : Fields)  -- R230
  | yield (f : Fields)  -- R231
  | exit (f : Fields)  -- R232
  | tid (f : Fields)  -- R233
  | join (f : Fields)  -- R234
  | leave (f : Fields)  -- R234
  | grpinfo (f : Fields)  -- R235
  | syinit (f : Fields)  -- R283
  | syacq (f : Fields)  -- R284
  | sytry (f : Fields)  -- R284
  | syrel (f : Fields)  -- R284
  | sydlg (f : Fields)  -- R285
  | syarv (f : Fields)  -- R286
  | sywait (f : Fields)  -- R286
  | symode (f : Fields)  -- R287
  | hbarv (f : Fields)  -- R291
  | hbwait (f : Fields)  -- R291
  | hbcfg (f : Fields)  -- R290
  | cpy (f : Fields)  -- R120
  | cpy2d (f : Fields)  -- R120
  | cpyq (f : Fields)  -- R120
  | sdesc (f : Fields)  -- R124
  | sdstop (f : Fields)  -- R124
  | swinit (f : Fields)  -- R122
  | swwait (f : Fields)  -- R122
  | qcfg (f : Fields)  -- R141
  | qstat (f : Fields)  -- R142
  | nopen (f : Fields)  -- R146
  | nsende (f : Fields)  -- R147
  | nstat (f : Fields)  -- R148
  | waitm (f : Fields)  -- R128
  | msgrd (f : Fields)  -- R128
  | msgsend (f : Fields)  -- R128
  | msgcnt (f : Fields)  -- R128
  | bkmode (f : Fields)  -- R111
  | bkinfo (f : Fields)  -- R112
  | trap (f : Fields)  -- R247
  | rett (f : Fields)  -- R247
  | rdsr (f : Fields)  -- R247
  | wrsr (f : Fields)  -- R247
  | segld (f : Fields)  -- R66
  | segrd (f : Fields)  -- R66
  | ctxsv (f : Fields)  -- R245
  | ctxld (f : Fields)  -- R246
  | brk (f : Fields)  -- R311
  | tntrd (f : Fields)  -- R305
  | tntclr (f : Fields)  -- R305
  | perfrd (f : Fields)  -- R313
  | svcall (f : Fields)  -- R247
  | pghash (f : Fields)  -- R307
  | longLatencyComplete  -- R23: core, slot, operation id
  | instructionWake  -- R38: core, slot
  | trapDelivery  -- R238: core, slot
  | deferredTrap  -- R25: core, slot, operation id
  | storeBufferDrain  -- R254: core
  | storeRegistration  -- R92: store in flight
  | registrationAck  -- R91: store in flight
  | recallWord  -- R92: word index (address div 8)
  | recallAnswer  -- R92: word index
  | registrantWriteBack  -- R92: word index
  | forwardedLoad  -- R92: core, slot, operation id
  | l2Request  -- R338: core, slot, operation id
  | hbmFill  -- R338: line
  | gets  -- R94: cluster, line
  | getm  -- R94: cluster, line
  | evictionNotice  -- R94: cluster, line
  | inv  -- R95: cluster, line
  | invAck  -- R94: cluster, line
  | evack  -- R95: cluster, line
  | ownerRecall  -- R94: owner cluster, line
  | ownerRecallAnswer  -- R94: owner cluster, line
  | ownershipGrant  -- R96: cluster, line
  | leaseHeartbeat  -- R100: cluster
  | leaseExpiry  -- R100: line
  | leasecheck  -- R100: line
  | leasecheckTimeout  -- R100: line
  | hostHalfRequest  -- R97: half, whether ownership is asked (1) or not (0)
  | hostHalfResponse  -- R97: half, as asked
  | bridgeEntryFreed  -- R97: the half that waits
  | hostSnoop  -- R98: half, whether the snoop invalidates (1)
  | wcDrainTimeout  -- R256: core, half
  | wcDrain  -- R256: core, half
  | walkStart  -- R54: walk id
  | pageWalkDone  -- R54: walk id
  | pfrespWrite  -- R55: tenant, the value written
  | xinvWrite  -- R56: tenant, virtual page address
  | atsInvalidation  -- R56: tenant, intermediate address
  | migrationCopy  -- R60: migration id
  | migrationDrainDone  -- R60: migration id
  | poisonDetected  -- R47: line, detecting unit
  | softErrorCorrected  -- R48
  | apexWindowShrink  -- R45: tenant, IA of the 64 KiB frame
  | viewOpRequest  -- R75: view request id
  | viewCacheFetch  -- R78: cluster, handle
  | viewInvalidate  -- R78: cluster, region, view slot
  | granuleFreeStart  -- R76: die, granule frame
  | granuleDrainDone  -- R76: die, granule frame
  | tuCommandAccept  -- R117: core, command id
  | tuLineTransfer  -- R115: core, command id, destination piece
  | syncWordCount  -- R121: core, scratch offset, bytes
  | cpyqPush  -- R119: core, command id
  | copydone  -- R119: core, command id
  | prefetchIssue  -- R123: cluster, descriptor
  | messageDepart  -- R128: core
  | messageArrival  -- R127: message id
  | mxWriteWait  -- R114: core, slot, mx register
  | creditRequest  -- R139: consumer core, inbound queue, producer core, producer queue (4 a transfer unit)
  | creditGrant  -- R139: producer core, producer queue, credits, the consumer's queue
  | queueWordArrival  -- R140: word id
  | streamWordArrival  -- R144: word id
  | streamForceClose  -- R145: core, outbound port
  | scopeSpaceGrant  -- R131: core, slot
  | latticeCommandStart  -- R177: cluster
  | tileFetchLine  -- R178: cluster, command id
  | planePairExecute  -- R179: cluster, command id
  | mxdone  -- R182: cluster, command id
  | tileEccError  -- R181: core, tile
  | latticeSelfTest  -- R184: cluster, sub-arrays that fail (bit mask)
  | streamAddApply  -- R198: add in flight
  | saovf  -- R199: core, slot, element address, row number
  | radiusSnapshot  -- R202: core, slot, operation id
  | rowEviction  -- R206: tenant, region index, row
  | rowReload  -- R206: tenant, region index, row
  | sadone  -- R211: tenant, eviction number
  | admission  -- R224: core
  | spawnRequestArrival  -- R230: target core, request id
  | spawnAdmitTimeout  -- R230: target core, request id
  | spawnAnswer  -- R230: caller core, slot, request id, 1 when placed
  | launchEntryTaken  -- R221: tenant, launch queue
  | poolPlanReady  -- R221: tenant, launch id, core
  | launchCreate  -- R222: tenant, launch id
  | launchDone  -- R223: tenant, launch id
  | fpWindowEnd  -- R240: core
  | stopRequest  -- R243: core, slot
  | stopTakesEffect  -- R243: core, slot
  | contextSaveComplete  -- R245: core, slot of the saved thread
  | coreFatalError  -- R248: core
  | apexCoreRepair  -- R248: core
  | apexCoreFence  -- R248: core
  | ltholdSet  -- R261: core
  | ltholdClear  -- R261: core
  | lockAttempt  -- R274: request id
  | flagRetry  -- R268: request id
  | lockRelease  -- R274: request id
  | lockWithdrawal  -- R274: request id
  | grant  -- R276: core, slot, request id
  | grantAck  -- R274: request id
  | grantReturned  -- R274: request id
  | timeout  -- R276: core, slot, request id
  | locusWindowEnd  -- R272: object line
  | delegateAdmitted  -- R274: object line, core, slot of a delegate that is admitted, or idle again
  | delegateBodyExit  -- R285: object line, exit value
  | phaseArrival  -- R275: request id
  | phaseWaitRequest  -- R275: request id
  | phaseLeave  -- R275: request id
  | combinerForward  -- R271: cluster of the combiner, object line
  | syncTimeoutExpiry  -- R277: core, slot
  | axisEpisodeComplete  -- R288: context
  | axisEpisodeTimeout  -- R293: context
  | hashJobComplete  -- R307: job id
  | hashPeriodicTimer  -- R307: job id
  | breakpointHit  -- R309: core, slot, breakpoint
  | watchpointHit  -- R309: core, slot, watchpoint
  | dres  -- R310: core, the value written
  | lqwp  -- R316: tenant, queue, value
  | lqwaWordUpdate  -- R316: tenant, queue
  | lqctl  -- R317: tenant, queue (4 the send ring, 5 notification, 6 fault, 7 FCCTL), value
  | ringRpWrite  -- R318: tenant, ring (0 notification, 1 fault), value
  | fcopenOpen  -- R328: tenant, connection index
  | fcopenClose  -- R328: tenant, connection index
  | fswp  -- R330: tenant, value
  | doorbellRegWrite  -- R315: tenant, offset in the page, value
  | hostMemAccess  -- R319: device address, 1 for a write, value
  | bisnp  -- R319: half
  | birsp  -- R319: half
  | mxreq  -- R321: edge, tag
  | mxrsp  -- R321: edge, tag
  | rd  -- R321: die, offset, tag
  | wr  -- R321: die, offset, tag, sixteen words, poison
  | wrm  -- R321: die, offset, tag, byte mask, sixteen words
  | zeroLine  -- R322: die, offset, tag
  | scrub  -- R322: die, offset, tag
  | rdrsp  -- R321: tag
  | wrack  -- R321: tag
  | iord  -- R321: edge, address, tag
  | iowr  -- R321: edge, address, tag, value
  | iorsp  -- R321: tag
  | iomsg  -- R321: edge, tag, contents
  | param  -- R324: edge, die kind, version, credits offered per class (five 10-bit counts)
  | topord  -- R326: die, tag
  | toprsp  -- R326: die, the 512 bytes
  | splErr  -- R321: edge, report
  | dieReset  -- R321: die
  | splCreditReturn  -- R323: edge, class, credits
  | ucieLinkUp  -- R324: edge
  | splParamTimeout  -- R324: edge
  | ucieReplayFail  -- R325: edge
  | dataFrame  -- R332: tenant, connection, flags, psn, offset, tag, payload words, bytes
  | ackFrame  -- R331: tenant, connection, next expected psn
  | nackFrame  -- R331: tenant, connection, reason, next expected psn
  | connect  -- R328: tenant, connection, remote module, remote tenant, remote connection
  | accept  -- R328: tenant, connection
  | refuse  -- R328: tenant, connection
  | closeFrame  -- R328: tenant, connection
  | connectRetryTimer  -- R328: tenant, connection
  | ackTimer  -- R331: tenant, connection
  | resendTimer  -- R331: tenant, connection
  | portLinkDown  -- R331: port
  | sendEntryTaken  -- R330: tenant
  | fsent  -- R330: tenant, connection
  | fabidAssign  -- R328: module number
  | getVersion  -- R333
  | getCapabilities  -- R333
  | negotiateAlgorithms  -- R333
  | getDigests  -- R333
  | getCertificate  -- R333
  | challenge  -- R333
  | getMeasurements  -- R333: measurement index
  | keyExchange  -- R333
  | spdmFinish  -- R333
  | endSession  -- R333
  | lockInterfaceRequest  -- R334: tenant
  | startInterfaceRequest  -- R334: tenant
  | tdiUnlock  -- R334: tenant
  | tdiError  -- R334: tenant
  | powerGood  -- R336
  | railTimeout  -- R336: rail
  | firmwareCheck  -- R335: image index, key digests under which the two signatures verify, 1 when the digest matches the body, security version
  | topologyWalk  -- R336
  | hbmTraining  -- R336: failing die (8 when none fails), bytes per stack
  | cxlLinkUp  -- R336
  | cxlConfigRequest  -- R336
  | moduleReset  -- R99
  | clusterPowerGate  -- R337: cluster
  | powerOverload  -- R337
  | ucieTrainingFail  -- R336: edge
  | cxlLinkTrainingFail  -- R336
  | portLinkUp  -- R331: port
  | msixVectorUnmask  -- R318: vector
  | tenantCreated  -- R242: tenant, its quadrants
  | creditReturn  -- R141: consumer core, inbound queue, credits
  | locusAnswer  -- R268: request id
  | apexLatticeRepair  -- R184: cluster, sub-array
deriving DecidableEq, Repr

end Sys2Proof
end

