-- ==== Sys2Proof/WellFormed.lean ====
section
/-!
DEFINITION. Sys2Proof/WellFormed.lean: the opcode map (R28 to R35) as one row per instruction, and which fields an
instruction may have (R15 to R22 and the limits its own chapter gives).
-/
namespace Sys2Proof

/-- The base parcel's format (R15). -/
inductive Fmt where
  | N | A | K | L | J
deriving DecidableEq, Repr

/-- Whether the instruction takes an XOPD (R21). -/
inductive XMark where
  | no | opt | req
deriving DecidableEq, Repr

/-- The legal sets of the modifier bits (R22, R159, R161 and the instruction's own row). -/
inductive Mods where
  | none | iW | iU | iUW | gLoad | gStore | gFloat | lLoad | lStore | seg | st | saread | saevict
  | fArith | fSum | fFloat | fConv | tAny | tInt | pack | inv | eMma | eMstore | eCopy
deriving DecidableEq, Repr

/-- What a field holds (R18, R19): nothing; a scalar value read, written or both; a register that no special operand may
stand for (an address, a handle, the first of a block or pair); a vector group; a pointer, segment or tile number; a
selector up to a bound, or one fixed value. -/
inductive Role where
  | none | rd | wr | rw | base | wrp | rwp | vrd | vwr | vrw | ptr | seg | tile | sel (m : Nat) | is (m : Nat)
deriving DecidableEq, Repr

/-- The immediate (R17): none; signed; unsigned; or the base field alone, with no XIMM accepted. -/
inductive ImmK where
  | none | signed | unsigned | short
deriving DecidableEq, Repr

/-- A row of the opcode map. -/
structure Form where
  fmt : Fmt
  x   : XMark
  md  : Mods
  rd  : Role
  ra  : Role
  rb  : Role
  imm : ImmK
deriving DecidableEq, Repr

/-- The row of each instruction; an event of the machine has none. -/
def Instr.form (i : Instr) : Option Form :=
  match i with
  | .nop _ => some ⟨.N, .no, .none, .none, .none, .none, .none⟩
  | .mov _ => some ⟨.A, .no, .none, .wr, .rd, .none, .none⟩
  | .movk _ => some ⟨.K, .no, .none, .wr, .none, .none, .signed⟩
  | .movkh _ => some ⟨.K, .no, .none, .rw, .none, .none, .signed⟩
  | .add _ => some ⟨.A, .opt, .iW, .rw, .rd, .rd, .none⟩
  | .sub _ => some ⟨.A, .opt, .iW, .rw, .rd, .rd, .none⟩
  | .addk _ => some ⟨.K, .no, .iW, .rw, .none, .none, .signed⟩
  | .neg _ => some ⟨.A, .no, .iW, .wr, .rd, .none, .none⟩
  | .mul _ => some ⟨.A, .opt, .iW, .rw, .rd, .rd, .none⟩
  | .mulh _ => some ⟨.A, .opt, .iU, .rw, .rd, .rd, .none⟩
  | .div _ => some ⟨.A, .opt, .iUW, .rw, .rd, .rd, .none⟩
  | .rem _ => some ⟨.A, .opt, .iUW, .rw, .rd, .rd, .none⟩
  | .andOp _ => some ⟨.A, .opt, .none, .rw, .rd, .rd, .none⟩
  | .orOp _ => some ⟨.A, .opt, .none, .rw, .rd, .rd, .none⟩
  | .xor _ => some ⟨.A, .opt, .none, .rw, .rd, .rd, .none⟩
  | .andn _ => some ⟨.A, .opt, .none, .rw, .rd, .rd, .none⟩
  | .notOp _ => some ⟨.A, .no, .none, .wr, .rd, .none, .none⟩
  | .shl _ => some ⟨.A, .opt, .iW, .rw, .rd, .rd, .none⟩
  | .shr _ => some ⟨.A, .opt, .iW, .rw, .rd, .rd, .none⟩
  | .sar _ => some ⟨.A, .opt, .iW, .rw, .rd, .rd, .none⟩
  | .shlk _ => some ⟨.K, .no, .iW, .rw, .none, .none, .unsigned⟩
  | .shrk _ => some ⟨.K, .no, .iW, .rw, .none, .none, .unsigned⟩
  | .sark _ => some ⟨.K, .no, .iW, .rw, .none, .none, .unsigned⟩
  | .minOp _ => some ⟨.A, .opt, .iUW, .rw, .rd, .rd, .none⟩
  | .maxOp _ => some ⟨.A, .opt, .iUW, .rw, .rd, .rd, .none⟩
  | .cmpeq _ => some ⟨.A, .opt, .iW, .rw, .rd, .rd, .none⟩
  | .cmpne _ => some ⟨.A, .opt, .iW, .rw, .rd, .rd, .none⟩
  | .cmplt _ => some ⟨.A, .opt, .iUW, .rw, .rd, .rd, .none⟩
  | .cmple _ => some ⟨.A, .opt, .iUW, .rw, .rd, .rd, .none⟩
  | .sel _ => some ⟨.A, .req, .none, .rw, .rd, .rd, .none⟩
  | .clz _ => some ⟨.A, .no, .iW, .wr, .rd, .none, .none⟩
  | .popc _ => some ⟨.A, .no, .iW, .wr, .rd, .none, .none⟩
  | .bfx _ => some ⟨.A, .no, .none, .wr, .rd, .none, .signed⟩
  | .bfi _ => some ⟨.A, .no, .none, .rw, .rd, .none, .signed⟩
  | .sext _ => some ⟨.K, .no, .none, .rw, .none, .none, .unsigned⟩
  | .br _ => some ⟨.J, .no, .none, .none, .none, .none, .signed⟩
  | .call _ => some ⟨.J, .no, .none, .none, .none, .none, .signed⟩
  | .jr _ => some ⟨.A, .no, .none, .wr, .rd, .none, .none⟩
  | .bz _ => some ⟨.K, .no, .none, .rd, .none, .none, .signed⟩
  | .bnz _ => some ⟨.K, .no, .none, .rd, .none, .none, .signed⟩
  | .bltz _ => some ⟨.K, .no, .none, .rd, .none, .none, .signed⟩
  | .bgez _ => some ⟨.K, .no, .none, .rd, .none, .none, .signed⟩
  | .ldg _ => some ⟨.L, .no, .gLoad, .wr, .base, .none, .signed⟩
  | .stg _ => some ⟨.L, .no, .gStore, .rd, .base, .none, .signed⟩
  | .ldl _ => some ⟨.L, .no, .lLoad, .wr, .ptr, .none, .none⟩
  | .stl _ => some ⟨.L, .no, .lStore, .rd, .ptr, .none, .none⟩
  | .ldlp _ => some ⟨.L, .no, .lLoad, .wr, .ptr, .none, .none⟩
  | .stlp _ => some ⟨.L, .no, .lStore, .rd, .ptr, .none, .none⟩
  | .ldacq _ => some ⟨.L, .no, .gStore, .wr, .base, .none, .signed⟩
  | .strel _ => some ⟨.L, .no, .gStore, .rd, .base, .none, .signed⟩
  | .fence _ => some ⟨.A, .no, .none, (.is 0), .none, .none, .none⟩
  | .fenceX _ => some ⟨.A, .no, .none, (.is 1), .none, .none, .none⟩
  | .fenceA _ => some ⟨.A, .no, .none, (.is 2), .rd, .none, .none⟩
  | .fenceS _ => some ⟨.A, .no, .none, (.is 3), .none, .none, .none⟩
  | .pref _ => some ⟨.L, .no, .seg, (.sel 1), .base, .none, .signed⟩
  | .scopeo _ => some ⟨.K, .no, .none, .none, .none, .none, .short⟩
  | .scopec _ => some ⟨.N, .no, .none, .none, .none, .none, .none⟩
  | .pset _ => some ⟨.A, .no, .none, .ptr, .rd, .none, .none⟩
  | .pget _ => some ⟨.A, .no, .none, .wr, .ptr, .none, .none⟩
  | .padd _ => some ⟨.K, .no, .none, .ptr, .none, .none, .signed⟩
  | .vadd _ => some ⟨.A, .opt, .fArith, .vrw, .vrd, .vrd, .none⟩
  | .vsub _ => some ⟨.A, .opt, .fArith, .vrw, .vrd, .vrd, .none⟩
  | .vmul _ => some ⟨.A, .opt, .fArith, .vrw, .vrd, .vrd, .none⟩
  | .vfma _ => some ⟨.A, .req, .fArith, .vrw, .vrd, .vrd, .none⟩
  | .vmin _ => some ⟨.A, .opt, .tAny, .vrw, .vrd, .vrd, .none⟩
  | .vmax _ => some ⟨.A, .opt, .tAny, .vrw, .vrd, .vrd, .none⟩
  | .vabs _ => some ⟨.A, .no, .tAny, .vwr, .vrd, .none, .none⟩
  | .vneg _ => some ⟨.A, .no, .tAny, .vwr, .vrd, .none, .none⟩
  | .vrcp _ => some ⟨.A, .no, .fFloat, .vwr, .vrd, .none, .none⟩
  | .vrsq _ => some ⟨.A, .no, .fFloat, .vwr, .vrd, .none, .none⟩
  | .vexp2 _ => some ⟨.A, .no, .fFloat, .vwr, .vrd, .none, .none⟩
  | .vlog2 _ => some ⟨.A, .no, .fFloat, .vwr, .vrd, .none, .none⟩
  | .vcvt _ => some ⟨.A, .req, .fConv, .vwr, .vrd, .none, .none⟩
  | .vcmp _ => some ⟨.A, .req, .tAny, .vwr, .vrd, .vrd, .none⟩
  | .vsel _ => some ⟨.A, .req, .tAny, .vrw, .vrd, .vrd, .none⟩
  | .vradd _ => some ⟨.A, .no, .fSum, .wr, .vrd, .none, .none⟩
  | .vrmax _ => some ⟨.A, .no, .tAny, .wr, .vrd, .none, .none⟩
  | .vbcst _ => some ⟨.A, .no, .tAny, .vwr, .rd, .none, .none⟩
  | .vlane _ => some ⟨.A, .no, .tAny, .wr, .vrd, .none, .unsigned⟩
  | .vperm _ => some ⟨.A, .req, .tAny, .vwr, .vrd, .vrd, .none⟩
  | .vand _ => some ⟨.A, .opt, .none, .vrw, .vrd, .vrd, .none⟩
  | .vor _ => some ⟨.A, .opt, .none, .vrw, .vrd, .vrd, .none⟩
  | .vxor _ => some ⟨.A, .opt, .none, .vrw, .vrd, .vrd, .none⟩
  | .vshl _ => some ⟨.A, .opt, .tInt, .vrw, .vrd, .vrd, .none⟩
  | .vshr _ => some ⟨.A, .opt, .tInt, .vrw, .vrd, .vrd, .none⟩
  | .vldl _ => some ⟨.L, .no, .none, .vwr, .ptr, .none, .none⟩
  | .vstl _ => some ⟨.L, .no, .none, .vrd, .ptr, .none, .none⟩
  | .vldg _ => some ⟨.L, .no, .seg, .vwr, .base, .none, .signed⟩
  | .vstg _ => some ⟨.L, .no, .seg, .vrd, .base, .none, .signed⟩
  | .vgath _ => some ⟨.L, .req, .gStore, .vwr, .base, .vrd, .none⟩
  | .vscat _ => some ⟨.L, .req, .gStore, .vrd, .base, .vrd, .none⟩
  | .vscale _ => some ⟨.A, .opt, .fFloat, .vrw, .vrd, .vrd, .none⟩
  | .vclamp _ => some ⟨.A, .req, .tAny, .vrw, .vrd, .vrd, .none⟩
  | .fadd _ => some ⟨.A, .opt, .fArith, .rw, .rd, .rd, .none⟩
  | .fsub _ => some ⟨.A, .opt, .fArith, .rw, .rd, .rd, .none⟩
  | .fmul _ => some ⟨.A, .opt, .fArith, .rw, .rd, .rd, .none⟩
  | .ffma _ => some ⟨.A, .req, .fArith, .rw, .rd, .rd, .none⟩
  | .fmin _ => some ⟨.A, .opt, .tAny, .rw, .rd, .rd, .none⟩
  | .fmax _ => some ⟨.A, .opt, .tAny, .rw, .rd, .rd, .none⟩
  | .fcmp _ => some ⟨.A, .req, .tAny, .wr, .rd, .rd, .none⟩
  | .fcvt _ => some ⟨.A, .req, .fConv, .wr, .rd, .none, .none⟩
  | .frcp _ => some ⟨.A, .no, .fFloat, .wr, .rd, .none, .none⟩
  | .frsq _ => some ⟨.A, .no, .fFloat, .wr, .rd, .none, .none⟩
  | .bpack _ => some ⟨.L, .no, .pack, .ptr, .ptr, .none, .none⟩
  | .bunpk _ => some ⟨.L, .no, .pack, .ptr, .ptr, .none, .none⟩
  | .plxp _ => some ⟨.A, .no, .inv, .vwr, .vrd, .none, .none⟩
  | .pldot _ => some ⟨.A, .req, .none, .rw, .rd, .rd, .none⟩
  | .mfmt _ => some ⟨.A, .no, .none, .rw, .none, .none, .none⟩
  | .mzero _ => some ⟨.A, .no, .none, .tile, .none, .none, .none⟩
  | .mma _ => some ⟨.L, .req, .eMma, (.sel 3), .base, .rd, .none⟩
  | .mstore _ => some ⟨.L, .no, .eMstore, (.sel 3), .base, .none, .signed⟩
  | .mstat _ => some ⟨.A, .no, .none, .wr, .none, .none, .none⟩
  | .mtest _ => some ⟨.N, .no, .none, .none, .none, .none, .none⟩
  | .mfree _ => some ⟨.A, .no, .none, .tile, .none, .none, .none⟩
  | .vwnew _ => some ⟨.A, .no, .none, .wr, .rd, .none, .none⟩
  | .vwdup _ => some ⟨.A, .no, .none, .wr, .base, .none, .none⟩
  | .vwsplit _ => some ⟨.A, .req, .none, .wrp, .base, .rd, .none⟩
  | .vwnarrow _ => some ⟨.A, .req, .none, .base, .rd, .rd, .none⟩
  | .vwdrop _ => some ⟨.A, .no, .none, .base, .none, .none, .none⟩
  | .vwinfo _ => some ⟨.A, .no, .none, .wrp, .base, .none, .none⟩
  | .ldv _ => some ⟨.L, .req, .lLoad, .wr, .base, .base, .none⟩
  | .stv _ => some ⟨.L, .req, .lStore, .rd, .base, .base, .none⟩
  | .sanew _ => some ⟨.A, .no, .seg, .rw, .base, .none, .signed⟩
  | .saadd _ => some ⟨.A, .no, .st, .vrd, .base, .none, .signed⟩
  | .saread _ => some ⟨.L, .no, .saread, .vwr, .base, .none, .signed⟩
  | .sainfo _ => some ⟨.A, .no, .seg, .rw, .base, .none, .signed⟩
  | .saevict _ => some ⟨.A, .no, .saevict, .rw, .base, .none, .signed⟩
  | .safree _ => some ⟨.A, .no, .seg, .none, .base, .none, .signed⟩
  | .amoadd _ => some ⟨.L, .req, .gStore, .wr, .base, .rd, .signed⟩
  | .amoand _ => some ⟨.L, .req, .gStore, .wr, .base, .rd, .signed⟩
  | .amoor _ => some ⟨.L, .req, .gStore, .wr, .base, .rd, .signed⟩
  | .amoxor _ => some ⟨.L, .req, .gStore, .wr, .base, .rd, .signed⟩
  | .amomin _ => some ⟨.L, .req, .gStore, .wr, .base, .rd, .signed⟩
  | .amomax _ => some ⟨.L, .req, .gStore, .wr, .base, .rd, .signed⟩
  | .amoswap _ => some ⟨.L, .req, .gStore, .wr, .base, .rd, .signed⟩
  | .amocas _ => some ⟨.L, .req, .gStore, .rw, .base, .rd, .signed⟩
  | .amofadd _ => some ⟨.L, .req, .gFloat, .wr, .base, .rd, .signed⟩
  | .cflush _ => some ⟨.A, .no, .seg, .rw, .base, .none, .signed⟩
  | .cinv _ => some ⟨.A, .no, .seg, .rw, .base, .none, .signed⟩
  | .pghot _ => some ⟨.A, .no, .seg, .rw, .base, .none, .signed⟩
  | .pgmig _ => some ⟨.A, .no, .seg, .rw, .base, .none, .signed⟩
  | .xlate _ => some ⟨.A, .no, .seg, .wr, .base, .none, .signed⟩
  | .setcoh _ => some ⟨.A, .no, .seg, .rw, .base, .none, .signed⟩
  | .spawn _ => some ⟨.A, .req, .none, .wr, .rd, .rd, .none⟩
  | .yield _ => some ⟨.N, .no, .none, .none, .none, .none, .none⟩
  | .exit _ => some ⟨.A, .no, .none, .rd, .none, .none, .none⟩
  | .tid _ => some ⟨.A, .no, .none, .wr, .none, .none, .none⟩
  | .join _ => some ⟨.A, .no, .none, .wr, .rd, .none, .none⟩
  | .leave _ => some ⟨.A, .no, .none, .wr, .rd, .none, .none⟩
  | .grpinfo _ => some ⟨.A, .no, .none, .wr, .rd, .none, .none⟩
  | .syinit _ => some ⟨.A, .no, .seg, .rwp, .base, .none, .signed⟩
  | .syacq _ => some ⟨.A, .no, .seg, .rw, .base, .none, .signed⟩
  | .sytry _ => some ⟨.A, .no, .seg, .wr, .base, .none, .signed⟩
  | .syrel _ => some ⟨.A, .no, .seg, .none, .base, .none, .signed⟩
  | .sydlg _ => some ⟨.A, .no, .seg, .rd, .base, .none, .signed⟩
  | .syarv _ => some ⟨.A, .no, .seg, .none, .base, .none, .signed⟩
  | .sywait _ => some ⟨.A, .no, .seg, .rw, .base, .none, .signed⟩
  | .symode _ => some ⟨.A, .no, .seg, .wr, .base, .none, .signed⟩
  | .hbarv _ => some ⟨.K, .no, .none, .none, .none, .none, .short⟩
  | .hbwait _ => some ⟨.K, .no, .none, .wr, .none, .none, .short⟩
  | .hbcfg _ => some ⟨.K, .no, .none, .rw, .none, .none, .short⟩
  | .cpy _ => some ⟨.A, .no, .eCopy, .rd, .base, .none, .none⟩
  | .cpy2d _ => some ⟨.A, .no, .eCopy, .rd, .base, .none, .none⟩
  | .cpyq _ => some ⟨.A, .no, .eCopy, .rd, .base, .none, .none⟩
  | .sdesc _ => some ⟨.A, .no, .none, .wr, .base, .none, .none⟩
  | .sdstop _ => some ⟨.A, .no, .none, .none, .rd, .none, .none⟩
  | .swinit _ => some ⟨.A, .no, .none, .ptr, .rd, .none, .none⟩
  | .swwait _ => some ⟨.A, .no, .none, .rw, .ptr, .none, .none⟩
  | .qcfg _ => some ⟨.A, .no, .none, .rw, .rd, .none, .none⟩
  | .qstat _ => some ⟨.A, .no, .none, .wr, .rd, .none, .none⟩
  | .nopen _ => some ⟨.K, .no, .none, .rw, .none, .none, .short⟩
  | .nsende _ => some ⟨.K, .no, .none, .rd, .none, .none, .short⟩
  | .nstat _ => some ⟨.K, .no, .none, .wr, .none, .none, .short⟩
  | .waitm _ => some ⟨.N, .no, .none, .none, .none, .none, .none⟩
  | .msgrd _ => some ⟨.A, .no, .none, .wr, .wr, .none, .none⟩
  | .msgsend _ => some ⟨.A, .req, .none, .rd, .rd, .rd, .none⟩
  | .msgcnt _ => some ⟨.A, .no, .none, .wr, .none, .none, .none⟩
  | .bkmode _ => some ⟨.A, .no, .none, .wr, .rd, .none, .none⟩
  | .bkinfo _ => some ⟨.A, .no, .none, .wr, .rd, .none, .none⟩
  | .trap _ => some ⟨.K, .no, .none, .none, .none, .none, .unsigned⟩
  | .rett _ => some ⟨.N, .no, .none, .none, .none, .none, .none⟩
  | .rdsr _ => some ⟨.K, .no, .none, .wr, .none, .none, .unsigned⟩
  | .wrsr _ => some ⟨.K, .no, .none, .rd, .none, .none, .unsigned⟩
  | .segld _ => some ⟨.A, .no, .seg, .seg, .base, .none, .signed⟩
  | .segrd _ => some ⟨.A, .req, .none, .wr, .seg, .none, .none⟩
  | .ctxsv _ => some ⟨.A, .no, .none, .rw, .none, .none, .none⟩
  | .ctxld _ => some ⟨.A, .no, .none, .rw, .none, .none, .none⟩
  | .brk _ => some ⟨.K, .no, .none, .none, .none, .none, .unsigned⟩
  | .tntrd _ => some ⟨.A, .no, .none, .wr, .rd, .none, .none⟩
  | .tntclr _ => some ⟨.A, .no, .none, .rw, .none, .none, .none⟩
  | .perfrd _ => some ⟨.K, .no, .none, .wr, .none, .none, .unsigned⟩
  | .svcall _ => some ⟨.K, .no, .none, .none, .none, .none, .unsigned⟩
  | .pghash _ => some ⟨.A, .no, .seg, .rwp, .base, .none, .signed⟩
  | .longLatencyComplete => none
  | .instructionWake => none
  | .trapDelivery => none
  | .deferredTrap => none
  | .storeBufferDrain => none
  | .storeRegistration => none
  | .registrationAck => none
  | .recallWord => none
  | .recallAnswer => none
  | .registrantWriteBack => none
  | .forwardedLoad => none
  | .l2Request => none
  | .hbmFill => none
  | .gets => none
  | .getm => none
  | .evictionNotice => none
  | .inv => none
  | .invAck => none
  | .evack => none
  | .ownerRecall => none
  | .ownerRecallAnswer => none
  | .ownershipGrant => none
  | .leaseHeartbeat => none
  | .leaseExpiry => none
  | .leasecheck => none
  | .leasecheckTimeout => none
  | .hostHalfRequest => none
  | .hostHalfResponse => none
  | .bridgeEntryFreed => none
  | .hostSnoop => none
  | .wcDrainTimeout => none
  | .wcDrain => none
  | .walkStart => none
  | .pageWalkDone => none
  | .pfrespWrite => none
  | .xinvWrite => none
  | .atsInvalidation => none
  | .migrationCopy => none
  | .migrationDrainDone => none
  | .poisonDetected => none
  | .softErrorCorrected => none
  | .apexWindowShrink => none
  | .viewOpRequest => none
  | .viewCacheFetch => none
  | .viewInvalidate => none
  | .granuleFreeStart => none
  | .granuleDrainDone => none
  | .tuCommandAccept => none
  | .tuLineTransfer => none
  | .syncWordCount => none
  | .cpyqPush => none
  | .copydone => none
  | .prefetchIssue => none
  | .messageDepart => none
  | .messageArrival => none
  | .mxWriteWait => none
  | .creditRequest => none
  | .creditGrant => none
  | .queueWordArrival => none
  | .streamWordArrival => none
  | .streamForceClose => none
  | .scopeSpaceGrant => none
  | .latticeCommandStart => none
  | .tileFetchLine => none
  | .planePairExecute => none
  | .mxdone => none
  | .tileEccError => none
  | .latticeSelfTest => none
  | .streamAddApply => none
  | .saovf => none
  | .radiusSnapshot => none
  | .rowEviction => none
  | .rowReload => none
  | .sadone => none
  | .admission => none
  | .spawnRequestArrival => none
  | .spawnAdmitTimeout => none
  | .spawnAnswer => none
  | .launchEntryTaken => none
  | .poolPlanReady => none
  | .launchCreate => none
  | .launchDone => none
  | .fpWindowEnd => none
  | .stopRequest => none
  | .stopTakesEffect => none
  | .contextSaveComplete => none
  | .coreFatalError => none
  | .apexCoreRepair => none
  | .apexCoreFence => none
  | .ltholdSet => none
  | .ltholdClear => none
  | .lockAttempt => none
  | .flagRetry => none
  | .lockRelease => none
  | .lockWithdrawal => none
  | .grant => none
  | .grantAck => none
  | .grantReturned => none
  | .timeout => none
  | .locusWindowEnd => none
  | .delegateAdmitted => none
  | .delegateBodyExit => none
  | .phaseArrival => none
  | .phaseWaitRequest => none
  | .phaseLeave => none
  | .combinerForward => none
  | .syncTimeoutExpiry => none
  | .axisEpisodeComplete => none
  | .axisEpisodeTimeout => none
  | .hashJobComplete => none
  | .hashPeriodicTimer => none
  | .breakpointHit => none
  | .watchpointHit => none
  | .dres => none
  | .lqwp => none
  | .lqwaWordUpdate => none
  | .lqctl => none
  | .ringRpWrite => none
  | .fcopenOpen => none
  | .fcopenClose => none
  | .fswp => none
  | .doorbellRegWrite => none
  | .hostMemAccess => none
  | .bisnp => none
  | .birsp => none
  | .mxreq => none
  | .mxrsp => none
  | .rd => none
  | .wr => none
  | .wrm => none
  | .zeroLine => none
  | .scrub => none
  | .rdrsp => none
  | .wrack => none
  | .iord => none
  | .iowr => none
  | .iorsp => none
  | .iomsg => none
  | .param => none
  | .topord => none
  | .toprsp => none
  | .splErr => none
  | .dieReset => none
  | .splCreditReturn => none
  | .ucieLinkUp => none
  | .splParamTimeout => none
  | .ucieReplayFail => none
  | .dataFrame => none
  | .ackFrame => none
  | .nackFrame => none
  | .connect => none
  | .accept => none
  | .refuse => none
  | .closeFrame => none
  | .connectRetryTimer => none
  | .ackTimer => none
  | .resendTimer => none
  | .portLinkDown => none
  | .sendEntryTaken => none
  | .fsent => none
  | .fabidAssign => none
  | .getVersion => none
  | .getCapabilities => none
  | .negotiateAlgorithms => none
  | .getDigests => none
  | .getCertificate => none
  | .challenge => none
  | .getMeasurements => none
  | .keyExchange => none
  | .spdmFinish => none
  | .endSession => none
  | .lockInterfaceRequest => none
  | .startInterfaceRequest => none
  | .tdiUnlock => none
  | .tdiError => none
  | .powerGood => none
  | .railTimeout => none
  | .firmwareCheck => none
  | .topologyWalk => none
  | .hbmTraining => none
  | .cxlLinkUp => none
  | .cxlConfigRequest => none
  | .moduleReset => none
  | .clusterPowerGate => none
  | .powerOverload => none
  | .ucieTrainingFail => none
  | .cxlLinkTrainingFail => none
  | .portLinkUp => none
  | .msixVectorUnmask => none
  | .tenantCreated => none
  | .creditReturn => none
  | .locusAnswer => none
  | .apexLatticeRepair => none

/-- The fields of an instruction. -/
def Instr.fields (i : Instr) : Option Fields :=
  match i with
  | .nop f => some f
  | .mov f => some f
  | .movk f => some f
  | .movkh f => some f
  | .add f => some f
  | .sub f => some f
  | .addk f => some f
  | .neg f => some f
  | .mul f => some f
  | .mulh f => some f
  | .div f => some f
  | .rem f => some f
  | .andOp f => some f
  | .orOp f => some f
  | .xor f => some f
  | .andn f => some f
  | .notOp f => some f
  | .shl f => some f
  | .shr f => some f
  | .sar f => some f
  | .shlk f => some f
  | .shrk f => some f
  | .sark f => some f
  | .minOp f => some f
  | .maxOp f => some f
  | .cmpeq f => some f
  | .cmpne f => some f
  | .cmplt f => some f
  | .cmple f => some f
  | .sel f => some f
  | .clz f => some f
  | .popc f => some f
  | .bfx f => some f
  | .bfi f => some f
  | .sext f => some f
  | .br f => some f
  | .call f => some f
  | .jr f => some f
  | .bz f => some f
  | .bnz f => some f
  | .bltz f => some f
  | .bgez f => some f
  | .ldg f => some f
  | .stg f => some f
  | .ldl f => some f
  | .stl f => some f
  | .ldlp f => some f
  | .stlp f => some f
  | .ldacq f => some f
  | .strel f => some f
  | .fence f => some f
  | .fenceX f => some f
  | .fenceA f => some f
  | .fenceS f => some f
  | .pref f => some f
  | .scopeo f => some f
  | .scopec f => some f
  | .pset f => some f
  | .pget f => some f
  | .padd f => some f
  | .vadd f => some f
  | .vsub f => some f
  | .vmul f => some f
  | .vfma f => some f
  | .vmin f => some f
  | .vmax f => some f
  | .vabs f => some f
  | .vneg f => some f
  | .vrcp f => some f
  | .vrsq f => some f
  | .vexp2 f => some f
  | .vlog2 f => some f
  | .vcvt f => some f
  | .vcmp f => some f
  | .vsel f => some f
  | .vradd f => some f
  | .vrmax f => some f
  | .vbcst f => some f
  | .vlane f => some f
  | .vperm f => some f
  | .vand f => some f
  | .vor f => some f
  | .vxor f => some f
  | .vshl f => some f
  | .vshr f => some f
  | .vldl f => some f
  | .vstl f => some f
  | .vldg f => some f
  | .vstg f => some f
  | .vgath f => some f
  | .vscat f => some f
  | .vscale f => some f
  | .vclamp f => some f
  | .fadd f => some f
  | .fsub f => some f
  | .fmul f => some f
  | .ffma f => some f
  | .fmin f => some f
  | .fmax f => some f
  | .fcmp f => some f
  | .fcvt f => some f
  | .frcp f => some f
  | .frsq f => some f
  | .bpack f => some f
  | .bunpk f => some f
  | .plxp f => some f
  | .pldot f => some f
  | .mfmt f => some f
  | .mzero f => some f
  | .mma f => some f
  | .mstore f => some f
  | .mstat f => some f
  | .mtest f => some f
  | .mfree f => some f
  | .vwnew f => some f
  | .vwdup f => some f
  | .vwsplit f => some f
  | .vwnarrow f => some f
  | .vwdrop f => some f
  | .vwinfo f => some f
  | .ldv f => some f
  | .stv f => some f
  | .sanew f => some f
  | .saadd f => some f
  | .saread f => some f
  | .sainfo f => some f
  | .saevict f => some f
  | .safree f => some f
  | .amoadd f => some f
  | .amoand f => some f
  | .amoor f => some f
  | .amoxor f => some f
  | .amomin f => some f
  | .amomax f => some f
  | .amoswap f => some f
  | .amocas f => some f
  | .amofadd f => some f
  | .cflush f => some f
  | .cinv f => some f
  | .pghot f => some f
  | .pgmig f => some f
  | .xlate f => some f
  | .setcoh f => some f
  | .spawn f => some f
  | .yield f => some f
  | .exit f => some f
  | .tid f => some f
  | .join f => some f
  | .leave f => some f
  | .grpinfo f => some f
  | .syinit f => some f
  | .syacq f => some f
  | .sytry f => some f
  | .syrel f => some f
  | .sydlg f => some f
  | .syarv f => some f
  | .sywait f => some f
  | .symode f => some f
  | .hbarv f => some f
  | .hbwait f => some f
  | .hbcfg f => some f
  | .cpy f => some f
  | .cpy2d f => some f
  | .cpyq f => some f
  | .sdesc f => some f
  | .sdstop f => some f
  | .swinit f => some f
  | .swwait f => some f
  | .qcfg f => some f
  | .qstat f => some f
  | .nopen f => some f
  | .nsende f => some f
  | .nstat f => some f
  | .waitm f => some f
  | .msgrd f => some f
  | .msgsend f => some f
  | .msgcnt f => some f
  | .bkmode f => some f
  | .bkinfo f => some f
  | .trap f => some f
  | .rett f => some f
  | .rdsr f => some f
  | .wrsr f => some f
  | .segld f => some f
  | .segrd f => some f
  | .ctxsv f => some f
  | .ctxld f => some f
  | .brk f => some f
  | .tntrd f => some f
  | .tntclr f => some f
  | .perfrd f => some f
  | .svcall f => some f
  | .pghash f => some f
  | .longLatencyComplete => none
  | .instructionWake => none
  | .trapDelivery => none
  | .deferredTrap => none
  | .storeBufferDrain => none
  | .storeRegistration => none
  | .registrationAck => none
  | .recallWord => none
  | .recallAnswer => none
  | .registrantWriteBack => none
  | .forwardedLoad => none
  | .l2Request => none
  | .hbmFill => none
  | .gets => none
  | .getm => none
  | .evictionNotice => none
  | .inv => none
  | .invAck => none
  | .evack => none
  | .ownerRecall => none
  | .ownerRecallAnswer => none
  | .ownershipGrant => none
  | .leaseHeartbeat => none
  | .leaseExpiry => none
  | .leasecheck => none
  | .leasecheckTimeout => none
  | .hostHalfRequest => none
  | .hostHalfResponse => none
  | .bridgeEntryFreed => none
  | .hostSnoop => none
  | .wcDrainTimeout => none
  | .wcDrain => none
  | .walkStart => none
  | .pageWalkDone => none
  | .pfrespWrite => none
  | .xinvWrite => none
  | .atsInvalidation => none
  | .migrationCopy => none
  | .migrationDrainDone => none
  | .poisonDetected => none
  | .softErrorCorrected => none
  | .apexWindowShrink => none
  | .viewOpRequest => none
  | .viewCacheFetch => none
  | .viewInvalidate => none
  | .granuleFreeStart => none
  | .granuleDrainDone => none
  | .tuCommandAccept => none
  | .tuLineTransfer => none
  | .syncWordCount => none
  | .cpyqPush => none
  | .copydone => none
  | .prefetchIssue => none
  | .messageDepart => none
  | .messageArrival => none
  | .mxWriteWait => none
  | .creditRequest => none
  | .creditGrant => none
  | .queueWordArrival => none
  | .streamWordArrival => none
  | .streamForceClose => none
  | .scopeSpaceGrant => none
  | .latticeCommandStart => none
  | .tileFetchLine => none
  | .planePairExecute => none
  | .mxdone => none
  | .tileEccError => none
  | .latticeSelfTest => none
  | .streamAddApply => none
  | .saovf => none
  | .radiusSnapshot => none
  | .rowEviction => none
  | .rowReload => none
  | .sadone => none
  | .admission => none
  | .spawnRequestArrival => none
  | .spawnAdmitTimeout => none
  | .spawnAnswer => none
  | .launchEntryTaken => none
  | .poolPlanReady => none
  | .launchCreate => none
  | .launchDone => none
  | .fpWindowEnd => none
  | .stopRequest => none
  | .stopTakesEffect => none
  | .contextSaveComplete => none
  | .coreFatalError => none
  | .apexCoreRepair => none
  | .apexCoreFence => none
  | .ltholdSet => none
  | .ltholdClear => none
  | .lockAttempt => none
  | .flagRetry => none
  | .lockRelease => none
  | .lockWithdrawal => none
  | .grant => none
  | .grantAck => none
  | .grantReturned => none
  | .timeout => none
  | .locusWindowEnd => none
  | .delegateAdmitted => none
  | .delegateBodyExit => none
  | .phaseArrival => none
  | .phaseWaitRequest => none
  | .phaseLeave => none
  | .combinerForward => none
  | .syncTimeoutExpiry => none
  | .axisEpisodeComplete => none
  | .axisEpisodeTimeout => none
  | .hashJobComplete => none
  | .hashPeriodicTimer => none
  | .breakpointHit => none
  | .watchpointHit => none
  | .dres => none
  | .lqwp => none
  | .lqwaWordUpdate => none
  | .lqctl => none
  | .ringRpWrite => none
  | .fcopenOpen => none
  | .fcopenClose => none
  | .fswp => none
  | .doorbellRegWrite => none
  | .hostMemAccess => none
  | .bisnp => none
  | .birsp => none
  | .mxreq => none
  | .mxrsp => none
  | .rd => none
  | .wr => none
  | .wrm => none
  | .zeroLine => none
  | .scrub => none
  | .rdrsp => none
  | .wrack => none
  | .iord => none
  | .iowr => none
  | .iorsp => none
  | .iomsg => none
  | .param => none
  | .topord => none
  | .toprsp => none
  | .splErr => none
  | .dieReset => none
  | .splCreditReturn => none
  | .ucieLinkUp => none
  | .splParamTimeout => none
  | .ucieReplayFail => none
  | .dataFrame => none
  | .ackFrame => none
  | .nackFrame => none
  | .connect => none
  | .accept => none
  | .refuse => none
  | .closeFrame => none
  | .connectRetryTimer => none
  | .ackTimer => none
  | .resendTimer => none
  | .portLinkDown => none
  | .sendEntryTaken => none
  | .fsent => none
  | .fabidAssign => none
  | .getVersion => none
  | .getCapabilities => none
  | .negotiateAlgorithms => none
  | .getDigests => none
  | .getCertificate => none
  | .challenge => none
  | .getMeasurements => none
  | .keyExchange => none
  | .spdmFinish => none
  | .endSession => none
  | .lockInterfaceRequest => none
  | .startInterfaceRequest => none
  | .tdiUnlock => none
  | .tdiError => none
  | .powerGood => none
  | .railTimeout => none
  | .firmwareCheck => none
  | .topologyWalk => none
  | .hbmTraining => none
  | .cxlLinkUp => none
  | .cxlConfigRequest => none
  | .moduleReset => none
  | .clusterPowerGate => none
  | .powerOverload => none
  | .ucieTrainingFail => none
  | .cxlLinkTrainingFail => none
  | .portLinkUp => none
  | .msixVectorUnmask => none
  | .tenantCreated => none
  | .creditReturn => none
  | .locusAnswer => none
  | .apexLatticeRepair => none

/-- Page and op6 of each instruction (R28 to R35). -/
def Instr.opc (i : Instr) : Option (Nat × Nat) :=
  match i with
  | .nop _ => some (0, 1)
  | .mov _ => some (0, 2)
  | .movk _ => some (0, 3)
  | .movkh _ => some (0, 4)
  | .add _ => some (0, 5)
  | .sub _ => some (0, 6)
  | .addk _ => some (0, 7)
  | .neg _ => some (0, 8)
  | .mul _ => some (0, 9)
  | .mulh _ => some (0, 10)
  | .div _ => some (0, 11)
  | .rem _ => some (0, 12)
  | .andOp _ => some (0, 13)
  | .orOp _ => some (0, 14)
  | .xor _ => some (0, 15)
  | .andn _ => some (0, 16)
  | .notOp _ => some (0, 17)
  | .shl _ => some (0, 18)
  | .shr _ => some (0, 19)
  | .sar _ => some (0, 20)
  | .shlk _ => some (0, 21)
  | .shrk _ => some (0, 22)
  | .sark _ => some (0, 23)
  | .minOp _ => some (0, 24)
  | .maxOp _ => some (0, 25)
  | .cmpeq _ => some (0, 26)
  | .cmpne _ => some (0, 27)
  | .cmplt _ => some (0, 28)
  | .cmple _ => some (0, 29)
  | .sel _ => some (0, 30)
  | .clz _ => some (0, 31)
  | .popc _ => some (0, 32)
  | .bfx _ => some (0, 33)
  | .bfi _ => some (0, 34)
  | .sext _ => some (0, 35)
  | .br _ => some (0, 36)
  | .call _ => some (0, 37)
  | .jr _ => some (0, 38)
  | .bz _ => some (0, 39)
  | .bnz _ => some (0, 40)
  | .bltz _ => some (0, 41)
  | .bgez _ => some (0, 42)
  | .ldg _ => some (0, 43)
  | .stg _ => some (0, 44)
  | .ldl _ => some (0, 45)
  | .stl _ => some (0, 46)
  | .ldlp _ => some (0, 47)
  | .stlp _ => some (0, 48)
  | .ldacq _ => some (0, 49)
  | .strel _ => some (0, 50)
  | .fence _ => some (0, 51)
  | .fenceX _ => some (0, 51)
  | .fenceA _ => some (0, 51)
  | .fenceS _ => some (0, 51)
  | .pref _ => some (0, 52)
  | .scopeo _ => some (0, 53)
  | .scopec _ => some (0, 54)
  | .pset _ => some (0, 55)
  | .pget _ => some (0, 56)
  | .padd _ => some (0, 57)
  | .vadd _ => some (1, 1)
  | .vsub _ => some (1, 2)
  | .vmul _ => some (1, 3)
  | .vfma _ => some (1, 4)
  | .vmin _ => some (1, 5)
  | .vmax _ => some (1, 6)
  | .vabs _ => some (1, 7)
  | .vneg _ => some (1, 8)
  | .vrcp _ => some (1, 9)
  | .vrsq _ => some (1, 10)
  | .vexp2 _ => some (1, 11)
  | .vlog2 _ => some (1, 12)
  | .vcvt _ => some (1, 13)
  | .vcmp _ => some (1, 14)
  | .vsel _ => some (1, 15)
  | .vradd _ => some (1, 16)
  | .vrmax _ => some (1, 17)
  | .vbcst _ => some (1, 18)
  | .vlane _ => some (1, 19)
  | .vperm _ => some (1, 20)
  | .vand _ => some (1, 21)
  | .vor _ => some (1, 22)
  | .vxor _ => some (1, 23)
  | .vshl _ => some (1, 24)
  | .vshr _ => some (1, 25)
  | .vldl _ => some (1, 26)
  | .vstl _ => some (1, 27)
  | .vldg _ => some (1, 28)
  | .vstg _ => some (1, 29)
  | .vgath _ => some (1, 30)
  | .vscat _ => some (1, 31)
  | .vscale _ => some (1, 32)
  | .vclamp _ => some (1, 33)
  | .fadd _ => some (1, 34)
  | .fsub _ => some (1, 35)
  | .fmul _ => some (1, 36)
  | .ffma _ => some (1, 37)
  | .fmin _ => some (1, 38)
  | .fmax _ => some (1, 39)
  | .fcmp _ => some (1, 40)
  | .fcvt _ => some (1, 41)
  | .frcp _ => some (1, 42)
  | .frsq _ => some (1, 43)
  | .bpack _ => some (2, 1)
  | .bunpk _ => some (2, 2)
  | .plxp _ => some (2, 3)
  | .pldot _ => some (2, 4)
  | .mfmt _ => some (2, 5)
  | .mzero _ => some (2, 6)
  | .mma _ => some (2, 7)
  | .mstore _ => some (2, 8)
  | .mstat _ => some (2, 9)
  | .mtest _ => some (2, 10)
  | .mfree _ => some (2, 11)
  | .vwnew _ => some (3, 1)
  | .vwdup _ => some (3, 2)
  | .vwsplit _ => some (3, 3)
  | .vwnarrow _ => some (3, 4)
  | .vwdrop _ => some (3, 5)
  | .vwinfo _ => some (3, 6)
  | .ldv _ => some (3, 7)
  | .stv _ => some (3, 8)
  | .sanew _ => some (3, 9)
  | .saadd _ => some (3, 10)
  | .saread _ => some (3, 11)
  | .sainfo _ => some (3, 12)
  | .saevict _ => some (3, 13)
  | .safree _ => some (3, 14)
  | .amoadd _ => some (3, 15)
  | .amoand _ => some (3, 16)
  | .amoor _ => some (3, 17)
  | .amoxor _ => some (3, 18)
  | .amomin _ => some (3, 19)
  | .amomax _ => some (3, 20)
  | .amoswap _ => some (3, 21)
  | .amocas _ => some (3, 22)
  | .amofadd _ => some (3, 23)
  | .cflush _ => some (3, 24)
  | .cinv _ => some (3, 25)
  | .pghot _ => some (3, 26)
  | .pgmig _ => some (3, 27)
  | .xlate _ => some (3, 28)
  | .setcoh _ => some (3, 29)
  | .spawn _ => some (4, 1)
  | .yield _ => some (4, 2)
  | .exit _ => some (4, 3)
  | .tid _ => some (4, 4)
  | .join _ => some (4, 5)
  | .leave _ => some (4, 6)
  | .grpinfo _ => some (4, 7)
  | .syinit _ => some (4, 8)
  | .syacq _ => some (4, 9)
  | .sytry _ => some (4, 10)
  | .syrel _ => some (4, 11)
  | .sydlg _ => some (4, 12)
  | .syarv _ => some (4, 13)
  | .sywait _ => some (4, 14)
  | .symode _ => some (4, 15)
  | .hbarv _ => some (4, 16)
  | .hbwait _ => some (4, 17)
  | .hbcfg _ => some (4, 18)
  | .cpy _ => some (5, 1)
  | .cpy2d _ => some (5, 2)
  | .cpyq _ => some (5, 3)
  | .sdesc _ => some (5, 4)
  | .sdstop _ => some (5, 5)
  | .swinit _ => some (5, 6)
  | .swwait _ => some (5, 7)
  | .qcfg _ => some (5, 8)
  | .qstat _ => some (5, 9)
  | .nopen _ => some (5, 10)
  | .nsende _ => some (5, 11)
  | .nstat _ => some (5, 12)
  | .waitm _ => some (5, 13)
  | .msgrd _ => some (5, 14)
  | .msgsend _ => some (5, 15)
  | .msgcnt _ => some (5, 16)
  | .bkmode _ => some (5, 17)
  | .bkinfo _ => some (5, 18)
  | .trap _ => some (6, 1)
  | .rett _ => some (6, 2)
  | .rdsr _ => some (6, 3)
  | .wrsr _ => some (6, 4)
  | .segld _ => some (6, 5)
  | .segrd _ => some (6, 6)
  | .ctxsv _ => some (6, 7)
  | .ctxld _ => some (6, 8)
  | .brk _ => some (6, 9)
  | .tntrd _ => some (6, 10)
  | .tntclr _ => some (6, 11)
  | .perfrd _ => some (6, 12)
  | .svcall _ => some (6, 13)
  | .pghash _ => some (6, 14)
  | .longLatencyComplete => none
  | .instructionWake => none
  | .trapDelivery => none
  | .deferredTrap => none
  | .storeBufferDrain => none
  | .storeRegistration => none
  | .registrationAck => none
  | .recallWord => none
  | .recallAnswer => none
  | .registrantWriteBack => none
  | .forwardedLoad => none
  | .l2Request => none
  | .hbmFill => none
  | .gets => none
  | .getm => none
  | .evictionNotice => none
  | .inv => none
  | .invAck => none
  | .evack => none
  | .ownerRecall => none
  | .ownerRecallAnswer => none
  | .ownershipGrant => none
  | .leaseHeartbeat => none
  | .leaseExpiry => none
  | .leasecheck => none
  | .leasecheckTimeout => none
  | .hostHalfRequest => none
  | .hostHalfResponse => none
  | .bridgeEntryFreed => none
  | .hostSnoop => none
  | .wcDrainTimeout => none
  | .wcDrain => none
  | .walkStart => none
  | .pageWalkDone => none
  | .pfrespWrite => none
  | .xinvWrite => none
  | .atsInvalidation => none
  | .migrationCopy => none
  | .migrationDrainDone => none
  | .poisonDetected => none
  | .softErrorCorrected => none
  | .apexWindowShrink => none
  | .viewOpRequest => none
  | .viewCacheFetch => none
  | .viewInvalidate => none
  | .granuleFreeStart => none
  | .granuleDrainDone => none
  | .tuCommandAccept => none
  | .tuLineTransfer => none
  | .syncWordCount => none
  | .cpyqPush => none
  | .copydone => none
  | .prefetchIssue => none
  | .messageDepart => none
  | .messageArrival => none
  | .mxWriteWait => none
  | .creditRequest => none
  | .creditGrant => none
  | .queueWordArrival => none
  | .streamWordArrival => none
  | .streamForceClose => none
  | .scopeSpaceGrant => none
  | .latticeCommandStart => none
  | .tileFetchLine => none
  | .planePairExecute => none
  | .mxdone => none
  | .tileEccError => none
  | .latticeSelfTest => none
  | .streamAddApply => none
  | .saovf => none
  | .radiusSnapshot => none
  | .rowEviction => none
  | .rowReload => none
  | .sadone => none
  | .admission => none
  | .spawnRequestArrival => none
  | .spawnAdmitTimeout => none
  | .spawnAnswer => none
  | .launchEntryTaken => none
  | .poolPlanReady => none
  | .launchCreate => none
  | .launchDone => none
  | .fpWindowEnd => none
  | .stopRequest => none
  | .stopTakesEffect => none
  | .contextSaveComplete => none
  | .coreFatalError => none
  | .apexCoreRepair => none
  | .apexCoreFence => none
  | .ltholdSet => none
  | .ltholdClear => none
  | .lockAttempt => none
  | .flagRetry => none
  | .lockRelease => none
  | .lockWithdrawal => none
  | .grant => none
  | .grantAck => none
  | .grantReturned => none
  | .timeout => none
  | .locusWindowEnd => none
  | .delegateAdmitted => none
  | .delegateBodyExit => none
  | .phaseArrival => none
  | .phaseWaitRequest => none
  | .phaseLeave => none
  | .combinerForward => none
  | .syncTimeoutExpiry => none
  | .axisEpisodeComplete => none
  | .axisEpisodeTimeout => none
  | .hashJobComplete => none
  | .hashPeriodicTimer => none
  | .breakpointHit => none
  | .watchpointHit => none
  | .dres => none
  | .lqwp => none
  | .lqwaWordUpdate => none
  | .lqctl => none
  | .ringRpWrite => none
  | .fcopenOpen => none
  | .fcopenClose => none
  | .fswp => none
  | .doorbellRegWrite => none
  | .hostMemAccess => none
  | .bisnp => none
  | .birsp => none
  | .mxreq => none
  | .mxrsp => none
  | .rd => none
  | .wr => none
  | .wrm => none
  | .zeroLine => none
  | .scrub => none
  | .rdrsp => none
  | .wrack => none
  | .iord => none
  | .iowr => none
  | .iorsp => none
  | .iomsg => none
  | .param => none
  | .topord => none
  | .toprsp => none
  | .splErr => none
  | .dieReset => none
  | .splCreditReturn => none
  | .ucieLinkUp => none
  | .splParamTimeout => none
  | .ucieReplayFail => none
  | .dataFrame => none
  | .ackFrame => none
  | .nackFrame => none
  | .connect => none
  | .accept => none
  | .refuse => none
  | .closeFrame => none
  | .connectRetryTimer => none
  | .ackTimer => none
  | .resendTimer => none
  | .portLinkDown => none
  | .sendEntryTaken => none
  | .fsent => none
  | .fabidAssign => none
  | .getVersion => none
  | .getCapabilities => none
  | .negotiateAlgorithms => none
  | .getDigests => none
  | .getCertificate => none
  | .challenge => none
  | .getMeasurements => none
  | .keyExchange => none
  | .spdmFinish => none
  | .endSession => none
  | .lockInterfaceRequest => none
  | .startInterfaceRequest => none
  | .tdiUnlock => none
  | .tdiError => none
  | .powerGood => none
  | .railTimeout => none
  | .firmwareCheck => none
  | .topologyWalk => none
  | .hbmTraining => none
  | .cxlLinkUp => none
  | .cxlConfigRequest => none
  | .moduleReset => none
  | .clusterPowerGate => none
  | .powerOverload => none
  | .ucieTrainingFail => none
  | .cxlLinkTrainingFail => none
  | .portLinkUp => none
  | .msixVectorUnmask => none
  | .tenantCreated => none
  | .creditReturn => none
  | .locusAnswer => none
  | .apexLatticeRepair => none

/-- The roles of d, a and b: those of the row, but for a three-address form, whose d is only written (R21), and for the
three instructions whose operand kind another field selects (R31, R209). -/
def Instr.roles (i : Instr) (fo : Form) (f : Fields) : Role × Role × Role :=
  match i with
  | .mma _ => (.sel 3, if f.lo / 2 = 0 then .ptr else .base, if f.d / 2 % 2 = 1 then .base else .rd)
  | .mstore _ => (.sel 3, if f.d / 2 % 2 = 1 then .ptr else .base, .none)
  | .saread _ => (if f.lo = 2 then .ptr else .vwr, .base, .none)
  | _ =>
    match fo.x, f.three, fo.rd with
    | .opt, true, .rw => (.wr, fo.ra, fo.rb)
    | .opt, true, .vrw => (.vwr, fo.ra, fo.rb)
    | _, _, _ => (fo.rd, fo.ra, fo.rb)

/-- Inbound and outbound special operands (R137). -/
def inbound (n : Nat) : Bool := n = 112 || n = 113 || (116 ≤ n && n ≤ 119)
def outbound (n : Nat) : Bool := n = 114 || n = 115 || (120 ≤ n && n ≤ 123)

/-- A field of role `r` may hold `n`; `s` says it names a special operand, `anyS` that the instruction names one
somewhere, in which case no register field may hold 112 to 127 as a general register (R19: one S bit). -/
def Role.ok (r : Role) (n : Nat) (s anyS : Bool) : Bool :=
  match r with
  | .none => n = 0 && !s
  | .rd => if s then 112 ≤ n && n < 128 && !outbound n else n < 128 && !(anyS && 112 ≤ n)
  | .wr => if s then 112 ≤ n && n < 128 && !inbound n else n < 128 && !(anyS && 112 ≤ n)
  | .rw => if s then 124 ≤ n && n < 128 else n < 128 && !(anyS && 112 ≤ n)
  | .base | .wrp | .rwp => !s && n < 128 && !(anyS && 112 ≤ n)
  | .vrd | .vwr | .vrw => !s && n < 128 && n % 8 = 0 && !(anyS && 112 ≤ n)
  | .ptr | .seg => !s && n < 8
  | .tile => !s && n < 2
  | .sel m => !s && n ≤ m
  | .is m => !s && n = m

/-- The modifier bits lie in their class's legal set (R22). -/
def Mods.ok (m : Mods) (hi lo : Nat) : Bool :=
  match m with
  | .none => hi = 0 && lo = 0
  | .iW => hi = 0 && (lo = 0 || lo = 2)
  | .iU => hi = 0 && lo < 2
  | .iUW => hi = 0 && lo < 4
  | .gLoad => hi < 8 && lo < 8 && lo ≠ 4
  | .gStore => hi < 8 && lo < 4
  | .gFloat => hi < 8 && (lo = 2 || lo = 3)
  | .lLoad => hi = 0 && lo < 8 && lo ≠ 4
  | .lStore => hi = 0 && lo < 4
  | .seg => hi < 8 && lo = 0
  | .st => hi < 8 && lo < 4
  | .saread => hi < 8 && lo < 3
  | .saevict => hi < 8 && lo < 2
  | .fArith => hi < 6 && lo < 5 && (hi < 3 || lo = 0 || lo = 4)
  | .fSum => hi < 6 && lo < 5 && (hi < 3 || lo = 0)
  | .fFloat => hi < 3 && lo < 5
  | .fConv => hi < 6 && lo < 5
  | .tAny => hi < 6 && lo = 0
  | .tInt => 3 ≤ hi && hi < 6 && lo = 0
  | .pack => hi < 2 && 1 ≤ lo && lo < 8
  | .inv => hi = 0 && lo < 2
  | .eMma | .eMstore => hi < 8 && lo < 6
  | .eCopy => hi < 8 && lo < 2

/-- The width in bits of an element type (R154, R158). -/
def tyWidth (ty : Nat) : Nat :=
  match ty with
  | 0 | 3 => 32
  | 5 => 8
  | _ => 16

/-- The number of lanes of a group (R158). -/
def tyLanes (ty : Nat) : Nat := 512 / tyWidth ty

/-- The function extension lies in the instruction's set (R21, R28 to R35). -/
def Instr.fxOk (i : Instr) (f : Fields) : Bool :=
  match i with
  | .vcmp _ | .fcmp _ => if 3 ≤ f.hi then f.fx < 3 else f.fx < 4
  | .vcvt _ | .fcvt _ => f.fx < 6 && !(3 ≤ f.fx && 3 ≤ f.hi && f.lo ≠ 0)
  | .pldot _ | .amomin _ | .amomax _ => f.fx < 8
  | .mma _ => if f.d / 2 % 2 = 1 then f.fx = 0 else f.fx < 8
  | .amoadd _ | .amoand _ | .amoor _ | .amoxor _ | .amoswap _ | .amocas _ | .amofadd _ => f.fx < 4
  | .segrd _ => f.fx < 3
  | _ => f.fx = 0

/-- The system registers of R241, and HBMISS0 to CYCLE. -/
def sysRegOk (k : Int) : Bool := (0 ≤ k && k ≤ 17) || (21 ≤ k && k ≤ 25)

/-- The immediate lies in the instruction's set. -/
def Instr.immOk (i : Instr) (f : Fields) : Bool :=
  match i with
  | .shlk _ | .shrk _ | .sark _ => 0 ≤ f.imm && f.imm < (if f.lo / 2 = 1 then 32 else 64)
  | .sext _ => 0 ≤ f.imm && f.imm < 64
  | .bfx _ | .bfi _ => 0 ≤ f.imm && f.imm % 64 + f.imm / 64 + 1 ≤ 64
  | .scopeo _ => 1 ≤ f.imm && f.imm ≤ 15
  | .hbarv _ | .hbwait _ | .hbcfg _ => 0 ≤ f.imm && f.imm ≤ 3
  | .nopen _ | .nsende _ | .nstat _ => 0 ≤ f.imm && f.imm ≤ 1
  | .trap _ | .svcall _ | .brk _ => 0 ≤ f.imm && f.imm ≤ 0xFFFF
  | .perfrd _ => 0 ≤ f.imm && f.imm ≤ 273
  | .rdsr _ | .wrsr _ => sysRegOk f.imm
  | .vlane _ => 0 ≤ f.imm && f.imm < tyLanes f.hi
  | .mstore _ => if f.d / 2 % 2 = 1 then f.imm = 0 && f.hi = 0 else true
  | .msgrd _ => !(f.d = f.a && f.d ≠ 0)
  | _ => true

/-- The bits of the immediate that the base parcel holds (R17). -/
def Fmt.immBits (f : Fmt) : Nat :=
  match f with
  | .K => 5
  | .J => 10
  | _ => 0

/-- Whether `z` fits a signed field of `w` bits; a field of no bits holds 0. -/
def fitsS (w : Nat) (z : Int) : Bool :=
  if w = 0 then z = 0 else -(2 ^ (w - 1) : Int) ≤ z && z < (2 ^ (w - 1) : Int)

/-- Whether `z` fits an unsigned field of `w` bits. -/
def fitsU (w : Nat) (z : Int) : Bool := 0 ≤ z && z < (2 ^ w : Int)

/-- The fewest XIMM parcels that hold the immediate (R17, R41); 4 where three do not. BFX and BFI take two (R28). -/
def immParcels (i : Instr) (fo : Form) (z : Int) : Nat :=
  match i with
  | .bfx _ | .bfi _ => if fitsS 20 z then 2 else 4
  | _ =>
    match fo.imm with
    | .none => if z = 0 then 0 else 4
    | .short => if fitsU fo.fmt.immBits z then 0 else 4
    | .signed =>
      let w := fo.fmt.immBits
      if fitsS w z then 0 else if fitsS (w + 10) z then 1 else if fitsS (w + 20) z then 2
      else if fitsS (w + 30) z then 3 else 4
    | .unsigned =>
      let w := fo.fmt.immBits
      if fitsU w z then 0 else if fitsU (w + 10) z then 1 else if fitsU (w + 20) z then 2
      else if fitsU (w + 30) z then 3 else 4

/-- How many low bits of d and of a stand in the base parcel (R15, R18). -/
def Fmt.dBits (f : Fmt) : Nat :=
  match f with
  | .A | .K => 5
  | .L => 3
  | _ => 0
def Fmt.aBits (f : Fmt) : Nat :=
  match f with
  | .A => 5
  | .L => 3
  | _ => 0

/-- A special operand is named somewhere. -/
def Fields.anyS (f : Fields) : Bool := f.sd || f.sa || f.sb

/-- An XPAGE is needed: another page than 0, or modifiers (R20). -/
def needsPage (page : Nat) (f : Fields) : Bool := page ≠ 0 || f.hi ≠ 0 || f.lo ≠ 0

/-- An XREG is needed (R18, R19). -/
def needsReg (fo : Form) (f : Fields) : Bool :=
  f.anyS || f.d / 2 ^ fo.fmt.dBits ≠ 0 || f.a / 2 ^ fo.fmt.aBits ≠ 0

/-- The prefixes an encoding takes (R16). -/
def prefixCount (i : Instr) (fo : Form) (page : Nat) (f : Fields) : Nat :=
  (if needsPage page f then 1 else 0) + (if needsReg fo f then 1 else 0) + (if f.three then 1 else 0)
    + immParcels i fo f.imm

/-- The fields of an instruction are legal (R15 to R22, R27) and its encoding takes at most three XIMM and four prefixes
(R16). An event of the machine has no encoding and no fields to be ill formed. -/
def wellFormedFields (i : Instr) (fo : Form) (page : Nat) (f : Fields) : Bool :=
  let r := i.roles fo f
  r.1.ok f.d f.sd f.anyS && r.2.1.ok f.a f.sa f.anyS
    && (if f.three then r.2.2.ok f.b f.sb f.anyS else f.b = 0 && !f.sb)
    && (match fo.x with
        | .no => !f.three
        | .opt => true
        | .req => f.three)
    && f.fx < 8 && (if f.three then i.fxOk f else f.fx = 0)
    && f.la < 16 && (fo.fmt = .L || f.la = 0)
    && fo.md.ok f.hi f.lo && i.immOk f
    && immParcels i fo f.imm < 4 && prefixCount i fo page f ≤ 4

/-- An instruction is well formed. -/
def WellFormed (i : Instr) : Bool :=
  match i.form, i.fields, i.opc with
  | some fo, some f, some po => wellFormedFields i fo po.1 f
  | _, _, _ => true

end Sys2Proof
end

