-- ==== Sys2Proof/Decode.lean ====
section
/-!
DEFINITION. Sys2Proof/Decode.lean: from parcels to an instruction (R14 to R22, R27), total on any parcels, and back.
-/
namespace Sys2Proof

/-- Why a parcel sequence is not an instruction (R27); each of them is the trap ILLOP. -/
inductive Reject where
  | truncated          -- the bytes end before a base parcel
  | fifthPrefix        -- more than four prefixes
  | repeated           -- two XPAGE, two XREG, two XOPD or four XIMM
  | badPage            -- page 7 to 15
  | noInstruction      -- op6 0 or an unlisted op6
  | badPrefix          -- a prefix the instruction does not accept, or an XREG bit that must be 0
  | missingXopd        -- a required XOPD is absent
  | baseField          -- an unused base field is nonzero
  | badField           -- a field, immediate, fx, modifier or special operand outside its legal set
deriving DecidableEq, Repr

/-- Page 0 of the opcode map (R28): the instruction of op6 `op` with its fields. -/
def page0 (op : Nat) (f : Fields) : Option Instr :=
  match op with
  | 1 => some (.nop f)
  | 2 => some (.mov f)
  | 3 => some (.movk f)
  | 4 => some (.movkh f)
  | 5 => some (.add f)
  | 6 => some (.sub f)
  | 7 => some (.addk f)
  | 8 => some (.neg f)
  | 9 => some (.mul f)
  | 10 => some (.mulh f)
  | 11 => some (.div f)
  | 12 => some (.rem f)
  | 13 => some (.andOp f)
  | 14 => some (.orOp f)
  | 15 => some (.xor f)
  | 16 => some (.andn f)
  | 17 => some (.notOp f)
  | 18 => some (.shl f)
  | 19 => some (.shr f)
  | 20 => some (.sar f)
  | 21 => some (.shlk f)
  | 22 => some (.shrk f)
  | 23 => some (.sark f)
  | 24 => some (.minOp f)
  | 25 => some (.maxOp f)
  | 26 => some (.cmpeq f)
  | 27 => some (.cmpne f)
  | 28 => some (.cmplt f)
  | 29 => some (.cmple f)
  | 30 => some (.sel f)
  | 31 => some (.clz f)
  | 32 => some (.popc f)
  | 33 => some (.bfx f)
  | 34 => some (.bfi f)
  | 35 => some (.sext f)
  | 36 => some (.br f)
  | 37 => some (.call f)
  | 38 => some (.jr f)
  | 39 => some (.bz f)
  | 40 => some (.bnz f)
  | 41 => some (.bltz f)
  | 42 => some (.bgez f)
  | 43 => some (.ldg f)
  | 44 => some (.stg f)
  | 45 => some (.ldl f)
  | 46 => some (.stl f)
  | 47 => some (.ldlp f)
  | 48 => some (.stlp f)
  | 49 => some (.ldacq f)
  | 50 => some (.strel f)
  | 51 => match f.d with
    | 0 => some (.fence f)
    | 1 => some (.fenceX f)
    | 2 => some (.fenceA f)
    | 3 => some (.fenceS f)
    | _ => none
  | 52 => some (.pref f)
  | 53 => some (.scopeo f)
  | 54 => some (.scopec f)
  | 55 => some (.pset f)
  | 56 => some (.pget f)
  | 57 => some (.padd f)
  | _ => none

/-- Page 1 of the opcode map (R29): the instruction of op6 `op` with its fields. -/
def page1 (op : Nat) (f : Fields) : Option Instr :=
  match op with
  | 1 => some (.vadd f)
  | 2 => some (.vsub f)
  | 3 => some (.vmul f)
  | 4 => some (.vfma f)
  | 5 => some (.vmin f)
  | 6 => some (.vmax f)
  | 7 => some (.vabs f)
  | 8 => some (.vneg f)
  | 9 => some (.vrcp f)
  | 10 => some (.vrsq f)
  | 11 => some (.vexp2 f)
  | 12 => some (.vlog2 f)
  | 13 => some (.vcvt f)
  | 14 => some (.vcmp f)
  | 15 => some (.vsel f)
  | 16 => some (.vradd f)
  | 17 => some (.vrmax f)
  | 18 => some (.vbcst f)
  | 19 => some (.vlane f)
  | 20 => some (.vperm f)
  | 21 => some (.vand f)
  | 22 => some (.vor f)
  | 23 => some (.vxor f)
  | 24 => some (.vshl f)
  | 25 => some (.vshr f)
  | 26 => some (.vldl f)
  | 27 => some (.vstl f)
  | 28 => some (.vldg f)
  | 29 => some (.vstg f)
  | 30 => some (.vgath f)
  | 31 => some (.vscat f)
  | 32 => some (.vscale f)
  | 33 => some (.vclamp f)
  | 34 => some (.fadd f)
  | 35 => some (.fsub f)
  | 36 => some (.fmul f)
  | 37 => some (.ffma f)
  | 38 => some (.fmin f)
  | 39 => some (.fmax f)
  | 40 => some (.fcmp f)
  | 41 => some (.fcvt f)
  | 42 => some (.frcp f)
  | 43 => some (.frsq f)
  | _ => none

/-- Page 2 of the opcode map (R30): the instruction of op6 `op` with its fields. -/
def page2 (op : Nat) (f : Fields) : Option Instr :=
  match op with
  | 1 => some (.bpack f)
  | 2 => some (.bunpk f)
  | 3 => some (.plxp f)
  | 4 => some (.pldot f)
  | 5 => some (.mfmt f)
  | 6 => some (.mzero f)
  | 7 => some (.mma f)
  | 8 => some (.mstore f)
  | 9 => some (.mstat f)
  | 10 => some (.mtest f)
  | 11 => some (.mfree f)
  | _ => none

/-- Page 3 of the opcode map (R31): the instruction of op6 `op` with its fields. -/
def page3 (op : Nat) (f : Fields) : Option Instr :=
  match op with
  | 1 => some (.vwnew f)
  | 2 => some (.vwdup f)
  | 3 => some (.vwsplit f)
  | 4 => some (.vwnarrow f)
  | 5 => some (.vwdrop f)
  | 6 => some (.vwinfo f)
  | 7 => some (.ldv f)
  | 8 => some (.stv f)
  | 9 => some (.sanew f)
  | 10 => some (.saadd f)
  | 11 => some (.saread f)
  | 12 => some (.sainfo f)
  | 13 => some (.saevict f)
  | 14 => some (.safree f)
  | 15 => some (.amoadd f)
  | 16 => some (.amoand f)
  | 17 => some (.amoor f)
  | 18 => some (.amoxor f)
  | 19 => some (.amomin f)
  | 20 => some (.amomax f)
  | 21 => some (.amoswap f)
  | 22 => some (.amocas f)
  | 23 => some (.amofadd f)
  | 24 => some (.cflush f)
  | 25 => some (.cinv f)
  | 26 => some (.pghot f)
  | 27 => some (.pgmig f)
  | 28 => some (.xlate f)
  | 29 => some (.setcoh f)
  | _ => none

/-- Page 4 of the opcode map (R32): the instruction of op6 `op` with its fields. -/
def page4 (op : Nat) (f : Fields) : Option Instr :=
  match op with
  | 1 => some (.spawn f)
  | 2 => some (.yield f)
  | 3 => some (.exit f)
  | 4 => some (.tid f)
  | 5 => some (.join f)
  | 6 => some (.leave f)
  | 7 => some (.grpinfo f)
  | 8 => some (.syinit f)
  | 9 => some (.syacq f)
  | 10 => some (.sytry f)
  | 11 => some (.syrel f)
  | 12 => some (.sydlg f)
  | 13 => some (.syarv f)
  | 14 => some (.sywait f)
  | 15 => some (.symode f)
  | 16 => some (.hbarv f)
  | 17 => some (.hbwait f)
  | 18 => some (.hbcfg f)
  | _ => none

/-- Page 5 of the opcode map (R33): the instruction of op6 `op` with its fields. -/
def page5 (op : Nat) (f : Fields) : Option Instr :=
  match op with
  | 1 => some (.cpy f)
  | 2 => some (.cpy2d f)
  | 3 => some (.cpyq f)
  | 4 => some (.sdesc f)
  | 5 => some (.sdstop f)
  | 6 => some (.swinit f)
  | 7 => some (.swwait f)
  | 8 => some (.qcfg f)
  | 9 => some (.qstat f)
  | 10 => some (.nopen f)
  | 11 => some (.nsende f)
  | 12 => some (.nstat f)
  | 13 => some (.waitm f)
  | 14 => some (.msgrd f)
  | 15 => some (.msgsend f)
  | 16 => some (.msgcnt f)
  | 17 => some (.bkmode f)
  | 18 => some (.bkinfo f)
  | _ => none

/-- Page 6 of the opcode map (R34): the instruction of op6 `op` with its fields. -/
def page6 (op : Nat) (f : Fields) : Option Instr :=
  match op with
  | 1 => some (.trap f)
  | 2 => some (.rett f)
  | 3 => some (.rdsr f)
  | 4 => some (.wrsr f)
  | 5 => some (.segld f)
  | 6 => some (.segrd f)
  | 7 => some (.ctxsv f)
  | 8 => some (.ctxld f)
  | 9 => some (.brk f)
  | 10 => some (.tntrd f)
  | 11 => some (.tntclr f)
  | 12 => some (.perfrd f)
  | 13 => some (.svcall f)
  | 14 => some (.pghash f)
  | _ => none

/-- The opcode map (R20, R28 to R35). -/
def opMap (page op : Nat) (f : Fields) : Option Instr :=
  match page with
  | 0 => page0 op f
  | 1 => page1 op f
  | 2 => page2 op f
  | 3 => page3 op f
  | 4 => page4 op f
  | 5 => page5 op f
  | 6 => page6 op f
  | _ => none

/-- A parcel is a prefix (R14). -/
def isPrefix (w : Nat) : Bool := w / 4096 = 15

/-- The payloads of the prefixes of one kind, in address order (R16). -/
def payloads (pre : List Nat) (kind : Nat) : List Nat :=
  (pre.filter (fun w => w / 1024 % 4 = kind)).map (fun w => w % 1024)

/-- The concatenation of the XIMM payloads and the base field (R17). -/
def concatImm (xs : List Nat) (w base : Nat) : Nat := xs.foldl (fun v p => v * 1024 + p) 0 * 2 ^ w + base

/-- The two's-complement reading of the low `w` bits. -/
def toSigned (w n : Nat) : Int := if w = 0 then 0 else if n < 2 ^ (w - 1) then (n : Int) else (n : Int) - (2 ^ w : Int)

/-- The base parcel's fields d, a and la by format (R15); `none` when an unused field is nonzero. -/
def baseFields (fm : Fmt) (base : Nat) : Option (Nat × Nat × Nat) :=
  match fm with
  | .N => if base % 1024 = 0 then some (0, 0, 0) else none
  | .A => some (base / 32 % 32, base % 32, 0)
  | .K => some (base / 32 % 32, 0, 0)
  | .L => some (base / 8 % 8, base % 8, base / 64 % 16)
  | .J => some (0, 0, 0)

/-- A register field names a special operand: the S bit is set and the value lies in 112 to 127, in a role that holds a
general register (R18, R19). -/
def namesSpecial (s : Bool) (r : Role) (n : Nat) : Bool :=
  match r with
  | .rd | .wr | .rw | .base | .wrp | .rwp | .vrd | .vwr | .vrw => s && 112 ≤ n
  | _ => false

/-- BFX and BFI carry exactly two XIMM (R28, R151); the local form of MSTORE carries none (R192). -/
def wrongXimms (i : Instr) (n d : Nat) : Bool :=
  match i with
  | .bfx _ | .bfi _ => n ≠ 2
  | .mstore _ => d / 2 % 2 = 1 && n > 0
  | _ => false

/-- Decode the prefixes `pre` and the base parcel (R27), up to the checks that need the thread. -/
def decodeParcels (pre : List Nat) (base : Nat) : Except Reject Instr :=
  let xi := payloads pre 0
  let xr := payloads pre 1
  let xp := payloads pre 2
  let xo := payloads pre 3
  if pre.length > 4 then .error .fifthPrefix
  else if xp.length > 1 || xr.length > 1 || xo.length > 1 || xi.length > 3 then .error .repeated
  else
    let pg := nthD xp 0 0
    let page := pg / 64
    let op := base / 1024
    let xb := nthD xo 0 0
    let xv := nthD xr 0 0
    if page > 6 then .error .badPage
    else
      -- the form of op6, found with the kind bits of d alone (only FENCE needs them)
      match (opMap page op ⟨base / 32 % 32, 0, 0, false, false, false, false, 0, 0, 0, 0, 0⟩) with
      | none => .error (if page = 0 && op = 51 then .badField else .noInstruction)
      | some i0 =>
        match i0.form with
        | none => .error .noInstruction
        | some fo =>
          if (xi.length > 0 && (fo.imm = .none || fo.imm = .short))
              || (xr.length > 0 && (fo.fmt = .N || fo.fmt = .J)) || xv % 2 = 1
              || (xo.length > 0 && fo.x = .no) then .error .badPrefix
          else if xo.length = 0 && fo.x = .req then .error .missingXopd
          else
            match baseFields fo.fmt base with
            | none => .error .baseField
            | some (dl, al, la) =>
              let d := xv / 64 * 2 ^ fo.fmt.dBits + dl
              let a := xv / 4 % 16 * 2 ^ fo.fmt.aBits + al
              let s := xv / 2 % 2 = 1
              let w := fo.fmt.immBits
              let raw := concatImm xi w (base % 2 ^ w)
              let f0 : Fields :=
                { d := d, a := a, b := xb / 8, sd := false, sa := false, sb := false, three := xo.length > 0,
                  fx := xb % 8, la := la, hi := pg % 64 / 8, lo := pg % 8,
                  imm := if fo.imm = .signed then toSigned (10 * xi.length + w) raw else (raw : Int) }
              let r := i0.roles fo f0
              let f := { f0 with sd := namesSpecial s r.1 d, sa := namesSpecial s r.2.1 a,
                                 sb := xo.length > 0 && namesSpecial s r.2.2 (xb / 8) }
              match opMap page op f with
              | none => .error .badField
              | some i =>
                if wrongXimms i xi.length d then .error .badField
                else if fo.fmt = .K && xv / 4 % 16 ≠ 0 then .error .badPrefix
                else if WellFormed i then .ok i else .error .badField

/-- Split a parcel list at its base parcel: the prefixes, the base parcel, the rest. -/
def splitParcels (fuel : Nat) (ps : List Nat) : Except Reject (List Nat × Nat × List Nat) :=
  match fuel, ps with
  | _, [] => .error .truncated
  | 0, w :: rest => if isPrefix w then .error .fifthPrefix else .ok ([], w, rest)
  | n + 1, w :: rest =>
    if isPrefix w then
      match splitParcels n rest with
      | .ok (pre, base, r) => .ok (w :: pre, base, r)
      | .error e => .error e
    else .ok ([], w, rest)

/-- Decode the instruction at the head of a parcel list: the instruction, its length in parcels, and the rest. -/
def decode (ps : List Nat) : Except Reject (Instr × Nat × List Nat) :=
  match splitParcels 4 ps with
  | .error e => .error e
  | .ok (pre, base, rest) =>
    match decodeParcels pre base with
    | .error e => .error e
    | .ok i => .ok (i, pre.length + 1, rest)

/-- Parcels from bytes, each little-endian (R14). -/
def parcelsOf (bs : List Byte) : List Nat :=
  match bs with
  | lo :: hi :: rest => (lo.toNat + 256 * hi.toNat) :: parcelsOf rest
  | _ => []

/-- Decode the instruction at the head of a byte list. -/
def decodeBytes (bs : List Byte) : Except Reject (Instr × Nat) :=
  match decode (parcelsOf bs) with
  | .error e => .error e
  | .ok (i, n, _) => .ok (i, n)

/-- Bytes of parcels, each little-endian. -/
def bytesOfParcels (ps : List Nat) : List Byte :=
  ps.flatMap (fun p => [BitVec.ofNat 8 (p % 256), BitVec.ofNat 8 (p / 256)])

/-- `n` XIMM prefixes holding the low 10·n bits of `v`, most significant first (R16, R17). -/
def ximms (n v : Nat) : List Nat :=
  match n with
  | 0 => []
  | m + 1 => (0xF000 + v / 1024 ^ m % 1024) :: ximms m v

/-- The base parcel (R15). -/
def baseParcel (fo : Form) (op : Nat) (f : Fields) (immLow : Nat) : Nat :=
  op * 1024 +
    (match fo.fmt with
     | .N => 0
     | .A => f.d % 32 * 32 + f.a % 32
     | .K => f.d % 32 * 32 + immLow
     | .L => f.la * 64 + f.d % 8 * 8 + f.a % 8
     | .J => immLow)

/-- The parcels of an instruction, in the order XPAGE, XREG, XOPD, XIMM, base (R16), with the fewest XIMM (R41). -/
def encode (i : Instr) : List Nat :=
  match i.form, i.fields, i.opc with
  | some fo, some f, some (page, op) =>
    let n := immParcels i fo f.imm
    let w := fo.fmt.immBits
    let v := (f.imm % (2 ^ (10 * n + w) : Int)).toNat
    (if needsPage page f then [0xF800 + page * 64 + f.hi * 8 + f.lo] else [])
      ++ (if needsReg fo f then
            [0xF400 + f.d / 2 ^ fo.fmt.dBits * 64 + f.a / 2 ^ fo.fmt.aBits * 4 + (if f.anyS then 2 else 0)] else [])
      ++ (if f.three then [0xFC00 + f.b * 8 + f.fx] else [])
      ++ ximms n (v / 2 ^ w)
      ++ [baseParcel fo op f (v % 2 ^ w)]
  | _, _, _ => []

/-- The parcels of a table word (`nbits` a multiple of 8, bit 0 the least significant bit of the first word). The table
writes a two-parcel row with its prefix in the high half; the prefix is the parcel at the lower address (R14), so where
the high half is a prefix and the low half is none the high half comes first. -/
def tableParcels (nbits w : Nat) : List Nat :=
  if nbits ≤ 16 then [w % 65536]
  else
    let lo := w % 65536
    let hi := w / 65536 % 65536
    if isPrefix hi && !isPrefix lo then [hi, lo]
    else if nbits ≤ 32 then [lo, hi]
    else [lo, hi, w / 2 ^ 32 % 65536, w / 2 ^ 48 % 65536, w / 2 ^ 64 % 65536]

/-- The instruction the decoder reads from a table word; parcels above `nbits` are zero. -/
def decodeTableWord (nbits w : Nat) : Option Instr :=
  match decode (tableParcels nbits w ++ [0, 0, 0, 0]) with
  | .ok (i, _, _) => some i
  | .error _ => none

end Sys2Proof
end

