-- ==== Sys2Proof/Config.lean ====
section
/-!
DEFINITION. Sys2Proof/Config.lean: the free values of the model. Nothing here has a value that a proof could use: what the
specification leaves open is one of these constants applied to plain data (a counter of State, or the operands).
-/
namespace Sys2Proof

/-- A free 64-bit value, one for each count. Used where the specification states no value for a result: signatures,
free choices of a line, and the like (log entry 2). -/
opaque Config.free : Nat → BitVec 64

/-- A free choice among the threads and events that may act next, one for each step (log entry 1). -/
opaque Config.choose : Nat → Nat

/-- What the outside world does next, one for each step (log entry 1): number `i` of the input chosen at a step. -/
opaque Config.inputNum : Nat → Nat → Nat

/-- Word `i` of the input chosen at a step. -/
opaque Config.inputWord : Nat → Nat → BitVec 64

/-- The set of an L2 slice, of 2,048, in which a line lies: the specification gives no indexing (log entry 65). -/
opaque Config.sliceSet : Nat → Nat

/-- How many continuations a tenant's continuation pool holds: the specification gives it a size but no number (log entry 29). -/
opaque Config.poolSize : Nat

end Sys2Proof
end

