-- ==== Sys2Proof/Machine/StateThread.lean ====
section
/-!
DEFINITION. Sys2Proof/Machine/StateThread.lean: the state of one thread, of the messages it exchanges and of the
operations it has outstanding.
-/
namespace Sys2Proof.Machine
open Sys2Proof

/-- A segment register (R49): virtual base, length in bytes, rights E A X W R in [4:0]. -/
structure Seg where
  base   : Nat
  limit  : Nat
  rights : Nat
deriving DecidableEq, Repr

/-- A 16-byte message (R125) with the thread ids of both ends, the key of a deterministic sender (R299: its launch, lane
and sequence). -/
structure Msg where
  dst    : Word
  src    : Word
  w0     : Word
  w1     : TWord
  keyed  : Option Nat
  lane   : Nat
  seq    : Nat
deriving DecidableEq, Repr

/-- A message on its way, in the outbound buffer or on the mesh (R127, R128): the core it leaves from and the accesses it
releases. -/
structure NetMsg where
  id   : Nat
  msg  : Msg
  core : Nat
  after : List Nat
deriving DecidableEq, Repr

/-- A continuation record (R217); `was` is the thread id of the thread that yielded it. -/
structure Cont where
  pc     : Nat
  args   : List TWord
  task   : Word
  reply  : Word
  inc    : Nat
  origin : Nat
  k      : Bool
  was    : Word
deriving DecidableEq, Repr

/-- A frame of the inline stack (R230, R244): return address, scope depth, gd and whether it names a special operand,
status. -/
structure InlineFrame where
  ret    : Nat
  depth  : Nat
  d      : Nat
  sp     : Bool
  status : Nat
deriving DecidableEq, Repr

/-- A trap as it is raised (R236): code, address, auxiliary word; `tip` says that a handler was running then. -/
structure Trap where
  code : Nat
  addr : Word
  aux  : Word
  tip  : Bool
deriving DecidableEq, Repr

/-- One element access of an outstanding operation: address (virtual for a global access, physical for a view access,
scratch offset for a local one), target core of a local access, size in bytes, store data or loaded value with taint,
and whether it has been performed or was refused (with the trap code and cause). -/
structure Access where
  addr   : Nat
  core   : Nat
  size   : Nat
  val    : TWord
  done   : Bool
  refuse : Nat
  cause  : Nat
deriving DecidableEq, Repr

/-- What an outstanding operation does when it is performed. -/
inductive OpKind where
  | load       -- LDG, LDL, LDLP, VLDL, VLDG, VGATH, LDV
  | loadAcq    -- LDACQ, an AMO with .aq
  | store      -- a store still waiting to enter the store buffer
  | amo        -- an atomic at the home slice
  | pref       -- PREF
  | bpack      -- BPACK, BUNPK: a panel conversion whose stores enter the store buffer
  | lattice    -- MMA, MSTORE waiting for a queue entry
  | saread     -- SAREAD
deriving DecidableEq, Repr

/-- Where an access goes. -/
inductive Space where
  | glob | loc | view | stream
deriving DecidableEq, Repr

/-- An outstanding long-latency operation (R23, R24, R25): its identity and pc, how many further instructions may issue, the
instruction itself, its accesses, its pending destinations, the address TRAPADDR takes, the taint of its address operands, its
ordering class, and the cycle of its issue; `sent` that the request of its next access is outstanding at the memory port, or,
of an atomic, that it is in the store buffer. -/
structure Op where
  id      : Nat
  pc      : Nat
  left    : Nat
  ins     : Instr
  kind    : OpKind
  space   : Space
  seg     : Nat
  off     : Nat
  acc     : List Access
  pend    : List Nat
  ataint  : Bool
  data    : List TWord
  acq     : Bool
  rel     : Bool
  tip     : Bool
  lane    : Nat
  seq     : Nat
  sent    : Bool
  born    : Nat
deriving DecidableEq, Repr

/-- A deferred trap (R25, R239), and the identity of the operation that faulted: identities rise in issue order. -/
structure Deferred where
  trap : Trap
  ord  : Nat
deriving DecidableEq, Repr

/-- Why a thread is out of rotation, the class of its turns and the condition that wakes it (R26, R38). -/
inductive Wait where
  | opsDone                 -- outstanding operations complete (MEMORY)
  | window                  -- the lookahead window (MEMORY)
  | opSlot                  -- fewer than four operations (MEMORY)
  | storeSpace              -- room in the store buffer (MEMORY)
  | drained                 -- the thread's store-buffer entries are performed, for a fence or a release (MEMORY)
  | fenced                  -- outstanding operations complete, for a fence (MEMORY)
  | acquire                 -- an acquiring operation completes (MEMORY)
  | stores                  -- the thread's store-buffer entries are performed (MEMORY)
  | combined                -- the core's write-combine buffer is empty (MEMORY)
  | fault                   -- a fault record of the thread's accesses is answered (MEMORY)
  | steps                   -- the next step of an instruction that has begun to act (MEMORY)
  | page (va : Nat)         -- a walk or a fault record on the page of va (MEMORY)
  | chord (r : Nat)         -- Chord's answer (MEMORY)
  | home (r : Nat)          -- Locus's answer to a release, an arrival or a try (MEMORY)
  | migrate (va : Nat)      -- the end of a migration (MEMORY)
  | own (line : Nat)        -- ownership of a line (MEMORY)
  | outbox                  -- room in the outbound message buffer (MEMORY)
  | tuRoom                  -- room in the transfer unit (MEMORY)
  | lqRoom                  -- room in the Lattice queue (MEMORY)
  | selftest (n : Nat)      -- a Lattice self-test (MEMORY)
  | save (k : Nat)          -- CTXSV's steps (MEMORY)
  | credit                  -- a credit return (MEMORY)
  | pool (c : Nat)          -- a core whose window is changing, or that is dead (MEMORY)
  | lost (c : Nat)          -- a core that was dead and that Apex has brought back (MEMORY)
  | bank                    -- BKMODE: the core's window becomes free of accesses (MEMORY)
  | operands (l : List Nat) -- special operands ready (EVENT)
  | mail                    -- a message (EVENT)
  | granules (n : Nat)      -- free granules (EVENT)
  | tile (n : Nat)          -- a free tile (EVENT)
  | syncWord (off gen : Nat) -- a sync word's generation (EVENT)
  | spawn (r : Nat)         -- the placement answer (EVENT)
  | locus (r : Nat)         -- Locus's answer, parked on the object (EVENT)
  | axis (k ep : Nat)       -- an Axis episode (EVENT)
  | fifo                    -- room in the run FIFO (EVENT)
  | body                    -- a delegate waiting for its next body (EVENT)
deriving DecidableEq, Repr

/-- Running, waiting, or stopped (by debug, by the runtime or Apex, by a double trap). -/
inductive Run where
  | ready
  | wait (w : Wait)
  | stopped (debug : Bool)
deriving DecidableEq, Repr

/-- The trap registers of a thread (R237). -/
structure TrapRegs where
  pc   : Word
  code : Word
  addr : Word
  aux  : Word
  pk   : Bool
  tip  : Bool
  scr0 : Word
  scr1 : Word
deriving DecidableEq, Repr

/-- A delegation record (R285): object, the virtual address that named it, return address, inline depth, scope depth; for a
delegate (`remote`) the request whose body it runs, 0 between bodies. -/
structure Deleg where
  obj    : Nat
  va     : Nat
  ret    : Nat
  inl    : Nat
  depth  : Nat
  remote : Bool
  req    : Nat
deriving DecidableEq, Repr

/-- What an instruction that waited and runs afresh finds answered: an answer code, a tainted word, and the object line or
the episode it concerns. -/
structure Answer where
  code : Nat
  val  : TWord
  ref  : Nat
deriving DecidableEq, Repr

/-- A live thread. `stopReq`: 0 none, 1 a stop asked for by CTXSV, 2 by Apex, 3 by CTXSV of a thread that was stopped already
or that Apex stops too (R243); `watch` a watchpoint it has met and `brk` the immediate of a BRK it has executed, until the
boundary that stops it (R309, R311); `resumed` says that DRES has resumed it at its breakpoint, which it now passes (R308).
`since` is when it first tried the instruction at hand and `want` what it last waited for in it, `lastRun` the cycle of its
last issue (R225), `part` how far an instruction that acts step by step has come, `got` how many keyed messages it has
dequeued from each sender (R299), `declined` a page whose fault record was declined (R55). (R129, R133, R215, R216, R218,
R237, R244, R280). -/
structure Thread where
  tenant  : Nat
  inc     : Nat
  pc      : Nat
  priv    : Bool
  window  : List Nat
  base    : Nat
  scopes  : List Nat
  frames  : List InlineFrame
  ptrs    : List TWord
  segs    : List Seg
  fpstat  : Word
  trap    : TrapRegs
  task    : Word
  reply   : Word
  mail    : List Msg
  held    : List Msg
  ops     : List Op
  nextOp  : Nat
  defers  : List Deferred
  fpx     : Option Trap
  saovf   : Option Trap
  pend    : Option Trap
  answer  : Option Answer
  locks   : Nat
  deleg   : Option Deleg
  arrival : Option (Nat × Nat)
  axis    : List (Option Nat)
  hbmiss  : List Word
  sendSeq : SMap Nat
  got     : SMap Nat
  amoSeq  : Nat
  inEnd   : List Bool
  declined : Option (Nat × Nat)
  part    : List Nat
  since   : Nat
  want    : Option Wait
  lastRun : Nat
  run     : Run
  stopReq : Nat
  watch   : Option Nat
  brk     : Option Nat
  resumed : Bool
deriving DecidableEq, Repr

/-- A slot of a core (R215, R245): its incarnation count and what it holds. -/
inductive Occupant where
  | vacant
  | live (t : Thread)
  | reserved (t : Thread) (image : Nat) (count : Nat)
deriving DecidableEq, Repr

structure Slot where
  inc : Nat
  occ : Occupant
deriving DecidableEq, Repr

end Sys2Proof.Machine
end

