-- ==== Sys2Proof/Machine/StateCore.lean ====
section
/-!
DEFINITION. Sys2Proof/Machine/StateCore.lean: the state of one core (register file, store buffers, pool banks, engines,
queues, ports, tiles, debug block) and of one cluster (Lattice, translation and view caches, prefetcher).
-/
namespace Sys2Proof.Machine
open Sys2Proof

/-- A memory: bytes in canonical form (addresses strictly rising, no byte equal to what an unlisted one reads as), the
tainted 64-bit words and the poisoned 128-byte lines, both strictly rising (R46). -/
structure Mem where
  bytes  : List Host.Cell
  taint  : List Nat
  poison : List Nat
deriving DecidableEq, Repr

/-- What an entry of the store buffer does when it is performed (R254, R197, R65). -/
inductive StKind where
  | plain | nonTemporal | release | streamAdd (src : Nat) (rel : Bool) | amo (rel : Bool)
deriving DecidableEq, Repr

/-- A store-buffer entry (R61, R109, R169, R254): slot of the storing thread, physical address (or core and offset when
local), the bytes' values as words with taint, its page's sharing and class, the virtual address, and for a view access
the handle. -/
structure SBEntry where
  id    : Nat
  slot  : Nat
  inc   : Nat
  loc   : Bool
  core  : Nat
  addr  : Nat
  va    : Nat
  size  : Nat
  data  : List TWord
  kind  : StKind
  sh    : Nat
  host  : Bool
  sw    : Bool
  wide  : Bool
  leaf  : Word
  handle : Word
  pc    : Nat
  dadd  : Bool
deriving DecidableEq, Repr

/-- An entry of the write-combine buffer (R256): a 64-byte host half with its byte mask, the page's leaf, and the virtual
addresses through which its bytes were stored. -/
structure WCEntry where
  half  : Nat
  bytes : List (Nat × Byte)
  taint : List Nat
  born  : Nat
  leaf  : Word
  vas   : List Nat
deriving DecidableEq, Repr

/-- The three modes of a pool bank (R105). -/
inductive Bank where
  | cache | scratch | fifo
deriving DecidableEq, Repr

/-- An mx register (R114): full bit, word, and the s1 descriptor of its writer. -/
structure MxReg where
  full : Bool
  w    : TWord
  s1   : Seg
deriving DecidableEq, Repr

/-- A word held in an inbound queue; a CPYQ handle names the core whose writes it acquires. -/
structure QWord where
  w   : TWord
  cpy : Bool
deriving DecidableEq, Repr

/-- An inbound queue (R139): configured depth, the FIFO bank and offset of its storage, words held, credits outstanding,
held credit requests in arrival order (producer core and outbound queue, or 4 for a transfer unit). -/
structure InQ where
  conf : Bool
  n    : Nat
  bank : Nat
  off  : Nat
  held : List QWord
  cred : Nat
  reqs : List (Nat × Nat)
deriving DecidableEq, Repr

/-- An outbound queue (R139, R141): its binding and the credits it holds; `asked` a request is outstanding, `refused`
the last request was refused. -/
structure OutQ where
  conf    : Bool
  core    : Nat
  tq      : Nat
  cred    : Nat
  asked   : Bool
  refused : Bool
deriving DecidableEq, Repr

/-- A word at an inbound stream port (R144, R145): value, end bit, aborted end marker, sender's slot id. -/
structure SWord where
  w     : TWord
  last  : Bool
  abort : Bool
  src   : Nat
deriving DecidableEq, Repr

/-- An inbound stream port (R143, R144): claimant slot, buffered words, the (core, port) whose packet is being received,
and the heads that wait. -/
structure InPort where
  owner : Option Nat
  buf   : List SWord
  rx    : Option (Nat × Nat)
  heads : List (Nat × Nat)
deriving DecidableEq, Repr

/-- An outbound stream port (R143 to R145): claimant slot, destination, open packet and when it opened, recorded abort. -/
structure OutPort where
  owner : Option Nat
  bound : Bool
  core  : Nat
  port  : Nat
  opened : Bool
  since : Nat
  abort : Bool
deriving DecidableEq, Repr

/-- An accumulator tile (R181): owner thread id, the command after which a release takes effect (the tile is free when it has
neither), poison as the issue checks see it, poison of the tile, taint, and the elements that are not +0 (index 64·row + column,
FP32 bits). -/
structure Tile where
  owner   : Option Word
  rel     : Option Nat
  poisonI : Bool
  poison  : Bool
  taint   : Bool
  el      : SMap Nat
deriving DecidableEq, Repr

/-- A Lattice command (R177, R191, R192). `kind`: 0 MMA, 1 MSTORE, 2 MZERO, 3 MFREE; `aform`: where A, or the destination
of an MSTORE, lies: 0 global (an offset in the segment), 1 local (a pointer image), 2 Radius; B is global or local. `began`
numbers the starts (0: not started); `got` are the units fetched, `abuf` and `bbuf` the words read, `pins` the lines pinned,
`kdone` the K blocks accumulated, `exec` and `skip` the pairs executed and skipped, `piece` the pieces an MSTORE has
written and `count` their bytes; `fin`: only the completion message is left. -/
structure LCmd where
  id      : Nat
  kind    : Nat
  owner   : Word
  slot    : Nat
  tile    : Nat
  ctx     : Word
  seg     : Seg
  segN    : Nat
  aform   : Nat
  aOff    : Nat
  aPtr    : Word
  bGlob   : Bool
  bOff    : Nat
  bPtr    : Word
  kreg    : Nat
  fmt     : Nat
  ord     : Bool
  addrT   : Bool
  began   : Nat
  parked  : Bool
  got     : List Nat
  abuf    : SMap Nat
  bbuf    : SMap Nat
  pins    : List Nat
  kdone   : Nat
  exec    : Nat
  skip    : Nat
  piece   : Nat
  count   : Nat
  status  : Nat
  taint   : Bool
  det     : Bool
  fin     : Bool
deriving DecidableEq, Repr

/-- A copy command of the transfer unit (R115 to R119): `op` 1 CPY, 2 CPY2D, 3 CPYQ; kinds 0 global, 1 local, 2 view; a
global operand is an offset in `seg`, a local one a pointer image, a view one a region offset under its handle, with how
often the region's slot had been taken. `status` with the source offset it belongs to; `checked` that the checks at
acceptance passed; `left` the destination pieces still to move, `moved` the bytes written, `counted` those still to be
counted into the sync word after earlier commands; `asked`, `credit` and `pushed` the progress of a CPYQ's push. -/
structure TUCmd where
  id       : Nat
  op       : Nat
  owner    : Word
  seg      : Seg
  src      : Word
  dst      : Word
  skind    : Nat
  dkind    : Nat
  hsrc     : Word
  hdst     : Word
  sepoch   : Nat
  depoch   : Nat
  len      : Nat
  rows     : Nat
  sstride  : Int
  dstride  : Int
  q        : Nat
  tag      : Nat
  target   : Word
  sync     : Word
  handle   : TWord
  ord      : Bool
  det      : Bool
  addrT    : Bool
  checked  : Bool
  accepted : Bool
  status   : Nat
  stOff    : Int
  left     : List Nat
  moved    : Nat
  counted  : Nat
  asked    : Bool
  credit   : Bool
  pushed   : Bool
deriving DecidableEq, Repr

/-- A prefetch descriptor (R123, R124): the core that installed it, its segment, the first line's virtual address, stride and
extent, C and the named core, lead, consumption index and lines issued. -/
structure PDesc where
  core   : Nat
  seg    : Seg
  base   : Nat
  stride : Int
  extent : Nat
  c      : Bool
  named  : Nat
  lead   : Nat
  ic     : Nat
  issued : Nat
deriving DecidableEq, Repr

/-- A SPAWN request at its target core, with the time of its arrival (R230). -/
structure SpawnReq where
  id    : Nat
  src   : Nat
  slot  : Nat
  inc   : Nat
  cont  : Cont
  full  : Bool
  arrived : Bool
  after : List Nat
  since : Nat
deriving DecidableEq, Repr

/-- An entry of the FP collection window (R240). -/
structure FPEntry where
  slot  : Nat
  inc   : Nat
  cycle : Nat
  addr  : Word
  flags : Nat
  pc    : Nat
deriving DecidableEq, Repr

/-- The debug block of a core (R308). -/
structure Debug where
  bp  : List Word
  bpm : List Word
  wp  : List Word
  wpm : List Word
deriving DecidableEq, Repr

/-- A core (R5, R105, R114, R129, R139, R143, R175, R181, R254, R256, R261, R308, R312). `lqWait` are the Lattice commands that
have issued and wait for a queue entry, in issue order (R177, R191); `rot` is the turn of the strict rotation of a core that
belongs to a deterministic launch (R226); `plan` is the pool plan last applied (R221), and `late` the operations, stores and
commands that waited for the core when Apex brought it back (R248). -/
structure Core where
  slots   : SMap Slot
  rf      : SMap TWord
  sb      : List SBEntry
  wc      : List WCEntry
  parked  : List SBEntry
  lthold  : Bool
  banks   : List Bank
  win     : Mem
  pubWin  : Nat
  moving  : Bool
  mx      : List MxReg
  inq     : List InQ
  outq    : List OutQ
  inp     : List InPort
  outp    : List OutPort
  fmt     : Word
  tiles   : List Tile
  lq      : List LCmd
  lqWait  : List LCmd
  tu      : List TUCmd
  outbox  : List NetMsg
  fifo    : List (Cont × Nat)
  spawns  : List SpawnReq
  fpwin   : List FPEntry
  dbg     : Debug
  perf    : SMap Nat
  lastIss : List Nat
  launch  : Option (Nat × Nat)
  rot     : Nat
  dead    : Bool
  fenced  : Bool
  plan    : List Bank
  late    : List Nat
deriving DecidableEq, Repr

/-- An entry of a port's translation cache (R54): virtual page base, level of the leaf, the leaf entry, and the second-stage
results it holds: the physical base of each 64 KiB granule of the page (of its 4 KiB, where the page has no more). An entry of
a granule map (R71) has a number past every virtual page, the region's epoch for its leaf and the granule frame's base. -/
structure TLBEntry where
  va    : Nat
  level : Nat
  leaf  : Word
  second : SMap Nat
deriving DecidableEq, Repr

/-- An entry of a port's view cache (R78), with which use of the region slot it was fetched in and that region's SH. -/
structure VCEntry where
  region : Nat
  view   : Nat
  gen    : Nat
  start  : Nat
  len    : Nat
  epoch  : Nat
  sh     : Nat
deriving DecidableEq, Repr

/-- A partial count at a TREE combiner (R271). -/
structure Combine where
  obj   : Nat
  count : Nat
deriving DecidableEq, Repr

/-- A cluster (R4, R54, R78, R123, R177, R184, R288): MXWGT, the fenced sub-arrays, the self-tests passed and run,
the commands started and the tenants served since the last that passed, the turn of the round robin with the starts made in
it, and how many other commands have started while each queue's head waited. -/
structure Cluster where
  mxwgt   : Word
  fence   : Nat
  tests   : Nat
  since   : Nat
  users   : List Nat
  ran     : Nat
  turn    : Nat
  turnN   : Nat
  aged    : List Nat
  tlb     : List TLBEntry
  vcache  : List VCEntry
  pdesc   : SMap PDesc
  axis    : List Nat
  comb    : List Combine
  gated   : Bool
deriving DecidableEq, Repr

end Sys2Proof.Machine
end

