-- ==== Sys2Proof/Machine/StateSystem.lean ====
section
/-!
DEFINITION. Sys2Proof/Machine/StateSystem.lean: what lies beyond the cores: tenants and their rings, covered and STREAM
regions, sync objects, coherence of lines, migrations, dies, links, fabric, security and bring-up.
-/
namespace Sys2Proof.Machine
open Sys2Proof

/-- A launch or fabric send ring (R219, R315 to R317, R330): base, control word, host write pointer, read pointer, address
of the device write-pointer word, last accepted write pointer. -/
structure Ring where
  base : Nat
  ctl  : Word
  wp   : Nat
  rp   : Nat
  wa   : Nat
  acc  : Nat
deriving DecidableEq, Repr

/-- A notification or fault ring (R315 to R318); `fired` says its vector has fired since software last wrote RP. -/
structure RecRing where
  base  : Nat
  ctl   : Word
  wp    : Nat
  rp    : Nat
  drop  : Nat
  fired : Bool
  mask  : Bool
  waiting : List (List Word)
deriving DecidableEq, Repr

/-- An access waiting for a walk or for the runtime's answer (R54, R55): a thread (core, slot) or an engine, the virtual page
address, access type, the record id once posted with the cause, and whether an engine's fault was declined. who: 0 thread, 1
transfer unit, 2 Lattice, 3 stream row, 4 fabric, 5 dispatcher, 6 CTXSV (slot: the thread saved), and of a granule map (R71) 7
thread, 8 transfer unit (acc: the epoch); 9 prefetcher. -/
structure Walk where
  id     : Nat
  tenant : Nat
  who    : Nat
  core   : Nat
  slot   : Nat
  va     : Nat
  acc    : Nat
  busy   : Bool
  record : Option Nat
  cause  : Nat
  declined : Bool
deriving DecidableEq, Repr

/-- A live launch (R219 to R223): header words, ring, threads admitted, group, lanes placed; the cores among which its lanes are
numbered, as they were at its creation (R222, R226); `lost` that a thread that carried its id has been lost with its core
(R223, R248). -/
structure Launch where
  hdr      : List Word
  hva      : Nat
  queue    : Nat
  admitted : Nat
  created  : Bool
  group    : Nat
  placed   : Nat
  cores    : List Nat
  lost     : Bool
deriving DecidableEq, Repr

/-- A view slot (R73): generation, live bit, span in granules. -/
structure View where
  gen   : Nat
  live  : Bool
  start : Nat
  len   : Nat
deriving DecidableEq, Repr

/-- A covered region slot (R70 to R76): live bit, how often it has been taken, die, sharing, N, length in granules, view
slots, how many of them have been live in this region (R296), granule map. -/
structure Region where
  live   : Bool
  epoch  : Nat
  die    : Nat
  sh     : Nat
  notify : Bool
  len    : Nat
  views  : SMap View
  used   : Nat
  frames : SMap Nat
deriving DecidableEq, Repr

/-- A row of a STREAM region (R196): elements that are not 0 (48-bit integers), sum of squares, counters, flags; `fmt` the
format of an eviction that is scheduled, `used` when it was last used, `wait` the adds and snapshots that wait at its home slice,
in the order of their arrival (R206). -/
structure Row where
  x       : SMap Int
  ss      : Nat
  adds    : Nat
  version : Nat
  p       : Bool
  img     : Bool
  res     : Bool
  t       : Bool
  inv     : Bool
  ovf     : Bool
  fmt     : Option Nat
  used    : Nat
  wait    : List Nat
deriving DecidableEq, Repr

/-- A live STREAM region (R194, R207). -/
structure SRegion where
  base  : Nat
  rows  : Nat
  len   : Nat
  f     : Nat
  eps   : Nat
  gamma : SMap Nat
  die   : Nat
  ot    : Bool
  z     : Bool
  segB  : Nat
  back  : Nat
  row   : SMap Row
deriving DecidableEq, Repr

/-- A SAEVICT awaiting its SADONE (R211): its number, the issuing thread, region index, rows still to write, slots written,
status. -/
structure Evict where
  id     : Nat
  owner  : Word
  region : Nat
  todo   : List Nat
  count  : Nat
  status : Nat
deriving DecidableEq, Repr

/-- A hash job (R306, R307): thread, addresses, units, periodic interval, count of jobs completed, busy. -/
structure HashJob where
  id     : Nat
  owner  : Word
  va     : Nat
  out    : Nat
  n      : Nat
  period : Option Nat
  count  : Nat
  busy   : Bool
  next   : Nat
deriving DecidableEq, Repr

/-- A transfer of a fabric connection in progress (R330, R331): its ring entry, the frames sent, in all, and acknowledged, and
its status so far. -/
structure Xfer where
  entry : List Word
  sent  : Nat
  total : Nat
  acked : Nat
  status : Nat
deriving DecidableEq, Repr

/-- What PV-X1 keeps for a connection (R328, R331): CONNECT frames sent and when the last was; the oldest unacknowledged PSN
and the DATA frames sent from it on; the next PSN expected, frames received but not acknowledged, bytes written of the
transfer being received; the cycle of the last progress and resends since; its transfers in order. PSNs count without
end here and stand modulo 2^32 in a frame. -/
structure Conn where
  tries  : Nat
  since  : Nat
  acked  : Nat
  window : List (List Word)
  expect : Nat
  unack  : Nat
  got    : Nat
  prog   : Nat
  resent : Nat
  xfers  : List Xfer
deriving DecidableEq, Repr

/-- A tenant (R2, R51, R71, R219, R228, R241, R304, R315, R334). -/
structure Tenant where
  quads    : List Nat
  trapvec  : Word
  ttroot   : Word
  savebase : Word
  savesize : Word
  cvquota  : Word
  tntctl   : Word
  window   : SMap Nat
  hostMap  : SMap Nat
  lq       : List Ring
  fs       : Ring
  nq       : RecRing
  fq       : RecRing
  fcbase   : Word
  fcctl    : Word
  nextLaunch : Nat
  launches : SMap Launch
  nextGroup : Nat
  groups   : SMap Nat
  pool     : List (Nat × Cont)
  regions  : SMap Region
  streams  : SMap SRegion
  evicts   : List Evict
  conflicts : SMap Nat
  conns    : SMap Conn
  nextRec  : Nat
  tdi      : Nat
  locked   : Bool
deriving DecidableEq, Repr

/-- A listed spinner (R268): its thread, the request it retries, its sequence number and how often it was passed. -/
structure Spin where
  tid    : Word
  req    : Nat
  seq    : Nat
  bypass : Nat
deriving DecidableEq, Repr

/-- A queued entry (R269, R270): its thread, logical lane and request; `dlg` a SYDLG. -/
structure QEnt where
  tid  : Word
  lane : Nat
  req  : Nat
  dlg  : Bool
deriving DecidableEq, Repr

/-- A waiting thread of a phase (R275). -/
structure PWait where
  tid    : Word
  target : Nat
  req    : Nat
deriving DecidableEq, Repr

/-- What Locus keeps privately for one object line (R267 to R273). For a LOCK: the owner, the spinners, the queue, the
sequence counter, the mode changes, the peak of waiters and whether the queue was non-empty or the lock held in the window,
`gap` that no window has begun since the last change, the windows in a row that were idle and that were long, the delegate's
thread id once admitted, the request whose body waits for the delegate to be restored, when the window in progress ends (0:
none is), and the task word of its creator. For a PHASE: the members that have not arrived, the early arrivals, the threads
that joined in the phase, the waiters, the arrivals with the times of the first and the last, and the phases in a row that
failed the test. -/
structure SyncObj where
  owner    : Word
  spin     : List Spin
  queue    : List QEnt
  seq      : Nat
  changes  : Nat
  peak     : Nat
  nonEmpty : Bool
  heldWin  : Bool
  gap      : Bool
  idle     : Nat
  long     : Nat
  delTid   : Option Word
  pend     : Nat
  winEnd   : Nat
  task     : Word
  need     : Nat
  early    : Nat
  joined   : List Word
  wait     : List PWait
  arrivals : Nat
  firstAt  : Nat
  lastAt   : Nat
  fails    : Nat
deriving DecidableEq, Repr

/-- A request to Locus, or its answer, in flight (R268, R276). `kind`: 0 SYACQ, 1 SYTRY, 2 SYDLG, 4 release, 5 withdrawal,
6 grant acknowledgement, 7 grant returned, 8 arrival, 9 phase wait, 10 leave. `ref` is the request that a withdrawal names,
or the phase of an arrival, wait or leave; `fails` counts its FAILs, `ans` the answer: 0 none, 1 OK, 2 FAIL, 3 ENROLLED,
4 GRANT, 5 TIMEOUT, 6 RUN, 16 + n the refusal with subcause n; `gone` that the thread no longer waits for it. -/
structure SyncReq where
  id    : Nat
  kind  : Nat
  obj   : Nat
  tid   : Word
  core  : Nat
  slot  : Nat
  lane  : Nat
  body  : Nat
  args  : List TWord
  ref   : Nat
  fails : Nat
  ans   : Nat
  gone  : Bool
  after : List Nat
deriving DecidableEq, Repr

/-- A word registered to a core (R91, R92): registrant, its value with taint, and the store in flight for which a recall is
pending. -/
structure RegWord where
  core   : Nat
  w      : TWord
  asker : Option Nat
deriving DecidableEq, Repr

/-- A store in flight from a store buffer to its home (R91, R254). `stage`: 0 on its way, 1 waiting for recalls, 2 performed
and not yet acknowledged, 3 waiting for ownership or a half; `left` the words still to be applied while recalls are pending. -/
structure Flight where
  id    : Nat
  core  : Nat
  entry : SBEntry
  stage : Nat
  left  : List Nat
deriving DecidableEq, Repr

/-- A directory entry (R93, R94). -/
inductive Dir where
  | ptr (l : List Nat)
  | coarse (v : Nat)
  | owned (c : Nat)
  | waiting (k : Nat) (writer : Nat) (inv : List Nat)
  | recalling (o : Nat) (c : Nat) (write : Bool)
deriving DecidableEq, Repr

/-- A line held outside its home (R90, R93, R101): its sixteen words, dirty words, whether it is owned, and whether it belongs
to a page with software coherence. -/
structure Copy where
  words : List TWord
  dirty : List Nat
  owned : Bool
  sw    : Bool
deriving DecidableEq, Repr

/-- A bridge half entry (R97, R100): state 1 S, 2 E, 3 M; when it was last used; pending requests; while it is in E or M when
its lease began, the state it had before, and its last written-back words. -/
structure Half where
  st    : Nat
  used  : Nat
  busy  : Bool
  since : Nat
  pre   : Nat
  back  : List TWord
deriving DecidableEq, Repr

/-- A contribution to a word by an AMOFADD of a deterministic launch (R301): lane, number, the item's offset in the word and
size in bytes, operand. -/
structure AddItem where
  lane : Nat
  seq  : Nat
  off  : Nat
  size : Nat
  val  : Nat
deriving DecidableEq, Repr

/-- The domain that a word belongs to until its launch ends (tenant, launch), with the list of pending contributions in
ascending (lane, number) (R301). -/
structure AddList where
  tenant : Nat
  launch : Nat
  items  : List AddItem
deriving DecidableEq, Repr

/-- A page migration (R60). -/
structure Mig where
  id     : Nat
  tenant : Nat
  owner  : Word
  va     : Nat
  level  : Nat
  entry  : Nat
  oldIA  : Nat
  newIA  : Nat
  next   : Nat
  copied : Bool
deriving DecidableEq, Repr

/-- A granule frame being freed (R76): tenant, region with its epoch, view slot and granule it came from; whether it is
retired and whether it is back in the pool; the operation and the run it belongs to, and whether the run is recorded
(N = 1). -/
structure Free where
  tenant : Nat
  region : Nat
  epoch  : Nat
  view   : Nat
  granule : Nat
  frame  : Nat
  retired : Bool
  done   : Bool
  op     : Nat
  run    : Nat
  note   : Bool
deriving DecidableEq, Repr

/-- A die (R1, R71, R54, R324, R325): granule pool, the 64 KiB frames Chord has drawn, frames being freed, walks in progress,
and whether the die has been lost. -/
structure Die where
  granules : List Nat
  frames   : List Nat
  frees    : List Free
  walks    : Nat
  trained  : Bool
  gone     : Bool
deriving DecidableEq, Repr

/-- A view operation on its way to Chord, or performed and waiting for its invalidations (R75, R78, R82): the instruction,
the address after it, its results, the view whose entries are invalidated, and the values of d, a and b read at issue. -/
structure ViewReq where
  id     : Nat
  core   : Nat
  slot   : Nat
  ins    : Instr
  next   : Nat
  done   : Bool
  out    : List TWord
  region : Nat
  view   : Nat
  vals   : List TWord
deriving DecidableEq, Repr

/-- An SPL link at a UCIe edge (R320 to R326): up, accepted, the credits each side may use per class, the retraining
count, when it came up. -/
structure Link where
  up      : Bool
  ok      : Bool
  refused : Bool
  kind    : Nat
  credits : SMap Nat
  offered : SMap Nat
  retrain : Nat
  since   : Nat
  dropped : Nat
deriving DecidableEq, Repr

/-- A memory request or response at a memory hub, or a message on a link (R321, R322). -/
structure HubMsg where
  tag  : Nat
  die  : Nat
  op   : Nat
  addr : Nat
  data : List TWord
  poison : Bool
deriving DecidableEq, Repr

/-- An Axis context (R288, R290). -/
structure Axis where
  held   : Bool
  tenant : Nat
  y0     : Nat
  x0     : Nat
  y1     : Nat
  x1     : Nat
  tmo    : Nat
  p      : Nat
  ep     : Nat
  start  : Option Nat
  ended  : SMap (List Word)
deriving DecidableEq, Repr

/-- PV-X0 and the boot (R333 to R336): stage begun, error, detail, ready; fused counter and keys; SPDM session; `faults` the
page faults reported to Apex (R55). -/
structure Boot where
  rdy      : Bool
  stage    : Nat
  err      : Nat
  detail   : Nat
  fuseVer  : Nat
  fuseEd   : Nat
  fuseMl   : Nat
  images   : SMap Nat
  desc     : SMap (List Byte)
  spdm     : Nat
  session  : Nat
  responses : List (Nat × Nat)
  fabid    : Option Nat
  ports    : List Bool
  frames   : List (List Word)
  badFrames : Nat
  hdm      : SMap Nat
  corrected : Nat
  msix     : List Nat
  cfgRetry : Nat
  faults   : List (List Word)
deriving DecidableEq, Repr

end Sys2Proof.Machine
end

