-- ==== Sys2Proof/Machine/State.lean ====
section
/-!
DEFINITION. Sys2Proof/Machine/State.lean: the whole state of a PV4-A module, its reset value, and the reasons for a stop.
-/
namespace Sys2Proof.Machine
open Sys2Proof

/-- A word in flight to an inbound queue (kind 0) or stream port (kind 1) of a core (R140, R144). -/
structure Flit where
  id   : Nat
  kind : Nat
  core : Nat
  port : Nat
  word : SWord
  cpy  : Bool
  srcC : Nat
  srcP : Nat
  after : List Nat
deriving DecidableEq, Repr

/-- A request for a directory line that waits at its home (R94). -/
structure DirReq where
  cl    : Nat
  write : Bool
deriving DecidableEq, Repr

/-- What an event of the machine acts on: numbers (core, slot, line, …, as Syntax lists them for it) and words. -/
structure Arg where
  nums : List Nat
  vals : List TWord
deriving DecidableEq, Repr

/-- An event that may take place, with what it acts on. -/
structure Event where
  ev  : Instr
  arg : Arg
deriving DecidableEq, Repr

/-- The module. `cores`, `clusters`, `tenants` and the other tables list what differs from reset; `mem` holds device memory at
its physical addresses (R43) and host memory at 2^60 plus its address. `next` is the address after the base parcel of the
instruction being executed (a field of the model: R27's `next`), `cur` the core and slot it issues from, `now` the cycle count
since reset (R241), `tick` the counter that free values are drawn with (a field of the model), and `due` the events that may
take place, and `arg` what the event being performed acts on (fields of the model); `hostHeld` the 64-byte halves of device
memory that the host may hold in its caches (R319). -/
structure State where
  cores    : SMap Core
  clusters : SMap Cluster
  tenants  : SMap Tenant
  mem      : Mem
  regw     : SMap RegWord
  dir      : SMap Dir
  dirq     : SMap (List DirReq)
  copies   : SMap Copy
  notices  : List (Nat × Nat)
  leases   : SMap Nat
  resident : SMap Nat
  halves   : SMap Half
  halfWait : List Nat
  hostHeld : List Nat
  addl     : SMap AddList
  hot      : SMap Word
  walks    : List Walk
  flights  : List Flight
  migs     : List Mig
  objs     : SMap SyncObj
  reqs     : List SyncReq
  vreqs    : List ViewReq
  hashes   : SMap (List HashJob)
  net      : List NetMsg
  flits    : List Flit
  dies     : SMap Die
  links    : SMap Link
  hub      : List HubMsg
  axis     : List Axis
  boot     : Boot
  nextId   : Nat
  now      : Nat
  tick     : Nat
  next     : Nat
  cur      : Option (Nat × Nat)
  due      : List Event
  arg      : Arg
deriving DecidableEq, Repr

/-- The reasons for which the machine stops with a fault. -/
inductive Fault where
  /-- Raised by HOST_MEM_ACCESS and by a request to a die's memory hub (RD, WR, WRM, ZERO, SCRUB) whose address holds no
  memory (R43): the specification says that such an access cannot arise. Safe: nothing is claimed of what follows. -/
  | unpopulated (pa : Nat)
deriving DecidableEq, Repr

/-- The reasons for which an instruction has no meaning here. -/
inductive Refusal where
  /-- Raised by the dispatch of an instruction that the model gives no meaning. Safe: nothing is claimed of it. -/
  | notModelled (mnemonic : String)
deriving DecidableEq, Repr

/-- A memory in which nothing is written. -/
def Mem.empty : Mem := ⟨[], [], []⟩

/-- A segment register before anything loads it (R49). -/
def Seg.zero : Seg := ⟨0, 0, 0⟩

/-- The trap registers of a new thread: zero (no reset value is stated; a log entry names it). -/
def TrapRegs.zero : TrapRegs := ⟨0, 0, 0, 0, false, false, 0, 0⟩

/-- A slot at reset: vacant, no incarnation given yet (R127). -/
def Slot.reset : Slot := ⟨0, .vacant⟩

def MxReg.reset : MxReg := ⟨false, TWord.zero, Seg.zero⟩
def InQ.reset : InQ := ⟨false, 0, 0, 0, [], 0, []⟩
def OutQ.reset : OutQ := ⟨false, 0, 0, 0, false, false⟩
def InPort.reset : InPort := ⟨none, [], none, []⟩
def OutPort.reset : OutPort := ⟨none, false, 0, 0, false, 0, false⟩
def Tile.reset : Tile := ⟨none, none, false, false, false, []⟩

/-- The default pool plan 8,3,1 (R105). -/
def defaultBanks : List Bank :=
  [.cache, .cache, .cache, .cache, .cache, .cache, .cache, .cache, .scratch, .scratch, .scratch, .fifo]

def Debug.reset : Debug :=
  ⟨List.replicate 8 0, List.replicate 8 0, List.replicate 4 0, List.replicate 4 0⟩

/-- A core at reset: the default plan (R105), every slot vacant, the format context 0x7FFF (R175). -/
def Core.reset : Core :=
  { slots := [], rf := [], sb := [], wc := [], parked := [], lthold := false, banks := defaultBanks, win := Mem.empty,
    pubWin := 0x60000, moving := false, mx := List.replicate 4 MxReg.reset, inq := List.replicate 4 InQ.reset,
    outq := List.replicate 4 OutQ.reset, inp := List.replicate 2 InPort.reset, outp := List.replicate 2 OutPort.reset,
    fmt := 0x7FFF, tiles := List.replicate 2 Tile.reset, lq := [], lqWait := [], tu := [], outbox := [], fifo := [], spawns := [],
    fpwin := [], dbg := Debug.reset, perf := [], lastIss := [63, 63, 63, 63], launch := none, rot := 0, dead := false,
    fenced := false, plan := defaultBanks, late := [] }

/-- A cluster at reset: MXWGT 0x1111_1111 (R177), no sub-array fenced, empty caches. -/
def Cluster.reset : Cluster :=
  { mxwgt := 0x11111111, fence := 0, tests := 0, since := 0, users := [], ran := 0, turn := 0, turnN := 0,
    aged := List.replicate 8 0, tlb := [], vcache := [], pdesc := [], axis := List.replicate 4 0, comb := [],
    gated := false }

def Ring.reset : Ring := ⟨0, 0, 0, 0, 0, 0⟩
def RecRing.reset : RecRing := ⟨0, 0, 0, 0, 0, false, false, []⟩

/-- A tenant just created (R219, R228, R242): every tenant-scope register 0, id counters afresh, rings disabled. -/
def Tenant.reset : Tenant :=
  { quads := [], trapvec := 0, ttroot := 0, savebase := 0, savesize := 0, cvquota := 0, tntctl := 0, window := [],
    hostMap := [], lq := List.replicate 4 Ring.reset, fs := Ring.reset, nq := RecRing.reset, fq := RecRing.reset,
    fcbase := 0, fcctl := 0, nextLaunch := 0, launches := [], nextGroup := 1, groups := [], pool := [], regions := [],
    streams := [], evicts := [], conflicts := [], conns := [], nextRec := 0, tdi := 0, locked := false }

/-- A die before training (R336). -/
def Die.reset : Die := ⟨[], [], [], 0, false, false⟩

def Link.reset : Link := ⟨false, false, false, 0, [], [], 0, 0, 0⟩

def Axis.reset : Axis := ⟨false, 0, 0, 0, 0, 0, 0, 0, 0, none, []⟩

/-- PV-X0 before power is good (R336): DEVSTAT reads 0. -/
def Boot.reset : Boot :=
  { rdy := false, stage := 0, err := 0, detail := 0, fuseVer := 0, fuseEd := 0, fuseMl := 0, images := [], desc := [],
    spdm := 0, session := 0, responses := [], fabid := none, ports := List.replicate 8 true, frames := [],
    badFrames := 0, hdm := [], corrected := 0, msix := [], cfgRetry := 0, faults := [] }

/-- The module right after reset. -/
def State.reset : State :=
  { cores := [], clusters := [], tenants := [], mem := Mem.empty, regw := [], dir := [], dirq := [], copies := [],
    notices := [], leases := [], resident := [], halves := [], halfWait := [], hostHeld := [], addl := [], hot := [],
    walks := [], flights := [], migs := [], objs := [], reqs := [], vreqs := [], hashes := [], net := [], flits := [],
    dies := [], links := [], hub := [], axis := List.replicate 4 Axis.reset, boot := Boot.reset, nextId := 0, now := 0,
    tick := 0, next := 0, cur := none, due := [], arg := ⟨[], []⟩ }

end Sys2Proof.Machine
end

