-- ==== Sys2Proof/Machine/Memory.lean ====
section
/-!
DEFINITION. Sys2Proof/Machine/Memory.lean: memory bytes in canonical form, homes, two-stage translation, and the coherent
value of a word wherever it is held (R43 to R56, R90 to R102).
-/
namespace Sys2Proof.Machine
open Sys2Proof

/-! ### Bytes, words, taint and poison of one memory -/

/-- The byte at an address; an unlisted byte reads as zero (frames enter a tenant zeroed, R263, R76; log entry 3). -/
def cellGet (l : List Host.Cell) (a : Nat) : Byte :=
  match l with
  | [] => 0
  | (x, b) :: r => if x = a then b else cellGet r a

/-- The list with byte `b` at `a`, in canonical form: rising addresses, no zero byte listed. -/
def cellSet (l : List Host.Cell) (a : Nat) (b : Byte) : List Host.Cell :=
  match l with
  | [] => if b = 0 then [] else [(a, b)]
  | (x, y) :: r =>
    if a < x then (if b = 0 then (x, y) :: r else (a, b) :: (x, y) :: r)
    else if x = a then (if b = 0 then r else (a, b) :: r)
    else (x, y) :: cellSet r a b

/-- The canonical form of a byte list: addresses strictly rising from `lo`, no zero byte. -/
def cellsWf (lo : Nat) (l : List Host.Cell) : Bool :=
  match l with
  | [] => true
  | (x, b) :: r => lo ≤ x && b ≠ 0 && cellsWf (x + 1) r

/-- A strictly rising list of numbers. -/
def risingFrom (lo : Nat) (l : List Nat) : Bool :=
  match l with
  | [] => true
  | x :: r => lo ≤ x && risingFrom (x + 1) r

/-- The canonical form of a memory. -/
def Mem.wf (m : Mem) : Bool := cellsWf 0 m.bytes && risingFrom 0 m.taint && risingFrom 0 m.poison

def Mem.byte (m : Mem) (a : Nat) : Byte := cellGet m.bytes a
def Mem.setByte (m : Mem) (a : Nat) (b : Byte) : Mem := { m with bytes := cellSet m.bytes a b }

/-- `n` bytes from `a`, little-endian (R9). -/
def Mem.readN (m : Mem) (a n : Nat) : Nat :=
  match n with
  | 0 => 0
  | k + 1 => (m.byte a).toNat + 256 * m.readN (a + 1) k

/-- Write the low `n` bytes of `v` at `a`, little-endian. -/
def Mem.writeN (m : Mem) (a n v : Nat) : Mem :=
  match n with
  | 0 => m
  | k + 1 => (m.setByte a (BitVec.ofNat 8 (v % 256))).writeN (a + 1) k (v / 256)

/-- Put a number into, or take it out of, a rising list. -/
def setMember (l : List Nat) (n : Nat) (on : Bool) : List Nat :=
  if on then insSorted l n else l.filter (fun x => x ≠ n)

def Mem.tainted (m : Mem) (w : Nat) : Bool := m.taint.contains w
def Mem.setTaint (m : Mem) (w : Nat) (t : Bool) : Mem := { m with taint := setMember m.taint w t }
def Mem.poisoned (m : Mem) (line : Nat) : Bool := m.poison.contains line
def Mem.setPoison (m : Mem) (line : Nat) (p : Bool) : Mem := { m with poison := setMember m.poison line p }

/-- The word of index `w` (address 8·w) with its taint. -/
def Mem.word (m : Mem) (w : Nat) : TWord := ⟨w64 (m.readN (8 * w) 8), m.tainted w⟩
def Mem.setWord (m : Mem) (w : Nat) (v : TWord) : Mem := (m.writeN (8 * w) 8 v.v.toNat).setTaint w v.t

/-- Replace `size` bytes of a word from byte `o` on by the low bytes of `v`. -/
def spliceWord (old : Word) (o size : Nat) (v : Word) : Word :=
  let x := old.toNat
  let lo := x % 2 ^ (8 * o)
  let hi := x / 2 ^ (8 * (o + size))
  w64 (lo + 2 ^ (8 * o) * (v.toNat % 2 ^ (8 * size)) + 2 ^ (8 * (o + size)) * hi)

/-- What a store of `size` bytes at byte `o` makes of a word (R61): a full word takes the data's taint, a narrower store
ORs it in. -/
def storeInto (old : TWord) (o size : Nat) (v : TWord) : TWord :=
  if size = 8 then v else ⟨spliceWord old.v o size v.v, old.t || v.t⟩

/-- A store of up to 8 bytes, naturally aligned; a poisoned line is left as it is (R48). -/
def Mem.store (m : Mem) (a size : Nat) (v : TWord) : Mem :=
  if m.poisoned (a / 128) then m else m.setWord (a / 8) (storeInto (m.word (a / 8)) (a % 8) size v)

/-- A load of up to 8 bytes: the item and its word's taint. -/
def Mem.load (m : Mem) (a size : Nat) : TWord :=
  ⟨w64 ((m.word (a / 8)).v.toNat / 2 ^ (8 * (a % 8)) % 2 ^ (8 * size)), (m.word (a / 8)).t⟩

/-- A line written whole as zero, with a new check, clear poison and clear taint (R47, R322). -/
def Mem.zeroLine (m : Mem) (line : Nat) : Mem :=
  let m := m.writeN (128 * line) 128 0
  { m with taint := m.taint.filter (fun w => w / 16 ≠ line), poison := setMember m.poison line false }

/-- CRC-32C over bytes, reflected polynomial 0x82F63B78 (R46): the carriage check of a line is a function of its bytes,
so it is computed and not stored. -/
def crcStep (c : Nat) (k : Nat) : Nat :=
  match k with
  | 0 => c
  | n + 1 => crcStep (if c % 2 = 1 then Nat.xor (c / 2) 0x82F63B78 else c / 2) n
def crc32c (bs : List Byte) : Nat :=
  Nat.xor (bs.foldl (fun c b => crcStep (Nat.xor c b.toNat) 8) 0xFFFFFFFF) 0xFFFFFFFF

/-! ### Tables of the state -/

def State.core (s : State) (c : Nat) : Core := SMap.get s.cores c Core.reset
/-- Local accesses to the core wait at their issuer: its window is changing (R111), or it is dead and Apex has not acted yet
(R248). -/
def Core.shut (x : Core) : Bool := x.moving || x.dead
def State.setCore (s : State) (c : Nat) (x : Core) : State := { s with cores := SMap.set s.cores c x }
def State.cluster (s : State) (cl : Nat) : Cluster := SMap.get s.clusters cl Cluster.reset
def State.setCluster (s : State) (cl : Nat) (x : Cluster) : State := { s with clusters := SMap.set s.clusters cl x }
def State.tenant (s : State) (t : Nat) : Tenant := SMap.get s.tenants t Tenant.reset
def State.setTenant (s : State) (t : Nat) (x : Tenant) : State := { s with tenants := SMap.set s.tenants t x }
def State.die (s : State) (d : Nat) : Die := SMap.get s.dies d Die.reset
def State.setDie (s : State) (d : Nat) (x : Die) : State := { s with dies := SMap.set s.dies d x }

/-- Put events into the set of those that may take place. -/
def State.post (s : State) (es : List Event) : State := { s with due := s.due ++ es }

/-- An event with the numbers it acts on. -/
def evt (i : Instr) (ns : List Nat) : Event := ⟨i, ⟨ns, []⟩⟩

/-- What the event at hand acts on. -/
def State.argN (s : State) (i : Nat) : Nat := nthD s.arg.nums i 0
def State.argW (s : State) (i : Nat) : TWord := nthD s.arg.vals i TWord.zero

/-- A fresh identity for a request. -/
def State.fresh (s : State) : Nat × State := (s.nextId, { s with nextId := s.nextId + 1 })

/-- A free value: the next of Config.free, and the counter moved on. -/
def State.freeVal (s : State) : Word × State := (Config.free s.tick, { s with tick := s.tick + 1 })

/-! ### Coordinates and homes (R2, R7, R44) -/

def quadOf (cl : Nat) : Nat := cl / 64 * 4 + cl % 16 / 4
def dieOf (cl : Nat) : Nat := cl / 128 * 2 + cl % 16 / 8
def dieOfQuad (q : Nat) : Nat := q / 8 * 2 + q % 4 / 2

/-- The tenant that holds a cluster's quadrant, if any. -/
def State.ownerOf (s : State) (cl : Nat) : Option Nat :=
  (s.tenants.find? (fun p => p.2.quads.contains (quadOf cl))).map Prod.fst

/-- The corner of a partition: its lowest row and lowest column (log entry 7: logical coordinates count from there). -/
def Tenant.y0 (t : Tenant) : Nat := (t.quads.foldl (fun m q => min m (q / 4)) 3) * 4
def Tenant.x0 (t : Tenant) : Nat := (t.quads.foldl (fun m q => min m (q % 4)) 3) * 4

/-- Logical row and column of a cluster. -/
def Tenant.logical (t : Tenant) (cl : Nat) : Nat × Nat := (cl / 16 - t.y0, cl % 16 - t.x0)

/-- The core at logical (y, x, c), where it lies in the partition and Apex has not fenced it. -/
def State.coreAt (s : State) (t : Nat) (y x c : Nat) : Option Nat :=
  let tn := s.tenant t
  let py := y + tn.y0
  let px := x + tn.x0
  if py < 16 && px < 16 && tn.quads.contains (quadOf (16 * py + px)) && !(s.core ((16 * py + px) * 8 + c)).fenced
  then some ((16 * py + px) * 8 + c) else none

/-- The sixteen clusters of a quadrant in ascending (y, x). -/
def quadClusters (q : Nat) : List Nat :=
  (List.range 16).map (fun i => (q / 4 * 4 + i / 4) * 16 + q % 4 * 4 + i % 4)

/-- A tenant's slices on one die, or on the module, numbered by R44. -/
def Tenant.slicesOn (t : Tenant) (d : Nat) : List Nat :=
  ((List.range 16).filter (fun q => t.quads.contains q && dieOfQuad q = d)).flatMap quadClusters
def Tenant.slices (t : Tenant) : List Nat :=
  ((List.range 16).filter (fun q => t.quads.contains q)).flatMap quadClusters

/-- Where host memory begins among the model's addresses. -/
def hostBase : Nat := 2 ^ 60

/-- The hash of R44. -/
def homeHash (pa : Nat) : Nat := Nat.xor (Nat.xor (pa / 128 % 65536) (pa / 2 ^ 23 % 32768)) 0x5A3C

/-- The home slice of a line for a tenant (R44). -/
def State.home (s : State) (t : Nat) (pa : Nat) : Nat :=
  let tn := s.tenant t
  let sl := if hostBase ≤ pa then tn.slices else tn.slicesOn (pa / 2 ^ 38 % 4)
  nthD sl (homeHash (pa % hostBase) % max 1 sl.length) 0

/-- Hops and die edges of a route (R7), and the one-way time of R6. -/
def oneWay (a b : Nat) : Nat :=
  let dx := (a % 16 - b % 16) + (b % 16 - a % 16)
  let dy := (a / 16 - b / 16) + (b / 16 - a / 16)
  8 + 2 * (dx + dy) + (if a % 16 / 8 ≠ b % 16 / 8 then 18 else 0) + (if a / 128 ≠ b / 128 then 18 else 0)

/-- A device offset that holds memory (R43). -/
def populated (pa : Nat) : Bool := pa < 2 ^ 40 && pa % 2 ^ 38 < 192000000000

/-! ### Coherent values (R90 to R102) -/

def copyKey (line holder : Nat) : Nat := line * 4096 + holder
/-- A core's banks as a holder of lines; a cluster's slice is its own number. -/
def bankHolder (c : Nat) : Nat := 256 + c

/-- The cluster that holds the newest data of a line: its owner, also while the line is being recalled from it (R94). -/
def Dir.owner (d : Dir) : Option Nat :=
  match d with
  | .owned o => some o
  | .recalling o _ _ => some o
  | _ => none

def State.ownerOfLine (s : State) (line : Nat) : Option Nat := (SMap.get? s.dir line).bind Dir.owner

/-- The value of a word at the point of coherence: its registrant's, else the owning cluster's, else the home copy's. -/
def State.curWord (s : State) (w : Nat) : TWord :=
  match SMap.get? s.regw w with
  | some r => r.w
  | none =>
    match s.ownerOfLine (w / 16) with
    | some o =>
      match SMap.get? s.copies (copyKey (w / 16) o) with
      | some cp => nthD cp.words (w % 16) (s.mem.word w)
      | none => s.mem.word w
    | none => s.mem.word w

/-- Write a word of the home copy. -/
def State.setHome (s : State) (w : Nat) (v : TWord) : State := { s with mem := s.mem.setWord w v }

/-- The holders of copies of a line. -/
def State.holders (s : State) (line : Nat) : List Nat :=
  (s.copies.filter (fun p => p.1 / 4096 = line)).map (fun p => p.1 % 4096)

/-- Merge a list of words into the home copy, word by word, where the mask says so. -/
def mergeWords (m : Mem) (line : Nat) (ws : List TWord) (mask : List Nat) : Mem :=
  mask.foldl (fun m i => m.setWord (16 * line + i) (nthD ws i TWord.zero)) m

/-- Gather the newest data of a line into the home copy and drop every hardware-coherent holder of it (R60, R94, R98):
registered words are written back and deregistered, an owned copy is written back, remote copies and the directory entry go,
with the requests that wait at it, which their clusters make again. -/
def State.gather (s : State) (line : Nat) : State :=
  let rs := s.regw.filter (fun p => p.1 / 16 = line)
  let m := rs.foldl (fun m p => m.setWord p.1 p.2.w) s.mem
  let m := match (s.ownerOfLine line).bind (fun o => SMap.get? s.copies (copyKey line o)) with
    | some cp => mergeWords m line cp.words cp.dirty
    | none => m
  { s with mem := m, regw := s.regw.filter (fun p => p.1 / 16 ≠ line), dir := SMap.del s.dir line, dirq := SMap.del s.dirq line,
           copies := s.copies.filter (fun p => p.1 / 4096 ≠ line || p.2.sw), leases := SMap.del s.leases line }

/-- Gather the newest data of a line into the home copy by the GetS rows of R94: an owner keeps a shared copy, and the other
copies and their pointers stay. -/
def State.gatherShared (s : State) (line : Nat) : State :=
  match s.ownerOfLine line with
  | none => s
  | some o =>
    match SMap.get? s.copies (copyKey line o) with
    | some cp =>
      { s with mem := mergeWords s.mem line cp.words cp.dirty, dir := SMap.set s.dir line (.ptr [o]),
               copies := SMap.set s.copies (copyKey line o) { cp with dirty := [], owned := false },
               leases := SMap.del s.leases line }
    | none => { s with dir := SMap.del s.dir line, leases := SMap.del s.leases line }

/-- Discard every cached copy of a line without writing anything back (R45, R76). -/
def State.discardLine (s : State) (line : Nat) : State :=
  { s with regw := s.regw.filter (fun p => p.1 / 16 ≠ line), dir := SMap.del s.dir line, dirq := SMap.del s.dirq line,
           copies := s.copies.filter (fun p => p.1 / 4096 ≠ line), leases := SMap.del s.leases line }

/-- A directory transition of the line is under way, or a recall of one of its words: accesses at the home slice wait (R92,
R94). -/
def State.lineBusy (s : State) (line : Nat) : Bool :=
  (match SMap.get? s.dir line with
   | some (.waiting _ _ _) => true
   | some (.recalling _ _ _) => true
   | _ => false)
    || s.regw.any (fun p => p.1 / 16 = line && p.2.asker.isSome)

/-- The newest value of one word comes home before a write there: from its registrant, or with its line from a directory
owner, whose copies all go. -/
def State.settleWord (s : State) (w : Nat) : State :=
  let s := if (SMap.get? s.dir (w / 16)).isSome || s.copies.any (fun p => p.1 / 4096 = w / 16 && !p.2.sw) then s.gather (w / 16)
    else s
  match SMap.get? s.regw w with
  | some r => { s with mem := s.mem.setWord w r.w, regw := SMap.del s.regw w }
  | none => s

/-- A write performed at the home slice (engine writes, AMOs, the merged stores of cores that register nothing): the
word's newest value comes home first, then the item is stored; on a SW page only the home copy changes (R65, R101). -/
def State.writeHome (s : State) (sw : Bool) (a size : Nat) (v : TWord) : State :=
  let s := if sw then s else s.settleWord (a / 8)
  { s with mem := s.mem.store a size v }

/-- A read performed at the home slice. -/
def State.readHome (s : State) (sw : Bool) (a size : Nat) : TWord :=
  let w := if sw then s.mem.word (a / 8) else s.curWord (a / 8)
  ⟨w64 (w.v.toNat / 2 ^ (8 * (a % 8)) % 2 ^ (8 * size)), w.t⟩

/-- `n` bytes at the point of coherence, little-endian, byte by byte. -/
def State.curN (s : State) (a n : Nat) : Nat :=
  match n with
  | 0 => 0
  | k + 1 => (s.readHome false a 1).v.toNat + 256 * s.curN (a + 1) k

/-! ### Translation (R51 to R55) -/

def Leaf.sh (e : Word) : Nat := e.bits 60 58
def Leaf.cl (e : Word) : Nat := e.bits 57 56
def Leaf.cm (e : Word) : Bool := e.bits 55 55 = 1
/-- Copies of the page's lines are kept by software (R101): CM = SW on an ORDINARY page. A SYNC or STREAM page is read and
written at its home only (R263, R197). -/
def Leaf.sw (e : Word) : Bool := Leaf.cm e && Leaf.cl e = 0
def Leaf.ht (e : Word) : Bool := e.bits 54 54 = 1
def Leaf.wb (e : Word) : Bool := e.bits 53 53 = 1
def Leaf.lost (e : Word) : Bool := e.bits 52 52 = 1
def Leaf.h (e : Word) : Bool := e.bits 51 51 = 1
def Leaf.w (e : Word) : Bool := e.bits 50 50 = 1
def Leaf.x (e : Word) : Bool := e.bits 49 49 = 1
def Leaf.frame (e : Word) : Nat := e.bits 47 12 * 4096
def Leaf.thr (e : Word) : Nat := e.bits 11 8

/-- The shift and the number of entries of a table level (R52). -/
def levelShift (l : Nat) : Nat := nthD [48, 39, 30, 21, 16, 12] l 12
def levelEntries (l : Nat) : Nat := nthD [512, 512, 512, 512, 32, 16] l 1
def pageSize (l : Nat) : Nat := 2 ^ levelShift l

/-- Device address of an intermediate address through the second stage (R51). -/
def Tenant.second (t : Tenant) (ia : Nat) : Option Nat :=
  (SMap.get? t.window (ia / 65536)).map (fun f => f * 65536 + ia % 65536)

/-- Address of an intermediate address of a leaf: device, or host through the IOMMU (R51, R54). -/
def Tenant.physical (t : Tenant) (leaf : Word) (ia : Nat) : Option Nat :=
  if Leaf.h leaf then (SMap.get? t.hostMap (ia / 4096)).map (fun p => hostBase + p * 4096 + ia % 4096)
  else t.second ia

/-- A first-stage leaf is malformed at level `l` (R53). -/
def leafBad (l : Nat) (e : Word) : Bool :=
  l < 2 || Leaf.sh e > 4 || Leaf.cl e = 1 || e.bits 48 48 ≠ 0 || e.bits 7 0 ≠ 0
    || Leaf.frame e % pageSize l ≠ 0
    || (Leaf.h e && (l ≠ 5 || Leaf.sh e ≠ 4 || Leaf.cl e ≠ 0)) || (l = 5 && !Leaf.h e)

/-- A table pointer is malformed: a reserved bit, or no level below. -/
def pointerBad (l : Nat) (e : Word) : Bool := 5 ≤ l || e.bits 60 48 ≠ 0 || e.bits 11 0 ≠ 0

/-- What a walk finds: a leaf at a level with the IA of its entry, or a fault (cause, level, IA where known). -/
inductive WalkRes where
  | leaf (level : Nat) (entry : Nat) (e : Word)
  | fault (cause : Nat) (level : Nat) (ia : Nat)
deriving DecidableEq, Repr

/-- The access types that write (R55). -/
def accWrites (acc : Nat) : Bool := acc = 1 || acc = 2 || acc = 5

/-- Check a leaf for an access (R54). acc 6 is a translation without access. -/
def leafCheck (t : Tenant) (l entry va acc : Nat) (e : Word) : WalkRes :=
  if accWrites acc && !Leaf.w e then .fault 3 l (Leaf.frame e + va % pageSize l)
  else if acc = 3 && !Leaf.x e then .fault 4 l (Leaf.frame e + va % pageSize l)
  else
    match t.physical e (Leaf.frame e + va % pageSize l) with
    | some _ => .leaf l entry e
    | none => .fault (if Leaf.h e then 6 else 5) l (Leaf.frame e + va % pageSize l)

/-- The first-stage walk from level `l`, with `fuel` levels left, the table at intermediate address `table`. An entry on a
poisoned line is used as it stands: the specification gives no outcome of a walk for it (DESIGN CHOICE, log entry 66). -/
def walkFrom (s : State) (t : Tenant) (va acc fuel l table : Nat) : WalkRes :=
  match fuel with
  | 0 => .fault 2 l 0
  | n + 1 =>
    let ia := table + 8 * (va / pageSize l % levelEntries l)
    match t.second ia with
    | none => .fault 5 l ia
    | some pa =>
      let e := (s.curWord (pa / 8)).v
      if e.bits 63 63 = 0 then .fault 1 l 0
      else
        match e.bits 62 61 with
        | 0 => if pointerBad l e then .fault 2 l 0 else walkFrom s t va acc n (l + 1) (Leaf.frame e)
        | 1 => if leafBad l e then .fault 2 l 0 else leafCheck t l ia va acc e
        | _ => .fault 2 l 0

/-- A walk (R52 to R54); TTROOT 0 names no table (R242). -/
def State.walk (s : State) (tn va acc : Nat) : WalkRes :=
  let t := s.tenant tn
  if t.ttroot = 0 then .fault 1 0 0
  else walkFrom s t (va % 2 ^ 57) acc 6 0 (t.ttroot.toNat / 4096 * 4096 % 2 ^ 48)

/-- A translation found at a port: the physical address, the leaf and its level. -/
structure Tr where
  pa    : Nat
  leaf  : Word
  level : Nat
deriving DecidableEq, Repr

/-- The bytes that one second-stage result covers: 64 KiB, or a smaller page. -/
def granuleSize (level : Nat) : Nat := min 65536 (pageSize level)

/-- The granule of its page in which an address lies. -/
def granuleOf (level va : Nat) : Nat := va % pageSize level / granuleSize level

/-- Does a translation-cache entry answer an access? A refused right is left to a walk (R54). -/
def TLBEntry.hits (e : TLBEntry) (va acc : Nat) : Bool :=
  e.va = va / pageSize e.level && !(accWrites acc && !Leaf.w e.leaf) && !(acc = 3 && !Leaf.x e.leaf)
    && (SMap.get? e.second (granuleOf e.level va)).isSome

/-- Look an address up in a cluster's translation cache (R54). -/
def State.lookup (s : State) (cl va acc : Nat) : Option Tr :=
  let va := va % 2 ^ 57
  match (s.cluster cl).tlb.find? (fun e => e.hits va acc) with
  | none => none
  | some e => some ⟨SMap.get e.second (granuleOf e.level va) 0 + va % granuleSize e.level, e.leaf, e.level⟩

/-- Fill a translation cache with a leaf and the second-stage result of one address, whose physical address is `pa`: 2,048
entries, the oldest dropped (R54). -/
def State.fillTlb (s : State) (cl va level : Nat) (leaf : Word) (pa : Nat) : State :=
  let x := s.cluster cl
  let va := va % 2 ^ 57
  let old := match x.tlb.find? (fun y => y.va = va / pageSize level && y.level = level && y.leaf = leaf) with
    | some y => y.second
    | none => []
  let e : TLBEntry := ⟨va / pageSize level, level, leaf, SMap.set old (granuleOf level va) (pa - pa % granuleSize level)⟩
  s.setCluster cl { x with tlb := (e :: x.tlb.filter (fun y => !(y.va = e.va && y.level = e.level))).take 2048 }

/-- A translation made now, by a walk where need be: what engines and instructions that never fault use. -/
def State.translate (s : State) (tn va acc : Nat) : Except Nat Tr :=
  match s.walk tn va acc with
  | .leaf l _ e =>
    match (s.tenant tn).physical e (Leaf.frame e + va % 2 ^ 57 % pageSize l) with
    | some pa => .ok ⟨pa, e, l⟩
    | none => .error 5
  | .fault c _ _ => .error c

/-- Drop a page from every translation cache of a tenant's partition (R56). -/
def State.invalidatePage (s : State) (tn va : Nat) : State :=
  (s.tenant tn).slices.foldl
    (fun s cl => let x := s.cluster cl
                 if x.tlb.isEmpty then s
                 else s.setCluster cl { x with tlb := x.tlb.filter (fun e => e.va ≠ va % 2 ^ 57 / pageSize e.level) }) s

/-- Drop from every translation cache of a tenant's partition what it holds of a physical range (R45, R56). -/
def State.forgetPhysical (s : State) (tn lo hi : Nat) : State :=
  (s.tenant tn).slices.foldl
    (fun s cl => let x := s.cluster cl
                 if x.tlb.isEmpty then s
                 else
                   let cut := fun (e : TLBEntry) =>
                     { e with second := e.second.filter (fun p => !(p.2 < hi && lo < p.2 + granuleSize e.level)) }
                   s.setCluster cl { x with tlb := (x.tlb.map cut).filter (fun e => !e.second.isEmpty) }) s

/-! ### Entries of live tables (R53) -/

/-- The entries of a table of `n` entries at device address `base` that can be valid: those whose word is listed somewhere. -/
def State.entriesAt (s : State) (base n : Nat) : List Nat :=
  let inT := fun (w : Nat) => base / 8 ≤ w && w < base / 8 + n
  let ws := ((s.mem.bytes.filter (fun p => p.1 % 8 = 7 && 128 ≤ p.2.toNat)).map (fun p => p.1 / 8)).filter inT
    ++ (s.regw.map Prod.fst).filter inT
    ++ (s.copies.flatMap (fun p => (List.range 16).map (fun i => 16 * (p.1 / 4096) + i))).filter inT
  (List.range n).filter (fun i => ws.contains (base / 8 + i))

/-- The word at device address `pa` is an entry, of a level that may hold leaves, of a table reached from `table`. -/
def tableHolds (s : State) (t : Tenant) (pa fuel l table : Nat) : Bool :=
  match fuel with
  | 0 => false
  | n + 1 =>
    match t.second table with
    | none => false
    | some base =>
      (2 ≤ l && base ≤ pa && pa < base + 8 * levelEntries l)
        || (s.entriesAt base (levelEntries l)).any (fun i =>
            let e := (s.curWord (base / 8 + i)).v
            e.bits 63 61 = 4 && !pointerBad l e && tableHolds s t pa n (l + 1) (Leaf.frame e))

/-- What a store by software makes of a word of memory whose old value is `old`: in a leaf of a live table WB keeps its
value, and LOST is cleared by a one (R53). -/
def State.entryStore (s : State) (tn pa : Nat) (old new : TWord) : TWord :=
  let t := s.tenant tn
  if t.ttroot = 0 || new.v.bits 63 61 ≠ 5 then new
  else if !tableHolds s t pa 6 0 (t.ttroot.toNat / 4096 * 4096 % 2 ^ 48) then new
  else
    let leaf := old.v.bits 63 61 = 5
    { new with v := w64 (new.v.bits 63 54 * 2 ^ 54 + (if leaf && Leaf.wb old.v then 2 ^ 53 else 0)
      + (if leaf && Leaf.lost old.v && !Leaf.lost new.v then 2 ^ 52 else 0) + new.v.bits 51 0) }

/-- Rewrite a first-stage entry (the walker's WB, LOST, frame and CM changes: R53, R60, R100, R104). -/
def State.setEntry (s : State) (tn ia : Nat) (e : Word) : State :=
  match (s.tenant tn).second ia with
  | some pa => s.writeHome false pa 8 ⟨e, (s.curWord (pa / 8)).t⟩
  | none => s

/-- A word with one bit set or cleared. -/
def setBit (w : Word) (i : Nat) (on : Bool) : Word :=
  if on then w ||| w64 (2 ^ i) else w &&& ~~~(w64 (2 ^ i))

end Sys2Proof.Machine
end

