-- ==== Sys2Proof/Machine/Ops.lean ====
section
/-!
DEFINITION. Sys2Proof/Machine/Ops.lean: the operations every meaning shares: threads and registers, records, messages,
taking a trap and returning from one, parking, and the store buffer.
-/
namespace Sys2Proof.Machine
open Sys2Proof

abbrev Out := Host.Outcome State Fault Refusal

/-! ### Threads and slots -/

/-- The first of a rising list after `n`, wrapping. -/
def firstAfter (l : List Nat) (n : Nat) : Option Nat :=
  match l.find? (fun k => n < k) with
  | some k => some k
  | none => l.head?

def Core.slot (x : Core) (k : Nat) : Slot := SMap.get x.slots k Slot.reset

/-- The live thread of a slot, if there is one. -/
def State.thread? (s : State) (c k : Nat) : Option Thread :=
  match ((s.core c).slot k).occ with
  | .live t => some t
  | _ => none

/-- Replace the occupant of a slot. -/
def State.setOcc (s : State) (c k : Nat) (o : Occupant) : State :=
  let x := s.core c
  s.setCore c { x with slots := SMap.set x.slots k { x.slot k with occ := o } }

def State.setThread (s : State) (c k : Nat) (t : Thread) : State := s.setOcc c k (.live t)

/-- Change the live thread of a slot; nothing where there is none. -/
def State.modThread (s : State) (c k : Nat) (g : Thread → Thread) : State :=
  match s.thread? c k with
  | some t => s.setThread c k (g t)
  | none => s

def State.modCore (s : State) (c : Nat) (g : Core → Core) : State := s.setCore c (g (s.core c))
def State.modCluster (s : State) (cl : Nat) (g : Cluster → Cluster) : State := s.setCluster cl (g (s.cluster cl))
def State.modTenant (s : State) (t : Nat) (g : Tenant → Tenant) : State := s.setTenant t (g (s.tenant t))
def State.modDie (s : State) (d : Nat) (g : Die → Die) : State := s.setDie d (g (s.die d))

/-- The thread the instruction executes for: its core, its slot and itself. -/
def State.current (s : State) : Option (Nat × Nat × Thread) :=
  match s.cur with
  | none => none
  | some (c, k) =>
    match s.thread? c k with
    | some t => some (c, k, t)
    | none => none

/-- Thread ids (R216). -/
def mkTid (tn y x c k inc : Nat) : Word :=
  w64 (tn * 2 ^ 60 + y * 2 ^ 56 + x * 2 ^ 52 + c * 2 ^ 49 + k * 2 ^ 43 + inc)
def tidTenant (w : Word) : Nat := w.bits 63 60
def tidSlot (w : Word) : Nat := w.bits 48 43
def tidInc (w : Word) : Nat := w.bits 31 0

/-- The thread id of an incarnation of a slot of core `c`, for tenant `tn`. -/
def State.tidAt (s : State) (tn c k inc : Nat) : Word :=
  let yx := (s.tenant tn).logical (c / 8)
  mkTid tn yx.1 yx.2 (c % 8) k inc
def State.tid (s : State) (c k : Nat) (t : Thread) : Word := s.tidAt t.tenant c k t.inc

/-- The core a thread id names (R127): none when its coordinates lie outside the partition. -/
def State.tidCore (s : State) (w : Word) : Option Nat :=
  s.coreAt (tidTenant w) (w.bits 59 56) (w.bits 55 52) (w.bits 51 49)

/-- The 17-bit slot id of a message's sender field (R125). -/
def slotId (w : Word) : Nat := w.bits 59 43

/-- The task word's fields (R217). -/
def taskPrio (w : Word) : Nat := w.bits 59 58
def taskDet (w : Word) : Bool := w.bits 57 57 = 1
def taskGran (w : Word) : Nat := w.bits 56 53
def taskLane (w : Word) : Nat := w.bits 48 48 * 65536 + w.bits 15 0
def taskGroup (w : Word) : Nat := w.bits 47 32
def taskLaunch (w : Word) : Nat := w.bits 31 16
def mkTask (tn prio : Nat) (det : Bool) (gran lane group launch : Nat) : Word :=
  w64 (tn * 2 ^ 60 + prio * 2 ^ 58 + (if det then 2 ^ 57 else 0) + gran * 2 ^ 53 + lane / 65536 % 2 * 2 ^ 48
    + group * 2 ^ 32 + launch * 2 ^ 16 + lane % 65536)
def taskSetGroup (w : Word) (g : Nat) : Word :=
  mkTask (w.bits 63 60) (taskPrio w) (taskDet w) (taskGran w) (taskLane w) g (taskLaunch w)

/-! ### General registers (R129, R130) -/

/-- The window top: eight registers for each granule. -/
def Thread.top (t : Thread) : Nat := 8 * t.window.length

/-- The entry of the register file that holds register `n`. -/
def Thread.entry (t : Thread) (n : Nat) : Nat := 8 * nthD t.window (n / 8) 0 + n % 8

/-- Read a general register: g0 reads zero, untainted. -/
def State.getG (s : State) (c : Nat) (t : Thread) (n : Nat) : TWord :=
  if n = 0 then TWord.zero else SMap.get (s.core c).rf (t.entry n) TWord.zero

/-- Write a general register: a write of g0 is discarded. -/
def State.setG (s : State) (c : Nat) (t : Thread) (n : Nat) (v : TWord) : State :=
  if n = 0 then s else s.modCore c (fun x => { x with rf := SMap.set x.rf (t.entry n) v })

/-- Registers `n`, `n+1`, … of a group or block. -/
def State.getGs (s : State) (c : Nat) (t : Thread) (n count : Nat) : List TWord :=
  (List.range count).map (fun j => s.getG c t (n + j))
def State.setGs (s : State) (c : Nat) (t : Thread) (n : Nat) (vs : List TWord) : State :=
  match vs with
  | [] => s
  | v :: r => (s.setG c t n v).setGs c t (n + 1) r

/-- Granules of a core that no window holds (R129, R130), out of 0 to 251. -/
def Core.usedGran (x : Core) : List Nat :=
  x.slots.flatMap (fun p => match p.2.occ with
    | .live t => t.window
    | _ => [])
def Core.freeGran (x : Core) : List Nat :=
  let u := x.usedGran
  (List.range 252).filter (fun g => !u.contains g)

/-- Clear the entries of granules (R130). -/
def Core.clearGran (x : Core) (gs : List Nat) : Core :=
  { x with rf := x.rf.filter (fun p => !gs.contains (p.1 / 8)) }

/-- Move the thread on: the next instruction of slot `k` is at `pc`. -/
def State.goto (s : State) (c k pc : Nat) : State := s.modThread c k (fun t => { t with pc := pc })
def State.advance (s : State) (c k : Nat) : State := s.goto c k s.next

/-! ### Records to the tenant's rings (R316 to R318) -/

def ctlEn (w : Word) : Bool := w.bits 63 63 = 1
def ctlSrc (w : Word) : Bool := w.bits 62 62 = 1
def ctlSize (w : Word) : Nat := 2 ^ w.bits 4 0

/-- Write words at a virtual address of a tenant, as an engine write; a page that does not translate is left out. -/
def State.writeVa (s : State) (tn va : Nat) (ws : List TWord) : State :=
  match ws with
  | [] => s
  | w :: r =>
    let s := match s.translate tn va 5 with
      | .ok tr => s.writeHome (Leaf.sw tr.leaf) tr.pa 8 w
      | .error _ => s
    s.writeVa tn (va + 8) r

/-- An 8-byte word at a virtual address of a tenant, as an engine reads it; an unmapped one reads 0. -/
def State.peekVa (s : State) (tn va : Nat) : TWord :=
  match s.translate tn va 0 with
  | .ok tr => s.readHome (Leaf.sw tr.leaf) tr.pa 8
  | .error _ => TWord.zero

/-- An FPX report for a saved thread is kept in its image, unless one is pending there (R240, R244). -/
def State.reportSaved (s : State) (tn image : Nat) (addr aux : Word) : State :=
  let w := (s.peekVa tn (image + 0x78)).v
  if w.bits 63 63 = 1 then s
  else
    (s.writeVa tn (image + 0x78) [⟨setBit w 63 true, false⟩]).writeVa tn (image + 0x80) [⟨addr, false⟩, ⟨aux, false⟩]

/-- Fire a ring's vector once (R318): when WP differs from RP, the vector is unmasked and it has not fired since software
last wrote RP. Vector 8t is the notification ring's, 8t + 1 the fault ring's. -/
def State.fireMsix (s : State) (tn : Nat) (fault : Bool) : State :=
  let t := s.tenant tn
  let r := if fault then t.fq else t.nq
  if r.wp ≠ r.rp && !r.mask && !r.fired then
    let r := { r with fired := true }
    let s := s.setTenant tn (if fault then { t with fq := r } else { t with nq := r })
    { s with boot := { s.boot with msix := s.boot.msix ++ [8 * tn + (if fault then 1 else 0)] } }
  else s

/-- Append one record to a ring that has room. -/
def State.putRec (s : State) (tn : Nat) (fault : Bool) (ws : List Word) : State :=
  let t := s.tenant tn
  let r := if fault then t.fq else t.nq
  let s := s.writeVa tn (r.base + (if fault then 64 else 16) * (r.wp % ctlSize r.ctl)) (ws.map (fun w => ⟨w, false⟩))
  let t := s.tenant tn
  let r := { r with wp := (r.wp + 1) % 2 ^ 32 }
  (s.setTenant tn (if fault then { t with fq := r } else { t with nq := r })).fireMsix tn fault

/-- Post a record: discarded and counted while the ring is disabled (R317); waiting while it is full (R316). -/
def State.postRec (s : State) (tn : Nat) (fault : Bool) (ws : List Word) : State :=
  let t := s.tenant tn
  let r := if fault then t.fq else t.nq
  if !ctlEn r.ctl then
    let r := { r with drop := (r.drop + 1) % 2 ^ 32 }
    s.setTenant tn (if fault then { t with fq := r } else { t with nq := r })
  else if (r.wp + 2 ^ 32 - r.rp) % 2 ^ 32 ≥ ctlSize r.ctl || !r.waiting.isEmpty then
    let r := { r with waiting := r.waiting ++ [ws] }
    s.setTenant tn (if fault then { t with fq := r } else { t with nq := r })
  else s.putRec tn fault ws

/-- A 16-byte record of the notification ring, and one of the fault ring (type 2: R316). -/
def State.notify (s : State) (tn : Nat) (w0 w1 : Word) : State := s.postRec tn false [w0, w1]
def State.faultRec (s : State) (tn : Nat) (w0 w1 : Word) : State := s.postRec tn true [2, w0, w1, 0, 0, 0, 0, 0]

/-- A poison record (type 3): the line's virtual address or 0, and the detecting unit. -/
def State.poisonRec (s : State) (tn va unit : Nat) : State :=
  s.postRec tn true [3, w64 (va % 2 ^ 57), w64 unit, 0, 0, 0, 0, 0]

/-- Kind byte and the rest of a record's word 0. -/
def recWord (kind rest : Nat) : Word := w64 (kind * 2 ^ 56 + rest)

/-! ### Taking a trap and returning from one (R236 to R239) -/

/-- A thread no longer tries the instruction at hand: it runs afresh later, and any place among waiters is lost (R26). -/
def Thread.afresh (t : Thread) : Thread :=
  { t with since := 0, want := none, answer := none, declined := none, part := [] }

/-- Stop a thread for good reasons other than debug, or for the debugger. -/
def State.stop (s : State) (c k : Nat) (debug : Bool) : State :=
  s.modThread c k (fun t => { t.afresh with run := .stopped debug })

/-- A thread that turns from a wait for granules lets others be served (R131). -/
def State.leaveLine (s : State) (c : Nat) (t : Thread) : State :=
  match t.want with
  | some (.granules _) => s.post [evt .admission [c]]
  | _ => s

/-- Deliver a trap to a thread with nothing outstanding (R238). With a handler already running, or no handler named
(R242), it is a double trap: the thread stops and its trap registers stay. Otherwise TRAPPC takes the thread's pc,
TRAPCODE, TRAPADDR and TRAPAUX the trap's, PK the privilege, TIP is set, the privilege becomes K and the next
instruction is fetched at TRAPVEC. -/
def State.deliver (s : State) (c k : Nat) (tr : Trap) : State :=
  match s.thread? c k with
  | none => s
  | some t =>
    let vec := (s.tenant t.tenant).trapvec.toNat / 2 * 2
    let s := s.leaveLine c t
    if t.trap.tip || (s.tenant t.tenant).trapvec = 0 then
      (s.setThread c k { t with run := .stopped false }).faultRec t.tenant
        (recWord 7 (tr.code * 2 ^ 48)) (s.tid c k t)
    else
      s.setThread c k { t.afresh with
        trap := { t.trap with pc := w64 t.pc, code := w64 tr.code, addr := tr.addr, aux := tr.aux, pk := t.priv,
                              tip := true }
        priv := true, pc := vec, run := .ready }

/-- The instruction at hand has completed: forget its place in any queue of waiters and the answer it consumed. -/
def State.settle (s : State) (c k : Nat) : State :=
  s.modThread c k Thread.afresh

/-- A trap raised by the instruction at hand, at which the thread resumes at `resume` (R38, R238): delivered at once when
no operation is outstanding, otherwise when they have completed. -/
def State.raiseAt (s : State) (c k : Nat) (code : Nat) (addr aux : Word) (resume : Nat) : State :=
  match s.thread? c k with
  | none => s
  | some t =>
    let tr : Trap := ⟨code, addr, aux, t.trap.tip⟩
    if t.ops.isEmpty then ((s.settle c k).goto c k resume).deliver c k tr
    else ((s.settle c k).modThread c k (fun t =>
      { t with pc := resume, pend := some tr, run := .wait .opsDone })).post [evt .trapDelivery [c, k]]

/-- A precise trap: TRAPPC is the instruction's own address. -/
def State.raise (s : State) (c k : Nat) (code : Nat) (addr aux : Word) : State :=
  match s.thread? c k with
  | none => s
  | some t => s.raiseAt c k code addr aux t.pc

/-- The traps of R236 by name. -/
def tILLOP : Nat := 0x01
def tLAHAZ : Nat := 0x02
def tREGRANGE : Nat := 0x03
def tSEGLIM : Nat := 0x04
def tSEGRIGHT : Nat := 0x05
def tPAGEFLT : Nat := 0x06
def tWIDEN : Nat := 0x07
def tVIEWSTALE : Nat := 0x08
def tVIEWFOREIGN : Nat := 0x09
def tFPX : Nat := 0x0A
def tMESHGATE : Nat := 0x0B
def tSTREAMABORT : Nat := 0x0C
def tSYNCMISUSE : Nat := 0x0D
def tSAOVF : Nat := 0x0E
def tMXERR : Nat := 0x0F
def tPOISON : Nat := 0x10
def tTAINT : Nat := 0x11
def tPRIV : Nat := 0x12
def tALIGN : Nat := 0x13
def tPTRRANGE : Nat := 0x14
def tMOVEONLY : Nat := 0x15
def tQCFGERR : Nat := 0x17
def tSOFTTRAP : Nat := 0x18

/-- The auxiliary word of a deferred trap (R236). -/
def deferredAux (cause fpc : Nat) : Word := w64 (2 ^ 63 + cause * 2 ^ 56 + fpc % 2 ^ 40)

/-- A deferred trap of a thread, in the order in which the faulting operations issued (R239). -/
def State.addDefer (s : State) (c k code : Nat) (addr : Word) (cause fpc ord : Nat) (tip : Bool) : State :=
  s.modThread c k (fun t =>
    { t with defers := t.defers.filter (fun d => d.ord ≤ ord) ++ [⟨⟨code, addr, deferredAux cause fpc, tip⟩, ord⟩]
               ++ t.defers.filter (fun d => ord < d.ord) })

/-- The return from a trap (R247): PC, privilege and TIP. -/
def State.retTrap (s : State) (c k : Nat) : State :=
  s.modThread c k (fun t =>
    { t with pc := t.trap.pc.toNat, priv := t.trap.pk, trap := { t.trap with tip := false } })

/-- The trap due at an instruction boundary (R239): deferred traps first, then SAOVF, then FPX, then the precise trap
that waits; SAOVF, FPX and the deferred traps of before the handler are held while it runs. The thread without it. -/
def Thread.dueTrap (t : Thread) : Option (Trap × Thread) :=
  match t.defers with
  | d :: r =>
    if !t.trap.tip || d.trap.tip then some (d.trap, { t with defers := r })
    else
      match t.pend with
      | some p => if p.tip then some (p, { t with pend := none }) else none
      | none => none
  | [] =>
    match t.trap.tip, t.saovf, t.fpx, t.pend with
    | false, some p, _, _ => some (p, { t with saovf := none })
    | false, none, some p, _ => some (p, { t with fpx := none })
    | false, none, none, some p => some (p, { t with pend := none })
    | true, _, _, some p => if p.tip then some (p, { t with pend := none }) else none
    | true, _, _, none => none
    | false, none, none, none => none

/-! ### Waiting (R26, R38) -/

/-- Take the thread out of rotation until the condition holds; its instruction then runs afresh. The order of first
attempts is kept while the thread waits for the same thing. -/
def State.park (s : State) (c k : Nat) (w : Wait) : State :=
  let s := s.modThread c k (fun t => { t with run := .wait w, want := some w, since := if t.since ≠ 0 then t.since else s.tick + 1 })
  ({ s with tick := s.tick + 1 }).post [evt .instructionWake [c, k]]

/-- Take a thread in rotation out of it after its instruction has issued (R55, R60, R96): it goes on with the next one once the
condition holds. -/
def State.parkAfter (s : State) (c k : Nat) (w : Wait) : State :=
  match s.thread? c k with
  | some t => if t.run = .ready then (s.setThread c k { t with run := .wait w }).post [evt .instructionWake [c, k]] else s
  | none => s

/-- Put a waiting thread back into rotation. -/
def State.wake (s : State) (c k : Nat) : State :=
  s.modThread c k (fun t => match t.run with
    | .wait _ => { t with run := .ready }
    | _ => t)

/-- Complete the instruction at hand: move on to the next. -/
def State.finish (s : State) (c k : Nat) : State := (s.settle c k).advance c k

/-- A 48-bit counter of a core advances. -/
def Core.count (x : Core) (k : Nat) : Core := { x with perf := SMap.set x.perf k ((SMap.get x.perf k 0 + 1) % 2 ^ 48) }

/-! ### Whose thread it is -/

/-- The tenant whose thread stored an entry. -/
def State.tenantOn (s : State) (c : Nat) : Nat := (s.ownerOf (c / 8)).getD 0

/-- The thread of a slot, if it is still the incarnation given. -/
def State.sameThread (s : State) (c k inc : Nat) : Option Thread :=
  match s.thread? c k with
  | some t => if t.inc = inc then some t else none
  | none => none

/-! ### Messages (R125 to R128) -/

/-- A message's word 0 (R125). -/
def msgWord (kind status tag okind sender : Nat) : Word :=
  w64 (kind * 2 ^ 56 + status * 2 ^ 48 + tag * 2 ^ 32 + okind * 2 ^ 17 + sender)

def mkUSER : Nat := 0x02
def mkBOUNCE : Nat := 0x03
def mkCOPYDONE : Nat := 0x01
def mkGRANT : Nat := 0x04
def mkSPAWNRET : Nat := 0x05
def mkMXDONE : Nat := 0x06
def mkSADONE : Nat := 0x07
def mkNOTIFY : Nat := 0x08
def mkTIMEOUT : Nat := 0x09

/-- The identities of a thread's accesses that are not yet performed (R257): stores in the store buffer, in the parked-write
queue or on their way to a home, and outstanding operations. -/
def State.storesOf (s : State) (c k : Nat) : List Nat :=
  match s.thread? c k with
  | none => []
  | some t =>
    let mine := fun (e : SBEntry) => e.slot = k && e.inc = t.inc
    (((s.core c).sb ++ (s.core c).parked).filter mine).map (fun e => e.id)
      ++ ((s.flights.filter (fun f => f.core = c && mine f.entry && f.stage ≠ 2)).map (fun f => f.entry.id))
      ++ (t.ops.filter (fun o => !o.acc.all (fun a => a.done))).map (fun o => o.id)

/-- Every access of a list has been performed. -/
def State.performed (s : State) (c : Nat) (ids : List Nat) : Bool :=
  ids.all (fun i => !((s.core c).sb.any (fun e => e.id = i)) && !((s.core c).parked.any (fun e => e.id = i))
    && !(s.flights.any (fun f => f.core = c && f.entry.id = i && f.stage ≠ 2))
    && !((s.core c).slots.any (fun p => match p.2.occ with
      | .live t => t.ops.any (fun o => o.id = i && !o.acc.all (fun a => a.done))
      | _ => false)))

/-- Put a message on the mesh; it arrives once the stores it releases have been performed (R128, R257). -/
def State.transmit (s : State) (c : Nat) (after : List Nat) (m : Msg) : State :=
  let (i, s) := s.fresh
  ({ s with net := s.net ++ [{ id := i, msg := m, core := c, after := after }] } : State).post [evt .messageArrival [i]]

/-- The key of the next message a deterministic thread causes to be sent to a target (R299), and the thread afterwards. -/
def Thread.sendKey (t : Thread) (dst : Word) : Option Nat × Nat × Nat × Thread :=
  if taskDet t.task then
    let n := SMap.get t.sendSeq dst.toNat 0
    (some (taskLaunch t.task), taskLane t.task, n, { t with sendSeq := SMap.set t.sendSeq dst.toNat (n + 1) })
  else (none, 0, 0, t)

/-- A message of an engine or of a runtime unit to a thread, on behalf of a thread `src`, whose slot it names (R125); when
`src` is a deterministic thread, live or saved, the message carries its key (R299). -/
def State.engineMsg (s : State) (c : Nat) (src dst : Word) (kind status tag : Nat) (pay : TWord) : State :=
  let k := tidSlot src
  let m := fun keyed lane seq => (⟨dst, src, msgWord kind status tag 0 (slotId src), pay, keyed, lane, seq⟩ : Msg)
  let send := fun (t : Thread) (g : Thread → Occupant) =>
    if s.tid c k t = src then
      let (keyed, lane, seq, t') := t.sendKey dst
      (s.setOcc c k (g t')).transmit c [] (m keyed lane seq)
    else s.transmit c [] (m none 0 0)
  match ((s.core c).slot k).occ with
  | .live t => send t .live
  | .reserved t image n => send t (fun t => .reserved t image n)
  | .vacant => s.transmit c [] (m none 0 0)

/-- Messages queued for a thread (R128), and the overflow entries a core's threads use (R126). -/
def Core.overflow (x : Core) : Nat :=
  (x.slots.map (fun p => match p.2.occ with
    | .live t => t.mail.length - 8
    | _ => 0)).sum

/-! ### Segments and checks (R37, R49, R50) -/

def Thread.seg (t : Thread) (n : Nat) : Seg := nthD t.segs n Seg.zero

/-- Access rights of R37, by their bit in the rights field. -/
def rightBit (r : Char) : Nat :=
  if r = 'R' then 0 else if r = 'W' then 1 else if r = 'X' then 2 else if r = 'A' then 3 else 4
def Seg.has (g : Seg) (r : Char) : Bool := g.rights / 2 ^ rightBit r % 2 = 1

/-- The offset of a global operand: unsigned, modulo 2^64 (R50). -/
def gOffset (base : Word) (imm : Int) : Nat := (base + w64i imm).toNat

/-- MemG's checks (R37): the trap, if one fails. -/
def memG (t : Thread) (sn off size : Nat) (r : Char) : Option (Nat × Word × Word) :=
  let g := t.seg sn
  if off + size > g.limit then some (tSEGLIM, w64 off, w64 sn)
  else if !g.has r then some (tSEGRIGHT, w64 off, w64 sn)
  else if off % size ≠ 0 then some (tALIGN, w64 off, w64 sn)
  else none

/-- A pointer's fields (R133). -/
def ptrY (p : Word) : Nat := p.bits 63 60
def ptrX (p : Word) : Nat := p.bits 59 56
def ptrC (p : Word) : Nat := p.bits 55 53
def ptrW (p : Word) : Nat := p.bits 52 48
def ptrOff (p : Word) : Nat := p.bits 20 0

/-- MemL's checks (R37): the target core and offset, or the trap. -/
def State.memL (s : State) (tn : Nat) (p : Word) (size : Nat) : Except (Nat × Word × Word) (Nat × Nat) :=
  match s.coreAt tn (ptrY p) (ptrX p) (ptrC p) with
  | none => .error (tPTRRANGE, w64 (ptrOff p), 0)
  | some c =>
    if ptrW p < 6 || ptrW p > 21 || ptrOff p + size > (s.core c).pubWin then .error (tPTRRANGE, w64 (ptrOff p), 0)
    else if ptrOff p % size ≠ 0 then .error (tALIGN, w64 (ptrOff p), 0)
    else .ok (c, ptrOff p)

/-- MemL for the instruction of a thread: an access that waited for a dead core which Apex has brought back is refused (R248). -/
def State.memLAt (s : State) (t : Thread) (p : Word) (size : Nat) : Except (Nat × Word × Word) (Nat × Nat) :=
  match s.memL t.tenant p size with
  | .ok (tc, off) => if t.want = some (.lost tc) then .error (tPTRRANGE, w64 off, 0) else .ok (tc, off)
  | .error e => .error e

/-- A local access that waits for core `c` is refused: the core has left the partition, or has come back from an error (R248). -/
def State.barred (s : State) (c id : Nat) : Bool := (s.core c).fenced || (s.core c).late.contains id

/-! ### Pointer arithmetic (R134) -/

/-- A pointer as fields. -/
structure Ptr where
  y : Nat
  x : Nat
  c : Nat
  w : Nat
  wx : Nat
  wc : Nat
  off : Int
deriving DecidableEq, Repr

def Ptr.ofWord (p : Word) : Ptr :=
  ⟨ptrY p, ptrX p, ptrC p, ptrW p, p.bits 47 44, p.bits 43 41, (ptrOff p : Int)⟩
def Ptr.toWord (p : Ptr) : Word :=
  w64 (p.y * 2 ^ 60 + p.x * 2 ^ 56 + p.c * 2 ^ 53 + p.w * 2 ^ 48 + p.wx * 2 ^ 44 + p.wc * 2 ^ 41 + p.off.toNat % 2 ^ 21)

def Ptr.up (p : Ptr) : Ptr :=
  if p.c < p.wc then { p with c := p.c + 1 }
  else
    let p := { p with c := 0 }
    if p.x < p.wx then { p with x := p.x + 1 }
    else
      let p := { p with x := 0 }
      if p.y = 15 then { p with w := 0 } else { p with y := p.y + 1 }

def Ptr.down (p : Ptr) : Ptr :=
  if p.c > 0 && p.c ≤ p.wc then { p with c := p.c - 1 }
  else
    let p := { p with c := p.wc }
    if p.x > 0 && p.x ≤ p.wx then { p with x := p.x - 1 }
    else
      let p := { p with x := p.wx }
      if p.y = 0 then { p with w := 0 } else { p with y := p.y - 1 }

def Ptr.ups (p : Ptr) (n : Nat) : Ptr :=
  match n with
  | 0 => p
  | m + 1 => p.up.ups m
def Ptr.downs (p : Ptr) (n : Nat) : Ptr :=
  match n with
  | 0 => p
  | m + 1 => p.down.downs m

/-- The walk of `n` steps with the whole turns of a finished walk left out: past row 15 or row 0 a pointer only repeats
its c and x, so a walk of more than `2^12` steps is cut to one of equal effect. -/
def walkLen (p : Ptr) (n : Nat) : Nat :=
  let turn := (p.wc + 1) * (p.wx + 1)
  if n ≤ 8192 then n else 4096 + (n - 4096) % turn + turn

/-- Advance (R134). -/
def advancePtr (p : Word) (n : Int) : Word :=
  let q := Ptr.ofWord p
  if q.w < 6 || q.w > 21 then p
  else
    let sz : Int := (2 : Int) ^ q.w
    let o := q.off + n
    let steps := o / sz
    let q := if 0 ≤ steps then q.ups (walkLen q steps.toNat) else q.downs (walkLen q (-steps).toNat)
    { q with off := o % sz }.toWord

end Sys2Proof.Machine
end

