-- ==== Sys2Proof/Machine/Operands.lean ====
section
/-!
DEFINITION. Sys2Proof/Machine/Operands.lean: the checks before an instruction runs (R23, R24, R27, R62), the special
operands (R19, R114, R137 to R145), and how operands are read and results written.
-/
namespace Sys2Proof

/-! ### What an instruction names -/

/-- The general registers a field names. -/
def Role.regs (r : Role) (n : Nat) (s : Bool) : List Nat :=
  if s then []
  else
    match r with
    | .rd | .wr | .rw | .base => [n]
    | .wrp | .rwp => [n, n + 1]
    | .vrd | .vwr | .vrw => (List.range 8).map (fun j => n + j)
    | _ => []

/-- The registers an instruction uses without naming them in a field of its own (R24, R27): the link of CALL, the
arguments of SPAWN, YIELD and SYDLG, the value register of an inline EXIT, and the blocks of R31 and R34. -/
def Instr.implicit (i : Instr) (f : Fields) (inBody : Bool) : List Nat :=
  match i with
  | .call _ => [1]
  | .spawn _ | .yield _ | .sydlg _ => [2, 3, 4, 5]
  | .exit _ => if inBody then [2] else []
  | .mma _ => if f.d / 2 % 2 = 1 then [f.b + 1] else []
  | .cpy _ | .sdesc _ => [f.a + 1, f.a + 2, f.a + 3]
  | .cpy2d _ => [f.a + 1, f.a + 2, f.a + 3, f.a + 4, f.a + 5]
  | .cpyq _ => [f.a + 1, f.a + 2, f.a + 3, f.a + 4]
  | _ => []

/-- Every general register an instruction names, in field order d, a, b, then the implicit ones. -/
def Instr.named (i : Instr) (inBody : Bool) : List Nat :=
  match i.form, i.fields with
  | some fo, some f =>
    let r := i.roles fo f
    Role.regs r.1 f.d f.sd ++ Role.regs r.2.1 f.a f.sa
      ++ (if f.three then Role.regs r.2.2 f.b f.sb else []) ++ i.implicit f inBody
  | _, _ => []

/-- The special operands an instruction reads as values, in the order of their pops: a, then b, then d (R19). -/
def Instr.specialReads (i : Instr) : List Nat :=
  match i.form, i.fields with
  | some fo, some f =>
    let r := i.roles fo f
    let one := fun (r : Role) (n : Nat) (s : Bool) => match s, r with
      | true, .rd => [n]
      | true, .rw => [n]
      | _, _ => []
    one r.2.1 f.a f.sa ++ (if f.three then one r.2.2 f.b f.sb else []) ++ one r.1 f.d f.sd
  | _, _ => []

/-- The special operands it writes. -/
def Instr.specialWrites (i : Instr) : List Nat :=
  match i.form, i.fields with
  | some fo, some f =>
    let r := i.roles fo f
    let one := fun (r : Role) (n : Nat) (s : Bool) => match s, r with
      | true, .wr => [n]
      | true, .rw => [n]
      | _, _ => []
    one r.1 f.d f.sd ++ one r.2.1 f.a f.sa
  | _, _ => []

/-- The instructions that need K privilege at decode (R27; those marked K in R28 to R35). -/
def Instr.needsK (i : Instr) : Bool :=
  match i with
  | .mtest _ | .pgmig _ | .setcoh _ | .hbcfg _ | .bkmode _ | .segld _ | .ctxsv _ | .ctxld _ | .rett _ => true
  | _ => false

/-- What a privilege may do with a system register (R241): read and write, by index; `dbg` is the tenant's debug mode. -/
def sysReadable (k : Int) (priv dbg : Bool) : Bool :=
  priv || k = 0 || k = 17 || (21 ≤ k && k ≤ 25) || (k = 16 && dbg)
def sysWritable (k : Int) (priv dbg : Bool) : Bool := priv || k = 0 || (21 ≤ k && k ≤ 25) || (k = 16 && dbg)

/-- The privilege check of R27: the instructions that need K, the system registers by R241, and TNTCLR by R305. -/
def Instr.mayRun (i : Instr) (priv dbg : Bool) : Bool :=
  (priv || !i.needsK) &&
  match i with
  | .rdsr f => sysReadable f.imm priv dbg
  | .wrsr f => sysWritable f.imm priv dbg
  | .tntclr _ => priv || dbg
  | _ => true

/-- The instructions that only the movement thread may issue (R34, R113). -/
def Instr.movementOnly (i : Instr) : Bool :=
  match i with
  | .cpy _ | .cpy2d _ | .cpyq _ | .sdesc _ | .sdstop _ => true
  | _ => false

/-- An access of the wrong kind of slot (R19, R27, R113). -/
def Instr.wrongSlot (i : Instr) (k : Nat) : Bool :=
  (i.movementOnly && k ≠ 63) || (k ≠ 63 && i.specialReads.any (fun n => 124 ≤ n))
    || (k = 63 && i.specialWrites.any (fun n => 124 ≤ n))

/-- L-format instructions are the long-latency operations (R23). -/
def Instr.longLatency (i : Instr) : Bool :=
  match i.form with
  | some fo => fo.fmt = .L
  | none => false

/-- The releases of R257, as instructions. -/
def Instr.releases (i : Instr) : Bool :=
  i.specialWrites.any (fun n => 120 ≤ n && n < 124) ||
  match i with
  | .strel _ | .syrel _ | .syarv _ | .sydlg _ | .msgsend _ | .exit _ | .spawn _ | .nsende _ => true
  | .amoadd f | .amoand f | .amoor f | .amoxor f | .amomin f | .amomax f | .amoswap f | .amocas f | .amofadd f =>
    f.fx / 2 % 2 = 1
  | _ => false

/-- The instructions whose whole effect lies in the thread's own registers, scopes and FPSTAT, and the branches and jumps:
those that issue inside the window of an LDACQ (R62). -/
def Instr.threadLocal (i : Instr) : Bool :=
  i.specialReads.isEmpty && i.specialWrites.isEmpty &&
  match i with
  | .rdsr f | .wrsr f => f.imm = 0
  | .pldot _ | .plxp _ | .tid _ | .tntrd _ | .tntclr _ | .scopeo _ | .scopec _ | .pset _ | .pget _ | .padd _ => true
  | .ldg _ | .stg _ | .ldl _ | .stl _ | .ldlp _ | .stlp _ | .ldacq _ | .strel _ | .fence _ | .fenceX _ | .fenceA _
  | .fenceS _ | .pref _ => false
  | .vldl _ | .vstl _ | .vldg _ | .vstg _ | .vgath _ | .vscat _ => false
  | _ =>
    match i.opc with
    | some (p, _) => p = 0 || p = 1
    | none => false

end Sys2Proof

namespace Sys2Proof.Machine
open Sys2Proof

/-! ### Special operands -/

/-- Another thread of the core waits for the operand since before this one (R114, R138): it is served first. An mx register is
read by slot 63 and written by the others, so its reader is no rival of a writer. -/
def Core.earlier (x : Core) (k n : Nat) (since : Nat) : Bool :=
  x.slots.any (fun p => p.1 ≠ k && !(124 ≤ n && p.1 = 63) && (match p.2.occ with
    | .live t =>
      (match t.want with
       | some (.operands l) => l.contains n && (since = 0 || t.since < since)
       | _ => false)
    | _ => false))

/-- How one operand stands: ready, not yet, or a trap (code, address, auxiliary word). -/
inductive Ready where
  | yes
  | no
  | trap (code : Nat) (aux : Word)
deriving DecidableEq, Repr

/-- A read of inbound operand `n`, wanted `want` times (R137, R138, R140, R143, R145). -/
def State.readReady (s : State) (c k : Nat) (since n want : Nat) : Ready :=
  let x := s.core c
  if n < 114 then
    let p := nthD x.inp (n - 112) InPort.reset
    if p.owner ≠ some k then .trap tQCFGERR (w64 (n - 112 + 4))
    else
      match p.buf.take want with
      | [] => .no
      | w :: r =>
        if w.abort || r.any (fun v => v.abort) then .trap tSTREAMABORT (w64 (n - 112))
        else if 1 + r.length < want || x.earlier k n since then .no else .yes
  else if n < 120 then
    let q := nthD x.inq (n - 116) InQ.reset
    if !q.conf then .trap tQCFGERR (w64 (n - 116))
    else if q.held.length < want || x.earlier k n since then .no else .yes
  else if (nthD x.mx (n - 124) MxReg.reset).full then .yes else .no

/-- The words the mesh accepts on a port: a head at once; the words of an open packet only as fast as the destination port,
once it receives this packet, takes them (R144). -/
def State.streamRoom (s : State) (c p : Nat) : Bool :=
  let o := nthD (s.core c).outp p OutPort.reset
  let d := nthD (s.core o.core).inp o.port InPort.reset
  !(s.core o.core).dead &&
    (!o.opened || (d.rx = some (c, p)
      && d.buf.length + (s.flits.filter (fun f => f.kind = 1 && f.srcC = c && f.srcP = p)).length < 64))

/-- A bridge gate on the route is locked (R144, R334): the destination's tenant is in ERROR. -/
def State.gateLocked (s : State) (tn : Nat) (a b : Nat) : Bool :=
  (s.tenant tn).tdi = 3 && dieOf (a / 8) ≠ dieOf (b / 8)

/-- The coordinates MESHGATE reports (R236). -/
def State.destWord (s : State) (tn c : Nat) : Word :=
  let yx := (s.tenant tn).logical (c / 8)
  w64 (yx.1 * 128 + yx.2 * 8 + c % 8)

/-- A thread waits for Chord with an instruction that names operand `n`: it holds the operand from its issue on (R82, R138). -/
def Thread.holds (t : Thread) (n : Nat) : Bool :=
  match t.run, t.want with
  | .wait (.chord _), some (.operands l) => l.contains n
  | _, _ => false

/-- Outstanding operations of the core whose result goes to special operand `n`: each holds a credit, or the register, from its
issue on (R138). -/
def Core.reserved (x : Core) (n : Nat) : Nat :=
  (x.slots.map (fun p => match p.2.occ with
    | .live t => (t.ops.filter (fun o => o.ins.specialWrites.contains n)).length + (t.holds n).toNat
    | _ => 0)).sum

/-- A write of operand `n` by slot `k` (R114, R137 to R145). A refused credit request traps the pushes that wait on it, not one
that comes later (R139). -/
def State.writeReady (s : State) (tn c k since : Nat) (n : Nat) : Ready :=
  let x := s.core c
  if n < 116 then
    let o := nthD x.outp (n - 114) OutPort.reset
    if o.owner ≠ some k || !o.bound then .trap tQCFGERR (w64 (n - 114 + 4))
    else if o.abort then .trap tSTREAMABORT (w64 (n - 114))
    else if s.gateLocked tn c o.core then .trap tMESHGATE (s.destWord tn o.core)
    else if s.streamRoom c (n - 114) then .yes else .no
  else if n < 124 then
    let q := nthD x.outq (n - 120) OutQ.reset
    if !q.conf || (q.refused && q.cred = 0 && since ≠ 0) then .trap tQCFGERR (w64 (n - 120))
    else if x.reserved n < q.cred then .yes else .no
  else if (nthD x.mx (n - 124) MxReg.reset).full || x.reserved n ≠ 0 || x.earlier k n since then .no else .yes

/-- The number of times `n` occurs in a list. -/
def countIn (l : List Nat) (n : Nat) : Nat := (l.filter (fun m => m = n)).length

/-- Put together how every operand stands: the first trap decides; otherwise all must be ready. -/
def joinReady (l : List Ready) : Ready :=
  match l with
  | [] => .yes
  | .trap a b :: _ => .trap a b
  | .no :: r => (match joinReady r with
    | .trap a b => .trap a b
    | _ => .no)
  | .yes :: r => joinReady r

/-- Whether an instruction's special operands are ready (R138). -/
def State.specialsReady (s : State) (i : Instr) (tn c k since : Nat) : Ready :=
  let rs := i.specialReads
  joinReady (rs.map (fun n => s.readReady c k since n (countIn rs n))
    ++ i.specialWrites.map (fun n => s.writeReady tn c k since n))

/-- A pop: the word, and the state without it. A pop of an inbound queue frees space, which may answer held requests
(R139); a read of an mx register gives the movement thread its writer's s1 (R114). An mx register named in two fields gives its
one word to both: the rule for two words names inbound operands only (DESIGN CHOICE, log entry 69). -/
def State.popSpecial (s : State) (c k n : Nat) : TWord × State :=
  let x := s.core c
  if n < 114 then
    let i := n - 112
    let p := nthD x.inp i InPort.reset
    match p.buf with
    | [] => (TWord.zero, s)
    | w :: r =>
      let s := s.setCore c { x with inp := setNth x.inp i { p with buf := r } }
      (w.w, s.modThread c k (fun t => { t with inEnd := setNth t.inEnd i w.last }))
  else if n < 120 then
    let i := n - 116
    let q := nthD x.inq i InQ.reset
    match q.held with
    | [] => (TWord.zero, s)
    | w :: r =>
      let s := s.setCore c { x with inq := setNth x.inq i { q with held := r } }
      (w.w, if q.reqs.isEmpty then s else s.post [evt .creditReturn [c, i, 0]])
  else
    let i := n - 124
    let m := nthD x.mx i MxReg.reset
    let s := s.setCore c { x with mx := setNth x.mx i { m with full := false } }
    (m.w, s.modThread c k (fun t => { t with segs := setNth t.segs 1 m.s1 }))

/-- A word sent on an outbound stream port (R144, R147): the first opens the packet, the end bit closes it. -/
def State.sendStream (s : State) (tn c k p : Nat) (w : TWord) (last : Bool) (after : List Nat) : State :=
  let x := s.core c
  let o := nthD x.outp p OutPort.reset
  let t := s.thread? c k
  let src := match t with
    | some t => slotId (s.tid c k t)
    | none => tn * 0
  let o' := { o with opened := !last, since := if o.opened then o.since else s.now }
  let s := s.setCore c { x with outp := setNth x.outp p o' }
  let s := if o.opened || last then s else s.post [evt .streamForceClose [c, p]]
  let (i, s) := s.fresh
  ({ s with flits := s.flits ++ [{ id := i, kind := 1, core := o.core, port := o.port, word := ⟨w, last, false, src⟩,
                                   cpy := false, srcC := c, srcP := p, after := after }] } : State).post
    [evt .streamWordArrival [i]]

/-- A write of a special operand: a send, a push with one credit, or an mx register with the writer's s1. -/
def State.pushSpecial (s : State) (tn c k n : Nat) (w : TWord) : State :=
  let x := s.core c
  if n < 116 then s.sendStream tn c k (n - 114) w false []
  else if n < 124 then
    let i := n - 120
    let q := nthD x.outq i OutQ.reset
    let s := s.setCore c { x with outq := setNth x.outq i { q with cred := q.cred - 1 } }
    let (j, s) := s.fresh
    ({ s with flits := s.flits ++ [{ id := j, kind := 0, core := q.core, port := q.tq, word := ⟨w, false, false, 0⟩,
                                     cpy := false, srcC := c, srcP := i, after := s.storesOf c k }] } : State).post
      [evt .queueWordArrival [j]]
  else
    let i := n - 124
    let s1 := match s.thread? c k with
      | some t => t.seg 1
      | none => Seg.zero
    s.setCore c { x with mx := setNth x.mx i ⟨true, w, s1⟩ }

/-- A push that finds no credit asks for some (R139). -/
def State.askCredits (s : State) (c : Nat) (ws : List Nat) : State :=
  match ws with
  | [] => s
  | n :: r =>
    let s := if 120 ≤ n && n < 124 then
        let x := s.core c
        let q := nthD x.outq (n - 120) OutQ.reset
        if q.conf && q.cred ≤ x.reserved n && q.cred < 8 && !q.asked then
          (s.setCore c { x with outq := setNth x.outq (n - 120) { q with asked := true, refused := false } }).post
            [evt .creditRequest [q.core, q.tq, c, n - 120]]
        else s
      else s
    s.askCredits c r

/-! ### Before an instruction runs -/

/-- What the checks before an instruction decide. -/
inductive Pre where
  | go
  | wait (w : Wait)
  | trap (code : Nat) (addr aux : Word)
deriving DecidableEq, Repr

/-- The first register of a list that lies at or above the window top. REGRANGE and LAHAZ report the first one in the order d, a,
b, implicit, where several qualify (DESIGN CHOICE, log entry 70). -/
def overTop (l : List Nat) (top : Nat) : Option Nat := l.find? (fun n => top ≤ n)

/-- The first register of a list that is a pending destination (R24); g0 is never pending. -/
def pendingIn (l : List Nat) (ops : List Op) : Option Nat :=
  l.find? (fun n => n ≠ 0 && ops.any (fun o => o.pend.contains n))

/-! ### Releases of deterministic threads (R300) -/

/-- Every message the thread has sent is in its target's mailbox, and every AMOFADD it issued is in its home's list. -/
def State.detQuiet (s : State) (c k : Nat) : Bool :=
  match s.thread? c k with
  | none => true
  | some t =>
    !taskDet t.task ||
      (!(s.net.any (fun m => m.msg.src = s.tid c k t)) && !((s.core c).outbox.any (fun m => m.msg.src = s.tid c k t))
        && !(t.ops.any (fun o => match o.ins with
          | .amofadd _ => !o.acc.all (fun a => a.done)
          | _ => false)))

/-- The checks of R23, R24, R27 and R62 in order: the lookahead windows; privilege; slot; window top; pending
destinations; the window of an LDACQ; room for a fifth operation; what a deterministic release waits for (R300); the
special operands. -/
def State.precheck (s : State) (i : Instr) (c k : Nat) (t : Thread) : Pre :=
  let body := !t.frames.isEmpty || t.deleg ≠ none
  let regs := i.named body
  if t.ops.any (fun o => o.left = 0) then .wait .window
  else if !i.mayRun t.priv ((s.tenant t.tenant).tntctl.bits 1 1 = 1) then .trap tPRIV (w64 t.pc) 0
  else if i.wrongSlot k then .trap tMOVEONLY (w64 t.pc) 0
  else
    match overTop regs t.top with
    | some n => .trap tREGRANGE (w64 t.pc) (w64 n)
    | none =>
      match pendingIn regs t.ops with
      | some n => .trap tLAHAZ (w64 t.pc) (w64 n)
      | none =>
        if t.ops.any (fun o => o.acq) && !i.threadLocal then .wait .acquire
        else if i.longLatency && 4 ≤ t.ops.length then .wait .opSlot
        else if i.releases && !s.detQuiet c k then .wait .drained
        else
          match s.specialsReady i t.tenant c k t.since with
          | .yes => .go
          | .no => .wait (.operands (i.specialReads ++ i.specialWrites))
          | .trap code aux => .trap code 0 aux

/-- One more instruction has issued: every window that was open before it shortens by one (R23). An instruction that
parks at its own address has not issued: it runs afresh. `n` bounds the identities of the operations from before. -/
def State.shortened (s : State) (c k pc n : Nat) : State :=
  s.modThread c k (fun t =>
    if t.pc = pc && t.want.isSome then t
    else { t with ops := t.ops.map (fun o => if o.id < n then { o with left := o.left - 1 } else o) })

/-- A buffer without the first aborted end marker among its first `n` words. -/
def dropAbort (l : List SWord) (n : Nat) : List SWord :=
  match l, n with
  | w :: r, m + 1 => if w.abort then r else w :: dropAbort r m
  | l, _ => l

/-- The special operand that traps: the first of those read, else of those written, that is neither ready nor waited for. -/
def State.trapOperand (s : State) (i : Instr) (tn c k since : Nat) : Option Nat :=
  let traps := fun (r : Ready) => match r with
    | .trap _ _ => true
    | _ => false
  match i.specialReads.find? (fun n => traps (s.readReady c k since n (countIn i.specialReads n))) with
  | some n => some n
  | none => i.specialWrites.find? (fun n => traps (s.writeReady tn c k since n))

/-- What a trap of a special operand consumes: a STREAMABORT the aborted end marker that the read reached or the abort that the
port recorded (R145), the QCFGERR of a refused request the refusal (R139). -/
def State.consumeTrap (s : State) (i : Instr) (c n : Nat) : State :=
  s.modCore c (fun x =>
    if n < 114 then
      let p := nthD x.inp (n - 112) InPort.reset
      { x with inp := setNth x.inp (n - 112) { p with buf := dropAbort p.buf (countIn i.specialReads n) } }
    else if n < 116 then
      { x with outp := setNth x.outp (n - 114) { nthD x.outp (n - 114) OutPort.reset with abort := false } }
    else if 120 ≤ n && n < 124 then
      { x with outq := setNth x.outq (n - 120) { nthD x.outq (n - 120) OutQ.reset with refused := false } }
    else x)

/-- A trap found before the instruction ran: one of a special operand consumes what caused it. -/
def State.clearAborts (s : State) (i : Instr) (c k code : Nat) : State :=
  match s.thread? c k with
  | none => s
  | some t =>
    match s.trapOperand i t.tenant c k t.since with
    | none => s
    | some n =>
      if code = tSTREAMABORT || (code = tQCFGERR && (nthD (s.core c).outq (n - 120) OutQ.reset).conf && 120 ≤ n) then s.consumeTrap i c n
      else s

/-- Run an instruction for the current thread: after the checks, `body` has its effect. -/
def issue (i : Instr) (s : State) (body : Nat → Nat → Thread → State → State) : Out :=
  match s.current with
  | none => .next s
  | some (c, k, t) =>
    match s.precheck i c k t with
    | .go => .next ((body c k t s).shortened c k t.pc s.nextId)
    | .wait w => .next ((s.askCredits c i.specialWrites).park c k w)
    | .trap code addr aux => .next ((s.clearAborts i c k code).raise c k code addr aux)

/-! ### Reading operands and writing results -/

/-- The values of the three register fields. -/
structure Vals where
  d : TWord
  a : TWord
  b : TWord
deriving DecidableEq, Repr

/-- One field as a value: popped from a special operand where it reads one, else the register. -/
def State.readField (s : State) (c k : Nat) (t : Thread) (r : Role) (n : Nat) (sp : Bool) : TWord × State :=
  if sp then
    match r with
    | .rd | .rw => s.popSpecial c k n
    | _ => (TWord.zero, s)
  else
    match r with
    | .rd | .wr | .rw | .base | .wrp | .rwp => (s.getG c t n, s)
    | .ptr => (nthD t.ptrs n TWord.zero, s)
    | _ => (TWord.zero, s)

/-- Read a, then b, then d (R19). -/
def State.readVals (s : State) (i : Instr) (c k : Nat) (t : Thread) (f : Fields) : Vals × State :=
  match i.form with
  | none => (⟨TWord.zero, TWord.zero, TWord.zero⟩, s)
  | some fo =>
    let r := i.roles fo f
    let (a, s) := s.readField c k t r.2.1 f.a f.sa
    let (b, s) := if f.three then s.readField c k t r.2.2 f.b f.sb else (TWord.zero, s)
    let (d, s) := s.readField c k t r.1 f.d f.sd
    (⟨d, a, b⟩, s)

/-- Write register d: a push, a send or a general register. -/
def State.writeD (s : State) (c k : Nat) (t : Thread) (f : Fields) (v : TWord) : State :=
  if f.sd then s.pushSpecial t.tenant c k f.d v else s.setG c t f.d v

/-- Write the register a field names, or the special operand. -/
def State.writeReg (s : State) (c k : Nat) (t : Thread) (n : Nat) (sp : Bool) (v : TWord) : State :=
  if sp then s.pushSpecial t.tenant c k n v else s.setG c t n v

/-- An instruction whose whole effect is one value written to gd and the move to the next instruction. -/
def compute (i : Instr) (f : Fields) (s : State) (g : Vals → TWord) : Out :=
  issue i s (fun c k t s =>
    let (v, s) := s.readVals i c k t f
    (s.writeD c k t f (g v)).finish c k)

/-- The first and second operand of an integer or F operation (R149): x = g[d], y = g[a], or with XOPD x = g[a],
y = g[b]. -/
def Vals.x (v : Vals) (f : Fields) : TWord := if f.three then v.a else v.d
def Vals.y (v : Vals) (f : Fields) : TWord := if f.three then v.b else v.a

/-- The size in bytes and the sign extension of a size code (R22). -/
def sizeBytes (lo : Nat) : Nat :=
  match lo with
  | 1 | 5 => 1
  | 2 | 6 => 2
  | 3 | 7 => 4
  | _ => 8
def signedSize (lo : Nat) : Bool := 5 ≤ lo

/-- Zero or sign extension of a loaded item (R61). -/
def extend (lo : Nat) (v : Word) : Word :=
  let n := 8 * sizeBytes lo
  let x := v.toNat % 2 ^ n
  if signedSize lo && 2 ^ (n - 1) ≤ x then w64i ((x : Int) - (2 ^ n : Int)) else w64 x

end Sys2Proof.Machine
end

