-- ==== Sys2Proof/Machine/Access.lean ====
section
/-!
DEFINITION. Sys2Proof/Machine/Access.lean: what every access to memory shares: walks and fault records (R54, R55), what a
thread's load sees of the store buffers (R61, R256), entering the store buffer (R254), outstanding operations (R23 to R25)
and watchpoints (R309).
-/
namespace Sys2Proof.Machine
open Sys2Proof

/-- An event that cannot take place yet stays among those that may. -/
def State.again (s : State) (i : Instr) : State := s.post [⟨i, s.arg⟩]

/-- The page number by which walks and answers are matched: addresses within one 4 KiB page share it. -/
def pageOf (va : Nat) : Nat := va % 2 ^ 57 / 4096

/-! ### Walks (R54, R55) -/

/-- A walk of this access is under way, or its fault record waits for an answer. -/
def State.walking (s : State) (who c k va : Nat) : Bool :=
  s.walks.any (fun w => w.who = who && w.core = c && w.slot = k && pageOf w.va = pageOf va)

/-- Start a walk for an access, unless one is under way. -/
def State.startWalk (s : State) (tn who c k va acc : Nat) : State :=
  if s.walking who c k va then s
  else
    let (i, s) := s.fresh
    ({ s with walks := s.walks ++ [{ id := i, tenant := tn, who := who, core := c, slot := k, va := va % 2 ^ 57, acc := acc,
                                     busy := false, record := none, cause := 0, declined := false }] } : State).post [evt .walkStart [i]]

/-- What an instruction that needs a page before it can go on finds at its port. -/
inductive Found where
  | tr (t : Tr)
  | declined (cause : Nat)
  | parked (s : State)

/-- The page of a virtual address for slot `k` of core `c`: translated; or declined by the runtime (R55); or the thread
parks until the walk has ended (R54). -/
def State.pageFor (s : State) (c k : Nat) (t : Thread) (va acc : Nat) : Found :=
  match s.lookup (c / 8) va acc with
  | some tr => .tr tr
  | none =>
    match t.declined with
    | some (p, cause) =>
      if p = pageOf va then .declined cause
      else .parked ((s.startWalk t.tenant 0 c k va acc).park c k (.page va))
    | none => .parked ((s.startWalk t.tenant 0 c k va acc).park c k (.page va))

/-! ### Granule maps (R71) -/

/-- A view slot and a region slot that nothing has used. -/
def View.reset : View := ⟨1, false, 0, 0⟩
def Region.reset : Region := ⟨false, 0, 0, 0, false, 0, [], 0, []⟩

def Tenant.region (t : Tenant) (r : Nat) : Region := SMap.get t.regions r Region.reset
def Region.view (r : Region) (v : Nat) : View := SMap.get r.views v View.reset

/-- The number under which a translation cache keeps granule `g` of region `r`: past every virtual page number. -/
def mapKey (r g : Nat) : Nat := 2 ^ 45 + r * 2 ^ 24 + g

/-- The granule frame's base that a cluster's translation cache holds for a granule. -/
def State.lookupMap (s : State) (cl r epoch g : Nat) : Option Nat :=
  match (s.cluster cl).tlb.find? (fun e => e.va = mapKey r g && e.leaf = w64 epoch) with
  | none => none
  | some e => SMap.get? e.second 0

/-- A walk of the granule map: the frame, where the region is still that one and a live view covers the granule. -/
def State.walkMap (s : State) (tn r epoch g : Nat) : Option Nat :=
  let x := (s.tenant tn).region r
  if x.epoch = epoch then SMap.get? x.frames g else none

/-- Fill a translation cache with an entry of a granule map. -/
def State.fillMap (s : State) (cl r epoch g frame : Nat) : State :=
  let x := s.cluster cl
  let e : TLBEntry := ⟨mapKey r g, 5, w64 epoch, [(0, 4096 * frame)]⟩
  s.setCluster cl { x with tlb := (e :: x.tlb.filter (fun y => y.va ≠ e.va)).take 2048 }

/-- A walk of a granule map has ended: the cache is filled; or the map no longer holds the granule, which the instruction that
waits, or the engine, will find (R80). -/
def State.mapWalked (s : State) (w : Walk) : State :=
  let r := w.va / 2 ^ 36
  let g := w.va / 4096 % 2 ^ 24
  let drop := fun (s : State) => ({ s with walks := s.walks.filter (fun x => x.id ≠ w.id) } : State)
  match s.walkMap w.tenant r w.acc g with
  | some f => (drop s).fillMap (w.core / 8) r w.acc g f
  | none =>
    if w.who = 7 then (drop s).modThread w.core w.slot (fun t => { t with declined := some (mapKey r g, tWIDEN) })
    else { s with walks := s.walks.map (fun x => if x.id = w.id then { w with busy := false, declined := true } else x) }

/-! ### What a core's loads see (R61, R109, R256) -/

/-- The store-buffer entry holds bytes of the word at byte address `a` of the same place. -/
def SBEntry.covers (e : SBEntry) (loc : Bool) (core a : Nat) : Bool :=
  e.loc = loc && (!loc || e.core = core) && e.addr / 8 ≤ a / 8 && a / 8 ≤ (e.addr + e.size - 1) / 8
    && (match e.kind with
        | .streamAdd _ _ => false
        | .amo _ => false
        | _ => true)

/-- A word after an entry has been applied to it. -/
def SBEntry.applyTo (e : SBEntry) (a : Nat) (w : TWord) : TWord :=
  if e.size ≤ 8 then storeInto w (e.addr % 8) e.size (nthD e.data 0 TWord.zero)
  else nthD e.data (a / 8 - e.addr / 8) w

/-- Apply entries, in order, to a word. -/
def applyEntries (l : List SBEntry) (loc : Bool) (core a : Nat) (w : TWord) : TWord :=
  l.foldl (fun w e => if e.covers loc core a then e.applyTo a w else w) w

/-- The entries of core `c` not yet performed, in entry order: those in flight, then those in the buffer. -/
def State.pendingStores (s : State) (c : Nat) : List SBEntry :=
  (s.flights.filter (fun f => f.core = c && f.stage ≠ 2)).map (fun f => f.entry) ++ (s.core c).sb

/-- The word at byte address `a` with the bytes of the write-combine buffer. -/
def Core.combined (x : Core) (a : Nat) (w : TWord) : TWord :=
  match x.wc.find? (fun e => e.half = a / 64) with
  | none => w
  | some e =>
    let v := e.bytes.foldl (fun w p =>
      if p.1 / 8 = a % 64 / 8 then storeInto w (p.1 % 8) 1 ⟨w64 p.2.toNat, false⟩ else w) w
    if e.taint.contains (a % 64 / 8) then { v with t := true } else v

/-- The page of an entry is under migration (R60). -/
def State.migrating (s : State) (tn : Nat) (e : SBEntry) : Bool :=
  !e.loc && !e.wide && (match s.translate tn e.va 1 with
    | .ok tr => Leaf.wb tr.leaf
    | .error _ => false)

/-- A parked write with the place its page has now (R60): the old frame, and the new one from step 3 of the migration on. -/
def State.replaced (s : State) (tn : Nat) (e : SBEntry) : SBEntry :=
  if e.loc || e.wide then e
  else
    match s.translate tn e.va 1 with
    | .ok tr =>
      { e with addr := tr.pa, leaf := tr.leaf, sh := Leaf.sh tr.leaf, host := Leaf.h tr.leaf, sw := Leaf.sw tr.leaf }
    | .error _ => e

/-- The thread of a slot is the one that made an entry. -/
def State.madeBy (s : State) (c k : Nat) (e : SBEntry) : Bool :=
  e.slot = k && (match s.thread? c k with
    | some t => t.inc = e.inc
    | none => false)

/-- The parked writes of the thread of slot `k` (R60). -/
def State.parkedOf (s : State) (c k : Nat) : List SBEntry :=
  match s.thread? c k with
  | none => []
  | some t => ((s.core c).parked.filter (fun e => e.slot = k && e.inc = t.inc)).map (s.replaced t.tenant)

/-- The word a load of slot `k`, issued as number `upto`, gets on top of the coherent word `w` (R61): the write-combine
buffer, then the entries of the store buffer whichever thread made them (of its own thread only older ones), then the
thread's own parked writes. -/
def State.forwarded (s : State) (c k upto : Nat) (loc : Bool) (core a : Nat) (w : TWord) : TWord :=
  let x := s.core c
  let w := if loc then w else x.combined a w
  let w := applyEntries ((s.pendingStores c).filter (fun e => !s.madeBy c k e || e.id < upto)) loc core a w
  applyEntries ((s.parkedOf c k).filter (fun e => e.id < upto)) loc core a w

/-- Every byte of an item of up to 8 bytes comes from the core's own buffers (R61), so that no request leaves the core. -/
def State.allForwarded (s : State) (c k upto a size : Nat) : Bool :=
  let es := ((s.pendingStores c).filter (fun e => !s.madeBy c k e || e.id < upto))
    ++ (s.parkedOf c k).filter (fun e => e.id < upto)
  (List.range size).all (fun i =>
    es.any (fun e => e.covers false 0 a && e.addr ≤ a + i && a + i < e.addr + e.size)
      || (s.core c).wc.any (fun e => e.half = a / 64 && e.bytes.any (fun p => p.1 = (a + i) % 64)))

/-- Where cached copies of a SW page's line are looked for: the core's banks, then its cluster's slice, then home (R101). -/
def State.swWord (s : State) (c w : Nat) : TWord :=
  match SMap.get? s.copies (copyKey (w / 16) (bankHolder c)) with
  | some cp => nthD cp.words (w % 16) (s.mem.word w)
  | none =>
    match SMap.get? s.copies (copyKey (w / 16) (c / 8)) with
    | some cp => nthD cp.words (w % 16) (s.mem.word w)
    | none => s.mem.word w

/-- The coherent word for core `c` (R61 item 4). -/
def State.cohWord (s : State) (c w : Nat) (leaf : Word) : TWord :=
  if Leaf.sw leaf then s.swWord c w else s.curWord w

/-- A whole item of `size` bytes, at most 8, as a load of the core sees it. -/
def State.loadItem (s : State) (c k upto : Nat) (tr : Tr) (size : Nat) : TWord :=
  let w := s.forwarded c k upto false 0 tr.pa (s.cohWord c (tr.pa / 8) tr.leaf)
  ⟨w64 (w.v.toNat / 2 ^ (8 * (tr.pa % 8)) % 2 ^ (8 * size)), w.t⟩

/-- Is the line poisoned? -/
def State.poisoned (s : State) (pa : Nat) : Bool := s.mem.poisoned (pa / 128)

/-! ### Entering the store buffer (R254) -/

/-- Room in the 32-entry buffer: an entry keeps its place until its acknowledgement (R91). -/
def State.sbRoom (s : State) (c : Nat) : Bool :=
  (s.core c).sb.length + (s.flights.filter (fun f => f.core = c)).length < 32

/-- Append an entry to the core's store buffer. -/
def State.enqueueStore (s : State) (c : Nat) (e : SBEntry) : State :=
  (s.modCore c (fun x => { x with sb := x.sb ++ [e] })).post [evt .storeBufferDrain [c]]

/-- A store or atomic that has not entered the store buffer yet: later ones of its thread wait behind it (R254). -/
def Op.unentered (o : Op) : Bool := o.kind = .store || o.kind = .bpack || (o.kind = .amo && !o.sent && !o.acc.all (fun a => a.done))

/-- A thread's stores of the local pool and of memory wait behind an earlier one that is not yet translated. -/
def Thread.storeQueued (t : Thread) : Bool := t.ops.any Op.unentered

/-- The ordering class of an access (R254, R255): accesses to pages of die scope with hardware coherence, and local ones
within a die, are ordered among each other; others only with accesses to the same word. -/
def dieScope (sh : Nat) (sw host : Bool) : Bool := sh ≤ 2 && !sw && !host

/-! ### Outstanding operations (R23 to R25) -/

/-- An operation with nothing particular. -/
def Op.new (i : Instr) (t : Thread) (kind : OpKind) (space : Space) (la : Nat) : Op :=
  { id := 0, pc := t.pc, left := la, ins := i, kind := kind, space := space, seg := 0, off := 0, acc := [], pend := [],
    ataint := false, data := [], acq := false, rel := false, tip := t.trap.tip, lane := 0, seq := 0, sent := false,
    born := 0 }

/-- Start an operation: it is outstanding from now on. -/
def State.addOp (s : State) (c k : Nat) (o : Op) : Nat × State :=
  let (i, s) := s.fresh
  (i, s.modThread c k (fun t => { t with ops := t.ops ++ [{ o with id := i, born := s.now }] }))

def Thread.op? (t : Thread) (o : Nat) : Option Op := t.ops.find? (fun x => x.id = o)
def Thread.setOp (t : Thread) (o : Op) : Thread := { t with ops := t.ops.map (fun x => if x.id = o.id then o else x) }
def Thread.dropOp (t : Thread) (o : Nat) : Thread := { t with ops := t.ops.filter (fun x => x.id ≠ o) }

/-- A SAREAD reads a panel. -/
def Op.panel (o : Op) : Bool :=
  match o.ins with
  | .saread f => f.lo = 2
  | _ => false

/-- The cores that the panel of a SAREAD is written to (R209): for a panel `lane` holds its width and `data` first the pointer. -/
def State.panelCores (s : State) (tn : Nat) (o : Op) : List Nat :=
  if o.panel then
    (List.range (1 + 8 * o.lane)).filterMap (fun i =>
      match s.memL tn (advancePtr (nthD o.data 0 TWord.zero).v (64 * i)) 64 with
      | .ok p => some p.1
      | .error _ => none)
  else []

/-- The thread, slot and operation that an event names. -/
def State.opOf (s : State) (c k o : Nat) : Option (Thread × Op) :=
  match s.thread? c k with
  | none => none
  | some t => (t.op? o).map (fun x => (t, x))

/-- Every access has been performed, or one was refused. -/
def Op.settled (o : Op) : Bool := o.acc.all (fun a => a.done) || o.acc.any (fun a => a.refuse ≠ 0)

/-- A plain access record. -/
def Access.at (addr size : Nat) (v : TWord) : Access := ⟨addr, 0, size, v, false, 0, 0⟩

/-! ### Watchpoints (R308, R309) -/

/-- The lowest watchpoint of a core, armed for slot `k`, that bytes [va, va + size) meet. -/
def Core.watchHit (x : Core) (k va size : Nat) (ld st : Bool) : Option Nat :=
  (List.range 4).find? (fun n =>
    let w := nthD x.dbg.wp n 0
    let m := nthD x.dbg.wpm n 0
    w.bits 63 63 = 1 && ((ld && w.bits 62 62 = 1) || (st && w.bits 61 61 = 1)) && m.toNat / 2 ^ k % 2 = 1
      && w.bits 60 57 ≤ 12 && va < w.bits 56 0 + 2 ^ w.bits 60 57 && w.bits 56 0 < va + size)

/-- A completed access of a thread meets a watchpoint: the thread stops at its next boundary. -/
def State.watched (s : State) (c k va size : Nat) (ld st : Bool) : State :=
  match (s.core c).watchHit k va size ld st with
  | none => s
  | some n =>
    (s.modThread c k (fun t => { t with watch := match t.watch with
      | some m => some (min m n)
      | none => some n })).post [evt .watchpointHit [c, k, n]]

/-- A DEBUG record (R309). -/
def State.debugRec (s : State) (c k : Nat) (cause unit : Nat) : State :=
  match s.thread? c k with
  | none => s
  | some t => s.faultRec t.tenant (recWord 9 (cause * 2 ^ 48 + unit % 65536 * 2 ^ 32 + t.pc % 2 ^ 32)) (s.tid c k t)

/-! ### Stops (R243) -/

/-- An outbound packet of the thread is open (R144). -/
def Core.packetOpen (x : Core) (k : Nat) : Bool := x.outp.any (fun o => o.owner = some k && o.opened)

/-- An instruction of the thread has begun to act and goes on step by step: no boundary lies within it. -/
def Thread.midway (t : Thread) : Bool := t.part.head? = some 1

/-- The thread is at a boundary: an instruction that waits for an answer which it has caused is within itself, a SPAWN (R243), a
view operation that Chord performs, a release or an arrival on its way to its home, a save. -/
def Thread.atBoundary (t : Thread) : Bool :=
  t.answer.isNone && !t.midway
    && (match t.run with
        | .wait (.spawn _) => false
        | .wait (.chord _) => false
        | .wait (.home _) => false
        | .wait (.save _) => false
        | _ => true)

/-- The conditions of R243 for a stop at this boundary. A precise trap that has been raised stays with the thread. -/
def Core.mayStop (x : Core) (k : Nat) (t : Thread) : Bool := !x.packetOpen k && t.defers.isEmpty && t.atBoundary

/-- The lowest enabled breakpoint of the core that is armed for the slot and names the pc (R308). -/
def Core.breakHit (x : Core) (k pc : Nat) : Option Nat :=
  (List.range 8).find? (fun n =>
    let b := nthD x.dbg.bp n 0
    b.bits 63 63 = 1 && (nthD x.dbg.bpm n 0).toNat / 2 ^ k % 2 = 1 && b.bits 39 1 = pc % 2 ^ 40 / 2)

/-- A thread that stops while it waits on a sync object gives up its wait (R277): a withdrawal goes to the home. -/
def State.withdraw (s : State) (r : Nat) : State :=
  match s.reqs.find? (fun q => q.id = r) with
  | none => s
  | some q =>
    let (i, s) := s.fresh
    ({ s with reqs := s.reqs ++ [{ q with id := i, kind := 5, ref := r, ans := 0, after := [] }] } : State).post
      [evt .lockWithdrawal [i]]

/-- What a stopping thread gives up: a wait on a sync object, by a withdrawal; a place among those that wait for granules, or for
an entry of the Lattice queue (MZERO, MFREE). -/
def State.abandon (s : State) (c : Nat) (t : Thread) : State :=
  let s := match t.want with
    | some .lqRoom => s.modCore c (fun x => { x with lqWait := x.lqWait.filter (fun m => !(2 ≤ m.kind && t.part.contains m.id)) })
    | _ => s.leaveLine c t
  match t.run with
  | .wait (.locus r) =>
    let s := { s with reqs := s.reqs.map (fun q => if q.id = r then { q with gone := true } else q) }
    if s.reqs.any (fun q => q.kind = 5 && q.ref = r) then s else s.withdraw r
  | _ => s

/-- Stop a thread by debug at this boundary, with one record (R309): the breakpoint first, then the watchpoint, then BRK. -/
def State.debugStop (s : State) (c k : Nat) (t : Thread) (bp : Option Nat) : State :=
  let t' := { t.afresh with run := .stopped true, watch := none, brk := none, stopReq := 0, resumed := false }
  let s := s.abandon c t
  match bp, t.watch, t.brk with
  | some n, _, _ => (s.debugRec c k 1 n).setThread c k t'
  | none, some n, _ => (s.debugRec c k 2 n).setThread c k t'
  | none, none, some n => (s.debugRec c k 3 n).setThread c k t'
  | none, none, none => s

/-- A stop of CTXSV or Apex that is asked for takes effect; a BKMODE that waits is abandoned with its mark (R26). The mark
of a thread that CTXSV saves stays. -/
def State.takeStop (s : State) (c k : Nat) (t : Thread) : State :=
  let s := if t.want = some .bank then s.modCore c (fun x => { x with moving := false }) else s
  (s.abandon c t).setThread c k { t.afresh with run := .stopped false, stopReq := if t.stopReq = 2 then 0 else t.stopReq }

/-- What stands at an instruction boundary before anything issues (R239, R243, R309): the state after it, or none where
the thread goes on to its next instruction. An instruction whose answer has arrived completes first. -/
def State.boundary (s : State) (c k : Nat) (t : Thread) : Option State :=
  let x := s.core c
  if !t.atBoundary then none else
  let bp := if t.resumed then none else x.breakHit k t.pc
  if x.mayStop k t && t.stopReq ≠ 0 then some (s.takeStop c k t)
  else if x.mayStop k t && (bp ≠ none || t.watch ≠ none || t.brk ≠ none) then some (s.debugStop c k t bp)
  else
    match t.dueTrap with
    | none => none
    | some (tr, t') =>
      if t.ops.isEmpty then some ((s.setThread c k t').deliver c k tr)
      else some (s.park c k .opsDone)

/-! ### Fetching (R14, R27) -/

/-- What the fetch of one parcel gives. -/
inductive Parcel where
  | ok (w : Nat)
  | trap (code : Nat) (addr aux : Word)
  | parked (s : State)

/-- Fetch16 at s0 offset `off`; `pc` is the instruction's address. A declined page and a poisoned line are delivered with
the deferred layout (R25, R48), the one with the offset, the other with the address in TRAPADDR (R236). -/
def State.fetch16 (s : State) (c k : Nat) (t : Thread) (off : Nat) : Parcel :=
  let g := t.seg 0
  if off + 2 > g.limit then .trap tSEGLIM (w64 off) 0
  else if !g.has 'X' then .trap tSEGRIGHT (w64 off) 0
  else
    match s.pageFor c k t (g.base + off) 3 with
    | .declined cause => .trap tPAGEFLT (w64 off) (deferredAux cause t.pc)
    | .parked s => .parked s
    | .tr tr =>
      if s.poisoned tr.pa then .trap tPOISON (w64 (g.base + off)) (deferredAux 0 t.pc)
      else .ok (bitsOf (s.cohWord c (tr.pa / 8) tr.leaf).v.toNat (8 * (tr.pa % 8) + 15) (8 * (tr.pa % 8)))

/-- What the fetch of a whole instruction gives: its parcels. -/
inductive Fetched where
  | ok (l : List Nat)
  | trap (code : Nat) (addr aux : Word)
  | parked (s : State)

/-- Parcels from `pc + 2n` on, up to the first that is not of the kind that comes in front, or a fifth of those. -/
def State.fetchFrom (s : State) (c k : Nat) (t : Thread) (fuel off : Nat) : Fetched :=
  match fuel with
  | 0 => .ok []
  | n + 1 =>
    match s.fetch16 c k t off with
    | .trap a b d => .trap a b d
    | .parked s => .parked s
    | .ok w =>
      if isPrefix w then
        match s.fetchFrom c k t n (off + 2) with
        | .ok l => .ok (w :: l)
        | .trap a b d => .trap a b d
        | .parked s => .parked s
      else .ok [w]

/-- The parcels of the instruction at the thread's pc. -/
def State.fetch (s : State) (c k : Nat) (t : Thread) : Fetched := s.fetchFrom c k t 5 t.pc

end Sys2Proof.Machine
end

