-- ==== Sys2Proof/Machine/Float.lean ====
section
/-!
DEFINITION. Sys2Proof/Machine/Float.lean: the floating-point formats, RN, and every arithmetic function on elements
(R36, R154 to R156, R159, R162 to R165), each computed exactly and rounded once.
-/
namespace Sys2Proof.Machine
open Sys2Proof

/-! ### Formats and values -/

/-- A binary format: exponent bits, fraction bits (R154). -/
structure FFmt where
  ew : Nat
  fw : Nat
deriving DecidableEq, Repr

def FFmt.bias (f : FFmt) : Nat := 2 ^ (f.ew - 1) - 1
def FFmt.width (f : FFmt) : Nat := 1 + f.ew + f.fw
def fp32 : FFmt := ⟨8, 23⟩
def bf16 : FFmt := ⟨8, 7⟩
def fp16 : FFmt := ⟨5, 10⟩
/-- The canonical quiet NaN (R154, R155). -/
def FFmt.nan (f : FFmt) : Nat := (2 ^ f.ew - 1) * 2 ^ f.fw + 2 ^ (f.fw - 1)
def FFmt.inf (f : FFmt) (neg : Bool) : Nat := (if neg then 2 ^ (f.ew + f.fw) else 0) + (2 ^ f.ew - 1) * 2 ^ f.fw
def FFmt.zero (f : FFmt) (neg : Bool) : Nat := if neg then 2 ^ (f.ew + f.fw) else 0
/-- The largest finite value of a sign. -/
def FFmt.max (f : FFmt) (neg : Bool) : Nat := f.inf neg - 1

/-- A value: NaN (signalling or not), an infinity, or (−1)^neg · m · 2^e. -/
inductive FVal where
  | nan (signalling : Bool)
  | inf (neg : Bool)
  | num (neg : Bool) (m : Nat) (e : Int)
deriving DecidableEq, Repr

/-- The value of an encoding (R154). -/
def FFmt.val (f : FFmt) (b : Nat) : FVal :=
  let neg := b / 2 ^ (f.ew + f.fw) % 2 = 1
  let ex := b / 2 ^ f.fw % 2 ^ f.ew
  let fr := b % 2 ^ f.fw
  if ex = 2 ^ f.ew - 1 then (if fr = 0 then .inf neg else .nan (fr / 2 ^ (f.fw - 1) = 0))
  else if ex = 0 then .num neg fr (1 - (f.bias : Int) - f.fw)
  else .num neg (2 ^ f.fw + fr) ((ex : Int) - f.bias - f.fw)

/-- The flags as bits in FPSTAT order (R157). -/
def flNV : Nat := 16
def flDZ : Nat := 8
def flOF : Nat := 4
def flUF : Nat := 2
def flNX : Nat := 1
def flOr (a b : Nat) : Nat := Nat.lor a b

/-- A result with the flags it raises. -/
abbrev FRes := Nat × Nat

/-! ### RN (R36, R156) -/

/-- Rounding of a magnitude `r` with a remainder: whether it moves up. `half` compares the remainder with one half:
−1 below, 0 equal, 1 above. -/
def roundsUp (mode : Nat) (neg : Bool) (r : Nat) (exact : Bool) (half : Int) : Bool :=
  if exact then false
  else
    match mode with
    | 1 => false
    | 2 => !neg
    | 3 => neg
    | _ => 0 < half || (half = 0 && r % 2 = 1)

/-- `m` (with a further positive part below one unit when `st`) divided by 2^sh and rounded; and whether it was exact. -/
def roundShift (mode : Nat) (neg : Bool) (m : Nat) (st : Bool) (sh : Int) : Nat × Bool :=
  if sh ≤ 0 then (m * 2 ^ (-sh).toNat, !st)
  else
    let k := sh.toNat
    let r := m / 2 ^ k
    let rem := m % 2 ^ k
    let h := 2 ^ (k - 1)
    let half : Int := if rem < h then -1 else if rem = h && !st then 0 else 1
    let exact := rem = 0 && !st
    (if roundsUp mode neg r exact half then r + 1 else r, exact)

/-- RN of (−1)^neg · (m + st) · 2^e, where `st` stands for something strictly between 0 and 1, in mode 0 RNE, 1 RTZ,
2 toward +∞, 3 toward −∞, 4 RNE saturating. -/
def roundF (f : FFmt) (mode : Nat) (neg : Bool) (m : Nat) (e : Int) (st : Bool) : FRes :=
  if m = 0 && !st then (f.zero neg, 0)
  else
    let top : Int := (Nat.log2 m : Int) + e
    let emin : Int := 1 - (f.bias : Int)
    let q := max (top - f.fw) (emin - f.fw)
    let (r, exact) := roundShift mode neg m st (q - e)
    let unb := (roundShift mode neg m st (top - f.fw - e)).1
    let tiny := top < emin && !(top = emin - 1 && unb = 2 ^ (f.fw + 1))
    let (r, q) := if r = 2 ^ (f.fw + 1) then (2 ^ f.fw, q + 1) else (r, q)
    if 2 ^ f.fw ≤ r && (f.bias : Int) < q + f.fw then
      (match mode with
       | 0 => f.inf neg
       | 2 => if neg then f.max true else f.inf false
       | 3 => if neg then f.inf true else f.max false
       | _ => f.max neg, flOF + flNX)
    else
      let bits := if r < 2 ^ f.fw then r else (q + f.fw + f.bias).toNat * 2 ^ f.fw + (r - 2 ^ f.fw)
      (f.zero neg + bits, (if exact then 0 else flNX) + (if tiny && !exact then flUF else 0))

/-! ### Arithmetic -/

/-- A NaN result, with NV where an operand signals or the operation is invalid. -/
def FFmt.quiet (f : FFmt) (nv : Bool) : FRes := (f.nan, if nv then flNV else 0)

/-- Some operand is a signalling NaN. -/
def FVal.snan (x : FVal) : Bool :=
  match x with
  | .nan s => s
  | _ => false

/-- The exact sum of two finite values, as a signed integer times a power of two. -/
def exactSum (n1 : Bool) (m1 : Nat) (e1 : Int) (n2 : Bool) (m2 : Nat) (e2 : Int) : Int × Int :=
  let e := min e1 e2
  let a : Int := (m1 * 2 ^ (e1 - e).toNat : Nat)
  let b : Int := (m2 * 2 ^ (e2 - e).toNat : Nat)
  ((if n1 then -a else a) + (if n2 then -b else b), e)

/-- RN of a sum, with the sign rule of a zero sum (R156). -/
def sumV (f : FFmt) (mode : Nat) (x y : FVal) (nv : Bool) : FRes :=
  match x, y with
  | .nan s, y => f.quiet (s || y.snan || nv)
  | _, .nan s => f.quiet (s || nv)
  | .inf a, .inf b => if a = b then (f.inf a, 0) else f.quiet true
  | .inf a, .num _ _ _ => (f.inf a, 0)
  | .num _ _ _, .inf b => (f.inf b, 0)
  | .num n1 m1 e1, .num n2 m2 e2 =>
    let (v, e) := exactSum n1 m1 e1 n2 m2 e2
    if v = 0 then
      (f.zero (if m1 = 0 && m2 = 0 && n1 = n2 then n1 else mode = 3), 0)
    else roundF f mode (v < 0) v.natAbs e false

def FVal.flip (x : FVal) : FVal :=
  match x with
  | .nan s => .nan s
  | .inf n => .inf (!n)
  | .num n m e => .num (!n) m e

def addF (f : FFmt) (mode x y : Nat) : FRes := sumV f mode (f.val x) (f.val y) false
def subF (f : FFmt) (mode x y : Nat) : FRes := sumV f mode (f.val x) (f.val y).flip false

/-- An exact product; `none` for 0·∞. -/
def prodV (x y : FVal) : Option FVal :=
  match x, y with
  | .nan s, y => some (.nan (s || y.snan))
  | _, .nan s => some (.nan s)
  | .inf a, .inf b => some (.inf (a != b))
  | .inf a, .num b m _ => if m = 0 then none else some (.inf (a != b))
  | .num a m _, .inf b => if m = 0 then none else some (.inf (a != b))
  | .num a m1 e1, .num b m2 e2 => some (.num (a != b) (m1 * m2) (e1 + e2))

def mulF (f : FFmt) (mode x y : Nat) : FRes :=
  match prodV (f.val x) (f.val y) with
  | none => f.quiet true
  | some (.nan s) => f.quiet s
  | some (.inf n) => (f.inf n, 0)
  | some (.num n m e) => roundF f mode n m e false

/-- RN(a·b + d), one rounding; 0·∞ is invalid even when the addend is a NaN (R155). -/
def fmaF (f : FFmt) (mode a b d : Nat) : FRes :=
  match prodV (f.val a) (f.val b) with
  | none => f.quiet true
  | some p => sumV f mode p (f.val d) false

/-- The order of R162: −0 below +0; neither operand a NaN. -/
def FVal.less (x y : FVal) : Bool :=
  match x, y with
  | .nan _, _ => false
  | _, .nan _ => false
  | .inf a, .inf b => a && !b
  | .inf a, .num _ _ _ => a
  | .num _ _ _, .inf b => !b
  | .num n1 m1 e1, .num n2 m2 e2 =>
    if m1 = 0 && m2 = 0 then n1 && !n2 else (exactSum n1 m1 e1 (!n2) m2 e2).1 < 0

def FVal.isNan (x : FVal) : Bool :=
  match x with
  | .nan _ => true
  | _ => false

def minF (f : FFmt) (x y : Nat) : FRes :=
  let a := f.val x
  let b := f.val y
  if a.isNan || b.isNan then f.quiet (a.snan || b.snan) else (if b.less a then y else x, 0)
def maxF (f : FFmt) (x y : Nat) : FRes :=
  let a := f.val x
  let b := f.val y
  if a.isNan || b.isNan then f.quiet (a.snan || b.snan) else (if a.less b then y else x, 0)

def absF (f : FFmt) (y : Nat) : FRes :=
  if (f.val y).isNan then f.quiet (f.val y).snan else (y % 2 ^ (f.ew + f.fw), 0)
def negF (f : FFmt) (y : Nat) : FRes :=
  if (f.val y).isNan then f.quiet (f.val y).snan
  else (if y / 2 ^ (f.ew + f.fw) % 2 = 1 then y % 2 ^ (f.ew + f.fw) else y + 2 ^ (f.ew + f.fw), 0)

/-- RN(x·2^n) (R162). -/
def scaleF (f : FFmt) (mode x : Nat) (n : Int) : FRes :=
  match f.val x with
  | .nan s => f.quiet s
  | .inf a => (f.inf a, 0)
  | .num a m e => roundF f mode a m (e + n) false

/-- Equal as numbers: +0 equals −0. -/
def FVal.same (x y : FVal) : Bool :=
  match x, y with
  | .inf a, .inf b => a = b
  | .num n1 m1 e1, .num n2 m2 e2 => (exactSum n1 m1 e1 (!n2) m2 e2).1 = 0
  | _, _ => false

/-- The predicates of R163: 0 eq, 1 lt, 2 le, 3 unord. -/
def cmpF (f : FFmt) (p x y : Nat) : Bool × Nat :=
  let a := f.val x
  let b := f.val y
  let un := a.isNan || b.isNan
  let sn := a.snan || b.snan
  match p with
  | 0 => (!un && a.same b, if sn then flNV else 0)
  | 1 => (!un && a.less b && !a.same b, if un then flNV else 0)
  | 2 => (!un && (a.less b || a.same b), if un then flNV else 0)
  | _ => (un, if sn then flNV else 0)

/-! ### Correctly rounded functions (R164) -/

/-- The integer square root, two bits of `n` for each of `fuel` rounds. -/
def isqrtAux (n : Nat) (fuel : Nat) : Nat :=
  match fuel with
  | 0 => 0
  | k + 1 =>
    let r := 2 * isqrtAux (n / 4) k
    if (r + 1) * (r + 1) ≤ n then r + 1 else r
def isqrt (n : Nat) : Nat := isqrtAux n (Nat.log2 n / 2 + 1)

def rcpF (f : FFmt) (mode x : Nat) : FRes :=
  match f.val x with
  | .nan s => f.quiet s
  | .inf n => (f.zero n, 0)
  | .num n m e =>
    if m = 0 then (f.inf n, flDZ)
    else
      let k := Nat.log2 m + 80
      roundF f mode n (2 ^ k / m) (-e - k) (2 ^ k % m ≠ 0)

def rsqF (f : FFmt) (mode x : Nat) : FRes :=
  match f.val x with
  | .nan s => f.quiet s
  | .inf n => if n then f.quiet true else (f.zero false, 0)
  | .num n m e =>
    if m = 0 then (f.inf n, flDZ)
    else if n then f.quiet true
    else
      let (m, e) := if e % 2 = 0 then (m, e) else (2 * m, e - 1)
      let k := Nat.log2 m + 80
      let q := isqrt (2 ^ (2 * k) / m)
      roundF f mode false q (-(e / 2) - k) (q * q * m ≠ 2 ^ (2 * k))

/-- 2^g for a fraction g given by its bits from 2^−1 on, as a number of 256 fraction bits: the product of the roots
2^(2^−i) of its one bits, each root the square root of the one before. -/
def exp2Frac (num : Nat) (bits : Nat) (root acc : Nat) : Nat :=
  match bits with
  | 0 => acc
  | b + 1 =>
    let r := isqrt (root * 2 ^ 256)
    exp2Frac num b r (if num / 2 ^ b % 2 = 1 then acc * r / 2 ^ 256 else acc)

def exp2F (f : FFmt) (mode x : Nat) : FRes :=
  match f.val x with
  | .nan s => f.quiet s
  | .inf n => if n then (f.zero false, 0) else (f.inf false, 0)
  | .num n m e =>
    let big := (1024 : Int) ≤ (m * 2 ^ e.toNat / 2 ^ (-e).toNat : Nat)
    if big then (if n then roundF f mode false 1 (-2000) true else roundF f mode false 1 2000 false)
    else
      let k := (-e).toNat
      let v : Int := if n then -((m * 2 ^ e.toNat : Nat) : Int) else ((m * 2 ^ e.toNat : Nat) : Int)
      let whole := v / (2 : Int) ^ k
      let frac := (v % (2 : Int) ^ k).toNat
      if frac = 0 then roundF f mode false 1 whole false
      else roundF f mode false (exp2Frac frac k (2 * 2 ^ 256) (2 ^ 256)) (whole - 256) true

/-- The fraction bits of log2 y for y in [1, 2) as a number of 512 fraction bits: by squaring. -/
def log2Frac (y : Nat) (fuel acc : Nat) : Nat :=
  match fuel with
  | 0 => acc
  | k + 1 =>
    let z := y * y / 2 ^ 512
    if 2 ^ 513 ≤ z then log2Frac (z / 2) k (2 * acc + 1) else log2Frac z k (2 * acc)

def logF (f : FFmt) (mode x : Nat) : FRes :=
  match f.val x with
  | .nan s => f.quiet s
  | .inf n => if n then f.quiet true else (f.inf false, 0)
  | .num n m e =>
    if m = 0 then (f.inf true, flDZ)
    else if n then f.quiet true
    else
      let top := Nat.log2 m
      let whole : Int := top + e
      if m = 2 ^ top then roundF f mode (whole < 0) whole.natAbs 0 false
      else
        let v : Int := whole * 2 ^ 200 + (log2Frac (m * 2 ^ (512 - top)) 200 0 : Nat)
        if v < 0 then roundF f mode true (-v - 1).toNat (-200) true else roundF f mode false v.toNat (-200) true

/-! ### Integers as elements -/

/-- The signed value of the low `w` bits. -/
def sgn (w n : Nat) : Int :=
  let m := n % 2 ^ w
  if m < 2 ^ (w - 1) then (m : Int) else (m : Int) - 2 ^ w

/-- Wrap an integer to `w` bits, or saturate it to the signed range. -/
def wrapI (w : Nat) (z : Int) : Nat := (z % (2 : Int) ^ w).toNat
def satI (w : Nat) (z : Int) : Nat := wrapI w (min (max z (-(2 : Int) ^ (w - 1))) ((2 : Int) ^ (w - 1) - 1))
def fitI (w mode : Nat) (z : Int) : Nat := if mode = 4 then satI w z else wrapI w z

/-! ### Elements by type (R22, R159, R161): 0 FP32, 1 BF16, 2 FP16, 3 INT32, 4 INT16, 5 INT8 -/

def tyFmt (ty : Nat) : FFmt :=
  match ty with
  | 1 => bf16
  | 2 => fp16
  | _ => fp32
def tyInt (ty : Nat) : Bool := 3 ≤ ty
def tyBits (ty : Nat) : Nat :=
  match ty with
  | 0 | 3 => 32
  | 5 => 8
  | _ => 16

def addE (ty mode x y : Nat) : FRes :=
  if tyInt ty then (fitI (tyBits ty) mode (sgn (tyBits ty) x + sgn (tyBits ty) y), 0) else addF (tyFmt ty) mode x y
def subE (ty mode x y : Nat) : FRes :=
  if tyInt ty then (fitI (tyBits ty) mode (sgn (tyBits ty) x - sgn (tyBits ty) y), 0) else subF (tyFmt ty) mode x y
def mulE (ty mode x y : Nat) : FRes :=
  if tyInt ty then (fitI (tyBits ty) mode (sgn (tyBits ty) x * sgn (tyBits ty) y), 0) else mulF (tyFmt ty) mode x y
def fmaE (ty mode a b d : Nat) : FRes :=
  if tyInt ty then (fitI (tyBits ty) mode (sgn (tyBits ty) a * sgn (tyBits ty) b + sgn (tyBits ty) d), 0)
  else fmaF (tyFmt ty) mode a b d
def minE (ty x y : Nat) : FRes :=
  if tyInt ty then (if sgn (tyBits ty) y < sgn (tyBits ty) x then y else x, 0) else minF (tyFmt ty) x y
def maxE (ty x y : Nat) : FRes :=
  if tyInt ty then (if sgn (tyBits ty) x < sgn (tyBits ty) y then y else x, 0) else maxF (tyFmt ty) x y
def absE (ty y : Nat) : FRes :=
  if tyInt ty then (wrapI (tyBits ty) (sgn (tyBits ty) y).natAbs, 0) else absF (tyFmt ty) y
def negE (ty y : Nat) : FRes :=
  if tyInt ty then (wrapI (tyBits ty) (-sgn (tyBits ty) y), 0) else negF (tyFmt ty) y
def clampE (ty d a b : Nat) : FRes :=
  let (m, f1) := maxE ty d a
  let (r, f2) := minE ty m b
  (r, flOr f1 f2)
def shlE (ty x y : Nat) : FRes := (x * 2 ^ (y % tyBits ty) % 2 ^ tyBits ty, 0)
def sarE (ty x y : Nat) : FRes := (wrapI (tyBits ty) (sgn (tyBits ty) x / (2 : Int) ^ (y % tyBits ty)), 0)
def scaleE (ty mode x y : Nat) : FRes := scaleF (tyFmt ty) mode x (sgn (tyBits ty) y)

/-- Compare two elements (R163); an integer type has no unordered pair. -/
def cmpE (ty p x y : Nat) : Bool × Nat :=
  if tyInt ty then
    let a := sgn (tyBits ty) x
    let b := sgn (tyBits ty) y
    (match p with
     | 0 => a = b
     | 1 => a < b
     | 2 => a ≤ b
     | _ => false, 0)
  else cmpF (tyFmt ty) p x y

/-! ### Conversions (R165) -/

/-- A finite value rounded to an integer in a mode, and whether it was exact. -/
def toIntV (mode : Nat) (n : Bool) (m : Nat) (e : Int) : Int × Bool :=
  let (r, exact) := roundShift mode n m false (-e)
  (if n then -(r : Int) else r, exact)

def fpToInt (f : FFmt) (w mode x : Nat) : FRes :=
  let lo := -(2 : Int) ^ (w - 1)
  let hi := (2 : Int) ^ (w - 1) - 1
  match f.val x with
  | .nan _ => (0, flNV)
  | .inf n => (wrapI w (if n then lo else hi), flNV)
  | .num n m e =>
    let (z, exact) := toIntV mode n m e
    if z < lo then (wrapI w lo, flNV)
    else if hi < z then (wrapI w hi, flNV)
    else (wrapI w z, if exact then 0 else flNX)

def fpToFp (g f : FFmt) (mode x : Nat) : FRes :=
  match g.val x with
  | .nan s => f.quiet s
  | .inf n => (f.inf n, 0)
  | .num n m e => roundF f mode n m e false

/-- Convert an element from type `src` to type `ty`. -/
def convE (ty mode src x : Nat) : FRes :=
  match tyInt src, tyInt ty with
  | false, false => fpToFp (tyFmt src) (tyFmt ty) mode x
  | false, true => fpToInt (tyFmt src) (tyBits ty) mode x
  | true, false =>
    let z := sgn (tyBits src) x
    if z = 0 then (0, 0) else roundF (tyFmt ty) mode (z < 0) z.natAbs 0 false
  | true, true => (satI (tyBits ty) (sgn (tyBits src) x), 0)

end Sys2Proof.Machine
end

