-- ==== Sys2Proof/Machine/Flags.lean ====
section
/-!
DEFINITION. Sys2Proof/Machine/Flags.lean: FPSTAT, the flags an instruction raises and the FP collection window (R157,
R240), and the reductions of the modifiers .u and .w (R149).
-/
namespace Sys2Proof.Machine
open Sys2Proof

/-! ### FPSTAT (R157) -/

/-- Set the sticky flags `fl` of FPSTAT. -/
def Thread.orFlags (t : Thread) (fl : Nat) : Thread := { t with fpstat := t.fpstat ||| w64 fl }

/-- The flags of `fl` whose enable bits are set. -/
def Thread.enabledFlags (t : Thread) (fl : Nat) : Nat := Nat.land fl (t.fpstat.bits 9 5)

/-- What WRSR makes of FPSTAT: the enables are written, flags are cleared by ones, reserved bits read 0 (R157, R247). -/
def fpstatWrite (old new : Word) : Word :=
  w64 (new.bits 9 5 * 32 + Nat.land (old.bits 4 0) (31 - new.bits 4 0))

/-- An instruction of the thread raises flags: they become sticky, and an enabled one enters the instruction into the FP
collection window of the cycle in which it issued, `born` (R240). `addr` is the operand address where the operands come from
memory. -/
def State.raiseAtCycle (s : State) (c k pc born : Nat) (addr : Word) (fl : Nat) : State :=
  match s.thread? c k with
  | none => s
  | some t =>
    let s := s.setThread c k (t.orFlags fl)
    let en := t.enabledFlags fl
    if en = 0 then s
    else
      (s.modCore c (fun x => { x with fpwin := x.fpwin ++ [⟨k, t.inc, born, addr, en, pc⟩] })).post [evt .fpWindowEnd [c]]

/-- An instruction that issues in this cycle raises flags. -/
def State.raiseFlags (s : State) (c k pc : Nat) (addr : Word) (fl : Nat) : State := s.raiseAtCycle c k pc s.now addr fl

/-- The place of the first element of a list of flags that raises an enabled one; the first, where none does. -/
def Thread.firstRaised (t : Thread) (fls : List Nat) : Nat := (fls.findIdx? (fun f => t.enabledFlags f ≠ 0)).getD 0

/-! ### Integer operands (R149) -/

/-- The modifiers .u and .w of class I. -/
def modU (f : Fields) : Bool := f.lo % 2 = 1
def modW (f : Fields) : Bool := f.lo / 2 % 2 = 1

/-- Sign- or zero-extension of the low 32 bits. -/
def low32s (x : Word) : Word := w64i (sgn 32 x.toNat)
def low32u (x : Word) : Word := w64 (x.toNat % 2 ^ 32)

/-- The reduction of an operand under .w. -/
def reduceW (f : Fields) (x : Word) : Word := if modW f then (if modU f then low32u x else low32s x) else x

/-- The result as it is written under .w. -/
def resultW (f : Fields) (x : Word) : Word := if modW f then low32s x else x

end Sys2Proof.Machine
end

