-- ==== Sys2Proof/Machine/Alu.lean ====
section
/-!
DEFINITION. Sys2Proof/Machine/Alu.lean: the integer instructions of page 0 (R149 to R152).
-/
namespace Sys2Proof.Machine
open Sys2Proof

/-! ### The operations on two words -/

/-- The signed value of a word, and its value as the modifier .u asks. -/
def asInt (f : Fields) (x : Word) : Int := if modU f then (x.toNat : Int) else x.toInt

def addW (f : Fields) (x y : Word) : Word := resultW f (reduceW f x + reduceW f y)
def subW (f : Fields) (x y : Word) : Word := resultW f (reduceW f x - reduceW f y)
def mulW (f : Fields) (x y : Word) : Word := resultW f (reduceW f x * reduceW f y)
def mulhW (f : Fields) (x y : Word) : Word := w64i (asInt f x * asInt f y / 2 ^ 64)

/-- The quotient rounded toward zero; all ones for a zero divisor; −2^63 divided by −1 wraps (R152). -/
def divW (f : Fields) (x y : Word) : Word :=
  let a := asInt f (reduceW f x)
  let b := asInt f (reduceW f y)
  if b = 0 then allOnes else resultW f (w64i (a.tdiv b))

/-- The remainder with the sign of x; x for a zero divisor (R152). -/
def remW (f : Fields) (x y : Word) : Word :=
  let a := asInt f (reduceW f x)
  let b := asInt f (reduceW f y)
  if b = 0 then resultW f (reduceW f x) else resultW f (w64i (a.tmod b))

def andW (_ : Fields) (x y : Word) : Word := x &&& y
def orW (_ : Fields) (x y : Word) : Word := x ||| y
def xorW (_ : Fields) (x y : Word) : Word := x ^^^ y
def andnW (_ : Fields) (x y : Word) : Word := x &&& ~~~y

/-- A shift count: modulo 64, or 32 with .w. -/
def countW (f : Fields) (y : Word) : Nat := y.toNat % (if modW f then 32 else 64)

def shlW (f : Fields) (x y : Word) : Word := resultW f (x <<< countW f y)
def shrW (f : Fields) (x y : Word) : Word := resultW f ((if modW f then low32u x else x) >>> countW f y)
def sarW (f : Fields) (x y : Word) : Word := resultW f ((if modW f then low32s x else x).sshiftRight (countW f y))

/-- A 0/1 result. -/
def bitW (b : Bool) : Word := if b then 1 else 0

def lessW (f : Fields) (x y : Word) : Bool := asInt f (reduceW f x) < asInt f (reduceW f y)
def minW (f : Fields) (x y : Word) : Word := resultW f (if lessW f y x then reduceW f y else reduceW f x)
def maxW (f : Fields) (x y : Word) : Word := resultW f (if lessW f x y then reduceW f y else reduceW f x)
def cmpeqW (f : Fields) (x y : Word) : Word := bitW (reduceW f x = reduceW f y)
def cmpneW (f : Fields) (x y : Word) : Word := bitW (reduceW f x ≠ reduceW f y)
def cmpltW (f : Fields) (x y : Word) : Word := bitW (lessW f x y)
def cmpleW (f : Fields) (x y : Word) : Word := bitW (!lessW f y x)

def negW (f : Fields) (y : Word) : Word := resultW f (-reduceW f y)
def notW (_ : Fields) (y : Word) : Word := ~~~y

/-- The number of one bits among the low `n` bits. -/
def onesBelow (x n : Nat) : Nat :=
  match n with
  | 0 => 0
  | k + 1 => x / 2 ^ k % 2 + onesBelow x k

/-- The number of leading zeros among the low `n` bits. -/
def leadingZeros (x n : Nat) : Nat :=
  match n with
  | 0 => 0
  | k + 1 => if x / 2 ^ k % 2 = 1 then 0 else 1 + leadingZeros x k

def clzW (f : Fields) (y : Word) : Word := w64 (leadingZeros y.toNat (if modW f then 32 else 64))
def popcW (f : Fields) (y : Word) : Word := w64 (onesBelow y.toNat (if modW f then 32 else 64))

/-- BFX and BFI: position and length from the immediate pos + 64·(len − 1) (R28). -/
def bfPos (f : Fields) : Nat := f.imm.toNat % 64
def bfLen (f : Fields) : Nat := f.imm.toNat / 64 + 1
def bfxW (f : Fields) (a : Word) : Word := w64 (a.toNat / 2 ^ bfPos f % 2 ^ bfLen f)
def bfiW (f : Fields) (d a : Word) : Word :=
  let lo := d.toNat % 2 ^ bfPos f
  let hi := d.toNat / 2 ^ (bfPos f + bfLen f)
  w64 (lo + 2 ^ bfPos f * (a.toNat % 2 ^ bfLen f) + 2 ^ (bfPos f + bfLen f) * hi)

/-- SEXT: g[d][k:0], sign-extended from bit k. -/
def sextW (f : Fields) (d : Word) : Word := w64i (sgn (f.imm.toNat + 1) d.toNat)

/-- MOVKH: bits [63:32] from the immediate's low 32 bits, bits [31:0] of the old gd. -/
def movkhW (f : Fields) (d : Word) : Word := w64 ((w64i f.imm).toNat % 2 ^ 32 * 2 ^ 32 + d.toNat % 2 ^ 32)

/-! ### The instructions -/

/-- NOP: nothing but the move to the next instruction. -/
def execNop (f : Fields) (s : State) : Out := issue (.nop f) s (fun c k _ s => s.finish c k)

/-- MOV: bits and taint. -/
def execMov (f : Fields) (s : State) : Out := compute (.mov f) f s (fun v => v.a)

/-- MOVK: the immediate, untainted. -/
def execMovk (f : Fields) (s : State) : Out := compute (.movk f) f s (fun _ => ⟨w64i f.imm, false⟩)

def execMovkh (f : Fields) (s : State) : Out := compute (.movkh f) f s (fun v => ⟨movkhW f v.d.v, v.d.t⟩)

/-- SEL: g[a] where the old g[d] is not zero, else g[b]; the taint of all three (R151). -/
def execSel (f : Fields) (s : State) : Out :=
  compute (.sel f) f s (fun v => ⟨if v.d.v ≠ 0 then v.a.v else v.b.v, v.d.t || v.a.t || v.b.t⟩)

def execBfx (f : Fields) (s : State) : Out := compute (.bfx f) f s (fun v => ⟨bfxW f v.a.v, v.a.t⟩)
def execBfi (f : Fields) (s : State) : Out := compute (.bfi f) f s (fun v => ⟨bfiW f v.d.v v.a.v, v.d.t || v.a.t⟩)
def execSext (f : Fields) (s : State) : Out := compute (.sext f) f s (fun v => ⟨sextW f v.d.v, v.d.t⟩)

/-- ADD: x + y. -/
def execAdd (f : Fields) (s : State) : Out :=
  compute (.add f) f s (fun v => ⟨addW f (v.x f).v (v.y f).v, (v.x f).t || (v.y f).t⟩)

/-- SUB: x − y. -/
def execSub (f : Fields) (s : State) : Out :=
  compute (.sub f) f s (fun v => ⟨subW f (v.x f).v (v.y f).v, (v.x f).t || (v.y f).t⟩)

/-- MUL: the low 64 bits of x·y. -/
def execMul (f : Fields) (s : State) : Out :=
  compute (.mul f) f s (fun v => ⟨mulW f (v.x f).v (v.y f).v, (v.x f).t || (v.y f).t⟩)

/-- MULH: the high 64 bits of the product. -/
def execMulh (f : Fields) (s : State) : Out :=
  compute (.mulh f) f s (fun v => ⟨mulhW f (v.x f).v (v.y f).v, (v.x f).t || (v.y f).t⟩)

/-- DIV (R152). -/
def execDiv (f : Fields) (s : State) : Out :=
  compute (.div f) f s (fun v => ⟨divW f (v.x f).v (v.y f).v, (v.x f).t || (v.y f).t⟩)

/-- REM (R152). -/
def execRem (f : Fields) (s : State) : Out :=
  compute (.rem f) f s (fun v => ⟨remW f (v.x f).v (v.y f).v, (v.x f).t || (v.y f).t⟩)

/-- AND. -/
def execAndOp (f : Fields) (s : State) : Out :=
  compute (.andOp f) f s (fun v => ⟨andW f (v.x f).v (v.y f).v, (v.x f).t || (v.y f).t⟩)

/-- OR. -/
def execOrOp (f : Fields) (s : State) : Out :=
  compute (.orOp f) f s (fun v => ⟨orW f (v.x f).v (v.y f).v, (v.x f).t || (v.y f).t⟩)

/-- XOR. -/
def execXor (f : Fields) (s : State) : Out :=
  compute (.xor f) f s (fun v => ⟨xorW f (v.x f).v (v.y f).v, (v.x f).t || (v.y f).t⟩)

/-- ANDN: x AND NOT y. -/
def execAndn (f : Fields) (s : State) : Out :=
  compute (.andn f) f s (fun v => ⟨andnW f (v.x f).v (v.y f).v, (v.x f).t || (v.y f).t⟩)

/-- SHL. -/
def execShl (f : Fields) (s : State) : Out :=
  compute (.shl f) f s (fun v => ⟨shlW f (v.x f).v (v.y f).v, (v.x f).t || (v.y f).t⟩)

/-- SHR. -/
def execShr (f : Fields) (s : State) : Out :=
  compute (.shr f) f s (fun v => ⟨shrW f (v.x f).v (v.y f).v, (v.x f).t || (v.y f).t⟩)

/-- SAR. -/
def execSar (f : Fields) (s : State) : Out :=
  compute (.sar f) f s (fun v => ⟨sarW f (v.x f).v (v.y f).v, (v.x f).t || (v.y f).t⟩)

/-- MIN. -/
def execMinOp (f : Fields) (s : State) : Out :=
  compute (.minOp f) f s (fun v => ⟨minW f (v.x f).v (v.y f).v, (v.x f).t || (v.y f).t⟩)

/-- MAX. -/
def execMaxOp (f : Fields) (s : State) : Out :=
  compute (.maxOp f) f s (fun v => ⟨maxW f (v.x f).v (v.y f).v, (v.x f).t || (v.y f).t⟩)

/-- CMPEQ. -/
def execCmpeq (f : Fields) (s : State) : Out :=
  compute (.cmpeq f) f s (fun v => ⟨cmpeqW f (v.x f).v (v.y f).v, (v.x f).t || (v.y f).t⟩)

/-- CMPNE. -/
def execCmpne (f : Fields) (s : State) : Out :=
  compute (.cmpne f) f s (fun v => ⟨cmpneW f (v.x f).v (v.y f).v, (v.x f).t || (v.y f).t⟩)

/-- CMPLT. -/
def execCmplt (f : Fields) (s : State) : Out :=
  compute (.cmplt f) f s (fun v => ⟨cmpltW f (v.x f).v (v.y f).v, (v.x f).t || (v.y f).t⟩)

/-- CMPLE. -/
def execCmple (f : Fields) (s : State) : Out :=
  compute (.cmple f) f s (fun v => ⟨cmpleW f (v.x f).v (v.y f).v, (v.x f).t || (v.y f).t⟩)

/-- NEG: −y. -/
def execNeg (f : Fields) (s : State) : Out :=
  compute (.neg f) f s (fun v => ⟨negW f v.a.v, v.a.t⟩)

/-- NOT. -/
def execNotOp (f : Fields) (s : State) : Out :=
  compute (.notOp f) f s (fun v => ⟨notW f v.a.v, v.a.t⟩)

/-- CLZ. -/
def execClz (f : Fields) (s : State) : Out :=
  compute (.clz f) f s (fun v => ⟨clzW f v.a.v, v.a.t⟩)

/-- POPC. -/
def execPopc (f : Fields) (s : State) : Out :=
  compute (.popc f) f s (fun v => ⟨popcW f v.a.v, v.a.t⟩)

/-- ADDK: g[d] + imm. -/
def execAddk (f : Fields) (s : State) : Out :=
  compute (.addk f) f s (fun v => ⟨addW f v.d.v (w64i f.imm), v.d.t⟩)

/-- SHLK. -/
def execShlk (f : Fields) (s : State) : Out :=
  compute (.shlk f) f s (fun v => ⟨shlW f v.d.v (w64i f.imm), v.d.t⟩)

/-- SHRK. -/
def execShrk (f : Fields) (s : State) : Out :=
  compute (.shrk f) f s (fun v => ⟨shrW f v.d.v (w64i f.imm), v.d.t⟩)

/-- SARK. -/
def execSark (f : Fields) (s : State) : Out :=
  compute (.sark f) f s (fun v => ⟨sarW f v.d.v (w64i f.imm), v.d.t⟩)

end Sys2Proof.Machine
end

