-- ==== Sys2Proof/Machine/Coherence.lean ====
section
/-!
DEFINITION. Sys2Proof/Machine/Coherence.lean: word registration within a die (R91, R92), the directory across the module
(R93 to R96), the host bridge (R97 to R99), leases (R100) and software-coherent copies (R101).
-/
namespace Sys2Proof.Machine
open Sys2Proof

/-! ### Where a line is homed -/

/-- The tenant whose window or covered region holds a device frame, or whose host mapping holds a host page. -/
def State.tenantOf (s : State) (pa : Nat) : Nat :=
  match s.tenants.find? (fun p =>
      if hostBase ≤ pa then p.2.hostMap.any (fun e => e.2 = (pa - hostBase) / 4096)
      else p.2.window.any (fun e => e.2 = pa / 65536)
        || p.2.regions.any (fun r => r.2.frames.any (fun e => e.2 = pa / 4096))) with
  | some p => p.1
  | none => 0

/-- The home cluster of a line. -/
def State.homeOf (s : State) (line : Nat) : Nat := s.home (s.tenantOf (128 * line)) (128 * line)

/-- A core with CACHE banks (R91). -/
def Core.hasCache (x : Core) : Bool := x.banks.contains .cache

/-! ### Hotness (R58, R59) -/

def hotKey (tn : Nat) (leaf : Word) : Nat := tn * 2 ^ 48 + Leaf.frame leaf
def hotCount (r : Word) : Nat := r.bits 63 48
def mkHot (count sx sy n ht : Nat) : Word :=
  w64 (count * 2 ^ 48 + sx % 2 ^ 20 * 2 ^ 28 + sy % 2 ^ 20 * 2 ^ 8 + n * 128 + ht * 64 + 32)

/-- A request from a cluster arrives at the home slice of a line of a page with HT = 1: it is counted, and the record
that reaches its threshold is posted once. -/
def State.countHot (s : State) (cl tn : Nat) (leaf : Word) : State :=
  if !Leaf.ht leaf then s
  else
    let key := hotKey tn leaf
    let r := SMap.get s.hot key (mkHot 0 0 0 0 1)
    let n := hotCount r
    if n = 65535 then s
    else
      let yx := (s.tenant tn).logical cl
      let fire := r.bits 7 7 = 0 && Leaf.thr leaf ≤ 11 && n + 1 = 2 ^ (Leaf.thr leaf + 4)
      let r' := mkHot (n + 1) (r.bits 47 28 + yx.2) (r.bits 27 8 + yx.1) (if fire then 1 else r.bits 7 7) 1
      let s := { s with hot := SMap.set s.hot key r' }
      if fire then s.notify tn (recWord 1 (Leaf.frame leaf)) r' else s

/-! ### Copies outside the home -/

def State.copy? (s : State) (line holder : Nat) : Option Copy := SMap.get? s.copies (copyKey line holder)
def State.setCopy (s : State) (line holder : Nat) (cp : Copy) : State :=
  { s with copies := SMap.set s.copies (copyKey line holder) cp }
def State.dropCopy (s : State) (line holder : Nat) : State :=
  { s with copies := SMap.del s.copies (copyKey line holder) }

/-- The home copy's sixteen words. -/
def State.homeWords (s : State) (line : Nat) : List TWord := (List.range 16).map (fun i => s.mem.word (16 * line + i))

/-- The banks of a cluster's cores, as holders. -/
def banksOf (cl : Nat) : List Nat := (List.range 8).map (fun j => bankHolder (8 * cl + j))

/-- Drop a line from the banks of a cluster's cores, and from its slice too. -/
def State.dropBanks (s : State) (line cl : Nat) : State := (banksOf cl).foldl (fun s h => s.dropCopy line h) s
def State.dropCluster (s : State) (line cl : Nat) : State := (s.dropCopy line cl).dropBanks line cl

/-- Write the dirty words of a copy into the home copy, word by word (R101, R94). -/
def State.writeBack (s : State) (line holder : Nat) : State :=
  match s.copy? line holder with
  | none => s
  | some cp =>
    ({ s with mem := mergeWords s.mem line cp.words cp.dirty } : State).setCopy line holder { cp with dirty := [] }

/-- What a cluster holds of a line goes home: its slice's words first, then the banks' newer ones (R101, R102). -/
def State.writeBackCluster (s : State) (line cl : Nat) : State :=
  (banksOf cl).foldl (fun s h => s.writeBack line h) (s.writeBack line cl)

/-! ### The directory (R93, R94) -/

def State.dirOf (s : State) (line : Nat) : Option Dir := SMap.get? s.dir line
def State.setDir (s : State) (line : Nat) (d : Dir) : State := { s with dir := SMap.set s.dir line d }
def State.clearDir (s : State) (line : Nat) : State := { s with dir := SMap.del s.dir line }

/-- The bit of the coarse vector that stands for a cluster, and the eight clusters of a bit. -/
def coarseBit (cl : Nat) : Nat := 2 * (cl / 16) + cl % 16 / 8
def coarseClusters (v : Nat) : List Nat :=
  (List.range 32).flatMap (fun b =>
    if v / 2 ^ b % 2 = 1 then (List.range 8).map (fun j => b / 2 * 16 + b % 2 * 8 + j) else [])

/-- A cluster answers: it is not power-gated, and its die is not lost (R99, R325). -/
def State.alive (s : State) (cl : Nat) : Bool := !(s.cluster cl).gated && !(s.die (dieOf cl)).gone

/-- A cluster may evict a line it holds at any time (R90, R93); a notice for it is among the events at most once. -/
def State.mayEvict (s : State) (line cl : Nat) : State :=
  if s.due.any (fun e => e.ev = .evictionNotice && e.arg.nums = [cl, line]) then s else s.post [evt .evictionNotice [cl, line]]

/-- Send a line to a cluster. -/
def State.sendLine (s : State) (line cl : Nat) (own : Bool) : State :=
  if cl = s.homeOf line then s
  else (s.setCopy line cl ⟨s.homeWords line, [], own, false⟩).mayEvict line cl

def State.queueDir (s : State) (line : Nat) (r : DirReq) : State :=
  { s with dirq := SMap.set s.dirq line (SMap.get s.dirq line [] ++ [r]) }

/-- Ownership passes to cluster `cl`: the lease starts (R100), the cores of the home no longer hold the line, and the grant is
on its way (R96). -/
def State.grantOwner (s : State) (line cl : Nat) : State :=
  let s := if cl = s.homeOf line then s else s.dropBanks line (s.homeOf line)
  (({ s with leases := SMap.set s.leases line s.now } : State).setDir line (.owned cl)).post
    [evt .ownershipGrant [cl, line]]

/-- A message of the owner about the line renews its lease (R100). -/
def State.renewLease (s : State) (line : Nat) : State := { s with leases := SMap.set s.leases line s.now }

/-- A read request at the directory. -/
def State.dirGetS (s : State) (line cl : Nat) : State :=
  match s.dirOf line with
  | none => if cl = s.homeOf line then s else (s.setDir line (.ptr [cl])).sendLine line cl false
  | some (.ptr l) =>
    if cl = s.homeOf line then s
    else if l.contains cl then s.sendLine line cl false
    else if l.length < 4 then (s.setDir line (.ptr (l ++ [cl]))).sendLine line cl false
    else
      let v := (l ++ [cl]).foldl (fun v x => Nat.lor v (2 ^ coarseBit x)) 0
      (s.setDir line (.coarse v)).sendLine line cl false
  | some (.coarse v) =>
    if cl = s.homeOf line then s
    else (s.setDir line (.coarse (Nat.lor v (2 ^ coarseBit cl)))).sendLine line cl false
  | some (.owned o) =>
    if o = cl then s.renewLease line
    else (s.setDir line (.recalling o cl false)).post [evt .ownerRecall [o, line]]
  | some _ => s.queueDir line ⟨cl, false⟩

/-- Invalidate the copies of every cluster but the writer's, which waits for their acknowledgements. -/
def State.dirInvalidate (s : State) (line cl : Nat) (inv : List Nat) : State :=
  if inv.isEmpty then s.grantOwner line cl
  else (s.setDir line (.waiting inv.length cl inv)).post (inv.map (fun x => evt .inv [x, line]))

/-- A write request at the directory. -/
def State.dirGetM (s : State) (line cl : Nat) : State :=
  match s.dirOf line with
  | none => s.grantOwner line cl
  | some (.ptr l) => s.dirInvalidate line cl (l.filter (fun x => x ≠ cl))
  | some (.coarse v) =>
    s.dirInvalidate line cl ((coarseClusters v).filter (fun x => x ≠ cl && x ≠ s.homeOf line))
  | some (.owned o) =>
    if o = cl then (s.renewLease line).post [evt .ownershipGrant [cl, line]]
    else (s.setDir line (.recalling o cl true)).post [evt .ownerRecall [o, line]]
  | some _ => s.queueDir line ⟨cl, true⟩

/-- Serve the requests that waited for a transition, in arrival order: those that meet a new transition wait for its end, in
their order. -/
def State.serveDir (s : State) (line : Nat) : State :=
  (SMap.get s.dirq line []).foldl (fun s r => if r.write then s.dirGetM line r.cl else s.dirGetS line r.cl)
    { s with dirq := SMap.del s.dirq line }

/-- The owner's data has reached the home: it is written, and the request that asked for the recall is served. -/
def State.recallDone (s : State) (line o cl : Nat) (write keep : Bool) : State :=
  let s := s.writeBack line o
  if write then ((s.dropCluster line o).grantOwner line cl).serveDir line
  else
    let kept := keep && (s.copy? line o).isSome
    let s := match s.copy? line o with
      | some cp => if keep then s.setCopy line o { cp with owned := false } else s.dropCluster line o
      | none => s
    let l := ((if kept then [o] else []) ++ [cl]).filter (fun x => x ≠ s.homeOf line)
    let s := { s with leases := SMap.del s.leases line }
    let s := if l.isEmpty then s.clearDir line else s.setDir line (.ptr l)
    (s.sendLine line cl false).serveDir line

/-- One acknowledgement is counted; the last grants ownership to the writer. -/
def State.countAck (s : State) (line cl : Nat) : State :=
  match s.dirOf line with
  | some (.waiting k w inv) =>
    if !inv.contains cl then s
    else if k ≤ 1 then (s.grantOwner line w).serveDir line
    else s.setDir line (.waiting (k - 1) w (inv.filter (fun x => x ≠ cl)))
  | _ => s

/-- A cluster drops its copy and its notice reaches the home (R94): the notice carries dirty data. -/
def State.dirNotice (s : State) (line cl : Nat) : State :=
  let wait := fun (s : State) => ({ s with notices := s.notices ++ [(cl, line)] } : State)
  let ack := fun (s : State) => (wait s).post [evt .evack [cl, line]]
  match s.dirOf line with
  | none => s.dropCluster line cl
  | some (.ptr l) =>
    if !l.contains cl then s.dropCluster line cl
    else
      let l := l.filter (fun x => x ≠ cl)
      let s := s.dropCluster line cl
      ack (if l.isEmpty then s.clearDir line else s.setDir line (.ptr l))
  | some (.coarse _) => ack (s.dropCluster line cl)
  | some (.owned o) =>
    if o ≠ cl then s.dropCluster line cl
    else
      let s := (s.writeBack line cl).dropCluster line cl
      ack (({ s with leases := SMap.del s.leases line } : State).clearDir line)
  | some (.waiting _ _ inv) =>
    let s := s.dropCluster line cl
    if inv.contains cl then (wait s).countAck line cl else s
  | some (.recalling o c w) =>
    if o ≠ cl then s.dropCluster line cl
    else ((s.writeBack line cl).dropCluster line cl).recallDone line o c w false

/-- What a cluster holds of a line, its slice or one of its cores' banks. -/
def State.heldBy (s : State) (line cl : Nat) : List Copy := (cl :: banksOf cl).filterMap (fun h => s.copy? line h)

/-- A cluster gives a line up: a software-coherent one with its dirty words, word by word (R101), another by a notice to its
home (R93). -/
def State.evictRemote (s : State) (line cl : Nat) : State :=
  if (s.heldBy line cl).any (fun cp => cp.sw) then (s.writeBackCluster line cl).dropCluster line cl
  else s.dirNotice line cl

/-! ### The capacity of a slice (R90) -/

/-- The line is pinned at its home slice by a Lattice fetch (R178): a pin holds the line and the last K block that uses it. -/
def State.pinned (s : State) (line : Nat) : Bool :=
  s.cores.any (fun p => p.2.lq.any (fun m => m.pins.any (fun x => x / 64 = line)))

/-- What a slice holds in the set of a line: home copies (true) and remote copies (false). -/
def State.inSet (s : State) (cl line : Nat) : List (Nat × Bool) :=
  let same := fun (l : Nat) => l ≠ line && Config.sliceSet l % 2048 = Config.sliceSet line % 2048
  ((s.resident.filter (fun p => same p.1 && s.homeOf p.1 = cl)).map (fun p => (p.1, true)))
    ++ ((s.copies.filter (fun p => p.1 % 4096 = cl && same (p.1 / 4096))).map (fun p => (p.1 / 4096, false)))

/-- A home copy with registered words is never evicted, nor a pinned line, nor one that a transition or a notice concerns. -/
def State.evictable (s : State) (cl : Nat) (x : Nat × Bool) : Bool :=
  !s.pinned x.1 && !s.lineBusy x.1 && (if x.2 then !s.regw.any (fun p => p.1 / 16 = x.1) else !s.notices.contains (cl, x.1))

/-- A home copy leaves its slice: the line is in HBM or in the bridge buffer with what the cores of the cluster held dirty. -/
def State.evictHome (s : State) (cl line : Nat) : State :=
  let s := (s.writeBackCluster line cl).dropBanks line cl
  { s with resident := SMap.del s.resident line }

/-- The resident line of a list that was used longest ago. -/
def State.oldest (s : State) (l : List Nat) : Option Nat :=
  l.foldl (fun (b : Option Nat) x =>
    match b with
    | none => some x
    | some y => if SMap.get s.resident x 0 < SMap.get s.resident y 0 then some x else some y) none

/-- Make room for a line in a slice of 2,048 sets of 16 ways. Which line goes is free (R90); where every way holds a line with
registered words, those of the least recently used line are recalled first. None: nothing can go yet. -/
def State.makeRoom (s : State) (cl line : Nat) : Option State :=
  let l := s.inSet cl line
  if l.length < 16 then some s
  else
    let free := l.filter (s.evictable cl)
    match free[Config.choose s.tick % max 1 free.length]? with
    | some (x, true) => some (s.evictHome cl x)
    | some (x, false) => some (s.evictRemote x cl)
    | none =>
      match s.oldest ((l.filter (fun x => x.2 && !s.pinned x.1 && !s.lineBusy x.1)).map Prod.fst) with
      | none => none
      | some x =>
        let ws := s.regw.filter (fun p => p.1 / 16 = x)
        let s : State := { s with mem := ws.foldl (fun m p => m.setWord p.1 p.2.w) s.mem,
                                  regw := s.regw.filter (fun p => p.1 / 16 ≠ x) }
        some (s.evictHome cl x)

/-- HBM_FILL (R338): the line becomes resident in its home slice. -/
def execHbmFill (s : State) : Out :=
  let line := s.argN 0
  match s.makeRoom (s.homeOf line) line with
  | some s => .next { s with resident := SMap.set s.resident line s.now }
  | none => .next (s.again .hbmFill)

/-! ### Messages of the directory (R94, R95) -/

/-- GETS and GETM: a request of a cluster arrives at the home slice. One of a cluster that waits for EVACK has not been sent
yet (R95); one of a dead cluster is discarded (R100). The word it carries is the page's leaf, for the hotness record. -/
def dirRequest (i : Instr) (s : State) (serve : State → Nat → Nat → State) : Out :=
  let cl := s.argN 0
  let line := s.argN 1
  if !s.alive cl then .next s
  else if s.notices.contains (cl, line) then .next (s.again i)
  else
    match s.makeRoom cl line with
    | none => .next (s.again i)
    | some s => .next (serve (s.countHot cl (s.tenantOf (128 * line)) (s.argW 0).v) line cl)

def execGets (s : State) : Out := dirRequest .gets s State.dirGetS
def execGetm (s : State) : Out := dirRequest .getm s State.dirGetM

/-- EVICTION_NOTICE: the cluster drops the line. -/
def execEvictionNotice (s : State) : Out :=
  let cl := s.argN 0
  let line := s.argN 1
  if (s.heldBy line cl).isEmpty || !s.alive cl then .next s
  else if s.notices.contains (cl, line) then .next (s.again .evictionNotice)
  else .next (s.evictRemote line cl)

/-- INV (R95): a holder invalidates and acknowledges; one that has never held the line acknowledges; one whose notice has
been counted discards it, and its wait for EVACK ends. -/
def execInv (s : State) : Out :=
  let cl := s.argN 0
  let line := s.argN 1
  let counted := match s.dirOf line with
    | some (.waiting _ _ inv) => !inv.contains cl
    | _ => true
  let s' := { s with notices := s.notices.filter (fun p => p ≠ (cl, line)) }
  if s.notices.contains (cl, line) && counted then .next s'
  else .next ((s'.dropCluster line cl).post [evt .invAck [cl, line]])

def execInvAck (s : State) : Out := .next (s.countAck (s.argN 1) (s.argN 0))

def execEvack (s : State) : Out :=
  .next { s with notices := s.notices.filter (fun p => p ≠ (s.argN 0, s.argN 1)) }

/-- OWNER_RECALL: a live owner answers with its data. -/
def execOwnerRecall (s : State) : Out :=
  if s.alive (s.argN 0) then .next (s.post [evt .ownerRecallAnswer [s.argN 0, s.argN 1]]) else .next s

def execOwnerRecallAnswer (s : State) : Out :=
  match s.dirOf (s.argN 1) with
  | some (.recalling o c w) => if o = s.argN 0 then .next (s.recallDone (s.argN 1) o c w true) else .next s
  | _ => .next s

/-- Stores in flight that wait for a line are tried again. -/
def State.retryFlights (s : State) (p : Flight → Bool) : State :=
  let l := s.flights.filter p
  s.post (l.map (fun f => evt .storeRegistration [f.id]))

/-- OWNERSHIP_GRANT (R96): the cluster holds the line as its owner, and the stores that parked for it go on. -/
def execOwnershipGrant (s : State) : Out :=
  let cl := s.argN 0
  let line := s.argN 1
  match s.dirOf line with
  | some (.owned o) =>
    if o ≠ cl then .next s
    else
      let s := match s.copy? line cl with
        | some cp => s.setCopy line cl { cp with owned := true }
        | none => s.sendLine line cl true
      .next (s.retryFlights (fun f => f.stage = 3 && f.core / 8 = cl && f.entry.addr / 128 = line))
  | _ => .next s

/-- The cluster holds the line as its owner (R96). -/
def State.ownsLine (s : State) (cl line : Nat) : Bool :=
  match s.dirOf line with
  | some (.owned o) =>
    o = cl && (cl = s.homeOf line || (match s.copy? line cl with
      | some cp => cp.owned
      | none => false))
  | _ => false

/-! ### The host bridge's halves (R97) -/

/-- The half of a physical address of host memory. -/
def halfOf (pa : Nat) : Nat := (pa - hostBase) / 64
def State.half (s : State) (h : Nat) : Half := SMap.get s.halves h ⟨0, 0, false, 0, 0, []⟩
def State.setHalf (s : State) (h : Nat) (x : Half) : State := { s with halves := SMap.set s.halves h x }

/-- The line of a half, and the half's eight words in memory. -/
def lineOfHalf (h : Nat) : Nat := (hostBase + 64 * h) / 128
def State.halfWords (s : State) (h : Nat) : List TWord := (List.range 8).map (fun i => s.mem.word (hostBase / 8 + 8 * h + i))

/-- The half is held well enough: S, E or M for a read, E or M for a write. -/
def State.halfHeld (s : State) (h : Nat) (own : Bool) : Bool := if own then 2 ≤ (s.half h).st else 1 ≤ (s.half h).st

/-- The halves of the `n` bytes from a host address, all held well enough. -/
def halvesOf (pa n : Nat) : List Nat := (List.range (halfOf (pa + n - 1) + 1 - halfOf pa)).map (fun i => halfOf pa + i)
def State.halvesHeld (s : State) (pa n : Nat) (own : Bool) : Bool := (halvesOf pa n).all (fun h => s.halfHeld h own)

/-- The bridge takes a half M: the device has written it, a message about it that renews its lease (R97, R100). -/
def State.dirtyHalf (s : State) (h : Nat) : State := s.setHalf h { s.half h with st := 3, used := s.now, since := s.now }
def State.dirtyHalves (s : State) (pa n : Nat) : State := (halvesOf pa n).foldl State.dirtyHalf s

/-- The half that is evicted when every entry is in use: the least recently used that no request or snoop uses. -/
def State.lruHalf (s : State) : Option Nat :=
  s.halves.foldl (fun b p =>
    if p.2.busy || p.2.st = 0 || s.lineBusy (lineOfHalf p.1) then b
    else
      match b with
      | none => some p.1
      | some h => if p.2.used < (s.half h).used then some p.1 else some h) none

/-- A device access that needs a half asks the bridge for it. -/
def State.needHalf (s : State) (h : Nat) (own : Bool) : State :=
  if s.halfHeld h own then s
  else if s.due.any (fun e => (e.ev = .hostHalfRequest || e.ev = .hostHalfResponse) && e.arg.nums = [h, own.toNat])
      || s.halfWait.contains (2 * h + own.toNat) then s
  else s.post [evt .hostHalfRequest [h, own.toNat]]
def State.needHalves (s : State) (pa n : Nat) (own : Bool) : State := (halvesOf pa n).foldl (fun s h => s.needHalf h own) s

/-- A half entry for a request: found, free, or freed by evicting another half, whose newest data goes to the host. -/
def State.allocHalf (s : State) (h : Nat) : Option State :=
  let go := fun (s : State) => s.setHalf h { s.half h with busy := true, used := s.now }
  if (SMap.get? s.halves h).isSome || s.halves.length < 131072 then some (go s)
  else
    match s.lruHalf with
    | some v =>
      let s := s.gather (lineOfHalf v)
      some (go { s with halves := SMap.del s.halves v })
    | none => none

/-- HOST_HALF_REQUEST: an entry is found, one is evicted for it, or the request waits behind those that wait already. -/
def execHostHalfRequest (s : State) : Out :=
  let h := s.argN 0
  match (if s.halfWait.isEmpty then s.allocHalf h else none) with
  | some s => .next (s.post [evt .hostHalfResponse [h, s.argN 1]])
  | none =>
    .next (({ s with halfWait := s.halfWait ++ [2 * h + s.argN 1 % 2] } : State).post [evt .bridgeEntryFreed [h]])

/-- A half has come from the host: the copies of its line hold its words from now on. -/
def State.refreshHalf (s : State) (h : Nat) : State :=
  let ws := s.halfWords h
  { s with copies := s.copies.map (fun p =>
      if p.1 / 4096 = lineOfHalf h then
        (p.1, { p.2 with words := (List.range 16).map (fun i =>
          if i / 8 = h % 2 && !p.2.dirty.contains i then nthD ws (i % 8) TWord.zero else nthD p.2.words i TWord.zero) })
      else p) }

/-- HOST_HALF_RESPONSE: RdShared gives S, RdOwn gives E with a lease; the accesses that waited go on. -/
def execHostHalfResponse (s : State) : Out :=
  let h := s.argN 0
  let x := s.half h
  let st := max x.st (if s.argN 1 = 1 then 2 else 1)
  let s := if x.st = 0 then s.refreshHalf h else s
  let s := s.setHalf h
    (if st = 2 && x.st < 2 then ⟨2, s.now, false, s.now, x.st, s.halfWords h⟩ else { x with st := st, used := s.now, busy := false })
  .next (s.retryFlights (fun f => f.stage = 3 && f.entry.host && halfOf f.entry.addr = h))

/-- BRIDGE_ENTRY_FREED: the first request that waits proceeds when an entry frees. -/
def execBridgeEntryFreed (s : State) : Out :=
  match s.halfWait with
  | [] => .next s
  | x :: r =>
    match s.allocHalf (x / 2) with
    | some s => .next (({ s with halfWait := r } : State).post [evt .hostHalfResponse [x / 2, x % 2]])
    | none => .next (s.again .bridgeEntryFreed)

/-- HOST_SNOOP (R98): the newest data is gathered; an invalidating snoop leaves I, another S and the shared copies. It waits
while the line is in transition. The host writes its memory only in a half that the bridge does not hold, so the words that
come with an invalidating snoop are what it then writes. -/
def execHostSnoop (s : State) : Out :=
  let h := s.argN 0
  let put := fun (s : State) =>
    { s with mem := s.arg.vals.zipIdx.foldl (fun m p => if p.2 < 8 then m.setWord ((hostBase + 64 * h) / 8 + p.2) p.1 else m) s.mem }
  if (SMap.get? s.halves h).isNone then .next (if s.argN 1 = 1 then put s else s)
  else if s.lineBusy (lineOfHalf h) then .next (s.again .hostSnoop)
  else if s.argN 1 = 1 then
    let s := s.gather (lineOfHalf h)
    .next (put { s with halves := SMap.del s.halves h })
  else
    let s := s.gatherShared (lineOfHalf h)
    .next (s.setHalf h { s.half h with st := min 1 (s.half h).st })

/-! ### Leases (R100) -/

/-- LEASE_HEARTBEAT: a slice renews the leases of all that it holds: as an owner of directory lines, and as the home of host
lines in E or M at the bridge. -/
def execLeaseHeartbeat (s : State) : Out :=
  let cl := s.argN 0
  if !s.alive cl then .next s
  else
    .next { s with
      leases := s.leases.map (fun p => if s.ownerOfLine p.1 = some cl then (p.1, s.now) else p)
      halves := s.halves.map (fun p =>
        if 2 ≤ p.2.st && s.homeOf (lineOfHalf p.1) = cl then (p.1, { p.2 with since := s.now }) else p) }

/-- What a lease is of: 0 the directory entry of line `n`, 1 the half `n` of the bridge. Its holder, and when it began. -/
def State.leaseOf (s : State) (n kind : Nat) : Option (Nat × Nat) :=
  if kind = 0 then
    match s.ownerOfLine n, SMap.get? s.leases n with
    | some o, some b => some (o, b)
    | _, _ => none
  else if 2 ≤ (s.half n).st then some (s.homeOf (lineOfHalf n), (s.half n).since) else none

/-- LEASE_EXPIRY: 2^22 cycles after a lease began, LEASECHECK goes to its holder. -/
def execLeaseExpiry (s : State) : Out :=
  let n := s.argN 0
  let kind := s.argN 1
  match s.leaseOf n kind with
  | some (_, b) => if b + 2 ^ 22 ≤ s.now then .next (s.post [evt .leasecheck [n, kind]]) else .next s
  | none => .next s

/-- LEASECHECK: a live holder answers and the lease restarts; a dead one never does, and 2^16 cycles are waited. -/
def execLeasecheck (s : State) : Out :=
  let n := s.argN 0
  let kind := s.argN 1
  match s.leaseOf n kind with
  | some (o, _) =>
    if s.alive o then
      .next (if kind = 0 then s.renewLease n else s.setHalf n { s.half n with since := s.now })
    else .next (s.post [evt .leasecheckTimeout [n, kind, s.now + 2 ^ 16]])
  | none => .next s

/-- Leaves of a tenant's tables that map the 64 KiB or larger page, or host page, of an intermediate address: the virtual
address, the level and the intermediate address of the entry. A table is searched entry by entry. -/
def leavesFrom (s : State) (t : Tenant) (ia fuel l table va : Nat) : List (Nat × Nat × Nat) :=
  match fuel with
  | 0 => []
  | n + 1 =>
    (List.range (levelEntries l)).flatMap (fun i =>
      match t.second (table + 8 * i) with
      | none => []
      | some pa =>
        let e := (s.curWord (pa / 8)).v
        if e.bits 63 63 = 0 then []
        else
          match e.bits 62 61 with
          | 0 => if pointerBad l e then [] else leavesFrom s t ia n (l + 1) (Leaf.frame e) (va + i * pageSize l)
          | 1 =>
            if !leafBad l e && Leaf.frame e ≤ ia && ia < Leaf.frame e + pageSize l
            then [(va + i * pageSize l, l, table + 8 * i)] else []
          | _ => [])

def State.leavesOf (s : State) (tn ia : Nat) : List (Nat × Nat × Nat) :=
  let t := s.tenant tn
  if t.ttroot = 0 then [] else leavesFrom s t ia 6 0 (t.ttroot.toNat / 4096 * 4096 % 2 ^ 48) 0

/-- The intermediate address under which a tenant reaches a physical address. -/
def Tenant.iaOf (t : Tenant) (pa : Nat) : Option Nat :=
  if hostBase ≤ pa then
    (t.hostMap.find? (fun p => p.2 = (pa - hostBase) / 4096)).map (fun p => p.1 * 4096 + pa % 4096)
  else (t.window.find? (fun p => p.2 = pa / 65536)).map (fun p => p.1 * 65536 + pa % 65536)

/-- Set LOST in the leaf of a line's page and post the LOST record. Its cluster index is in physical coordinates, which the
specification does not say (DESIGN CHOICE, log entry 67). -/
def State.markLost (s : State) (line dead : Nat) : State :=
  let tn := s.tenantOf (128 * line)
  match (s.tenant tn).iaOf (128 * line) with
  | none => s
  | some ia =>
    match s.leavesOf tn ia with
    | [] => s
    | (_, _, en) :: _ =>
      let e := match (s.tenant tn).second en with
        | some pa => (s.curWord (pa / 8)).v
        | none => 0
      let s := s.setEntry tn en (setBit e 52 true)
      s.notify tn (recWord 4 (Leaf.frame e % 2 ^ 48)) (w64 (dead * 2 ^ 32 + (ia - Leaf.frame e) / 128 % 2 ^ 23))

/-- Revert a line to its last written-back value, every word tainted; the requests that wait for it are served. -/
def State.revertLine (s : State) (line : Nat) : State :=
  let waiting := (match s.dirOf line with
    | some (.recalling _ c w) => [⟨c, w⟩]
    | _ => []) ++ SMap.get s.dirq line []
  let s := s.discardLine line
  let s := { s with mem := (List.range 16).foldl (fun m i => m.setTaint (16 * line + i) true) s.mem }
  ({ s with dirq := if waiting.isEmpty then s.dirq else SMap.set s.dirq line waiting } : State).serveDir line

/-- Revert a half of the bridge to its last written-back words, every word tainted, in the state it had before it was owned. -/
def State.revertHalf (s : State) (h : Nat) : State :=
  let x := s.half h
  let s := s.discardLine (lineOfHalf h)
  let s := { s with mem := x.back.zipIdx.foldl (fun (m : Mem) (p : TWord × Nat) => m.setWord (hostBase / 8 + 8 * h + p.2) ⟨p.1.v, true⟩) s.mem }
  if x.pre = 0 then { s with halves := SMap.del s.halves h } else s.setHalf h { x with st := x.pre, busy := false }

/-- LEASECHECK_TIMEOUT: 2^16 cycles without an answer; the holder is dead. -/
def execLeasecheckTimeout (s : State) : Out :=
  let n := s.argN 0
  let kind := s.argN 1
  match s.leaseOf n kind with
  | some (o, _) =>
    if s.alive o then .next s
    else if s.now < s.argN 2 then .next (s.again .leasecheckTimeout)
    else if kind = 0 then .next ((s.revertLine n).markLost n o)
    else .next ((s.revertHalf n).markLost (lineOfHalf n) o)
  | none => .next s

/-! ### Word registration (R91, R92) -/

/-- The registered word is written into the home copy, and nobody registers it any longer. -/
def State.unregister (s : State) (w : Nat) : State :=
  match SMap.get? s.regw w with
  | none => s
  | some r => { s with mem := s.mem.setWord w r.w, regw := SMap.del s.regw w }

/-- RECALL: the registrant answers; one that no longer holds the word discards it. -/
def execRecallWord (s : State) : Out :=
  match SMap.get? s.regw (s.argN 0) with
  | some r => if r.asker.isSome then .next (s.post [evt .recallAnswer [s.argN 0]]) else .next s
  | none => .next s

/-! ### Software-coherent copies (R101) -/

/-- Bring a line into the banks of a core that has CACHE banks, from its cluster's slice or the home copy. -/
def State.fillBanks (s : State) (c line : Nat) (sw : Bool) : State :=
  if (s.core c).hasCache && (s.copy? line (bankHolder c)).isNone then
    let ws := match s.copy? line (c / 8) with
      | some cp => cp.words
      | none => if sw then s.homeWords line else (List.range 16).map (fun i => s.curWord (16 * line + i))
    (s.setCopy line (bankHolder c) ⟨ws, [], false, sw⟩).mayEvict line (c / 8)
  else s

/-- Whether bringing a SW page's line to core `c` sends a request to its home slice. -/
def State.swMiss (s : State) (c line : Nat) : Bool :=
  (s.copy? line (bankHolder c)).isNone && (c / 8 = s.homeOf line || (s.copy? line (c / 8)).isNone)

/-- Bring a SW page's line to the issuing core: into its cluster's slice, where that is not the home, and its banks. -/
def State.fillSw (s : State) (c line : Nat) : State :=
  let cl := c / 8
  let s := if cl = s.homeOf line || (s.copy? line cl).isSome then s
    else
      match s.makeRoom cl line with
      | some s => (s.setCopy line cl ⟨s.homeWords line, [], false, true⟩).mayEvict line cl
      | none => s
  if cl = s.homeOf line || (s.copy? line cl).isSome then s.fillBanks c line true else s

/-- Write a word into a holder's copy and mark it dirty. -/
def State.dirtyWord (s : State) (line holder i : Nat) (v : TWord) : State :=
  match s.copy? line holder with
  | some cp => s.setCopy line holder { cp with words := setNth cp.words i v, dirty := insSorted cp.dirty i }
  | none => s

/-- A store of a word on a SW page: into the core's banks, else its cluster's slice, else the home copy. -/
def State.swStore (s : State) (c w : Nat) (g : TWord → TWord) : State :=
  let line := w / 16
  let s := s.fillSw c line
  let v := g (s.swWord c w)
  if (s.copy? line (bankHolder c)).isSome then s.dirtyWord line (bankHolder c) (w % 16) v
  else if (s.copy? line (c / 8)).isSome then s.dirtyWord line (c / 8) (w % 16) v
  else s.setHome w v

end Sys2Proof.Machine
end

