-- ==== Sys2Proof/Machine/Port.lean ====
section
/-!
DEFINITION. Sys2Proof/Machine/Port.lean: what happens to an access at the memory port and the home slice: page classes
(R57), the requests it has outstanding (R3), pending deterministic adds (R301), atomics (R65), and the performing of stores
(R91, R92, R96, R256).
-/
namespace Sys2Proof.Machine
open Sys2Proof

/-! ### Page classes (R57) -/

/-- The refusal of a load, or of an engine read, of `size` bytes: 0 none, else the SYNCMISUSE class. -/
def loadRefusal (tr : Tr) (size : Nat) : Nat :=
  match Leaf.cl tr.leaf with
  | 2 => 2
  | 3 => if tr.pa % 128 < 32 && size ≤ 8 then 0 else 1
  | _ => 0

/-- The refusal of an AMO. -/
def amoRefusal (tr : Tr) : Nat :=
  match Leaf.cl tr.leaf with
  | 2 => 2
  | 3 => 1
  | _ => 0

/-! ### Descriptor-guided prefetch (R123) -/

/-- The index of a virtual address's line in a descriptor. -/
def PDesc.index (d : PDesc) (va : Nat) : Option Nat :=
  let n : Int := ((va / 128 * 128 : Nat) : Int) - (d.base : Int)
  if d.stride ≠ 0 && n % d.stride = 0 && 0 ≤ n / d.stride && n / d.stride < (d.extent : Int) then some (n / d.stride).toNat
  else none

/-- A demand access of a cluster moves the consumption index of the descriptors that hold its line; a descriptor whose
extent is consumed is freed. -/
def State.demand (s : State) (cl va : Nat) : State :=
  (s.cluster cl).pdesc.foldl (fun s p =>
    match p.2.index va with
    | none => s
    | some i =>
      if i < p.2.ic then s
      else if p.2.extent ≤ i + 1 then s.setCluster cl { s.cluster cl with pdesc := SMap.del (s.cluster cl).pdesc p.1 }
      else
        let x := s.cluster cl
        (s.setCluster cl { x with pdesc := SMap.set x.pdesc p.1 { p.2 with ic := i + 1 } }).post [evt .prefetchIssue [cl, p.1]]) s

/-! ### Pending deterministic adds (R301) -/

/-- Order of contributions: by lane, then number. -/
def insertAdd (l : List AddItem) (x : AddItem) : List AddItem :=
  match l with
  | [] => [x]
  | y :: r => if x.lane < y.lane || (x.lane = y.lane && x.seq < y.seq) then x :: y :: r else y :: insertAdd r x

/-- The format of an AMOFADD item. -/
def faddFmt (size : Nat) : FFmt := if size = 4 then fp32 else bf16

/-- A word after one contribution: one RNE rounding; no taint is added. -/
def AddItem.applyTo (x : AddItem) (w : TWord) : TWord :=
  let old := w.v.toNat / 2 ^ (8 * x.off) % 2 ^ (8 * x.size)
  storeInto w x.off x.size ⟨w64 (addF (faddFmt x.size) 0 old x.val).1, false⟩

/-- Apply the pending list of word `w`, in (lane, number) order; the word stays in its domain (R301). -/
def State.applyList (s : State) (w : Nat) : State :=
  match SMap.get? s.addl w with
  | none => s
  | some l =>
    if l.items.isEmpty then s
    else
      ({ s with addl := SMap.set s.addl w { l with items := [] } } : State).writeHome false (8 * w) 8
        (l.items.foldl (fun v x => x.applyTo v) (s.curWord w))

/-- Apply every pending list of a word that the bytes [a, a + n) touch. -/
def State.applyAdds (s : State) (a n : Nat) : State :=
  (s.addl.filter (fun p => p.1 ≤ (a + n - 1) / 8 && a / 8 ≤ p.1)).foldl (fun s p => s.applyList p.1) s

/-! ### Atomics (R65) -/

/-- The new value of an item and the value returned, from the old one, the operand `b` and the comparand `d`. -/
def amoValue (i : Instr) (f : Fields) (size old b d : Nat) : Nat :=
  let w := 8 * size
  let less := fun (x y : Nat) => if f.fx / 4 % 2 = 1 then decide (x < y) else decide (sgn w x < sgn w y)
  match i with
  | .amoadd _ => (old + b) % 2 ^ w
  | .amoand _ => Nat.land old b
  | .amoor _ => Nat.lor old b
  | .amoxor _ => Nat.xor old b
  | .amomin _ => if less b old then b else old
  | .amomax _ => if less old b then b else old
  | .amoswap _ => b
  | .amocas _ => if old = d then b else old
  | .amofadd _ => (addF (faddFmt size) 0 old b).1
  | _ => old

/-! ### Device write-pointer words (R316) -/

/-- A store to the line of a tenant's device write-pointer word prompts the dispatcher: ring 4 is the send ring. -/
def State.pokeRings (s : State) (tn line : Nat) : State :=
  let t := s.tenant tn
  (t.lq ++ [t.fs]).zipIdx.foldl (fun s p =>
    if ctlEn p.1.ctl && ctlSrc p.1.ctl then
      match s.translate tn p.1.wa 4 with
      | .ok tr => if tr.pa / 128 = line then s.post [evt .lqwaWordUpdate [tn, p.2]] else s
      | .error _ => s
    else s) s

/-! ### Lines that the host may hold (R319) -/

/-- The halves of a device line that the host may hold. -/
def State.hostHalves (s : State) (line : Nat) : List Nat := [2 * line, 2 * line + 1].filter (fun h => s.hostHeld.contains h)

/-- A device write to the line first sends back-invalidate snoops, once each: none where the host holds nothing of it. -/
def State.backInvalidate (s : State) (line : Nat) : Option State :=
  match s.hostHalves line with
  | [] => none
  | l => some (s.post ((l.filter (fun h => !s.due.any (fun e => (e.ev = .bisnp || e.ev = .birsp) && e.arg.nums = [h]))).map
      (fun h => evt .bisnp [h])))

/-! ### The way to a home slice (R3, R97, R338) -/

/-- The line requests a cluster's memory port has outstanding: accesses of operations that have been sent, stores on their
way, and prefetches (slot 64 of L2_REQUEST). -/
def State.portLoad (s : State) (cl : Nat) : Nat :=
  (s.due.filter (fun e => e.ev = .l2Request && nthD e.arg.nums 1 0 = 64 && nthD e.arg.nums 0 0 / 8 = cl)).length
    + ((List.range 8).map (fun j =>
    let c := 8 * cl + j
    ((s.core c).slots.map (fun p => match p.2.occ with
      | .live t => (t.ops.filter (fun o => o.sent && o.kind ≠ .amo && o.space ≠ .loc)).length
      | _ => 0)).sum
      + (s.flights.filter (fun f => f.core = c && !f.entry.loc && f.stage ≠ 2)).length)).sum

/-- All 1,536 requests of the port are in use. -/
def State.portFull (s : State) (cl : Nat) : Bool := 1536 ≤ s.portLoad cl

/-- A line that is not resident in its home slice is filled first (R338). -/
def State.needLine (s : State) (line : Nat) : Option State :=
  if (SMap.get? s.resident line).isSome then none
  else if s.due.any (fun e => e.ev = .hbmFill && e.arg.nums = [line]) then some s
  else some (s.post [evt .hbmFill [line]])

/-- A resident line is used now. -/
def State.touchLine (s : State) (line : Nat) : State :=
  if (SMap.get? s.resident line).isSome then { s with resident := SMap.set s.resident line s.now } else s

/-- A line leaves its home slice without eviction: it is written as zero, or by the host, or its frame is new (R338). -/
def State.unresident (s : State) (line : Nat) : State := { s with resident := SMap.del s.resident line }

/-- What `n` bytes at the home slice wait for: a pin, a transition, the host's copies and the line's residency, and the host
halves. None: they are accessed now. A host line itself is filled by the bridge. -/
def State.homeGate (s : State) (pa n : Nat) (own : Bool) : Option State :=
  let line := pa / 128
  if (own && s.pinned line) || s.lineBusy line then some s
  else
    match (if own then s.backInvalidate line else none) with
    | some s => some s
    | none =>
      if hostBase ≤ pa then (if s.halvesHeld pa n own then none else some (s.needHalves pa n own)) else s.needLine line

/-! ### Performing stores -/

/-- The words an entry touches, with what it makes of each. -/
def SBEntry.words (e : SBEntry) : List Nat :=
  (List.range ((e.addr % 8 + e.size + 7) / 8)).map (fun i => e.addr / 8 + i)

/-- The taint trap (R304): a write by a thread of a deterministic launch whose written word would carry taint. -/
def State.taintTrap (s : State) (tn : Nat) (task : Word) (taint : Bool) : Bool :=
  taint && taskDet task && (s.tenant tn).tntctl.bits 0 0 = 1

/-- A store of some of its words written into a core's window (R109). -/
def State.storeLocal (s : State) (core : Nat) (e : SBEntry) : State :=
  e.words.foldl (fun s w =>
    s.modCore core (fun x =>
      if x.win.poisoned (w / 16) then x else { x with win := x.win.setWord w (e.applyTo (8 * w) (x.win.word w)) })) s

/-- What an entry makes of a word whose newest value is `old`, at memory (R61, R53). -/
def State.madeWord (s : State) (e : SBEntry) (w : Nat) (old : TWord) : TWord :=
  s.entryStore (s.tenantOf (8 * w)) (8 * w) old (e.applyTo (8 * w) old)

/-- One word of a store on a page of die scope: registered to the core, or written through where it cannot register (R91). -/
def State.storeWordDie (s : State) (c : Nat) (e : SBEntry) (w : Nat) : State :=
  if s.mem.poisoned (w / 16) then s
  else
    let v := s.madeWord e w (s.curWord w)
    if (s.core c).hasCache && dieOf (c / 8) = dieOf (s.homeOf (w / 16)) then { s with regw := SMap.set s.regw w ⟨c, v, none⟩ }
    else (s.unregister w).setHome w v

/-- A store to a page of module or system scope by the owner of the line (R96): the cluster's slice holds the new words, and its
cores' banks no older ones. -/
def State.storeOwned (s : State) (c : Nat) (e : SBEntry) : State :=
  let line := e.addr / 128
  if s.mem.poisoned line then s
  else
    e.words.foldl (fun s w =>
      let v := s.madeWord e w (s.curWord w)
      match s.copy? line (c / 8) with
      | some _ => s.dirtyWord line (c / 8) (w % 16) v
      | none => s.setHome w v) (s.dropBanks line (c / 8))

/-- A store to a SW page (R101). -/
def State.storeSw (s : State) (c : Nat) (e : SBEntry) : State :=
  if s.mem.poisoned (e.addr / 128) then s
  else e.words.foldl (fun s w => s.swStore c w (s.madeWord e w)) s

/-! ### The write-combine buffer (R256) -/

/-- Bytes of a word replaced by those of a combine entry; `i` is the word's place in the half. -/
def WCEntry.applyTo (e : WCEntry) (i : Nat) (w : TWord) : TWord :=
  let bs := e.bytes.filter (fun p => p.1 / 8 = i)
  let v := bs.foldl (fun (w : Word) p => spliceWord w (p.1 % 8) 1 (w64 p.2.toNat)) w.v
  ⟨v, e.taint.contains i || (w.t && bs.length < 8)⟩

/-- The words of its half that an entry writes. -/
def WCEntry.words (e : WCEntry) : List Nat := (List.range 8).filter (fun i => e.bytes.any (fun p => p.1 / 8 = i))

/-- An entry of the buffer drains later: its drain stays among the events. -/
def State.drainLater (s : State) (c h : Nat) : State :=
  if s.due.any (fun e => e.ev = .wcDrain && e.arg.nums = [c, h]) then s else s.post [evt .wcDrain [c, h]]

/-- Drain one write-combine entry (R256). On a page with hardware coherence its bytes are written at the home of the half, which
the bridge must hold E or M (R97); on one with software coherence into the core's local copy (R101, log entry 68). What the
bridge or the line must first come to is asked for, and the entry stays. -/
def State.drainHalf (s : State) (c h : Nat) : State :=
  match (s.core c).wc.find? (fun e => e.half = hostBase / 64 + h) with
  | none => s
  | some e =>
    let line := e.half / 2
    let sw := Leaf.sw e.leaf
    match s.homeGate (if sw then 128 * line else 64 * e.half) (if sw then 128 else 64) (!sw) with
    | some s => s.drainLater c h
    | none =>
      let s := s.modCore c (fun x => { x with wc := x.wc.filter (fun y => y.half ≠ e.half) })
      let tn := s.tenantOf (128 * line)
      let hot := fun (s : State) => s.countHot (c / 8) tn e.leaf
      if sw then
        let s := if s.swMiss c line then hot s else s
        if s.mem.poisoned line then s
        else e.words.foldl (fun s i => s.swStore c (8 * e.half + i) (e.applyTo i)) s
      else
        let s := (hot s).gather line
        let s : State := if s.mem.poisoned line then s
          else { s with mem := e.words.foldl (fun m i => m.setWord (8 * e.half + i) (e.applyTo i (m.word (8 * e.half + i)))) s.mem }
        (s.pokeRings tn line).dirtyHalf h

/-- Drain every entry of a core: what a release, or a fence of any kind but .x, does. -/
def State.drainWC (s : State) (c : Nat) : State :=
  (s.core c).wc.foldl (fun s e => s.drainHalf c (e.half - hostBase / 64)) s

/-- The core's write-combine buffer is empty once everything that can drain has drained. -/
def State.wcEmpty (s : State) (c : Nat) : Bool := (s.core c).wc.isEmpty

/-- The bytes of an entry as (offset in the half, byte) pairs. -/
def SBEntry.bytesOf (e : SBEntry) : List (Nat × Byte) :=
  (List.range e.size).map (fun i =>
    let w := if e.size ≤ 8 then (nthD e.data 0 TWord.zero).v.toNat / 2 ^ (8 * i)
      else (nthD e.data (i / 8) TWord.zero).v.toNat / 2 ^ (8 * (i % 8))
    ((e.addr + i) % 64, BitVec.ofNat 8 (w % 256)))

/-- The words, within the half, that the entry taints. -/
def SBEntry.taints (e : SBEntry) : List Nat :=
  if e.size ≤ 8 then (if (nthD e.data 0 TWord.zero).t then [e.addr % 64 / 8] else [])
  else (List.range (e.size / 8)).filter (fun i => (nthD e.data i TWord.zero).t)

/-- The buffer has an entry for the half of an address, or room for one; a ninth half first drains the oldest. -/
def State.combineRoom (s : State) (c a : Nat) : Bool × State :=
  let x := s.core c
  if x.wc.any (fun y => y.half = a / 64) || x.wc.length < 8 then (true, s)
  else
    match x.wc with
    | y :: _ =>
      let s := s.drainHalf c (y.half - hostBase / 64)
      ((s.core c).wc.length < 8, s)
    | [] => (true, s)

/-- A store to a host page merges into the write-combine buffer (R256), later bytes replacing earlier ones; a full mask
drains. -/
def State.combine (s : State) (c : Nat) (e : SBEntry) : State :=
  let h := e.addr / 64
  let x := s.core c
  let old := match x.wc.find? (fun y => y.half = h) with
    | some y => y
    | none => ⟨h, [], [], s.now, e.leaf, []⟩
  let bs := e.bytesOf
  let whole := fun (i : Nat) => (List.range 8).all (fun b => bs.any (fun p => p.1 = 8 * i + b))
  let n : WCEntry :=
    ⟨h, old.bytes.filter (fun p => !bs.any (fun q => q.1 = p.1)) ++ bs,
     old.taint.filter (fun i => !whole i && !e.taints.contains i) ++ e.taints, old.born, old.leaf,
     old.vas ++ (if old.vas.contains (e.va / 64) then [] else [e.va / 64])⟩
  let s := s.setCore c { x with wc := x.wc.filter (fun y => y.half ≠ h) ++ [n] }
  if n.bytes.length = 64 then s.drainHalf c (h - hostBase / 64)
  else s.post [evt .wcDrainTimeout [c, h - hostBase / 64]]

/-- A non-temporal store: a whole half written without ownership; any device copy of the half is invalidated, and what the
core's write-combine buffer holds of it is replaced (R256, R252). -/
def State.storeNonTemporal (s : State) (c : Nat) (e : SBEntry) : State :=
  let s := s.modCore c (fun x => { x with wc := x.wc.filter (fun y => y.half ≠ e.addr / 64) })
  let s := s.gather (e.addr / 128)
  if s.mem.poisoned (e.addr / 128) then s
  else
    let s : State := { s with mem := (List.range 8).foldl (fun m i => m.setWord (e.addr / 8 + i) (nthD e.data i TWord.zero)) s.mem }
    let here := fun (i : Nat) => i / 8 = e.addr / 64 % 2
    { s with halves := SMap.del s.halves (halfOf e.addr),
             copies := s.copies.map (fun p =>
               if p.1 / 4096 = e.addr / 128 then
                 (p.1, { p.2 with dirty := p.2.dirty.filter (fun i => !here i),
                                  words := (List.range 16).map (fun i =>
                                    if here i then nthD e.data (i % 8) TWord.zero else nthD p.2.words i TWord.zero) })
               else p) }

/-- The word that an entry would write is tainted (R61, R304). -/
def State.taintsWord (s : State) (c : Nat) (e : SBEntry) : Bool :=
  e.words.any (fun w =>
    let old := if e.loc then (s.core e.core).win.word w else if e.sw then s.swWord c w else s.curWord w
    (e.applyTo (8 * w) old).t)

end Sys2Proof.Machine
end

