-- ==== Sys2Proof/Machine/GlobalMem.lean ====
section
/-!
DEFINITION. Sys2Proof/Machine/GlobalMem.lean: global loads, stores, fences, prefetch and atomics (R61 to R65), and the
progress of their operations.
-/
namespace Sys2Proof.Machine
open Sys2Proof

/-! ### Stores on their way into the store buffer -/

/-- What trying to put one access of a store into the buffer gives. -/
inductive StoreTry where
  | entered (s : State)
  | wait (s : State)
  | refused (code cause : Nat)

/-- Is this a scatter (whose lanes on a STREAM page are refused, R170)? -/
def isScatter (i : Instr) : Bool :=
  match i with
  | .vscat _ => true
  | _ => false

/-- The add a store to a STREAM page is, by its size and instruction (R197): the source type, or none. -/
def streamSource (i : Instr) (size : Nat) : Option Nat :=
  match i with
  | .saadd f => some f.lo
  | .vscat _ => none
  | _ => if size < 4 then none else some 0

/-- The atomic instruction SAADD, whose target is a STREAM page (R208). -/
def isStreamAdd (i : Instr) : Bool :=
  match i with
  | .saadd _ => true
  | _ => false

/-- The refusal of a store, add or atomic by the class of its page, where there is one (R57, R170, R197, R208). -/
def Op.storeRefusal (o : Op) (tr : Tr) (size : Nat) : Nat :=
  if o.kind = .amo then amoRefusal tr
  else if isStreamAdd o.ins && Leaf.cl tr.leaf ≠ 2 then 2
  else if Leaf.cl tr.leaf = 3 then 1
  else if Leaf.cl tr.leaf = 2 && (streamSource o.ins size).isNone then 2
  else 0

/-- What the entry of a store, add or atomic is. -/
def Op.entryKind (o : Op) (tr : Tr) (size : Nat) : StKind :=
  if o.kind = .amo then .amo o.rel
  else if Leaf.cl tr.leaf = 2 then .streamAdd ((streamSource o.ins size).getD 0) o.rel
  else if o.rel then .release
  else
    match o.ins with
    | .vstg _ => if Leaf.h tr.leaf then .nonTemporal else .plain
    | _ => .plain

/-- An entry that is performed under ownership of its line: an ordinary store to a page of module or system scope in device
memory with hardware coherence (R96). -/
def SBEntry.needsOwner (e : SBEntry) : Bool :=
  !e.loc && 3 ≤ e.sh && !e.host && !e.sw
    && (match e.kind with
        | .streamAdd _ _ => false
        | .amo _ => false
        | _ => true)

/-- An entry enters the buffer; its thread parks, having issued it, where its line is not owned by the cluster (R96). -/
def State.enterStore (s : State) (c k : Nat) (e : SBEntry) : State :=
  let s := s.enqueueStore c e
  if e.needsOwner && !s.ownsLine (c / 8) (e.addr / 128) then s.parkAfter c k (.own (e.addr / 128)) else s

/-- A covered region behaves as an ORDINARY page of its SH (R70). -/
def viewLeaf (sh : Nat) : Word := w64 (2 ^ 63 + 2 ^ 61 + sh * 2 ^ 58 + 2 ^ 50)

/-- A store through a view enters the buffer with the address its view gave it (R89); a retiring line is found later. -/
def State.tryView (s : State) (c k : Nat) (t : Thread) (o : Op) (a : Access) : StoreTry :=
  if !s.sbRoom c then .wait s
  else
    .entered ((s.enterStore c k
      { id := o.id, slot := k, inc := t.inc, loc := false, core := 0, addr := a.addr, va := o.off, size := a.size,
        data := [a.val], kind := .plain, sh := o.seg, host := false, sw := false, wide := true, leaf := viewLeaf o.seg,
        handle := (nthD o.data 0 TWord.zero).v, pc := o.pc, dadd := false }).watched c k o.off a.size false true)

/-- A local store enters the buffer (R109). -/
def State.tryLocal (s : State) (c k : Nat) (t : Thread) (o : Op) (a : Access) : StoreTry :=
  if !s.sbRoom c then .wait s
  else
    .entered (s.enterStore c k
      { id := o.id, slot := k, inc := t.inc, loc := true, core := a.core, addr := a.addr, va := a.addr, size := a.size,
        data := if a.size ≤ 8 then [a.val] else (o.data.drop a.val.v.toNat).take 8, kind := .plain,
        sh := if dieOf (a.core / 8) = dieOf (c / 8) then 2 else 3, host := false, sw := false, wide := false,
        leaf := 0, handle := 0, pc := o.pc, dadd := false })

/-- The entry of a translated store, add or atomic. -/
def storeEntry (k : Nat) (t : Thread) (o : Op) (a : Access) (tr : Tr) : SBEntry :=
  { id := o.id, slot := k, inc := t.inc, loc := false, core := 0, addr := tr.pa, va := a.addr, size := a.size,
    data := if o.kind = .amo then [nthD o.data 0 TWord.zero] else if a.size ≤ 8 then [a.val] else o.data,
    kind := o.entryKind tr a.size, sh := Leaf.sh tr.leaf, host := Leaf.h tr.leaf, sw := Leaf.sw tr.leaf, wide := false,
    leaf := tr.leaf, handle := 0, pc := o.pc, dadd := false }

/-- Put one access of a store operation, or an atomic, into the core's store buffer (R61, R65, R254): translated, of a class
that takes it, and with room. A write to a page under migration parks its thread (R60). -/
def State.tryStore (s : State) (c k : Nat) (t : Thread) (o : Op) (a : Access) : StoreTry :=
  if o.space = .loc then s.tryLocal c k t o a
  else if o.space = .view then s.tryView c k t o a
  else
  match s.lookup (c / 8) a.addr (if o.kind = .amo then 2 else 1) with
  | none => .wait (s.startWalk t.tenant 0 c k a.addr (if o.kind = .amo then 2 else 1))
  | some tr =>
    if o.storeRefusal tr a.size ≠ 0 then .refused tSYNCMISUSE (o.storeRefusal tr a.size)
    else if !s.sbRoom c then .wait s
    else
      let s := s.enterStore c k (storeEntry k t o a tr)
      let s := if o.kind = .amo then s else s.watched c k a.addr a.size false true
      .entered (if Leaf.wb tr.leaf then s.parkAfter c k (.migrate a.addr) else s)

/-- Enter as many accesses of a list as can go now: the list with what became of each, and the state. -/
def State.enterAll (s : State) (c k : Nat) (t : Thread) (o : Op) (l : List Access) : List Access × State :=
  match l with
  | [] => ([], s)
  | a :: r =>
    if a.done || a.refuse ≠ 0 then
      let (r', s) := s.enterAll c k t o r
      (a :: r', s)
    else
      match s.tryStore c k t o a with
      | .wait s => (a :: r, s)
      | .refused code cause =>
        let (r', s) := s.enterAll c k t o r
        ({ a with refuse := code, cause := cause } :: r', s)
      | .entered s =>
        let (r', s) := s.enterAll c k t o r
        ({ a with done := true } :: r', s)

/-- Every access has been performed or refused. -/
def Op.ended (o : Op) : Bool := o.acc.all (fun a => a.done || a.refuse ≠ 0)
def Op.refusal (o : Op) : Option Access := o.acc.find? (fun a => a.refuse ≠ 0)

/-- The progress of a store operation that is the oldest store of its thread: it ends when the buffer has accepted it; a
refusal is delivered as a deferred trap. -/
def State.storeProgress (s : State) (c k o : Nat) : State :=
  match s.opOf c k o with
  | none => s
  | some (t, op) =>
    if t.ops.any (fun x => x.unentered && x.id < o) then s
    else
      let (l, s) := s.enterAll c k t op op.acc
      let op := { op with acc := l }
      if !op.ended then s.modThread c k (fun t => t.setOp op)
      else if op.refusal.isSome then (s.modThread c k (fun t => t.setOp op)).post [evt .deferredTrap [c, k, o]]
      else s.modThread c k (fun t => t.dropOp o)

/-- Start an operation and its request. -/
def State.startOp (s : State) (c k : Nat) (o : Op) : State :=
  let (i, s) := s.addOp c k o
  match o.kind with
  | .store =>
    let s := s.storeProgress c k i
    if (s.opOf c k i).isSome then s.post [evt .l2Request [c, k, i]] else s
  | _ => s.post [evt .l2Request [c, k, i]]

/-! ### The instructions (R61, R62, R64, R65) -/

/-- An instruction with one global operand sS[ga + disp], checked by MemG (R37, R50). -/
def globalOp (i : Instr) (f : Fields) (s : State) (size : Nat) (right : Char)
    (body : Nat → Nat → Thread → TWord → Nat → State → State) : Out :=
  issue i s (fun c k t s =>
    let a := s.getG c t f.a
    let off := gOffset a.v f.imm
    match memG t f.hi off size right with
    | some (code, addr, aux) => s.raise c k code addr aux
    | none => body c k t a off s)

/-- The virtual address of an offset in a segment (R50). -/
def vaOf (t : Thread) (sn off : Nat) : Nat := (t.seg sn).base + off

/-- The pending destination: gd, unless it names a special operand. -/
def Fields.pendD (f : Fields) : List Nat := if f.sd then [] else [f.d]

/-- A load of one item. -/
def loadGlobal (i : Instr) (f : Fields) (s : State) (acq : Bool) : Out :=
  globalOp i f s (sizeBytes f.lo) 'R' (fun c k t a off s =>
    (s.finish c k).startOp c k
      { Op.new i t (if acq then .loadAcq else .load) .glob f.la with
        seg := f.hi, off := off, acc := [Access.at (vaOf t f.hi off) (sizeBytes f.lo) TWord.zero],
        pend := Fields.pendD f, ataint := a.t, acq := acq })

/-- A store of one item: its value is read at issue; its taint takes the address register's. -/
def storeGlobal (i : Instr) (f : Fields) (s : State) (rel : Bool) : Out :=
  globalOp i f s (sizeBytes f.lo) 'W' (fun c k t a off s =>
    let (v, s) := s.readVals i c k t f
    (s.finish c k).startOp c k
      { Op.new i t .store .glob f.la with
        seg := f.hi, off := off,
        acc := [Access.at (vaOf t f.hi off) (sizeBytes f.lo) ⟨v.d.v, v.d.t || a.t⟩], ataint := a.t, rel := rel })

def execLdg (f : Fields) (s : State) : Out := loadGlobal (.ldg f) f s false
def execStg (f : Fields) (s : State) : Out := storeGlobal (.stg f) f s false
def execLdacq (f : Fields) (s : State) : Out := loadGlobal (.ldacq f) f s true
def execStrel (f : Fields) (s : State) : Out := storeGlobal (.strel f) f s true

/-- An atomic (R65): b and, for AMOCAS, gd are read at issue. -/
def atomic (i : Instr) (f : Fields) (s : State) : Out :=
  globalOp i f s (sizeBytes f.lo) 'A' (fun c k t a off s =>
    let (v, s) := s.readVals i c k t f
    let det := taskDet t.task && (match i with
      | .amofadd _ => true
      | _ => false)
    let s := s.finish c k
    let s := if det then s.modThread c k (fun t => { t with amoSeq := t.amoSeq + 1 }) else s
    s.startOp c k
      { Op.new i t .amo .glob f.la with
        seg := f.hi, off := off, acc := [Access.at (vaOf t f.hi off) (sizeBytes f.lo) TWord.zero],
        pend := Fields.pendD f, ataint := a.t, data := [v.b, v.d], acq := f.fx % 2 = 1, rel := f.fx / 2 % 2 = 1,
        lane := taskLane t.task, seq := t.amoSeq })

def execAmoadd (f : Fields) (s : State) : Out := atomic (.amoadd f) f s
def execAmoand (f : Fields) (s : State) : Out := atomic (.amoand f) f s
def execAmoor (f : Fields) (s : State) : Out := atomic (.amoor f) f s
def execAmoxor (f : Fields) (s : State) : Out := atomic (.amoxor f) f s
def execAmomin (f : Fields) (s : State) : Out := atomic (.amomin f) f s
def execAmomax (f : Fields) (s : State) : Out := atomic (.amomax f) f s
def execAmoswap (f : Fields) (s : State) : Out := atomic (.amoswap f) f s
def execAmocas (f : Fields) (s : State) : Out := atomic (.amocas f) f s
def execAmofadd (f : Fields) (s : State) : Out := atomic (.amofadd f) f s

/-- PREF (R64): no check traps; a failed limit or a missing R leaves nothing to do. The limit is checked for one byte at the
offset (DESIGN CHOICE, log entry 19). -/
def execPref (f : Fields) (s : State) : Out :=
  issue (.pref f) s (fun c k t s =>
    let off := gOffset (s.getG c t f.a).v f.imm
    let s := s.finish c k
    if off < (t.seg f.hi).limit && (t.seg f.hi).has 'R' then
      s.startOp c k { Op.new (.pref f) t .pref .glob f.la with
        seg := f.hi, off := off, acc := [Access.at (vaOf t f.hi off) 1 TWord.zero] }
    else s)

/-! ### Writes of engines (R115, R192) -/

/-- What a write of `n` bytes by an engine waits for: like any access at the home slice, or where its page is kept by software,
like the fill of the core's copy. -/
def State.engineGate (s : State) (tr : Tr) (n : Nat) : Option State :=
  if Leaf.sw tr.leaf then s.homeGate (tr.pa / 128 * 128) 128 false else s.homeGate tr.pa n true

/-- A write of `n` bytes, at most a line, by an engine of core `c` is performed as a store of that core which bypasses its store
buffer: on a page with software coherence into the core's copy (R101). `g` makes a word's new value from its number and its old
value. A poisoned line stays as it is (R48). -/
def State.engineWrite (s : State) (c tn : Nat) (tr : Tr) (n : Nat) (g : Nat → TWord → TWord) : State :=
  let line := tr.pa / 128
  let sw := Leaf.sw tr.leaf
  let s := s.applyAdds tr.pa n
  let s := if sw && !s.swMiss c line then s else (s.countHot (c / 8) tn tr.leaf).touchLine line
  if s.mem.poisoned line then s
  else
    let made := fun (s : State) (w : Nat) (old : TWord) => s.entryStore tn (8 * w) old (g w old)
    let ws := (List.range ((tr.pa % 8 + n + 7) / 8)).map (fun i => tr.pa / 8 + i)
    let s := ws.foldl (fun (s : State) w =>
      if sw then s.swStore c w (made s w)
      else
        let s := s.settleWord w
        s.setHome w (made s w (s.mem.word w))) s
    let s := if Leaf.h tr.leaf && !sw then s.dirtyHalves tr.pa n else s
    s.pokeRings tn line

/-! ### Fences (R63) -/

/-- The stores of a thread, and with `combine` the write-combine buffer of its core, are performed; or the thread waits for
them. -/
def State.fenced (s : State) (c k : Nat) (combine : Bool) (done : State → State) : State :=
  if !(s.storesOf c k).isEmpty then s.park c k .drained
  else if combine then
    let s := s.drainWC c
    if s.wcEmpty c then done s else s.park c k .combined
  else done s

/-- Wait for the thread's operations, then for its stores; the core's write-combine buffer drains unless the kind is .x. -/
def fence (i : Instr) (s : State) (combine : Bool) : Out :=
  issue i s (fun c k t s =>
    if !t.ops.isEmpty then s.park c k .fenced else s.fenced c k combine (fun s => s.finish c k))

def execFence (f : Fields) (s : State) : Out := fence (.fence f) s true
def execFenceX (f : Fields) (s : State) : Out := fence (.fenceX f) s false
def execFenceS (f : Fields) (s : State) : Out := fence (.fenceS f) s true
/-- FENCE.a: the page of g[a] is translated first; a declined record makes it act at SYSTEM scope. The stores of the
thread to every page are waited for, which covers every scope. The operand is popped when the fence completes. -/
def execFenceA (f : Fields) (s : State) : Out :=
  issue (.fenceA f) s (fun c k t s =>
    if !t.ops.isEmpty then s.park c k .fenced
    else
      let (v, _) := s.readVals (.fenceA f) c k t f
      match s.pageFor c k t (v.a.v.toNat % 2 ^ 57) 0 with
      | .parked p => p
      | _ => s.fenced c k true (fun s => (s.readVals (.fenceA f) c k t f).2.finish c k))

/-! ### Progress of loads and atomics at the home slice -/

/-- The granule frame of a covered region is retiring (R76, R79). -/
def State.retired (s : State) (pa : Nat) : Bool :=
  (s.die (pa / 2 ^ 38)).frees.any (fun f => f.retired && !f.done && f.frame = pa / 4096)

/-- Where an access of an operation goes: through the translation cache, or to the physical address a view gave it. -/
def State.placeOf (s : State) (c : Nat) (o : Op) (a : Access) (acc : Nat) : Option Tr :=
  if o.space = .view then some ⟨a.addr, viewLeaf o.seg, 5⟩ else s.lookup (c / 8) a.addr acc

/-- The first access not yet performed, with its index. -/
def Op.pendingAcc (o : Op) : Option (Nat × Access) :=
  (o.acc.zipIdx.find? (fun p => !p.1.done && p.1.refuse = 0)).map (fun p => (p.2, p.1))

/-- The operation with access `j` performed, or refused; its request is no longer outstanding. -/
def Op.perform (o : Op) (j : Nat) (v : TWord) : Op :=
  { o with sent := false, acc := setNth o.acc j { nthD o.acc j (Access.at 0 0 v) with val := v, done := true } }
def Op.refuse (o : Op) (j code cause : Nat) : Op :=
  { o with sent := false, acc := setNth o.acc j { nthD o.acc j (Access.at 0 0 TWord.zero) with refuse := code, cause := cause } }

/-! ### The order of a thread's accesses (R252, R254, R255, R62) -/

/-- Two ranges of bytes touch a common 8-byte word. -/
def sameWord (a n b m : Nat) : Bool := a / 8 ≤ (b + m - 1) / 8 && b / 8 ≤ (a + n - 1) / 8

/-- Accesses of two operations touch a common word; where one is not yet translated, they may. -/
def State.clash (s : State) (c : Nat) (o : Op) (a : Access) (p : Op) (b : Access) : Bool :=
  if o.space = .loc || p.space = .loc then
    o.space = p.space && a.core = b.core && sameWord a.addr a.size b.addr b.size
  else
    match s.placeOf c o a 0, s.placeOf c p b 0 with
    | some x, some y => sameWord x.pa a.size y.pa b.size
    | _, _ => sameWord (a.addr % 4096) a.size (b.addr % 4096) b.size

/-- An access is of the ordered kind: to a page, region or core of die scope with hardware coherence (R254, R109, R89); one
that is not yet translated counts as ordered. -/
def State.ordered (s : State) (c : Nat) (o : Op) (a : Access) : Bool :=
  match o.space with
  | .loc => dieOf (a.core / 8) = dieOf (c / 8)
  | .view => dieScope o.seg false false
  | _ =>
    match s.lookup (c / 8) a.addr 0 with
    | some tr => dieScope (Leaf.sh tr.leaf) (Leaf.cm tr.leaf) (Leaf.h tr.leaf)
    | none => true

/-- An operation that loads, for the order of loads: an atomic is ordered as a store (R65). -/
def Op.orderedLoad (o : Op) : Bool := o.kind = .load || o.kind = .loadAcq || o.kind = .saread || o.kind = .bpack

/-- An older operation of the thread must be performed before access `a` of load `o`: an acquiring one, one with a common
word, and between accesses of the ordered kind an older load. -/
def State.mustFollow (s : State) (c : Nat) (t : Thread) (o : Op) (a : Access) : Bool :=
  t.ops.any (fun p => p.id < o.id && !p.ended && p.kind ≠ .pref
    && (p.acq || p.acc.any (fun b => !b.done && b.refuse = 0
        && (s.clash c o a p b || (p.orderedLoad && s.ordered c p b && s.ordered c o a)))))

/-! ### The way of a read to where it is served -/

/-- The line of a module- or system-scope page is readable by a core's cluster; otherwise ask for it (R93, R94). -/
def State.readable (s : State) (cl line : Nat) : Bool :=
  if cl = s.homeOf line then
    match s.dirOf line with
    | some (.owned o) => o = cl
    | some (.recalling _ _ _) => false
    | _ => true
  else (s.copy? line cl).isSome

/-- A request for the line is under way: to the home, at it, or answered by a grant. -/
def State.asked (s : State) (cl line : Nat) (write : Bool) : Bool :=
  s.due.any (fun e => (e.ev = (if write then .getm else .gets) || (write && e.ev = .ownershipGrant)) && e.arg.nums = [cl, line])
    || (SMap.get s.dirq line []).any (fun r => r.cl = cl && r.write = write)
    || (match s.dirOf line with
        | some (.recalling _ c w) => c = cl && w = write
        | some (.waiting _ w _) => write && w = cl
        | _ => false)

/-- Ask the home for a line, or for its ownership, unless that is under way. The request carries the page's leaf, by which its
arrival is counted (R58); one of the home's own cluster is counted as the access itself. -/
def State.askGetS (s : State) (cl line : Nat) (leaf : Word) : State :=
  if s.asked cl line false then s
  else s.post [⟨.gets, ⟨[cl, line], [⟨if cl = s.homeOf line then 0 else leaf, false⟩]⟩⟩]
def State.askGetM (s : State) (cl line : Nat) (leaf : Word) : State :=
  if s.asked cl line true then s
  else s.post [⟨.getm, ⟨[cl, line], [⟨if cl = s.homeOf line then 0 else leaf, false⟩]⟩⟩]

/-- What an access finds at the home: it may be performed now, or it waits. -/
inductive AtHome where
  | now (s : State)
  | later (s : State)

/-- The page's lines are held outside their home by the directory's rules (R93): of module or system scope, ordinary, with
hardware coherence. -/
def moduleLeaf (leaf : Word) : Bool := 3 ≤ Leaf.sh leaf && !Leaf.cm leaf && Leaf.cl leaf = 0

/-- The way of a read of `n` bytes for core `c` to where it is served: residency, the host halves (both where a line is filled
outside its home: R97), the directory. -/
def State.reach (s : State) (c : Nat) (tr : Tr) (n : Nat) : AtHome :=
  let line := tr.pa / 128
  let fill := Leaf.sw tr.leaf || (moduleLeaf tr.leaf && c / 8 ≠ s.homeOf line)
  let a := if fill then 128 * line else tr.pa
  let n := if fill then 128 else n
  if Leaf.h tr.leaf then
    if !s.halvesHeld a n false then .later (s.needHalves a n false)
    else if moduleLeaf tr.leaf && !s.readable (c / 8) line then .later (s.askGetS (c / 8) line tr.leaf)
    else .now s
  else
    match s.needLine line with
    | some s => .later s
    | none => if moduleLeaf tr.leaf && !s.readable (c / 8) line then .later (s.askGetS (c / 8) line tr.leaf) else .now s

/-- The word is registered to a core other than `c` (R92). -/
def State.elsewhere (s : State) (c w : Nat) : Bool :=
  match SMap.get? s.regw w with
  | some r => r.core ≠ c
  | none => false

/-- A recall of the word is pending (R92). -/
def State.recalling (s : State) (w : Nat) : Bool :=
  match SMap.get? s.regw w with
  | some r => r.asker.isSome
  | none => false

/-- After a change of an operation: ask again while something is left, complete when all is done, trap when refused. -/
def State.opNext (s : State) (c k : Nat) (o : Op) : State :=
  let s := s.modThread c k (fun t => t.setOp o)
  if o.refusal.isSome then s.post [evt .deferredTrap [c, k, o.id]]
  else if o.ended then s.post [evt .longLatencyComplete [c, k, o.id]]
  else s.post [evt .l2Request [c, k, o.id]]

/-- The access is answered within the cluster, so that no request leaves its port: from the core's own buffers, from a copy of
a SW page's line (R101), or from the cluster's copy of a line of module or system scope (R93). -/
def State.servedHere (s : State) (c k : Nat) (o : Op) (tr : Tr) (size : Nat) : Bool :=
  s.allForwarded c k o.id tr.pa size
    || (Leaf.sw tr.leaf && !s.swMiss c (tr.pa / 128))
    || (moduleLeaf tr.leaf && (s.copy? (tr.pa / 128) (c / 8)).isSome)

/-- A deterministic add is pending in the bytes [a, a + n) (R301). -/
def State.addsDue (s : State) (a n : Nat) : Bool := s.addl.any (fun p => !p.2.items.isEmpty && sameWord (8 * p.1) 8 a n)

/-- A line of a page whose lines may stand in a core's CACHE banks enters those of core `c` (R90, R97): a host line when both
its halves are valid. -/
def State.cacheLine (s : State) (c : Nat) (tr : Tr) : State :=
  let line := tr.pa / 128
  if Leaf.sw tr.leaf then s.fillSw c line
  else if moduleLeaf tr.leaf && (!Leaf.h tr.leaf || s.halvesHeld (128 * line) 128 false) then s.fillBanks c line false
  else s

/-- Perform an access of a load: the value it gets; a demand access at the port (R123). -/
def State.loadNow (s : State) (c k j : Nat) (o : Op) (a : Access) (tr : Tr) : State :=
  let s := if o.space = .glob then s.demand (c / 8) a.addr else s
  let v := s.loadItem c k o.id tr a.size
  s.opNext c k (o.perform j (if Leaf.cl tr.leaf = 3 then { v with t := true } else v))

/-- A load's access reaches its home slice, with the request outstanding at the port. `fwd` says that the registrant answers. -/
def State.loadAtHome (s : State) (c k j : Nat) (t : Thread) (o : Op) (a : Access) (tr : Tr) (fwd : Bool) : State :=
  let o := { o with sent := true }
  let s := s.modThread c k (fun t => t.setOp o)
  match s.reach c tr a.size with
  | .later s => s.post [evt .l2Request [c, k, o.id]]
  | .now s =>
    if s.recalling (tr.pa / 8) || (s.addsDue tr.pa a.size && s.lineBusy (tr.pa / 128)) then s.post [evt .l2Request [c, k, o.id]]
    else if !fwd && s.elsewhere c (tr.pa / 8) then s.post [evt .forwardedLoad [c, k, o.id]]
    else
      let s := ((s.applyAdds tr.pa a.size).countHot (c / 8) t.tenant tr.leaf).touchLine (tr.pa / 128)
      (s.cacheLine c tr).loadNow c k j o a tr

/-- Perform the next access of a global load (R61). -/
def State.loadProgress (s : State) (c k : Nat) (t : Thread) (o : Op) (fwd : Bool) : State :=
  match o.pendingAcc with
  | none => s.opNext c k o
  | some (j, a) =>
    if s.mustFollow c t o a then s.post [evt .l2Request [c, k, o.id]]
    else
      match s.placeOf c o a 0 with
      | none => (s.startWalk t.tenant 0 c k a.addr 0).post [evt .l2Request [c, k, o.id]]
      | some tr =>
        let size := match o.ins with
          | .vldg _ => 64
          | _ => a.size
        if o.space = .view && s.retired tr.pa then s.opNext c k (o.refuse j tWIDEN 0)
        else if loadRefusal tr size ≠ 0 then s.opNext c k (o.refuse j tSYNCMISUSE (loadRefusal tr size))
        else if s.poisoned tr.pa then s.opNext c k (o.refuse j tPOISON 0)
        else if s.servedHere c k o tr a.size && !s.addsDue tr.pa a.size then s.loadNow c k j o a tr
        else if !o.sent && s.portFull (c / 8) then s.post [evt .l2Request [c, k, o.id]]
        else s.loadAtHome c k j t o a tr fwd

/-! ### Atomics (R65, R301, R302) -/

/-- Fields that name nothing. -/
def noFields : Fields := ⟨0, 0, 0, false, false, false, false, 0, 0, 0, 0, 0⟩

/-- An atomic on its way: translated, and into the store buffer behind the thread's earlier stores, where it waits for its
turn (R254, R261). -/
def State.amoProgress (s : State) (c k : Nat) (t : Thread) (o : Op) : State :=
  match o.pendingAcc with
  | none => s.opNext c k o
  | some (j, a) =>
    if o.sent then s
    else if t.ops.any (fun x => x.unentered && x.id < o.id) then s.post [evt .l2Request [c, k, o.id]]
    else
      match s.tryStore c k t o a with
      | .wait s => s.post [evt .l2Request [c, k, o.id]]
      | .refused code cause => s.opNext c k (o.refuse j code cause)
      | .entered s => s.modThread c k (fun t => t.setOp { o with sent := true })

/-- The instruction AMOFADD. -/
def isFadd (i : Instr) : Bool :=
  match i with
  | .amofadd _ => true
  | _ => false

/-- The atomic of thread `t` adds inside its launch's deterministic domain: the word belongs to no other launch's (R301,
R302). -/
def State.inDomain (s : State) (t : Thread) (o : Op) (pa : Nat) : Bool :=
  isFadd o.ins && taskDet t.task
    && (match SMap.get? s.addl (pa / 8) with
        | some l => l.tenant = t.tenant && l.launch = taskLaunch t.task
        | none => true)

/-- A contribution joins the pending list of its word (R301): +0 is returned; the taints of address and operand reach the word. -/
def State.amoAppend (s : State) (c k j : Nat) (t : Thread) (o : Op) (a : Access) (tr : Tr) : State :=
  let b := nthD o.data 0 TWord.zero
  let l := SMap.get s.addl (tr.pa / 8) ⟨t.tenant, taskLaunch t.task, []⟩
  let x : AddItem := ⟨o.lane, o.seq, tr.pa % 8, a.size, b.v.toNat % 2 ^ (8 * a.size)⟩
  let s := { s with addl := SMap.set s.addl (tr.pa / 8) { l with items := insertAdd l.items x } }
  let s := if b.t || o.ataint then s.writeHome (Leaf.sw tr.leaf) tr.pa a.size ⟨(s.readHome (Leaf.sw tr.leaf) tr.pa a.size).v, true⟩ else s
  s.opNext c k (o.perform j TWord.zero)

/-- The read, the computation and the write of an atomic, in one step. -/
def State.amoApply (s : State) (c k j : Nat) (t : Thread) (o : Op) (a : Access) (tr : Tr) : State :=
  let b := nthD o.data 0 TWord.zero
  let d := nthD o.data 1 TWord.zero
  let w := 2 ^ (8 * a.size)
  let old := s.readHome (Leaf.sw tr.leaf) tr.pa a.size
  let v := amoValue o.ins ((o.ins.fields).getD noFields) a.size old.v.toNat (b.v.toNat % w) (d.v.toNat % w)
  let cur := if Leaf.sw tr.leaf then s.mem.word (tr.pa / 8) else s.curWord (tr.pa / 8)
  let new := s.entryStore t.tenant (tr.pa / 8 * 8) cur
    (storeInto cur (tr.pa % 8) a.size ⟨w64 v, old.t || b.t || o.ataint || isFadd o.ins⟩)
  let s := s.writeHome (Leaf.sw tr.leaf) (tr.pa / 8 * 8) 8 new
  let s := if Leaf.h tr.leaf then s.dirtyHalves tr.pa a.size else s
  s.opNext c k (o.perform j ⟨old.v, old.t || o.ataint || isFadd o.ins⟩)

/-- An atomic is performed at its home slice, past every wait (R65): refused on a poisoned line and by the taint trap (R304);
else the pending adds of its word are applied first, unless it adds inside their domain. -/
def State.amoAtHome (s : State) (c k j : Nat) (t : Thread) (o : Op) (a : Access) (tr : Tr) : State :=
  let s := ((s.countHot (c / 8) t.tenant tr.leaf).demand (c / 8) a.addr).pokeRings t.tenant (tr.pa / 128)
  let s := s.touchLine (tr.pa / 128)
  let inside := s.inDomain t o tr.pa
  let s := if inside then s else s.applyAdds tr.pa a.size
  let tn := (s.readHome (Leaf.sw tr.leaf) tr.pa a.size).t || (nthD o.data 0 TWord.zero).t || o.ataint || (isFadd o.ins && !inside)
  if s.taintTrap t.tenant t.task tn then s.opNext c k (o.refuse j tTAINT 0)
  else if inside then s.amoAppend c k j t o a tr
  else s.amoApply c k j t o a tr

/-! ### Prefetches (R64) -/

/-- A prefetch at its port: it completes when the port accepts its request, and does nothing for an unmapped page, a STREAM
page, a private SYNC word, a poisoned line, or when all requests of the port are in use. -/
def State.prefetch (s : State) (c k : Nat) (t : Thread) (o : Op) : State :=
  let a := nthD o.acc 0 (Access.at 0 0 TWord.zero)
  let done := fun (s : State) => s.modThread c k (fun t => t.dropOp o.id)
  let lvl1 : Bool := match o.ins with
    | .pref f => f.d = 1
    | _ => false
  if a.refuse ≠ 0 then done s
  else
    match s.lookup (c / 8) a.addr 6 with
    | none => (s.startWalk t.tenant 0 c k a.addr 6).post [evt .l2Request [c, k, o.id]]
    | some tr =>
      if loadRefusal tr 1 ≠ 0 || s.poisoned tr.pa || s.portFull (c / 8) then done s
      else (done s).post [⟨.l2Request, ⟨[c, 64, tr.pa, lvl1.toNat], [⟨tr.leaf, false⟩]⟩⟩]

/-- The request of a prefetch (slot 64 of L2_REQUEST): the line becomes resident in its home slice and, with lvl 1, enters the
core's banks where they may hold it. -/
def State.prefetchLine (s : State) (c pa : Nat) (lvl1 : Bool) (leaf : Word) : State :=
  let line := pa / 128
  let far := lvl1 && (s.core c).hasCache && moduleLeaf leaf && c / 8 ≠ s.homeOf line
  let tr : Tr := ⟨128 * line, if far || (lvl1 && (s.core c).hasCache) then leaf else leaf &&& ~~~(w64 (7 * 2 ^ 58 + 2 ^ 55)), 5⟩
  match s.reach c tr 128 with
  | .later s => s.again .l2Request
  | .now s =>
    if s.poisoned pa then s
    else
      let near := far || (lvl1 && Leaf.sw leaf && !s.swMiss c line)
      let s := (if near then s else s.countHot (c / 8) (s.tenantOf pa) leaf).touchLine line
      if lvl1 && (s.core c).hasCache then s.cacheLine c tr else s

end Sys2Proof.Machine
end

