-- ==== Sys2Proof/Machine/Vector.lean ====
section
/-!
DEFINITION. Sys2Proof/Machine/Vector.lean: the vector and scalar floating-point arithmetic of page 1 (R158 to R168).
-/
namespace Sys2Proof.Machine
open Sys2Proof

/-! ### Lanes -/

/-- Lane `i`, of `w` bits, of a word. -/
def laneOf (w i x : Nat) : Nat := x / 2 ^ (w * i) % 2 ^ w

/-- A word whose lanes are `g 0`, `g 1`, …, with the flags of all of them. -/
def packLanes (w n : Nat) (g : Nat → FRes) : FRes :=
  match n with
  | 0 => (0, 0)
  | k + 1 =>
    let (r, fl) := packLanes w k g
    let (x, fx) := g k
    (r + x % 2 ^ w * 2 ^ (w * k), flOr fl fx)

/-- An operation lane by lane on one word of each of three groups. -/
def laneWord (w : Nat) (g : Nat → Nat → Nat → FRes) (d a b : Nat) : FRes :=
  packLanes w (64 / w) (fun i => g (laneOf w i d) (laneOf w i a) (laneOf w i b))

/-- The words of a group, and lane `i` of the whole group. -/
def groupLane (w : Nat) (ws : List TWord) (i : Nat) : Nat :=
  laneOf w (i % (64 / w)) (nthD ws (i / (64 / w)) TWord.zero).v.toNat

/-- The OR of the taints of a group. -/
def anyTaint (ws : List TWord) : Bool := ws.any (fun w => w.t)

/-- Write a vector group, raise flags and move on. -/
def State.finishVec (s : State) (c k : Nat) (t : Thread) (d : Nat) (ws : List TWord) (fl : Nat) : State :=
  ((s.setGs c t d ws).raiseFlags c k t.pc 0 fl).finish c k

/-- A lane-wise instruction (R158): register j of the result carries the OR of the taints of register j of the groups it
reads; `useD` says that vd is read although there is a third operand. -/
def lanewise (i : Instr) (f : Fields) (s : State) (w : Nat) (useD : Bool) (g : Nat → Nat → Nat → FRes) : Out :=
  issue i s (fun c k t s =>
    let d := s.getGs c t f.d 8
    let a := s.getGs c t f.a 8
    let b := if f.three then s.getGs c t f.b 8 else List.replicate 8 TWord.zero
    let rs := (List.range 8).map (fun j =>
      let x := nthD d j TWord.zero
      let y := nthD a j TWord.zero
      let z := nthD b j TWord.zero
      let r := laneWord w g x.v.toNat y.v.toNat z.v.toNat
      ((⟨w64 r.1, y.t || (useD && x.t) || (f.three && z.t)⟩ : TWord), r.2))
    s.finishVec c k t f.d (rs.map Prod.fst) (rs.foldl (fun m r => flOr m r.2) 0))

/-- The first and second operand of a two- or three-address form (R162). -/
def binary (f : Fields) (g : Nat → Nat → FRes) : Nat → Nat → Nat → FRes :=
  fun d a b => if f.three then g a b else g d a

/-- A two- or three-address lane-wise operation on elements of the modifiers' type. -/
def vec2 (i : Instr) (f : Fields) (s : State) (g : Nat → Nat → FRes) : Out :=
  lanewise i f s (tyBits f.hi) (!f.three) (binary f g)

/-- A one-source lane-wise operation. -/
def vec1 (i : Instr) (f : Fields) (s : State) (g : Nat → FRes) : Out :=
  lanewise i f s (tyBits f.hi) false (fun _ a _ => g a)

/-! ### Lane-wise operations (R162, R163, R164) -/

def execVadd (f : Fields) (s : State) : Out := vec2 (.vadd f) f s (addE f.hi f.lo)
def execVsub (f : Fields) (s : State) : Out := vec2 (.vsub f) f s (subE f.hi f.lo)
def execVmul (f : Fields) (s : State) : Out := vec2 (.vmul f) f s (mulE f.hi f.lo)
/-- VFMA: va·vb + vd, one rounding. -/
def execVfma (f : Fields) (s : State) : Out :=
  lanewise (.vfma f) f s (tyBits f.hi) true (fun d a b => fmaE f.hi f.lo a b d)
def execVmin (f : Fields) (s : State) : Out := vec2 (.vmin f) f s (minE f.hi)
def execVmax (f : Fields) (s : State) : Out := vec2 (.vmax f) f s (maxE f.hi)
def execVabs (f : Fields) (s : State) : Out := vec1 (.vabs f) f s (absE f.hi)
def execVneg (f : Fields) (s : State) : Out := vec1 (.vneg f) f s (negE f.hi)
def execVrcp (f : Fields) (s : State) : Out := vec1 (.vrcp f) f s (rcpF (tyFmt f.hi) f.lo)
def execVrsq (f : Fields) (s : State) : Out := vec1 (.vrsq f) f s (rsqF (tyFmt f.hi) f.lo)
def execVexp2 (f : Fields) (s : State) : Out := vec1 (.vexp2 f) f s (exp2F (tyFmt f.hi) f.lo)
def execVlog2 (f : Fields) (s : State) : Out := vec1 (.vlog2 f) f s (logF (tyFmt f.hi) f.lo)
def execVscale (f : Fields) (s : State) : Out := vec2 (.vscale f) f s (scaleE f.hi f.lo)
/-- VCLAMP: Min(Max(vd, va), vb). -/
def execVclamp (f : Fields) (s : State) : Out :=
  lanewise (.vclamp f) f s (tyBits f.hi) true (fun d a b => clampE f.hi d a b)
def execVshl (f : Fields) (s : State) : Out := vec2 (.vshl f) f s (shlE f.hi)
def execVshr (f : Fields) (s : State) : Out := vec2 (.vshr f) f s (sarE f.hi)

/-- The bitwise forms, over all 512 bits. -/
def execVand (f : Fields) (s : State) : Out :=
  lanewise (.vand f) f s 64 (!f.three) (binary f (fun x y => (Nat.land x y, 0)))
def execVor (f : Fields) (s : State) : Out :=
  lanewise (.vor f) f s 64 (!f.three) (binary f (fun x y => (Nat.lor x y, 0)))
def execVxor (f : Fields) (s : State) : Out :=
  lanewise (.vxor f) f s 64 (!f.three) (binary f (fun x y => (Nat.xor x y, 0)))

/-- VCMP: all ones where the predicate holds (R163). -/
def execVcmp (f : Fields) (s : State) : Out :=
  lanewise (.vcmp f) f s (tyBits f.hi) false (fun _ a b =>
    let r := cmpE f.hi f.fx a b
    (if r.1 then 2 ^ tyBits f.hi - 1 else 0, r.2))

/-- VSEL: va where vd is not zero, else vb. -/
def execVsel (f : Fields) (s : State) : Out :=
  lanewise (.vsel f) f s (tyBits f.hi) true (fun d a b => (if d ≠ 0 then a else b, 0))

/-! ### Conversion, reductions, permutation (R165 to R167) -/

/-- VCVT: lane i of va to lane i of vd for the first M lanes, zero above (R165); a register takes the taints of the
registers that hold its source lanes. -/
def execVcvt (f : Fields) (s : State) : Out :=
  issue (.vcvt f) s (fun c k t s =>
    let a := s.getGs c t f.a 8
    let w := tyBits f.hi
    let ws := tyBits f.fx
    let m := min (512 / w) (512 / ws)
    let per := 64 / w
    let rs := (List.range 8).map (fun j =>
      let r := packLanes w per (fun i =>
        if per * j + i < m then convE f.hi f.lo f.fx (groupLane ws a (per * j + i)) else (0, 0))
      let tn := (List.range per).any (fun i =>
        per * j + i < m && (nthD a ((per * j + i) / (64 / ws)) TWord.zero).t)
      ((⟨w64 r.1, tn⟩ : TWord), r.2))
    s.finishVec c k t f.d (rs.map Prod.fst) (rs.foldl (fun m r => flOr m r.2) 0))

/-- One level of the reduction tree: neighbours combined in pairs. -/
def treeLevel (op : Nat → Nat → FRes) (l : List Nat) : List Nat × Nat :=
  match l with
  | x :: y :: r =>
    let (z, fl) := op x y
    let (rest, fr) := treeLevel op r
    (z :: rest, flOr fl fr)
  | l => (l, 0)

/-- The fixed binary tree over 2^levels lanes (R166). -/
def treeReduce (op : Nat → Nat → FRes) (levels : Nat) (l : List Nat) : FRes :=
  match levels with
  | 0 => (nthD l 0 0, 0)
  | n + 1 =>
    let (l', fl) := treeLevel op l
    let (r, fr) := treeReduce op n l'
    (r, flOr fl fr)

/-- The lanes of a group in ascending order. -/
def allLanes (w : Nat) (ws : List TWord) : List Nat := (List.range (512 / w)).map (groupLane w ws)

/-- An element result in a general register: sign-extended for an integer type, zero-extended otherwise (R166, R168). -/
def elemWord (ty x : Nat) : Word := if tyInt ty then w64i (sgn (tyBits ty) x) else w64 (x % 2 ^ tyBits ty)

def execVradd (f : Fields) (s : State) : Out :=
  issue (.vradd f) s (fun c k t s =>
    let a := s.getGs c t f.a 8
    let l := allLanes (tyBits f.hi) a
    let (v, fl) :=
      if tyInt f.hi then (w64i ((l.map (sgn (tyBits f.hi))).sum), 0)
      else
        let r := treeReduce (addF (tyFmt f.hi) f.lo) 6 l
        (w64 r.1, r.2)
    ((s.writeD c k t f ⟨v, anyTaint a⟩).raiseFlags c k t.pc 0 fl).finish c k)

def execVrmax (f : Fields) (s : State) : Out :=
  issue (.vrmax f) s (fun c k t s =>
    let a := s.getGs c t f.a 8
    let r := treeReduce (maxE f.hi) 6 (allLanes (tyBits f.hi) a)
    ((s.writeD c k t f ⟨elemWord f.hi r.1, anyTaint a⟩).raiseFlags c k t.pc 0 r.2).finish c k)

/-- VPERM: lane i takes the lane of va that lane i of vb names, modulo N. -/
def execVperm (f : Fields) (s : State) : Out :=
  issue (.vperm f) s (fun c k t s =>
    let a := s.getGs c t f.a 8
    let b := s.getGs c t f.b 8
    let w := tyBits f.hi
    let tn := anyTaint a || anyTaint b
    let ws := (List.range 8).map (fun j =>
      (⟨w64 (packLanes w (64 / w) (fun i => (groupLane w a (groupLane w b (64 / w * j + i) % (512 / w)), 0))).1, tn⟩ : TWord))
    s.finishVec c k t f.d ws 0)

def execVbcst (f : Fields) (s : State) : Out :=
  issue (.vbcst f) s (fun c k t s =>
    let (v, s) := s.readVals (.vbcst f) c k t f
    let w := tyBits f.hi
    let x := (packLanes w (64 / w) (fun _ => (v.a.v.toNat % 2 ^ w, 0))).1
    s.finishVec c k t f.d (List.replicate 8 ⟨w64 x, v.a.t⟩) 0)

def execVlane (f : Fields) (s : State) : Out :=
  issue (.vlane f) s (fun c k t s =>
    let a := s.getGs c t f.a 8
    (s.writeD c k t f ⟨elemWord f.hi (groupLane (tyBits f.hi) a f.imm.toNat), anyTaint a⟩).finish c k)

/-! ### The scalar F forms (R168) -/

/-- An F form: the low element of each register, the flags, the result in gd. -/
def scalarF (i : Instr) (f : Fields) (s : State) (useD useB : Bool) (g : Nat → Nat → Nat → FRes) : Out :=
  issue i s (fun c k t s =>
    let (v, s) := s.readVals i c k t f
    let r := g v.d.v.toNat v.a.v.toNat v.b.v.toNat
    ((s.writeD c k t f ⟨elemWord f.hi r.1, v.a.t || (useD && v.d.t) || (useB && v.b.t)⟩).raiseFlags c k t.pc 0 r.2).finish
      c k)

/-- The low element of a register. -/
def lowE (ty x : Nat) : Nat := x % 2 ^ tyBits ty

def scalar2 (i : Instr) (f : Fields) (s : State) (g : Nat → Nat → FRes) : Out :=
  scalarF i f s (!f.three) f.three (fun d a b =>
    if f.three then g (lowE f.hi a) (lowE f.hi b) else g (lowE f.hi d) (lowE f.hi a))

def execFadd (f : Fields) (s : State) : Out := scalar2 (.fadd f) f s (addE f.hi f.lo)
def execFsub (f : Fields) (s : State) : Out := scalar2 (.fsub f) f s (subE f.hi f.lo)
def execFmul (f : Fields) (s : State) : Out := scalar2 (.fmul f) f s (mulE f.hi f.lo)
/-- FFMA: g[a]·g[b] + g[d]. -/
def execFfma (f : Fields) (s : State) : Out :=
  scalarF (.ffma f) f s true true (fun d a b => fmaE f.hi f.lo (lowE f.hi a) (lowE f.hi b) (lowE f.hi d))
def execFmin (f : Fields) (s : State) : Out := scalar2 (.fmin f) f s (minE f.hi)
def execFmax (f : Fields) (s : State) : Out := scalar2 (.fmax f) f s (maxE f.hi)
def execFrcp (f : Fields) (s : State) : Out :=
  scalarF (.frcp f) f s false false (fun _ a _ => rcpF (tyFmt f.hi) f.lo (lowE f.hi a))
def execFrsq (f : Fields) (s : State) : Out :=
  scalarF (.frsq f) f s false false (fun _ a _ => rsqF (tyFmt f.hi) f.lo (lowE f.hi a))

/-- FCMP: 1 or 0 under the rules of VCMP. -/
def execFcmp (f : Fields) (s : State) : Out :=
  issue (.fcmp f) s (fun c k t s =>
    let (v, s) := s.readVals (.fcmp f) c k t f
    let r := cmpE f.hi f.fx (lowE f.hi v.a.v.toNat) (lowE f.hi v.b.v.toNat)
    ((s.writeD c k t f ⟨bitW r.1, v.a.t || v.b.t⟩).raiseFlags c k t.pc 0 r.2).finish c k)

/-- FCVT: from the type fx to the type of the modifiers. -/
def execFcvt (f : Fields) (s : State) : Out :=
  scalarF (.fcvt f) f s false false (fun _ a _ => convE f.hi f.lo f.fx (lowE f.fx a))

end Sys2Proof.Machine
end

