-- ==== Sys2Proof/Machine/LocalMem.lean ====
section
/-!
DEFINITION. Sys2Proof/Machine/LocalMem.lean: local loads and stores (R109, R110, R136), vector loads and stores (R169,
R170), and what a completed operation writes.
-/
namespace Sys2Proof.Machine
open Sys2Proof

/-- The pointer register a field names. -/
def Thread.ptr (t : Thread) (n : Nat) : TWord := nthD t.ptrs n TWord.zero

/-- Move a pointer at issue (R134, R136). -/
def State.advPtr (s : State) (c k n : Nat) (by_ : Int) : State :=
  s.modThread c k (fun t =>
    let p := t.ptr n
    { t with ptrs := setNth t.ptrs n { p with v := advancePtr p.v by_ } })

/-- An instruction with one local operand, checked by MemL; it waits while the target's window is changing (R111). -/
def localOp (i : Instr) (f : Fields) (s : State) (size : Nat)
    (body : Nat → Nat → Thread → TWord → Nat → Nat → State → State) : Out :=
  issue i s (fun c k t s =>
    let p := t.ptr f.a
    match s.memLAt t p.v size with
    | .error (code, addr, aux) => s.raise c k code addr aux
    | .ok (tc, off) =>
      if (s.core tc).shut then s.park c k (.pool tc) else body c k t p tc off s)

def loadLocal (i : Instr) (f : Fields) (s : State) (post : Bool) : Out :=
  localOp i f s (sizeBytes f.lo) (fun c k t p tc off s =>
    let s := s.finish c k
    let s := if post then s.advPtr c k f.a (sizeBytes f.lo) else s
    let (o, s) := s.addOp c k
      { Op.new i t .load .loc f.la with
        off := off, acc := [{ Access.at off (sizeBytes f.lo) TWord.zero with core := tc }], pend := Fields.pendD f,
        ataint := p.t }
    s.post [evt .longLatencyComplete [c, k, o]])

def storeLocalOp (i : Instr) (f : Fields) (s : State) (post : Bool) : Out :=
  localOp i f s (sizeBytes f.lo) (fun c k t p tc off s =>
    let (v, s) := s.readVals i c k t f
    let s := s.finish c k
    let s := if post then s.advPtr c k f.a (sizeBytes f.lo) else s
    s.startOp c k
      { Op.new i t .store .loc f.la with
        off := off, acc := [{ Access.at off (sizeBytes f.lo) ⟨v.d.v, v.d.t || p.t⟩ with core := tc }], ataint := p.t })

def execLdl (f : Fields) (s : State) : Out := loadLocal (.ldl f) f s false
def execStl (f : Fields) (s : State) : Out := storeLocalOp (.stl f) f s false
def execLdlp (f : Fields) (s : State) : Out := loadLocal (.ldlp f) f s true
def execStlp (f : Fields) (s : State) : Out := storeLocalOp (.stlp f) f s true

/-! ### Vector blocks (R169) -/

/-- The registers of a vector group. -/
def groupRegs (d : Nat) : List Nat := (List.range 8).map (fun j => d + j)

/-- Eight accesses of a 64-byte block. -/
def blockAcc (a core : Nat) : List Access :=
  (List.range 8).map (fun j => { Access.at (a + 8 * j) 8 TWord.zero with core := core })

def execVldl (f : Fields) (s : State) : Out :=
  localOp (.vldl f) f s 64 (fun c k t p tc off s =>
    let (o, s) := (s.finish c k).addOp c k
      { Op.new (.vldl f) t .load .loc f.la with
        off := off, acc := blockAcc off tc, pend := groupRegs f.d, ataint := p.t }
    s.post [evt .longLatencyComplete [c, k, o]])

/-- The words of a vector store, each with the taint of the address register. -/
def storeWords (ws : List TWord) (t : Bool) : List TWord := ws.map (fun w => { w with t := w.t || t })

def execVstl (f : Fields) (s : State) : Out :=
  localOp (.vstl f) f s 64 (fun c k t p tc off s =>
    let ws := s.getGs c t f.d 8
    (s.finish c k).startOp c k
      { Op.new (.vstl f) t .store .loc f.la with
        off := off, acc := [{ Access.at off 64 TWord.zero with core := tc }], data := storeWords ws p.t, ataint := p.t })

def execVldg (f : Fields) (s : State) : Out :=
  globalOp (.vldg f) f s 64 'R' (fun c k t a off s =>
    (s.finish c k).startOp c k
      { Op.new (.vldg f) t .load .glob f.la with
        seg := f.hi, off := off, acc := blockAcc (vaOf t f.hi off) 0, pend := groupRegs f.d, ataint := a.t })

def execVstg (f : Fields) (s : State) : Out :=
  globalOp (.vstg f) f s 64 'W' (fun c k t a off s =>
    let ws := s.getGs c t f.d 8
    (s.finish c k).startOp c k
      { Op.new (.vstg f) t .store .glob f.la with
        seg := f.hi, off := off, acc := [Access.at (vaOf t f.hi off) 64 TWord.zero], data := storeWords ws a.t,
        ataint := a.t })

/-! ### Gather and scatter (R170) -/

/-- The offsets of the lanes. -/
def laneOffs (f : Fields) (base : Word) (vb : List TWord) : List Nat :=
  let w := 8 * sizeBytes f.lo
  (List.range (512 / w)).map (fun i => (base + w64 (groupLane w vb i)).toNat)

/-- The first lane whose check fails. -/
def firstFail (t : Thread) (sn size : Nat) (r : Char) (offs : List Nat) : Option (Nat × Word × Word) :=
  offs.findSome? (fun off => memG t sn off size r)

/-- An instruction of gathered or scattered lanes: all checks are made at issue, the first failure traps. -/
def lanesOp (i : Instr) (f : Fields) (s : State) (r : Char)
    (body : Nat → Nat → Thread → TWord → List TWord → List Nat → State → State) : Out :=
  issue i s (fun c k t s =>
    let a := s.getG c t f.a
    let vb := s.getGs c t f.b 8
    let offs := laneOffs f a.v vb
    match firstFail t f.hi (sizeBytes f.lo) r offs with
    | some (code, addr, aux) => s.raise c k code addr aux
    | none => body c k t a vb offs s)

def execVgath (f : Fields) (s : State) : Out :=
  lanesOp (.vgath f) f s 'R' (fun c k t a vb offs s =>
    (s.finish c k).startOp c k
      { Op.new (.vgath f) t .load .glob f.la with
        seg := f.hi, off := nthD offs 0 0,
        acc := offs.map (fun o => Access.at (vaOf t f.hi o) (sizeBytes f.lo) TWord.zero), pend := groupRegs f.d,
        ataint := a.t, data := vb })

def execVscat (f : Fields) (s : State) : Out :=
  lanesOp (.vscat f) f s 'W' (fun c k t a vb offs s =>
    let w := 8 * sizeBytes f.lo
    let vd := s.getGs c t f.d 8
    let lane := fun (i : Nat) =>
      (⟨w64 (groupLane w vd i), (nthD vd (i / (64 / w)) TWord.zero).t || (nthD vb (i / (64 / w)) TWord.zero).t || a.t⟩ : TWord)
    (s.finish c k).startOp c k
      { Op.new (.vscat f) t .store .glob f.la with
        seg := f.hi, off := nthD offs 0 0,
        acc := offs.zipIdx.map (fun p => Access.at (vaOf t f.hi p.1) (sizeBytes f.lo) (lane p.2)), ataint := a.t })

/-! ### What a completed operation writes -/

/-- The general registers and values an operation writes when it completes. -/
def Op.results (o : Op) : Option (Fields × List TWord) :=
  let one := fun (f : Fields) (v : TWord) => some (f, [v])
  let item := (nthD o.acc 0 (Access.at 0 0 TWord.zero)).val
  let loaded := fun (f : Fields) => one f ⟨extend f.lo item.v, item.t || o.ataint⟩
  let old := fun (f : Fields) => one f item
  match o.ins with
  | .ldg f => loaded f
  | .ldacq f => loaded f
  | .ldl f => loaded f
  | .ldlp f => loaded f
  | .ldv f => loaded f
  | .amoadd f => old f
  | .amoand f => old f
  | .amoor f => old f
  | .amoxor f => old f
  | .amomin f => old f
  | .amomax f => old f
  | .amoswap f => old f
  | .amocas f => old f
  | .amofadd f => old f
  | .vldl f => some (f, o.acc.map (fun a => ⟨a.val.v, a.val.t || o.ataint⟩))
  | .vldg f => some (f, o.acc.map (fun a => ⟨a.val.v, a.val.t || o.ataint⟩))
  | .vgath f =>
    let w := 8 * sizeBytes f.lo
    let per := 64 / w
    let lane := fun (i : Nat) => (nthD o.acc i (Access.at 0 0 TWord.zero)).val
    some (f, (List.range 8).map (fun j =>
      ⟨w64 (packLanes w per (fun i => ((lane (per * j + i)).v.toNat, 0))).1,
       o.ataint || (nthD o.data j TWord.zero).t || (List.range per).any (fun i => (lane (per * j + i)).t)⟩))
  | .saread f => if f.lo < 2 then some (f, o.data) else none
  | _ => none

/-- What writing the results of an operation gives. -/
inductive Written where
  | done (s : State)
  | wait
  | trap (code : Nat)

/-- Write the results of an operation. A queue push has held its credit, and a write of an mx register the register, since the
operation issued (R138); a stream write waits until the mesh accepts it. -/
def State.writeResults (s : State) (c k : Nat) (t : Thread) (o : Op) : Written :=
  match o.results with
  | none => .done s
  | some (f, vs) =>
    if f.sd then
      match (if f.d < 116 then s.writeReady t.tenant c k 1 f.d else .yes) with
      | .yes => .done (s.pushSpecial t.tenant c k f.d (nthD vs 0 TWord.zero))
      | .no => .wait
      | .trap code _ => .trap code
    else .done ((vs.zipIdx).foldl (fun s p => if o.pend.contains (f.d + p.2) then s.setG c t (f.d + p.2) p.1 else s) s)

/-- Whether an instruction loads, or stores, as a watchpoint sees it. -/
def Op.loads (o : Op) : Bool := o.kind ≠ .store && o.kind ≠ .pref
def Op.stores (o : Op) : Bool := o.kind = .amo

/-- Every watchpoint that a completed global operation meets; an access through a handle by its region offset. -/
def State.watchOp (s : State) (c k : Nat) (o : Op) : State :=
  match o.space with
  | .glob => o.acc.foldl (fun s a => s.watched c k a.addr a.size o.loads o.stores) s
  | .view => o.acc.foldl (fun s a => s.watched c k o.off a.size o.loads o.stores) s
  | _ => s

/-- Perform the accesses of a local load (R109, R110): forwarded from the core's store buffer, else from the target bank;
a poisoned line is refused. -/
def State.localLoads (s : State) (c k : Nat) (o : Op) : Op :=
  { o with acc := o.acc.map (fun a =>
      if a.done then a
      else if (s.core a.core).win.poisoned (a.addr / 128) then { a with refuse := tPOISON }
      else
        let w := s.forwarded c k o.id true a.core a.addr ((s.core a.core).win.word (a.addr / 8))
        { a with val := ⟨w64 (w.v.toNat / 2 ^ (8 * (a.addr % 8)) % 2 ^ (8 * a.size)), w.t⟩, done := true }) }

/-- The address TRAPADDR takes for a refused access: the virtual address of a global access, the offset of a local one. -/
def Op.faultAddr (o : Op) (a : Access) : Word :=
  if o.space = .view then w64 o.off else w64 a.addr

end Sys2Proof.Machine
end

