-- ==== Sys2Proof/Machine/Bfp.lean ====
section
/-!
DEFINITION. Sys2Proof/Machine/Bfp.lean: block floating point (R171 to R174): quantisation, panels and their planes; BPACK,
BUNPK, PLXP, PLDOT and MFMT (R175, R186 to R189).
-/
namespace Sys2Proof.Machine
open Sys2Proof

/-! ### Blocks (R171, R172) -/

/-- A block: its exponent byte and its mantissas. -/
abbrev Block := Nat × List Int

/-- A block of 64 zeros, and an invalid one. -/
def Block.zero : Block := (0, List.replicate 64 0)
def Block.invalid : Block := (255, List.replicate 64 0)

/-- One more than floor(log2 |v|) of a finite nonzero value; none for a zero. -/
def FVal.top (v : FVal) : Option Int :=
  match v with
  | .num _ m e => if m = 0 then none else some ((Nat.log2 m : Int) + e + 1)
  | _ => none

/-- A finite value. -/
def FVal.finite (v : FVal) : Bool :=
  match v with
  | .num _ _ _ => true
  | _ => false

/-- Saturate to `b` bits in two's complement. -/
def satBits (b : Nat) (z : Int) : Int := min (max z (-(2 : Int) ^ (b - 1))) ((2 : Int) ^ (b - 1) - 1)

/-- One mantissa, and whether its value changed: RNE(v·2^(b−1−e)), saturated. -/
def mantissa (b : Nat) (e : Int) (v : FVal) : Int × Bool :=
  match v with
  | .num n m ev =>
    let (r, exact) := roundShift 0 n m false (-(ev + (b : Int) - 1 - e))
    let z : Int := if n then -(r : Int) else r
    (satBits b z, !exact || satBits b z ≠ z)
  | _ => (0, false)

/-- The larger of two optional exponents. -/
def maxTop (a b : Option Int) : Option Int :=
  match a, b with
  | some x, some y => some (max x y)
  | some x, none => some x
  | none, y => y

/-- Quantise (R172): a block of width `b`, and which elements rounding, saturation or underflow changed. -/
def quantiseAll (b : Nat) (v : List FVal) : Block × List Bool :=
  if v.any (fun x => !x.finite) then (Block.invalid, v.map (fun _ => false))
  else
    match v.foldl (fun t x => maxTop t x.top) none with
    | none => ((0, v.map (fun _ => 0)), v.map (fun _ => false))
    | some e =>
      let ex : Int := min (max (e + 127) 1) 254
      let ms := v.map (mantissa b (ex - 127))
      ((ex.toNat, ms.map Prod.fst), ms.map Prod.snd)

/-- The block, and whether any element was changed. -/
def quantise (b : Nat) (v : List FVal) : Block × Bool :=
  let q := quantiseAll b v
  (q.1, q.2.any id)

/-- The flags each element raises as it is quantised: NX where it is changed, NV for a signalling NaN. -/
def quantFlags (b : Nat) (v : List FVal) : List Nat :=
  (v.zip (quantiseAll b v).2).map (fun p => (if p.2 then flNX else 0) + (if p.1.snan then flNV else 0))

/-- The flags of a list of elements together. -/
def orFlags (l : List Nat) : Nat := l.foldl Nat.lor 0

/-! ### Planes and panels (R173, R174) -/

/-- Plane `p` of mantissas: bit i is bit p of m_i. -/
def planeOf (p : Nat) (ms : List Int) : Nat :=
  match ms with
  | [] => 0
  | m :: r => (m / (2 : Int) ^ p % 2).toNat + 2 * planeOf p r

/-- The bytes of a panel of width `b`. -/
def panelBytes (b : Nat) : Nat := 64 + 512 * b

/-- Eight exponent bytes as a word. -/
def expWord (l : List Block) : Nat :=
  match l with
  | [] => 0
  | x :: r => x.1 + 256 * expWord r

/-- A panel's 64-bit words: the exponents, then the planes from b − 1 down. -/
def panelWords (b : Nat) (l : List Block) : List Nat :=
  (List.range 8).map (fun k => expWord ((l.drop (8 * k)).take 8))
    ++ (List.range b).flatMap (fun q => l.map (fun x => planeOf (b - 1 - q) x.2))

/-- The taint of each word of a panel from the taint of its blocks (R186). -/
def panelTaint (b : Nat) (ts : List Bool) : List Bool :=
  (List.range 8).map (fun k => ((ts.drop (8 * k)).take 8).any id) ++ (List.range b).flatMap (fun _ => ts)

/-- The exponent byte of block `j` among the words `w` of a panel, and plane `q` counted from the sign plane down. -/
def panelExp (w : Nat → Nat) (j : Nat) : Nat := w (j / 8) / 2 ^ (8 * (j % 8)) % 256
def panelPlane (w : Nat → Nat) (q j : Nat) : Nat := w (8 + 64 * q + j)

/-- Mantissa `i` from planes, the sign plane first (R174: the leading planes of a wider block are the arithmetic shift). -/
def mantFrom (i : Nat) (planes : List Nat) : Int :=
  match planes with
  | [] => 0
  | s :: r => r.foldl (fun m p => 2 * m + ((p / 2 ^ i % 2 : Nat) : Int)) (-((s / 2 ^ i % 2 : Nat) : Int))

/-- Block `j` of a panel read at `t` planes. -/
def panelBlock (t : Nat) (w : Nat → Nat) (j : Nat) : Block :=
  let ps := (List.range t).map (fun q => panelPlane w q j)
  (panelExp w j, (List.range 64).map (fun i => mantFrom i ps))

/-- The value of an element of a block of width `b` (R171). -/
def blockValue (b e : Nat) (m : Int) : FVal := .num (m < 0) m.natAbs ((e : Int) - 127 - ((b : Int) - 1))

/-! ### BPACK and BUNPK (R186) -/

/-- The element format and its size of code `t`. -/
def packFmt (t : Nat) : FFmt := if t = 1 then bf16 else fp32
def packSize (t : Nat) : Nat := if t = 1 then 2 else 4

/-- The places of `n` bytes of 64-byte blocks from a pointer, each checked by MemL. -/
def blocksAt (memL : Word → Nat → Except (Nat × Word × Word) (Nat × Nat)) (p : Word) (n : Nat) :
    Except (Nat × Word × Word) (List (Nat × Nat)) :=
  (List.range (n / 64)).mapM (fun i => memL (advancePtr p (64 * i)) 64)

/-- Start a conversion: both extents are checked at issue; the pointer images are captured. -/
def packOp (i : Instr) (f : Fields) (s : State) (src dst : Nat) : Out :=
  issue i s (fun c k t s =>
    let pa := t.ptr f.a
    let pd := t.ptr f.d
    match blocksAt (s.memLAt t) pa.v src with
    | .error (code, addr, aux) => s.raise c k code addr aux
    | .ok ls =>
      match blocksAt (s.memLAt t) pd.v dst with
      | .error (code, addr, aux) => s.raise c k code addr aux
      | .ok ld =>
        match (ls ++ ld).find? (fun p => (s.core p.1).shut) with
        | some p => s.park c k (.pool p.1)
        | none =>
          let acc := (ls ++ ld).map (fun p => ({ Access.at p.2 64 TWord.zero with core := p.1 } : Access))
          (s.finish c k).startOp c k
            { Op.new i t .bpack .loc f.la with
              off := ptrOff pa.v, acc := acc, ataint := pa.t || pd.t, data := [pd, pa] })

def execBpack (f : Fields) (s : State) : Out :=
  packOp (.bpack f) f s (4096 * packSize f.hi) (panelBytes (f.lo + 1))
def execBunpk (f : Fields) (s : State) : Out :=
  packOp (.bunpk f) f s (panelBytes (f.lo + 1)) (4096 * packSize f.hi)

/-- The words a slot's load of one 64-byte local block gives. -/
def State.localBlock (s : State) (c k upto : Nat) (p : Nat × Nat) : List TWord :=
  (List.range 8).map (fun i =>
    s.forwarded c k upto true p.1 (p.2 + 8 * i) ((s.core p.1).win.word (p.2 / 8 + i)))

/-- Element `i` of the bytes of words, elements of `sz` bytes. -/
def elemOf (sz : Nat) (ws : List TWord) (i : Nat) : Nat :=
  (nthD ws (i * sz / 8) TWord.zero).v.toNat / 2 ^ (8 * (i * sz % 8)) % 2 ^ (8 * sz)

/-- Split a list into pieces of `n`. -/
def piecesOf {α : Type} (fuel n : Nat) (l : List α) : List (List α) :=
  match fuel with
  | 0 => []
  | k + 1 => if l.isEmpty then [] else l.take n :: piecesOf k n (l.drop n)

/-- BPACK's panel words and the flags of each element from the words of its source. -/
def packWords (t b : Nat) (tn : Bool) (src : List TWord) : List TWord × List Nat :=
  let sz := packSize t
  let rows := piecesOf 64 (8 * sz) src
  let vals := rows.map (fun r => (List.range 64).map (fun i => (packFmt t).val (elemOf sz r i)))
  let q := vals.map (quantise b)
  let ts := rows.map (fun r => tn || r.any (fun w => w.t))
  (((panelWords b (q.map Prod.fst)).zip (panelTaint b ts)).map (fun p => ⟨w64 p.1, p.2⟩), vals.flatMap (quantFlags b))

/-- The bits of an element of a block that BUNPK writes. -/
def unpackElem (f : FFmt) (b : Nat) (x : Block) (i : Nat) : Nat :=
  if x.1 = 0 then 0
  else if x.1 = 255 then f.nan
  else
    match blockValue b x.1 (nthD x.2 i 0) with
    | .num n m e => if m = 0 then 0 else (roundF f 0 n m e false).1
    | _ => 0

/-- Elements of `w` bits packed into words. -/
def packElems (w : Nat) (l : List Nat) : List Nat :=
  (piecesOf (l.length + 1) (64 / w) l).map (fun p => p.foldr (fun e a => e + 2 ^ w * a) 0)

/-- BUNPK's element words from the words of a panel. -/
def unpackWords (t b : Nat) (tn : Bool) (src : List TWord) : List TWord :=
  let w := fun k => (nthD src k TWord.zero).v.toNat
  let tw := fun k => (nthD src k TWord.zero).t
  (List.range 64).flatMap (fun j =>
    let x := panelBlock b w j
    let tj := tn || tw (j / 8) || (List.range b).any (fun q => tw (8 + 64 * q + j))
    (packElems (8 * packSize t) ((List.range 64).map (unpackElem (packFmt t) b x))).map (fun v => ⟨w64 v, tj⟩))

/-- The conversion of an operation: the words it stores, with the flags each element raises. -/
def convertOp (o : Op) (src : List TWord) : List TWord × List Nat :=
  match o.ins with
  | .bpack f => packWords f.hi (f.lo + 1) o.ataint src
  | .bunpk f => (unpackWords f.hi (f.lo + 1) o.ataint src, [])
  | _ => ([], [])

/-- The local offset of element `e` of an operation's source (R240). -/
def packElemAt (o : Op) (e : Nat) : Nat :=
  let sz := match o.ins with
    | .bpack f => packSize f.hi
    | _ => 1
  (nthD o.acc (e * sz / 64) (Access.at 0 0 TWord.zero)).addr + e * sz % 64

/-- The bytes of an operation's source. -/
def packSource (o : Op) : Nat :=
  match o.ins with
  | .bpack f => 4096 * packSize f.hi
  | .bunpk f => panelBytes (f.lo + 1)
  | _ => 0

/-- The conversion takes place: the whole source is read, and the stores are those of a store operation from then on, one
64-byte block each in ascending order. The address of an FP report is that of the first element that raises an enabled flag. -/
def State.packProgress (s : State) (c k : Nat) (t : Thread) (o : Op) : State :=
  let n := packSource o / 64
  let src := o.acc.take n
  match src.findIdx? (fun a => s.barred a.core o.id) with
  | some j => s.opNext c k (o.refuse j tPTRRANGE 0)
  | none =>
  if src.any (fun a => (s.core a.core).dead || s.mustFollow c t o a) then s.post [evt .l2Request [c, k, o.id]]
  else
    match src.findIdx? (fun a => (s.core a.core).win.poisoned (a.addr / 128)) with
    | some j => s.opNext c k (o.refuse j tPOISON 0)
    | none =>
      let ws := src.flatMap (fun a => s.localBlock c k o.id (a.core, a.addr))
      let (out, fls) := convertOp o ws
      let fl := orFlags fls
      let acc := (o.acc.drop n).zipIdx.map (fun p => ({ p.1 with val := ⟨w64 (8 * p.2), false⟩ } : Access))
      let s := s.modThread c k (fun t => t.setOp { o with kind := .store, acc := acc, data := out })
      let s := if fl = 0 then s else s.raiseAtCycle c k o.pc o.born (w64 (packElemAt o (t.firstRaised fls))) fl
      (s.storeProgress c k o.id).post [evt .l2Request [c, k, o.id]]

/-! ### PLXP and PLDOT (R187, R188) -/

/-- Word `j` of planes from the lanes of a group: bit i is bit j of INT8 lane i. -/
def planesOfLanes (vs : List TWord) (j : Nat) : Nat :=
  (List.range 64).foldl (fun n i => n + groupLane 8 vs i / 2 ^ j % 2 * 2 ^ i) 0

/-- Word `k` of lanes from planes: bit j of lane i is bit i of plane j. -/
def lanesOfPlanes (vs : List TWord) (k : Nat) : Nat :=
  (List.range 64).foldl (fun n b =>
    n + (nthD vs (b % 8) TWord.zero).v.toNat / 2 ^ (8 * k + b / 8) % 2 * 2 ^ b) 0

def execPlxp (f : Fields) (s : State) : Out :=
  issue (.plxp f) s (fun c k t s =>
    let vs := s.getGs c t f.a 8
    let tn := vs.any (fun w => w.t)
    let g := if f.lo % 2 = 1 then lanesOfPlanes vs else planesOfLanes vs
    (s.setGs c t f.d ((List.range 8).map (fun j => ⟨w64 (g j), tn⟩))).finish c k)

/-- The number of ones among the low `n` bits. -/
def ones (n : Nat) (x : Nat) : Nat := (List.range n).foldl (fun c i => c + x / 2 ^ i % 2) 0

def execPldot (f : Fields) (s : State) : Out :=
  compute (.pldot f) f s (fun v =>
    ⟨v.d.v + w64 (ones 64 (v.a.v &&& v.b.v).toNat * 2 ^ f.fx), v.d.t || v.a.t || v.b.t⟩)

/-! ### The format context (R175, R189) -/

def fmtAw (w : Word) : Nat := w.bits 14 12
def fmtAt (w : Word) : Nat := w.bits 11 9
def fmtBw (w : Word) : Nat := w.bits 8 6
def fmtBt (w : Word) : Nat := w.bits 5 3
def fmtOw (w : Word) : Nat := w.bits 2 0

/-- A context that MFMT accepts. -/
def fmtOk (w : Word) : Bool :=
  w.bits 63 15 = 0 && 1 ≤ fmtAw w && 1 ≤ fmtBw w && fmtAt w ≤ fmtAw w && fmtBt w ≤ fmtBw w && 1 ≤ fmtOw w

def execMfmt (f : Fields) (s : State) : Out :=
  issue (.mfmt f) s (fun c k t s =>
    let (v, s) := s.readVals (.mfmt f) c k t f
    let old := (s.core c).fmt
    if fmtOk v.d.v then
      ((s.modCore c (fun x => { x with fmt := v.d.v })).writeReg c k t f.d f.sd ⟨old, false⟩).finish c k
    else (s.writeReg c k t f.d f.sd ⟨allOnes, false⟩).finish c k)

end Sys2Proof.Machine
end

