-- ==== Sys2Proof/Machine/Pages.lean ====
section
/-!
DEFINITION. Sys2Proof/Machine/Pages.lean: walks and fault records (R54 to R56), segment registers (R66), pages: hotness,
migration, translation (R58 to R60, R67 to R69), flushing caches and switching coherence (R102 to R104), poison and the
window of a tenant (R45 to R48).
-/
namespace Sys2Proof.Machine
open Sys2Proof

/-! ### Walks and fault records -/

def State.setWalk (s : State) (w : Walk) : State := { s with walks := s.walks.map (fun x => if x.id = w.id then w else x) }
def State.dropWalk (s : State) (i : Nat) : State := { s with walks := s.walks.filter (fun x => x.id ≠ i) }
def State.walk? (s : State) (i : Nat) : Option Walk := s.walks.find? (fun x => x.id = i)

/-- The die at whose walkers a walk queues: the die of the cluster whose port missed. -/
def Walk.die (w : Walk) : Nat := dieOf (w.core / 8)

/-- Access types by what a thread's operation does (R55); a prefetch is a translation without access. -/
def Op.access (o : Op) : Nat :=
  match o.kind with
  | .store => 1
  | .amo => 2
  | .pref => 6
  | _ => 0

/-- A declined fault of a thread (R25, R55), or a translation without access that finds none: the operations with such an access
on the page are refused, and an instruction that waits for the page will find it declined. A prefetch of it ends untrapped. -/
def State.declineThread (s : State) (w : Walk) : State :=
  match s.thread? w.core w.slot with
  | none => s
  | some t =>
    let hit := fun (o : Op) (a : Access) =>
      o.space = .glob && o.access = w.acc && !a.done && a.refuse = 0 && pageOf a.addr = pageOf w.va
    let ops := t.ops.map (fun o =>
      { o with acc := o.acc.map (fun a => if hit o a then { a with refuse := tPAGEFLT, cause := w.cause } else a) })
    let bad := t.ops.filter (fun o => o.acc.any (hit o))
    let waits : Bool := match t.want with
      | some (.page va) => pageOf va = pageOf w.va
      | _ => false
    let t' := { t with ops := ops, declined := if waits then some (pageOf w.va, w.cause) else t.declined }
    let s := s.setThread w.core w.slot t'
    let s := if waits then s.wake w.core w.slot else s
    s.post ((bad.filter (fun o => o.kind ≠ .pref)).map (fun o => evt .deferredTrap [w.core, w.slot, o.id]))

/-- A fault is declined: a thread's accesses fail; an engine finds the walk marked. -/
def State.declineWalk (s : State) (w : Walk) : State :=
  if w.who = 0 then (s.dropWalk w.id).declineThread w
  else s.setWalk { w with record := none, busy := false, declined := true }

/-- The thread id a fault record carries (R55): the thread, or the one that issued an engine's command. -/
def State.walkTid (s : State) (w : Walk) : Word :=
  let x := s.core w.core
  match w.who with
  | 0 => (match s.thread? w.core w.slot with
    | some t => s.tid w.core w.slot t
    | none => 0)
  | 1 => (match x.tu.find? (fun m => m.id = w.slot) with
    | some m => m.owner
    | none => 0)
  | 2 => (match x.lq.find? (fun m => m.id = w.slot) with
    | some m => m.owner
    | none => 0)
  | 6 => (match x.slots.find? (fun p => match p.2.occ with
      | .live t => t.run = .wait (.save w.slot)
      | _ => false) with
    | some (k, sl) => (match sl.occ with
      | .live t => s.tid w.core k t
      | _ => 0)
    | none => 0)
  | _ => 0

/-- Post the PAGEFLT record of a walk, which parks the thread whose access it is (R25, R55); with the fault ring disabled it is
declined at once (R317). Records are numbered for each tenant from 0, modulo 2^32 (DESIGN CHOICE, log entry 72). Causes 5 and 6
are reported to Apex too. -/
def State.postFault (s : State) (w : Walk) (cause level ia : Nat) : State :=
  let tn := s.tenant w.tenant
  let id := tn.nextRec
  let w := { w with busy := false, cause := cause }
  let ws : List Word := [1, s.walkTid w, w64 (w.va % 2 ^ 57),
    w64 (cause * 2 ^ 56 + w.acc % 16 * 2 ^ 52 + level * 2 ^ 48 + ia % 2 ^ 48), w64 id, 0, 0, 0]
  let s' := s.postRec w.tenant true ws
  let s' : State := if cause = 5 || cause = 6 then { s' with boot := { s'.boot with faults := s'.boot.faults ++ [ws] } } else s'
  if ctlEn tn.fq.ctl then
    let s' := (s'.modTenant w.tenant (fun t => { t with nextRec := (id + 1) % 2 ^ 32 })).setWalk { w with record := some id }
    if w.who = 0 then s'.parkAfter w.core w.slot .fault else s'
  else s'.declineWalk w

/-- WALK_START: a free walker of the die takes the walk, or it waits for one (R54). -/
def execWalkStart (s : State) : Out :=
  match s.walk? (s.argN 0) with
  | none => .next s
  | some w =>
    if 128 ≤ (s.die w.die).walks then .next (s.again .walkStart)
    else
      .next (((s.setWalk { w with busy := true }).modDie w.die (fun d => { d with walks := d.walks + 1 })).post
        [evt .pageWalkDone [w.id]])

/-- PAGE_WALK_DONE (R54), and the end of a walk of a granule map (R71): the cache is filled and the access goes on, or the
fault is reported; a translation without access finds that there is none (R64, R67 to R69). -/
def execPageWalkDone (s : State) : Out :=
  match s.walk? (s.argN 0) with
  | none => .next s
  | some w =>
    if !w.busy then .next s
    else
      let s := s.modDie w.die (fun d => { d with walks := d.walks - 1 })
      if w.who = 7 || w.who = 8 then .next (s.mapWalked w)
      else
      match s.walk w.tenant w.va w.acc with
      | .leaf l _ e =>
        let pa := ((s.tenant w.tenant).physical e (Leaf.frame e + w.va % pageSize l)).getD 0
        .next ((s.dropWalk w.id).fillTlb (w.core / 8) w.va l e pa)
      | .fault cause level ia =>
        if w.acc = 6 then .next (s.declineWalk { w with cause := cause }) else .next (s.postFault w cause level ia)

/-- The runtime's answer to a record (R55): D = 0 walks again, D = 1 declines. -/
def State.answerFault (s : State) (tn : Nat) (v : Word) : State :=
  match s.walks.find? (fun w => w.tenant = tn && w.record = some (v.bits 31 0)) with
  | none => s
  | some w =>
    if v.bits 63 63 = 1 then s.declineWalk w
    else (s.setWalk { w with record := none }).post [evt .walkStart [w.id]]

def execPfrespWrite (s : State) : Out := .next (s.answerFault (s.argN 0) (s.argW 0).v)

/-- Accesses that have been translated and are not yet performed, by virtual address, in [va, va + n) (R56): entries of the
store buffers and on their way, and bytes that wait in write-combine buffers. -/
def State.pageBusy (s : State) (tn va n : Nat) : Bool :=
  let hit := fun (e : SBEntry) => !e.loc && !e.wide && va ≤ e.va && e.va < va + n
  let mine := fun (c : Nat) => s.ownerOf (c / 8) = some tn
  s.flights.any (fun f => mine f.core && f.stage ≠ 2 && hit f.entry)
    || s.cores.any (fun p => mine p.1 && (p.2.sb.any hit || p.2.wc.any (fun e => e.vas.any (fun v => va ≤ 64 * v && 64 * v < va + n))))

/-- The same for a host page by its number. -/
def State.hostPageBusy (s : State) (page : Nat) : Bool :=
  let hit := fun (e : SBEntry) => !e.loc && e.addr / 4096 = hostBase / 4096 + page
  s.flights.any (fun f => f.stage ≠ 2 && hit f.entry)
    || s.cores.any (fun p => p.2.sb.any hit || p.2.wc.any (fun e => 64 * e.half / 4096 = hostBase / 4096 + page))

/-- XINV (R56): the page leaves every translation cache of the partition. -/
def execXinvWrite (s : State) : Out := .next (s.invalidatePage (s.argN 0) (s.argN 1))

/-- ATS_INVALIDATION: the same for a host page, by its intermediate address (R56). The third number is what the host's IOMMU
maps the page to from now on: 0 nothing, else the host page number plus 1. The event stays while accesses that used the old
translation are on their way, to the page that the fourth number then names (plus 1); the bridge completes it when it ends. -/
def execAtsInvalidation (s : State) : Out :=
  let ia := s.argN 1
  let p := s.argN 2
  let old := s.argN 3
  if old ≠ 0 then (if s.hostPageBusy (old - 1) then .next (s.again .atsInvalidation) else .next s)
  else
    let was := SMap.get? (s.tenant (s.argN 0)).hostMap (ia / 4096)
    let s := (s.tenant (s.argN 0)).slices.foldl (fun s cl =>
      let x := s.cluster cl
      if x.tlb.isEmpty then s
      else s.setCluster cl { x with tlb := x.tlb.filter (fun e => !(Leaf.h e.leaf && Leaf.frame e.leaf / 4096 = ia / 4096)) }) s
    let s := s.modTenant (s.argN 0) (fun t =>
      let m := if p = 0 then SMap.del t.hostMap (ia / 4096) else SMap.set t.hostMap (ia / 4096) (p - 1)
      { t with hostMap := m })
    match was with
    | some q => .next (s.post [evt .atsInvalidation [s.argN 0, ia, p, q + 1]])
    | none => .next s

/-! ### Reads that an instruction waits for -/

/-- What such a read finds. -/
inductive ReadTry where
  | val (v : TWord)
  | trap (code cause : Nat)
  | parked (s : State)

/-- Read one word for slot `k` at a virtual address: what SEGLD waits for. -/
def State.readWord (s : State) (c k : Nat) (t : Thread) (va : Nat) : ReadTry :=
  match s.pageFor c k t va 0 with
  | .parked s => .parked s
  | .declined cause => .trap tPAGEFLT cause
  | .tr tr =>
    if loadRefusal tr 8 ≠ 0 then .trap tSYNCMISUSE (loadRefusal tr 8)
    else if s.poisoned tr.pa then .trap tPOISON 0
    else .val ((s.applyAdds tr.pa 8).loadItem c k s.nextId tr 8)

/-- The auxiliary word of a precise PAGEFLT or SYNCMISUSE: the cause or class in [62:56] (R236). -/
def preciseAux (cause : Nat) : Word := w64 (cause * 2 ^ 56)

/-! ### SEGLD and SEGRD (R66) -/

/-- The descriptor two words hold. -/
def segOf (w0 w1 : Word) : Seg := ⟨w0.bits 56 0, w1.bits 39 0, w1.bits 44 40⟩

/-- The check of a loaded descriptor (R66): the trap's code, if one fails. -/
def segCheck (w0 w1 : Word) : Option Nat :=
  if w0.bits 6 0 ≠ 0 then some tALIGN
  else if w0.bits 56 0 + w1.bits 39 0 > 2 ^ 57 then some tSEGLIM
  else none

def execSegld (f : Fields) (s : State) : Out :=
  issue (.segld f) s (fun c k t s =>
    if !t.ops.isEmpty then s.park c k .opsDone
    else
      let off := gOffset (s.getG c t f.a).v f.imm
      let check := match memG t f.hi off 8 'R' with
        | some x => some x
        | none =>
          match memG t f.hi (off + 8) 8 'R' with
          | some x => some x
          | none => if off % 16 ≠ 0 then some (tALIGN, w64 off, w64 f.hi) else none
      match check with
      | some (code, addr, aux) => s.raise c k code addr aux
      | none =>
        match s.readWord c k t (vaOf t f.hi off) with
        | .parked s => s
        | .trap code cause => s.raise c k code (w64 off) (preciseAux cause)
        | .val w0 =>
          match s.readWord c k t (vaOf t f.hi (off + 8)) with
          | .parked s => s
          | .trap code cause => s.raise c k code (w64 (off + 8)) (preciseAux cause)
          | .val w1 =>
            match segCheck w0.v w1.v with
            | some code => s.raise c k code (w64 (w0.v.bits 56 0)) (w64 f.d)
            | none =>
              (s.modThread c k (fun t => { t with segs := setNth t.segs f.d (segOf w0.v w1.v) })).finish c k)

def execSegrd (f : Fields) (s : State) : Out :=
  issue (.segrd f) s (fun c k t s =>
    let g := t.seg f.a
    let v := match f.fx with
      | 0 => g.base
      | 1 => g.limit
      | _ => g.rights
    (s.writeReg c k t f.d f.sd ⟨w64 v, false⟩).finish c k)

/-! ### XLATE, PGHOT, PGMIG (R67 to R69) -/

/-- The size code of a level. -/
def sizeCode (l : Nat) : Nat := 5 - l

/-- XLATE's result for a translated address. -/
def xlateWord (tr : Tr) (va : Nat) : Word :=
  let e := tr.leaf
  w64 (2 ^ 63 + e.bits 60 58 * 2 ^ 60 + e.bits 57 56 * 2 ^ 58 + e.bits 55 49 * 2 ^ 51 + sizeCode tr.level * 2 ^ 48
    + (Leaf.frame e + va % pageSize tr.level) % 2 ^ 48)

def execXlate (f : Fields) (s : State) : Out :=
  issue (.xlate f) s (fun c k t s =>
    let a := s.getG c t f.a
    let off := gOffset a.v f.imm
    if off + 1 > (t.seg f.hi).limit then s.raise c k tSEGLIM (w64 off) (w64 f.hi)
    else
      let va := vaOf t f.hi off
      let put := fun (s : State) (r : Word) => (s.writeReg c k t f.d f.sd ⟨r, a.t⟩).finish c k
      match s.pageFor c k t va 6 with
      | .parked s => s
      | .declined cause => put s (w64 cause)
      | .tr tr => put s (xlateWord tr va))

/-- The record that PGHOT reads of a page, and the state after it: cleared, where asked (R67). -/
def State.readHot (s : State) (tn : Nat) (leaf : Word) (clear : Bool) : Word × State :=
  if Leaf.h leaf || !Leaf.ht leaf then (32, s)
  else
    let key := hotKey tn leaf
    (SMap.get s.hot key (mkHot 0 0 0 0 1), if clear then { s with hot := SMap.set s.hot key (mkHot 0 0 0 0 1) } else s)

def execPghot (f : Fields) (s : State) : Out :=
  issue (.pghot f) s (fun c k t s =>
    let off := gOffset (s.getG c t f.a).v f.imm
    let v := (s.readVals (.pghot f) c k t f).1.d.v
    let put := fun (s : State) (w : Word) => (s.writeReg c k t f.d f.sd ⟨w, true⟩).finish c k
    if v.bits 63 1 ≠ 0 then put s allOnes
    else if off + 1 > (t.seg f.hi).limit then s.raise c k tSEGLIM (w64 off) (w64 f.hi)
    else
      match s.pageFor c k t (vaOf t f.hi off) 6 with
      | .parked s => s
      | .declined _ => put s 0
      | .tr tr =>
        let (r, s) := s.readHot t.tenant tr.leaf (v.bits 0 0 = 1)
        put s r)

/-- A frame of `n` bytes at an intermediate address lies in the tenant's window, on dies where it holds a quadrant. -/
def State.frameOk (s : State) (tn ia n : Nat) : Bool :=
  let t := s.tenant tn
  ia + n ≤ 2 ^ 48 && (List.range ((n + 65535) / 65536)).all (fun i =>
    match t.second (ia + 65536 * i) with
    | some pa => t.quads.any (fun q => dieOfQuad q = pa / 2 ^ 38)
    | none => false)

/-- The status of a PGMIG of a translated page, the table's rows in order (R68). -/
def State.pgmigStatus (s : State) (tn : Nat) (tr : Tr) (dst : Nat) : Nat :=
  let l := tr.level
  let e := tr.leaf
  if Leaf.h e then 1
  else if Leaf.wb e then 2
  else if dst % pageSize l ≠ 0 || (dst < Leaf.frame e + pageSize l && Leaf.frame e < dst + pageSize l)
      || !s.frameOk tn dst (pageSize l) then 3
  else if l = 2 || 2 ≤ Leaf.cl e then 4
  else 0

/-- The word of a first-stage entry. -/
def State.entryWord (s : State) (tn ia : Nat) : Word :=
  match (s.tenant tn).second ia with
  | some pa => (s.curWord (pa / 8)).v
  | none => 0

/-- Step 1 of a migration (R60): WB is set in the leaf, the page leaves every translation cache, and the copying is to come. -/
def State.beginMig (s : State) (tn : Nat) (owner : Word) (va l en : Nat) (e : Word) (dst : Nat) : State :=
  let s := (s.setEntry tn en (setBit e 53 true)).invalidatePage tn va
  let (i, s) := s.fresh
  let m : Mig := ⟨i, tn, owner, va / pageSize l * pageSize l, l, en, Leaf.frame e, dst, 0, false⟩
  ({ s with migs := s.migs ++ [m] } : State).post [evt .migrationCopy [i]]

/-- A thread goes on, later, with an instruction that has begun to act. -/
def State.continue (s : State) (c k : Nat) (part : List Nat) : State :=
  (s.modThread c k (fun t => { t with part := part })).park c k .steps

/-- PGMIG: the status, or the migration begins, and the instruction completes once the accesses that used the old translation
have been performed (R56). -/
def execPgmig (f : Fields) (s : State) : Out :=
  issue (.pgmig f) s (fun c k t s =>
    let a := s.getG c t f.a
    let off := gOffset a.v f.imm
    let d := (s.readVals (.pgmig f) c k t f).1.d
    let put := fun (s : State) (n : Nat) => (s.writeReg c k t f.d f.sd ⟨w64 n, a.t || d.t⟩).finish c k
    let va := vaOf t f.hi off % 2 ^ 57
    match t.part with
    | [1, lo, n] => if s.pageBusy t.tenant lo n then s.continue c k t.part else put s 0
    | _ =>
      if off + 1 > (t.seg f.hi).limit then s.raise c k tSEGLIM (w64 off) (w64 f.hi)
      else
        match s.pageFor c k t va 6 with
        | .parked s => s
        | .declined _ => put s 1
        | .tr tr =>
          let st := s.pgmigStatus t.tenant tr d.v.toNat
          if st ≠ 0 then put s st
          else
            match s.walk t.tenant va 6 with
            | .fault _ _ _ => put s 1
            | .leaf l en e =>
              let s := s.beginMig t.tenant (s.tid c k t) va l en e d.v.toNat
              if s.pageBusy t.tenant (va / pageSize l * pageSize l) (pageSize l) then
                s.continue c k [1, va / pageSize l * pageSize l, pageSize l]
              else put s 0)

/-- The dirty words of the software-coherent copies of a line, one value where one holder has it, else that of the highest
logical cluster index 16y + x, and within it of the highest core; a core's banks stand for its cluster's slice (R102). The
holders of a word, as (index, value). -/
def State.dirtyCopies (s : State) (tn w : Nat) : List (Nat × TWord) :=
  let get := fun (h : Nat) => match s.copy? (w / 16) h with
    | some cp => if cp.dirty.contains (w % 16) then some (nthD cp.words (w % 16) TWord.zero) else none
    | none => none
  (s.tenant tn).slices.flatMap (fun cl =>
    let yx := (s.tenant tn).logical cl
    let key := (16 * yx.1 + yx.2) * 8
    let banks := (List.range 8).filterMap (fun j => (get (bankHolder (8 * cl + j))).map (fun v => (key + j, v)))
    if banks.isEmpty then (match get cl with
      | some v => [(key, v)]
      | none => [])
    else banks)

/-- The value that counts among the dirty copies of a word: the one of the highest index. -/
def topCopy (l : List (Nat × TWord)) : Option (Nat × TWord) :=
  l.foldl (fun (b : Option (Nat × TWord)) p =>
    match b with
    | none => some p
    | some q => if q.1 < p.1 then some p else some q) none

/-- Merge the dirty copies of a line into the home copy by R102, and drop every copy: the words in conflict are counted. -/
def State.mergeLine (s : State) (tn line : Nat) : Nat × State :=
  let (n, m) := (List.range 16).foldl (fun (p : Nat × Mem) i =>
    let w := 16 * line + i
    let l := s.dirtyCopies tn w
    match topCopy l with
    | none => p
    | some (_, v) => if l.length = 1 then (p.1, p.2.setWord w v) else (p.1 + 1, p.2.setWord w ⟨v.v, true⟩)) (0, s.mem)
  (n, ({ s with mem := m } : State).discardLine line)

/-- Copy one line with its taint and poison, every newest word gathered first (R60 step 2). -/
def State.copyLine (s : State) (tn src dst : Nat) : State :=
  let s := ((s.applyAdds (128 * src) 128).gather src)
  let s := (if s.copies.any (fun p => p.1 / 4096 = src) then (s.mergeLine tn src).2 else s).discardLine dst
  let m := (List.range 16).foldl (fun m i => m.setWord (16 * dst + i) (m.word (16 * src + i))) s.mem
  { s with mem := m.setPoison dst (m.poisoned src) }

def State.setMig (s : State) (m : Mig) : State := { s with migs := s.migs.map (fun x => if x.id = m.id then m else x) }

/-- MIGRATION_COPY: the next line is copied, unless a transition of the line is under way; after the last, the new frame is
written into the leaf (R60 steps 2 and 3). The copy begins once every access that used the old translation to write has been
performed. -/
def execMigrationCopy (s : State) : Out :=
  match s.migs.find? (fun m => m.id = s.argN 0) with
  | none => .next s
  | some m =>
    let n := pageSize m.level
    let t := s.tenant m.tenant
    if m.copied then .next s
    else if s.pageBusy m.tenant m.va n then .next (s.again .migrationCopy)
    else if m.next * 128 < n then
      match t.second (m.oldIA + 128 * m.next), t.second (m.newIA + 128 * m.next) with
      | some a, some b =>
        if s.lineBusy (a / 128) then .next (s.again .migrationCopy)
        else .next (((s.copyLine m.tenant (a / 128) (b / 128)).setMig { m with next := m.next + 1 }).again .migrationCopy)
      | _, _ => .next ((s.setMig { m with next := m.next + 1 }).again .migrationCopy)
    else
      let e := s.entryWord m.tenant m.entry
      let e' := w64 (e.bits 63 48 * 2 ^ 48 + m.newIA % 2 ^ 48 / 4096 * 4096 + e.bits 11 0)
      .next (((s.setEntry m.tenant m.entry e').invalidatePage m.tenant m.va).setMig { m with copied := true } |>.post
        [evt .migrationDrainDone [m.id]])

/-- The device lines of `n` bytes from an intermediate address. -/
def Tenant.linesOf (t : Tenant) (leaf : Word) (ia n : Nat) : List Nat :=
  (List.range (n / 128)).filterMap (fun i => (t.physical leaf (ia + 128 * i)).map (fun pa => pa / 128))

/-- MIGRATION_DRAIN_DONE: steps 4 to 6 of R60. No line of the new frame is resident (R338), and none of the old one stays in a
cache. -/
def execMigrationDrainDone (s : State) : Out :=
  match s.migs.find? (fun m => m.id = s.argN 0) with
  | none => .next s
  | some m =>
    if !m.copied then .next s
    else
      let e := setBit (s.entryWord m.tenant m.entry) 53 false
      let s := (s.setEntry m.tenant m.entry e).invalidatePage m.tenant m.va
      let s := ((s.tenant m.tenant).linesOf e m.newIA (pageSize m.level)).foldl State.unresident s
      let s := ((s.tenant m.tenant).linesOf e m.oldIA (pageSize m.level)).foldl State.discardLine s
      let old := m.tenant * 2 ^ 48 + m.oldIA
      let hot := SMap.del s.hot old
      let s := { s with hot := if Leaf.ht e then SMap.set hot (hotKey m.tenant e) (mkHot 0 0 0 0 1) else hot,
                        migs := s.migs.filter (fun x => x.id ≠ m.id) }
      let c := (s.tidCore m.owner).getD 0
      let s := s.engineMsg c m.owner m.owner mkNOTIFY 0 0 ⟨w64 m.oldIA, false⟩
      .next (s.post ((s.cores.filter (fun p => !p.2.parked.isEmpty)).map (fun p => evt .storeBufferDrain [p.1])))

/-! ### CFLUSH and CINV (R103) -/

/-- A line of a SW page: the dirty words of the issuing core's banks and of its cluster's slice go home, or are lost. Where the
slice's copy goes, the other cores of the cluster give up theirs (R90). -/
def State.flushSw (s : State) (c line : Nat) (keep : Bool) : Bool × State :=
  let here := c / 8 = s.homeOf line
  let hs := if here then [bankHolder c] else [c / 8, bankHolder c]
  let dirty := hs.any (fun h => match s.copy? line h with
    | some cp => !cp.dirty.isEmpty
    | none => false)
  if keep then (dirty, hs.foldl (fun s h => s.writeBack line h) s)
  else
    let s := hs.foldl (fun s h => s.dropCopy line h) s
    (dirty, if here then s else ((banksOf (c / 8)).foldl (fun s h => s.writeBack line h) s).dropBanks line (c / 8))

/-- A line of a HW page of die scope: the words registered to the issuing core go home. -/
def State.flushDie (s : State) (c line : Nat) : Bool × State :=
  let ws := (s.regw.filter (fun p => p.1 / 16 = line && p.2.core = c)).map Prod.fst
  (!ws.isEmpty, ws.foldl State.unregister s)

/-- A line of a HW page of module or system scope: ownership is given up by an eviction notice; CINV drops the copy. -/
def State.flushModule (s : State) (c line : Nat) (inv : Bool) : Bool × State :=
  let cl := c / 8
  let dirty := match s.copy? line cl with
    | some cp => !cp.dirty.isEmpty
    | none => false
  if s.notices.contains (cl, line) then (false, s)
  else if cl = s.homeOf line then
    let s := if inv then s.dropBanks line cl else s
    match s.dirOf line with
    | some (.owned o) =>
      (false, if o = cl then ({ s with leases := SMap.del s.leases line } : State).clearDir line else s)
    | _ => (false, s)
  else
    match s.dirOf line with
    | some (.owned o) => if o = cl || inv then (o = cl && dirty, s.dirNotice line cl) else (false, s)
    | _ => (dirty, if inv && (s.copy? line cl).isSome then s.dirNotice line cl else s)

/-- One line of the range, by its page. -/
def State.flushLine (s : State) (c : Nat) (tr : Tr) (inv : Bool) : Bool × State :=
  let line := tr.pa / 128
  let s := s.applyAdds (128 * line) 128
  if Leaf.cm tr.leaf then s.flushSw c line (!inv)
  else if Leaf.sh tr.leaf ≤ 2 then s.flushDie c line
  else s.flushModule c line inv

/-- What a line waits for before it is flushed: bytes of it in the core's write-combine buffer drain first, and a transition
of the line ends. -/
def State.flushGate (s : State) (c line : Nat) : Bool × State :=
  let hs := ((s.core c).wc.filter (fun e => e.half / 2 = line)).map (fun e => e.half)
  let s := hs.foldl (fun s h => s.drainHalf c (h - hostBase / 64)) s
  (!(s.core c).wc.any (fun e => e.half / 2 = line) && !s.lineBusy line, s)

/-- What processing lines in ascending order comes to: all done with so many dirty, waiting, or a page declined. -/
inductive Flushed where
  | done (q : Nat) (s : State)
  | parked (s : State)
  | declined (cause i : Nat) (s : State)

/-- Lines `i` to `i + n` of the range from `lo`, after `q` dirty ones; where one waits, the place is kept. -/
def State.flushFrom (s : State) (c k : Nat) (t : Thread) (lo : Nat) (inv : Bool) (n i q : Nat) : Flushed :=
  match n with
  | 0 => .done q s
  | m + 1 =>
    let keep := fun (s : State) => s.modThread c k (fun t => { t with part := [0, i, q] })
    match s.pageFor c k t (lo + 128 * i) 0 with
    | .parked s => .parked (keep s)
    | .declined cause => .declined cause i s
    | .tr tr =>
      if 2 ≤ Leaf.cl tr.leaf then s.flushFrom c k t lo inv m (i + 1) q
      else
        let (ok, s) := s.flushGate c (tr.pa / 128)
        if !ok then .parked (s.continue c k [0, i, q])
        else
          let (d, s) := s.flushLine c tr inv
          s.flushFrom c k t lo inv m (i + 1) (q + d.toNat)

def flushOp (i : Instr) (f : Fields) (s : State) (inv : Bool) : Out :=
  issue i s (fun c k t s =>
    let off := gOffset (s.getG c t f.a).v f.imm
    let len := (s.readVals i c k t f).1.d.v.toNat
    let put := fun (s : State) (w : TWord) => (s.writeReg c k t f.d f.sd w).finish c k
    if len = 0 then put s ⟨0, true⟩
    else if 2 ^ 24 < len then put s ⟨allOnes, true⟩
    else if off + len > (t.seg f.hi).limit then s.raise c k tSEGLIM (w64 off) (w64 f.hi)
    else if !((t.seg f.hi).has 'R' || (t.seg f.hi).has 'W') then s.raise c k tSEGRIGHT (w64 off) (w64 f.hi)
    else if !t.ops.isEmpty then s.park c k .opsDone
    else if !(s.storesOf c k).isEmpty then s.park c k .stores
    else
      let va := vaOf t f.hi off
      let lo := va / 128 * 128
      let n := (va + len + 127) / 128 - va / 128
      let (i, q) := match t.part with
        | [0, i, q] => (i, q)
        | _ => (0, 0)
      match s.flushFrom c k t lo inv (n - i) i q with
      | .done q s => put s ⟨w64 q, true⟩
      | .parked s => s
      | .declined cause i s =>
        s.raise c k tPAGEFLT (w64 (lo + 128 * i - (t.seg f.hi).base)) (preciseAux cause))

def execCflush (f : Fields) (s : State) : Out := flushOp (.cflush f) f s false
def execCinv (f : Fields) (s : State) : Out := flushOp (.cinv f) f s true

/-! ### SETCOH (R102, R104) -/

/-- What the check of the pages of a range finds: all may be switched, a status, or a wait for a walk. -/
inductive PagesRes where
  | ok
  | bad (status : Nat)
  | parked (s : State)

/-- The check of the pages of [va, va + len); the page that a walk is awaited for is kept, and the check goes on there. The
first failing page in ascending order gives the status, and of a page whether it is mapped, then its alignment, its class and
WB; alignment is that of the virtual address (DESIGN CHOICE, log entry 73). -/
def State.pagesOf (s : State) (c k : Nat) (t : Thread) (fuel va len : Nat) : PagesRes :=
  match fuel with
  | 0 => .ok
  | n + 1 =>
    if len = 0 then .ok
    else
      match s.pageFor c k t va 6 with
      | .parked s => .parked (s.modThread c k (fun t => { t with part := [2, va, len] }))
      | .declined _ => .bad 2
      | .tr tr =>
        if va % pageSize tr.level ≠ 0 || len < pageSize tr.level then .bad 1
        else if Leaf.cl tr.leaf ≠ 0 then .bad 2
        else if Leaf.wb tr.leaf then .bad 3
        else s.pagesOf c k t n (va + pageSize tr.level) (len - pageSize tr.level)

/-- The lines of a page change hands: the words in conflict. -/
def State.switchLines (s : State) (tn : Nat) (lines : List Nat) (sw : Bool) : Nat × State :=
  lines.foldl (fun (q : Nat × State) line =>
    let s := q.2.applyAdds (128 * line) 128
    if sw then (q.1, s.gather line)
    else
      let (m, s) := s.mergeLine tn line
      (q.1 + m, s)) (0, s)

/-- A page whose writes are parked is switched: its lines, its leaf with the new CM and without WB, the translation caches, and
the CONFLICT record. The words in conflict. -/
def State.switchPage (s : State) (tn va l en : Nat) (e : Word) (sw : Bool) : Nat × State :=
  let lines := (s.tenant tn).linesOf e (Leaf.frame e) (pageSize l)
  let (n, s) := if Leaf.cm e = sw then (0, s) else s.switchLines tn lines sw
  let s := (s.setEntry tn en (setBit (setBit e 55 sw) 53 false)).invalidatePage tn va
  let s := s.post ((s.cores.filter (fun p => !p.2.parked.isEmpty)).map (fun p => evt .storeBufferDrain [p.1]))
  if n = 0 then (0, s)
  else
    let key := Leaf.frame e
    let count := min 65535 (SMap.get (s.tenant tn).conflicts key 0 + n)
    let s := s.modTenant tn (fun t => { t with conflicts := SMap.set t.conflicts key count })
    (n, s.notify tn (recWord 3 (key % 2 ^ 48)) (w64 (count * 2 ^ 48 + n % 2 ^ 32)))

/-- One step of a SETCOH at the page at `va`, with `rem` bytes left, `q` pages and `n` conflicts behind it: WB is set once no
migration has it, the accesses that used the old translation are performed and the transitions of the lines end, then the page is
switched. `ws` says that WB has been set. -/
def State.setcohStep (s : State) (c k tn : Nat) (sw : Bool) (va rem q n : Nat) (ws : Bool) (done : State → Nat → Nat → State) : State :=
  if rem = 0 then done s q n
  else
    match s.walk tn va 6 with
    | .fault _ _ _ => done s q n
    | .leaf l en e =>
      if !ws then
        if Leaf.wb e then s.continue c k [1, va, rem, q, n, 0]
        else ((s.setEntry tn en (setBit e 53 true)).invalidatePage tn va).continue c k [1, va, rem, q, n, 1]
      else if s.pageBusy tn va (pageSize l)
          || ((s.tenant tn).linesOf e (Leaf.frame e) (pageSize l)).any s.lineBusy then s.continue c k [1, va, rem, q, n, 1]
      else
        let (m, s) := s.switchPage tn va l en e sw
        if rem ≤ pageSize l then done s (q + 1) (n + m)
        else s.continue c k [1, va + pageSize l, rem - pageSize l, q + 1, n + m, 0]

def execSetcoh (f : Fields) (s : State) : Out :=
  issue (.setcoh f) s (fun c k t s =>
    let a := s.getG c t f.a
    let off := gOffset a.v f.imm
    let d := (s.readVals (.setcoh f) c k t f).1.d
    let g := d.v
    let len := g.bits 39 0
    let put := fun (s : State) (n : Nat) (tn : Bool) => (s.writeReg c k t f.d f.sd ⟨w64 n, a.t || d.t || tn⟩).finish c k
    let done := fun (s : State) (q n : Nat) => put s (q % 2 ^ 24 * 2 ^ 32 + min n (2 ^ 32 - 1)) (n ≠ 0)
    let va := vaOf t f.hi off % 2 ^ 57
    match t.part with
    | [1, va, rem, q, n, ws] => s.setcohStep c k t.tenant (g.bits 63 63 = 1) va rem q n (ws = 1) done
    | _ =>
      if off + len > (t.seg f.hi).limit then s.raise c k tSEGLIM (w64 off) (w64 f.hi)
      else if !(t.seg f.hi).has 'W' then s.raise c k tSEGRIGHT (w64 off) (w64 f.hi)
      else if g.bits 62 40 ≠ 0 || len = 0 then put s (2 ^ 56) false
      else
        let (at', left) := match t.part with
          | [2, a, r] => if a + r = va + len then (a, r) else (va, len)
          | _ => (va, len)
        match s.pagesOf c k t (left / 4096 + 1) at' left with
        | .parked s => s
        | .bad st => put s (st * 2 ^ 56) false
        | .ok => s.setcohStep c k t.tenant (g.bits 63 63 = 1) va len 0 0 false done)

/-! ### Poison, soft errors and the tenant's window (R45 to R48) -/

/-- The virtual address of a line of a tenant, or 0 where none is known. -/
def State.vaOfLine (s : State) (tn line : Nat) : Nat :=
  match (s.tenant tn).iaOf (128 * line) with
  | none => 0
  | some ia =>
    match s.leavesOf tn ia with
    | (va, _, en) :: _ => va + (ia - Leaf.frame (s.entryWord tn en))
    | [] => 0

/-- Lines of a core's pool, in POISON_DETECTED: 2^34 and above, 2^14 for each core. -/
def poolLine (n : Nat) : Nat × Nat := ((n - 2 ^ 34) / 2 ^ 14 % 2048, (n - 2 ^ 34) % 2 ^ 14)

/-- POISON_DETECTED: the line's poison bit is set and the detecting unit posts a record (R47). The first number names a line of
device memory, from 2^33 on of host memory, from 2^34 on of a core's pool, which has no virtual address. -/
def execPoisonDetected (s : State) : Out :=
  let n := s.argN 0
  if 2 ^ 34 ≤ n then
    let c := (poolLine n).1
    match s.ownerOf (c / 8) with
    | some tn => .next ((s.modCore c (fun x => { x with win := x.win.setPoison (poolLine n).2 true })).poisonRec tn 0 (s.argN 1))
    | none => .next s
  else
    let line := if 2 ^ 33 ≤ n then hostBase / 128 + (n - 2 ^ 33) else n
    let tn := s.tenantOf (128 * line)
    let va := s.vaOfLine tn line
    .next (({ s with mem := s.mem.setPoison line true } : State).poisonRec tn va (s.argN 1))

def execSoftErrorCorrected (s : State) : Out :=
  .next { s with boot := { s.boot with corrected := s.boot.corrected + 1 } }

/-- Stores on their way to a frame of 64 KiB, parked ones among them. -/
def State.frameBusy (s : State) (frame : Nat) : Bool :=
  let hit := fun (e : SBEntry) => !e.loc && e.addr / 65536 = frame
  s.flights.any (fun f => f.stage ≠ 2 && hit f.entry)
    || s.cores.any (fun p => p.2.sb.any hit || p.2.parked.any hit)
    || (List.range 512).any (fun i => s.lineBusy (frame * 512 + i))

/-- Write every line of a frame as zero and forget every cached copy of it, with the adds that are pending there (R45, R322,
R338). -/
def State.scrubFrame (s : State) (frame : Nat) : State :=
  let s := (List.range 512).foldl (fun s i =>
    let line := frame * 512 + i
    let s := (s.discardLine line).unresident line
    { s with mem := s.mem.zeroLine line }) s
  { s with addl := s.addl.filter (fun p => p.1 / 8192 ≠ frame) }

/-- APEX_WINDOW_SHRINK: a frame leaves a tenant's window (R45); a locked TDI's window is fixed, so the change moves it to
ERROR (R334). -/
def execApexWindowShrink (s : State) : Out :=
  let tn := s.argN 0
  let key := s.argN 1 / 65536
  match SMap.get? (s.tenant tn).window key with
  | none => .next s
  | some frame =>
    let s := s.forgetPhysical tn (65536 * frame) (65536 * frame + 65536)
    if s.frameBusy frame then .next (s.again .apexWindowShrink)
    else
      let s := (s.scrubFrame frame).modTenant tn (fun t => { t with window := SMap.del t.window key })
      .next (if (s.tenant tn).tdi = 1 || (s.tenant tn).tdi = 2 then s.post [evt .tdiError [tn]] else s)

end Sys2Proof.Machine
end

