-- ==== Sys2Proof/Machine/Stream.lean ====
section
/-!
DEFINITION. Sys2Proof/Machine/Stream.lean: STREAM regions, adds, the Radius port, eviction and reload (R194 to R212).
-/
namespace Sys2Proof.Machine
open Sys2Proof

/-! ### Regions and rows (R194 to R196) -/

/-- A region's span holds a virtual address. -/
def SRegion.spans (g : SRegion) (va : Nat) : Bool := g.base ≤ va && va < g.base + 4 * g.rows * g.len
def SRegion.row? (g : SRegion) (va : Nat) : Nat := (va - g.base) / 4 / g.len
def SRegion.col? (g : SRegion) (va : Nat) : Nat := (va - g.base) / 4 % g.len

/-- The live region that spans an address, with its table index. -/
def Tenant.streamAt (t : Tenant) (va : Nat) : Option (Nat × SRegion) :=
  t.streams.find? (fun p => p.2.spans va)

/-- A row that has never received an add. -/
def Row.new : Row := ⟨[], 0, 0, 0, false, false, false, false, false, false, none, 0, []⟩
def SRegion.rowAt (g : SRegion) (r : Nat) : Row := SMap.get g.row r Row.new

/-- Lines of its home slice that a resident row occupies, and what a slice gives (R195). -/
def SRegion.lines (g : SRegion) : Nat := (64 + 6 * g.len + 127) / 128
def sliceLines : Nat := 2 ^ 21 / 128

/-- The home slice of a row. -/
def Tenant.rowHome (t : Tenant) (i r : Nat) (g : SRegion) : Nat :=
  let sl := t.slicesOn g.die
  nthD sl ((r + 7 * i) % max 1 sl.length) 0

/-- The resident rows of a tenant on a slice: region index, row, lines, when last used. -/
def Tenant.residents (t : Tenant) (slice : Nat) : List (Nat × Nat × Nat × Nat) :=
  t.streams.flatMap (fun p => p.2.row.filterMap (fun q =>
    if q.2.res && t.rowHome p.1 q.1 p.2 = slice then some (p.1, q.1, p.2.lines, q.2.used) else none))

/-- Room for one more row of a region on its slice. -/
def Tenant.roomFor (t : Tenant) (i r : Nat) (g : SRegion) : Bool :=
  ((t.residents (t.rowHome i r g)).map (fun x => x.2.2.1)).sum + g.lines ≤ sliceLines

/-- The least recently used resident row of a slice. -/
def Tenant.lruRow (t : Tenant) (slice : Nat) : Option (Nat × Nat) :=
  ((t.residents slice).foldl (fun (b : Option (Nat × Nat × Nat × Nat)) x =>
    match b with
    | none => some x
    | some y => if x.2.2.2 < y.2.2.2 then some x else some y) none).map (fun x => (x.1, x.2.1))

def State.modStream (s : State) (tn i : Nat) (h : SRegion → SRegion) : State :=
  s.modTenant tn (fun t => match SMap.get? t.streams i with
    | some g => { t with streams := SMap.set t.streams i (h g) }
    | none => t)
def State.setRow (s : State) (tn i r : Nat) (x : Row) : State :=
  s.modStream tn i (fun g => { g with row := SMap.set g.row r x })
def State.rowOf (s : State) (tn i r : Nat) : Row :=
  match SMap.get? (s.tenant tn).streams i with
  | some g => g.rowAt r
  | none => Row.new

/-- Schedule the eviction of a resident row in a format, unless one is scheduled (R206, R211). -/
def State.scheduleEviction (s : State) (tn i r fmt : Nat) : State :=
  let x := s.rowOf tn i r
  if !x.res || x.fmt.isSome then s
  else (s.setRow tn i r { x with fmt := some fmt }).post [evt .rowEviction [tn, i, r]]

/-- Room on a slice: evict the least recently used row, in its region's default format. -/
def State.pressRow (s : State) (tn slice : Nat) : State :=
  match (s.tenant tn).lruRow slice with
  | none => s
  | some (i, r) =>
    let z := match SMap.get? (s.tenant tn).streams i with
      | some g => if g.z then 1 else 0
      | none => 0
    s.scheduleEviction tn i r z

/-- The add or snapshot by this identity is still to come: a store on its way, an operation, an engine command. -/
def State.awaits (s : State) (key : Nat) : Bool :=
  s.flights.any (fun f => f.id = key)
    || s.cores.any (fun p => p.2.lq.any (fun m => m.id = key && !m.fin) || p.2.tu.any (fun m => m.id = key)
      || p.2.slots.any (fun q => match q.2.occ with
        | .live t => t.ops.any (fun o => o.id = key)
        | _ => false))

/-- What an add or a snapshot finds at the row's home slice. -/
inductive RowTry where
  | ready (s : State)
  | later (s : State)

/-- A row made ready for an add (`write`) or a snapshot, whose identity is `key`: those that wait are served in the order of
their arrival. A row with an image is reloaded first; an add to a row without storage takes it, evicting where the slice is full
(R206). -/
def State.rowReady (s : State) (tn i r : Nat) (g : SRegion) (write : Bool) (key : Nat) : RowTry :=
  let x := g.rowAt r
  let l := x.wait.filter s.awaits
  let join := fun (s : State) => s.setRow tn i r { s.rowOf tn i r with wait := if l.contains key then l else l ++ [key] }
  let serve := fun (x : Row) => s.setRow tn i r { x with wait := l.filter (fun w => w ≠ key) }
  if l.head?.getD key ≠ key then .later (join s)
  else if x.p || x.res then .ready (serve x)
  else if x.img then
    if s.due.any (fun e => e.ev = .rowReload && e.arg.nums = [tn, i, r]) then .later (join s)
    else .later (join (s.post [evt .rowReload [tn, i, r]]))
  else if !write then .ready (serve x)
  else
    let t := s.tenant tn
    if t.roomFor i r g then .ready (serve { x with res := true })
    else .later (join (s.pressRow tn (t.rowHome i r g)))

/-! ### Adds (R197, R198) -/

/-- The width of an element of a source type: 0 FP32, 1 BF16, 2 FP16, 3 INT32. -/
def addBits (src : Nat) : Nat := if src = 1 || src = 2 then 16 else 32

def saMin : Int := -(2 : Int) ^ 47
def saMax : Int := (2 : Int) ^ 47 - 1
def satSa (z : Int) : Int := min (max z saMin) saMax

/-- A delta as an integer in units of 2^−F, and whether it saturated; none for a NaN. -/
def deltaOf (src f d : Nat) : Option (Int × Bool) :=
  if src = 3 then some (sgn 32 d, false)
  else
    match (if src = 1 then bf16 else if src = 2 then fp16 else fp32).val d with
    | .nan _ => none
    | .inf n => some (if n then saMin else saMax, true)
    | .num n m e =>
      let r := (roundShift 0 n m false (-(e + f))).1
      let z : Int := if n then -(r : Int) else r
      some (satSa z, satSa z ≠ z)

/-- Add one element: the row, and whether it saturated. -/
def Row.addOne (x : Row) (c : Nat) (d : Option (Int × Bool)) : Row × Bool :=
  match d with
  | none => ({ x with inv := true }, false)
  | some (q, sat) =>
    let xo := SMap.get x.x c 0
    let xn := satSa (xo + q)
    let big := sat || xn ≠ xo + q
    ({ x with x := if xn = 0 then SMap.del x.x c else SMap.set x.x c xn,
              ss := ((x.ss : Int) + xn * xn - xo * xo).toNat,
              ovf := x.ovf || big, t := x.t || big }, big)

/-- ApplyAdd (R198): elements from column `c` on; the row, and the first element that saturated. -/
def Row.addAll (x : Row) (c : Nat) (ds : List (Option (Int × Bool))) : Row × Option Nat :=
  match ds with
  | [] => (x, none)
  | d :: r =>
    let (y, big) := x.addOne c d
    let (z, o) := y.addAll (c + 1) r
    (z, if big then some c else o)

/-- What an add to an address gives. -/
inductive AddTry where
  | none
  | later (s : State)
  | poisoned (s : State)
  | tainted (s : State)
  | applied (s : State) (sat : Option (Nat × Nat)) (ot : Bool)

/-- The add operation `key` at the home slice of its row (R197 to R199): `sat` names the address of the lowest saturated element
and its row. With `det` an add that would leave the row tainted is not applied (R304). -/
def State.streamAdd (s : State) (tn va src : Nat) (ds : List Nat) (taint det : Bool) (key : Nat) : AddTry :=
  match (s.tenant tn).streamAt va with
  | none => .none
  | some (i, g) =>
    let r := g.row? va
    match s.rowReady tn i r g true key with
    | .later s => .later s
    | .ready s =>
      let x := s.rowOf tn i r
      if x.p then .poisoned s
      else
        let (y, o) := x.addAll (g.col? va) (ds.map (deltaOf src g.f))
        let y := { y with adds := (y.adds + 1) % 2 ^ 64, t := y.t || taint, used := s.now }
        if det && y.t then .tainted s
        else .applied (s.setRow tn i r y) (o.map (fun c => (g.base + 4 * (r * g.len + c), r))) g.ot

/-- The elements of a store-buffer entry: its data cut into elements of the source type. -/
def SBEntry.deltas (e : SBEntry) (src : Nat) : List Nat :=
  let w := addBits src
  let ws := if e.size = 4 then [(nthD e.data 0 TWord.zero).v.toNat % 2 ^ 32]
    else (e.data.map (fun d => d.v.toNat))
  if e.size = 4 then ws
  else ws.flatMap (fun v => (List.range (64 / w)).map (fun j => v / 2 ^ (w * j) % 2 ^ w))

/-- STREAM_ADD_APPLY: the add in flight is applied, or the row is not ready, or nothing is there (R197). -/
def execStreamAddApply (s : State) : Out :=
  match s.flights.find? (fun f => f.id = s.argN 0) with
  | none => .next s
  | some f =>
    match f.entry.kind with
    | .streamAdd src _ =>
      let tn := s.tenantOn f.core
      let e := f.entry
      let th := s.sameThread f.core e.slot e.inc
      let det : Bool := match th with
        | some t => s.taintTrap tn t.task true
        | none => false
      let drop := fun (s : State) =>
        (({ s with flights := s.flights.filter (fun g => g.id ≠ f.id) } : State).countHot (f.core / 8) tn e.leaf).demand (f.core / 8) e.va
      let trap := fun (s : State) (code : Nat) (cause : Nat) =>
        (match th with
         | some t => (drop s).addDefer f.core e.slot code (w64 e.va) cause e.pc e.id t.trap.tip
         | none => drop s)
      match s.streamAdd tn e.va src (e.deltas src) (e.data.any (fun d => d.t)) det f.id with
      | .later s => .next (s.again .streamAddApply)
      | .none => .next (trap s tSYNCMISUSE 2)
      | .tainted s => .next (trap s tTAINT 0)
      | .poisoned s => .next (drop s)
      | .applied s sat ot =>
        let s := drop s
        (match sat with
         | some (a, r) =>
           if ot then .next (s.post [⟨.saovf, ⟨[f.core, e.slot, e.inc], [⟨w64 a, false⟩, ⟨w64 r, false⟩]⟩⟩]) else .next s
         | none => .next s)
    | _ => .next s

/-- SAOVF (R199): the report reaches the adding thread's core; that of a thread which has exited or been saved is discarded. -/
def execSaovf (s : State) : Out :=
  match s.sameThread (s.argN 0) (s.argN 1) (s.argN 2) with
  | none => .next s
  | some t =>
    let tr : Trap := ⟨tSAOVF, (s.argW 0).v, (s.argW 1).v, t.trap.tip⟩
    .next (s.setThread (s.argN 0) (s.argN 1) { t with saovf := if t.saovf.isSome then t.saovf else some tr })

/-! ### The Radius port (R200, R201) -/

/-- A snapshot of a row. -/
structure Snap where
  x   : SMap Int
  ss  : Nat
  inv : Bool
  t   : Bool
deriving DecidableEq, Repr

def Row.snap (x : Row) : Snap := ⟨x.x, x.ss, x.inv, x.t⟩

/-- r of R200 as FP32 bits: +∞ where a = 0. a = n·2^q / L. -/
def SRegion.rms (g : SRegion) (ss : Nat) : Nat :=
  match fp32.val g.eps with
  | .num _ m e =>
    let q := min (-(2 * (g.f : Int))) e
    let n := ss * 2 ^ (-(2 * (g.f : Int)) - q).toNat + g.len * m * 2 ^ (e - q).toNat
    if n = 0 then fp32.inf false
    else
      let (n, q) := if q % 2 = 0 then (n, q) else (2 * n, q - 1)
      let k := Nat.log2 n + 64
      let r := isqrt (g.len * 2 ^ (2 * k) / n)
      (roundF fp32 0 false r (-(k : Int) - q / 2) (r * r * n ≠ g.len * 2 ^ (2 * k))).1
  | _ => fp32.inf false

/-- The exact y of columns `c` to `c + n − 1`; none where the row holds a NaN. -/
def SRegion.port (g : SRegion) (p : Snap) (c n : Nat) : Option (List FVal) :=
  if p.inv then none
  else
    match fp32.val (g.rms p.ss) with
    | .num _ mr er =>
      some ((List.range n).map (fun j =>
        let x := SMap.get p.x (c + j) 0
        match bf16.val (SMap.get g.gamma (c + j) 0) with
        | .num s mg eg =>
          let m := x.natAbs * mr * mg
          .num (m ≠ 0 && (decide (x < 0) != s)) m (er + eg - g.f)
        | v => v))
    | _ => some (List.replicate n (.num false 0 0))

/-- A block of 64 elements from column `c`, quantised at width `b`, and which elements changed. -/
def SRegion.portBlock (g : SRegion) (b : Nat) (p : Snap) (c : Nat) : Block × List Bool :=
  match g.port p c 64 with
  | none => (Block.invalid, [])
  | some v => quantiseAll b v

/-- Elements rounded to a format, each with its flags. -/
def portLanes (f : FFmt) (v : Option (List FVal)) (n : Nat) : List (Nat × Nat) :=
  match v with
  | none => List.replicate n (f.nan, 0)
  | some l => l.map (fun x => match x with
      | .num s m e => roundF f 0 s m e false
      | _ => (f.nan, 0))

/-! ### SAADD and SAREAD (R208, R209) -/

/-- The elements of one SAADD. -/
def saaddCount (lo : Nat) : Nat := 512 / addBits lo

def execSaadd (f : Fields) (s : State) : Out :=
  globalOp (.saadd f) f s (4 * saaddCount f.lo) 'W' (fun c k t a off s =>
    let ws := s.getGs c t f.d 8
    (s.finish c k).startOp c k
      { Op.new (.saadd f) t .store .glob f.la with
        seg := f.hi, off := off, acc := [Access.at (vaOf t f.hi off) 64 TWord.zero], data := storeWords ws a.t,
        ataint := a.t })

/-- The alignment of a SAREAD's address. -/
def sareadAlign (lo : Nat) : Nat :=
  match lo with
  | 0 => 64
  | 1 => 128
  | _ => 256

/-- SAREAD: for a panel `lane` holds its width and `data` first the pointer's image, then the words of the blocks read so
far; `off` is the address, from which the accesses of a panel's further rows follow once the region is known. -/
def execSaread (f : Fields) (s : State) : Out :=
  globalOp (.saread f) f s (sareadAlign f.lo) 'R' (fun c k t a off s =>
    let b := fmtAw (s.core c).fmt + 1
    let va := vaOf t f.hi off % 2 ^ 57
    let o : Op := { Op.new (.saread f) t .saread .glob f.la with
      seg := f.hi, off := va, acc := [Access.at va (sareadAlign f.lo) TWord.zero], ataint := a.t, lane := b }
    if f.lo = 2 then
      let p := t.ptr f.d
      match blocksAt (s.memLAt t) p.v (panelBytes b) with
      | .error (code, addr, aux) => s.raise c k code addr aux
      | .ok l =>
        match l.find? (fun p => (s.core p.1).shut) with
        | some p => s.park c k (.pool p.1)
        | none => (s.finish c k).startOp c k { o with data := [p] }
    else (s.finish c k).startOp c k { o with pend := groupRegs f.d })

/-- An add of slot `k` to a region that is not yet applied (R203 item 3): older than operation `id`. -/
def State.addsPending (s : State) (c k id : Nat) (g : SRegion) : Bool :=
  (s.pendingStores c ++ s.parkedOf c k).any (fun e => s.madeBy c k e && e.id < id && (match e.kind with
      | .streamAdd _ _ => g.spans e.va
      | _ => false))
    || (match s.thread? c k with
        | some t => t.ops.any (fun o => o.kind = .store && o.id < id && o.space = .glob
            && o.acc.any (fun a => !a.done && g.spans (a.addr % 2 ^ 57)))
        | none => false)

/-- The accesses of a SAREAD of a panel, once its region is known: one for each of its 64 rows that the region has (R209). -/
def Op.panelRows (o : Op) (g : SRegion) : Op :=
  { o with acc := (List.range (min 64 (g.rows - g.row? o.off))).map (fun j => Access.at (o.off + 4 * g.len * j) 256 TWord.zero) }

/-- SAREAD at its port: each row's address translated, of a STREAM page with a region, after the thread's earlier adds to it. -/
def State.sareadProgress (s : State) (c k : Nat) (t : Thread) (o : Op) : State :=
  let retry := fun (s : State) => s.post [evt .l2Request [c, k, o.id]]
  match o.pendingAcc with
  | none => s.opNext c k o
  | some (j, a) =>
    if s.mustFollow c t o a then retry s
    else
      match s.lookup (c / 8) a.addr 0 with
      | none => retry (s.startWalk t.tenant 0 c k a.addr 0)
      | some tr =>
        match (s.tenant t.tenant).streamAt a.addr with
        | none => s.opNext c k (o.refuse j tSYNCMISUSE 2)
        | some (_, g) =>
          if Leaf.cl tr.leaf ≠ 2 then s.opNext c k (o.refuse j tSYNCMISUSE 2)
          else if s.addsPending c k o.id g || (!o.sent && s.portFull (c / 8)) then retry s
          else
            let o := { if o.panel && o.data.length ≤ 1 then o.panelRows g else o with sent := true }
            (s.modThread c k (fun t => t.setOp o)).post [⟨.radiusSnapshot, ⟨[c, k, o.id], [⟨tr.leaf, false⟩]⟩⟩]

/-- Write words into the target banks from a pointer on, bypassing every store buffer (R209). -/
def State.panelOut (s : State) (tn : Nat) (p : TWord) (ws : List TWord) : State :=
  ws.zipIdx.foldl (fun s x =>
    match s.memL tn (advancePtr p.v (8 * x.2)) 8 with
    | .error _ => s
    | .ok (c, off) => s.modCore c (fun y =>
        { y with win := y.win.store off 8 ⟨x.1.v, x.1.t || p.t⟩ })) s

/-- The words of one block kept by SAREAD.bfp: exponent, then planes from the sign plane down, each with the row's taint. -/
def blockWords (b : Nat) (x : Block) (t : Bool) : List TWord :=
  ⟨w64 x.1, t⟩ :: (List.range b).map (fun q => ⟨w64 (planeOf (b - 1 - q) x.2), t⟩)

/-- The panel of R173 from 64 such lists. -/
def panelOfBlocks (b : Nat) (ws : List TWord) : List TWord :=
  let at' := fun j i => nthD ws (j * (b + 1) + i) TWord.zero
  (List.range 8).map (fun k =>
      ⟨w64 ((List.range 8).foldr (fun i n => (at' (8 * k + i) 0).v.toNat + 256 * n) 0),
       (List.range 8).any (fun i => (at' (8 * k + i) 0).t)⟩)
    ++ (List.range b).flatMap (fun q => (List.range 64).map (fun j => at' j (1 + q)))

/-- A row of a panel has been read: its block's words are kept; the value of its access is the address of its first element
that quantisation changed, plus 1. The last row completes the panel: the rows that the region has not are zero blocks, and the
panel is written to the target banks. -/
def State.panelRow (s : State) (c k j : Nat) (t : Thread) (o : Op) (a : Access) (x : Block × List Bool) (tn : Bool) : State :=
  let nx := match x.2.findIdx? id with
    | some i => a.addr + 4 * i + 1
    | none => 0
  let o := { o.perform j ⟨w64 nx, false⟩ with data := o.data ++ blockWords o.lane x.1 tn }
  if !o.ended then s.opNext c k o
  else
    let zero := (List.replicate (64 - o.acc.length) (blockWords o.lane Block.zero o.ataint)).flatten
    let s := s.panelOut t.tenant (nthD o.data 0 TWord.zero) (panelOfBlocks o.lane (o.data.drop 1 ++ zero))
    let s := match o.acc.find? (fun b => b.val.v ≠ 0) with
      | some b => s.raiseAtCycle c k o.pc o.born (b.val.v - 1) flNX
      | none => s
    s.opNext c k o

/-- The elements of a row as SAREAD.fp32 and SAREAD.bf16 deliver them: an enabled flag is reported with the address of the first
element that raises one (R240). -/
def State.lanesRow (s : State) (c k j : Nat) (t : Thread) (o : Op) (a : Access) (lo : Nat) (v : Nat → Option (List FVal)) (tn : Bool) :
    State :=
  let fm := if lo = 1 then bf16 else fp32
  let n := if lo = 1 then 32 else 16
  let l := portLanes fm (v n) n
  let ws := (packElems (512 / n) (l.map Prod.fst)).map (fun w => (⟨w64 w, tn⟩ : TWord))
  let fls := l.map Prod.snd
  let fl := orFlags fls
  let s := if fl = 0 then s else s.raiseAtCycle c k o.pc o.born (w64 (a.addr + 4 * t.firstRaised fls)) fl
  s.opNext c k ({ o with data := ws }.perform j TWord.zero)

/-- RADIUS_SNAPSHOT: the next row of a SAREAD is taken (R202); it is performed as a load at that point (R203). -/
def execRadiusSnapshot (s : State) : Out :=
  let c := s.argN 0
  let k := s.argN 1
  match s.opOf c k (s.argN 2) with
  | none => .next s
  | some (t, o) =>
    match o.pendingAcc with
    | none => .next s
    | some (j, a) =>
      if (s.panelCores t.tenant o).any (fun d => s.barred d o.id) then .next (s.opNext c k (o.refuse j tPTRRANGE 0))
      else if (s.panelCores t.tenant o).any (fun d => (s.core d).dead) then .next (s.again .radiusSnapshot)
      else
      match o.ins, (s.tenant t.tenant).streamAt a.addr with
      | .saread f, some (i, g) =>
        (match s.rowReady t.tenant i (g.row? a.addr) g false o.id with
         | .later s => .next (s.again .radiusSnapshot)
         | .ready s =>
           let r := g.row? a.addr
           let x := s.rowOf t.tenant i r
           let s := (s.countHot (c / 8) t.tenant (s.argW 0).v).demand (c / 8) a.addr
           if x.p then .next (s.opNext c k (o.refuse j tPOISON 0))
           else
             let s := if x.res then s.setRow t.tenant i r { x with used := s.now } else s
             let tn := x.t || o.ataint
             if f.lo = 2 then .next (s.panelRow c k j t o a (g.portBlock o.lane x.snap (g.col? a.addr)) tn)
             else .next (s.lanesRow c k j t o a f.lo (g.port x.snap (g.col? a.addr)) tn))
      | .saread _, none => .next (s.opNext c k (o.refuse j tSYNCMISUSE 2))
      | _, _ => .next s

/-! ### Images (R204, R205) -/

/-- A number as `n` little-endian bytes. -/
def leBytes (n v : Nat) : List Nat :=
  match n with
  | 0 => []
  | k + 1 => v % 256 :: leBytes k (v / 256)
def fromLe (l : List Nat) : Nat := l.foldr (fun b n => b + 256 * n) 0

/-- The 64 elements of a group. -/
def Row.group (x : Row) (g : Nat) : List Int := (List.range 64).map (fun i => SMap.get x.x (64 * g + i) 0)

/-- A group is compressible (R205). -/
def squeezable (l : List Int) : Bool :=
  l.all (fun v => -32768 ≤ v - nthD l 0 0 && v - nthD l 0 0 ≤ 32767)

def groupBytes (z : Bool) (l : List Int) : List Nat :=
  if z then leBytes 6 (wrapI 48 (nthD l 0 0)) ++ [0, 0] ++ l.flatMap (fun v => leBytes 2 (wrapI 16 (v - nthD l 0 0)))
  else l.flatMap (fun v => leBytes 6 (wrapI 48 v))

/-- The flags word of a header (R196). -/
def Row.flags (x : Row) : Nat :=
  (if x.p then 32 else 0) + (if x.img then 16 else 0) + (if x.res then 8 else 0) + (if x.t then 4 else 0)
    + (if x.inv then 2 else 0) + (if x.ovf then 1 else 0)

/-- The header's five words. -/
def Row.header (x : Row) : List Nat := [x.ss % 2 ^ 64, x.ss / 2 ^ 64, x.adds, x.version, x.flags]

/-- The bytes of a slot, in format 0 (E48) or 1 (E48Z); what E48Z leaves free is written as zero. -/
def Row.image (x : Row) (len fmt : Nat) : List Nat :=
  let gs := (List.range (len / 64)).map x.group
  let zs := gs.map (fun l => fmt = 1 && squeezable l)
  let map := fromLe ((List.range 128).map (fun b =>
    (List.range 8).foldr (fun i n => (if nthD zs (8 * b + i) false then 1 else 0) + 2 * n) 0))
  let body := (gs.zip zs).flatMap (fun p => groupBytes p.2 p.1)
  x.header.flatMap (leBytes 8) ++ List.replicate 24 0 ++ leBytes 128 map ++ List.replicate 64 0 ++ body
    ++ List.replicate (6 * len - body.length) 0

/-- Bytes as words. -/
def wordsOfBytes (fuel : Nat) (l : List Nat) : List Nat := (piecesOf fuel 8 l).map fromLe

/-- Write a whole line with a new check (R47, R204): every other copy of it is dropped. -/
def State.putLine (s : State) (line : Nat) (ws : List TWord) : State :=
  let s := s.discardLine line
  let m := (List.range 16).foldl (fun (m : Mem) i => m.setWord (16 * line + i) (nthD ws i TWord.zero)) s.mem
  { s with mem := m.setPoison line false }

/-- The bytes of a row's slot, and where it begins. -/
def slotBytes (len : Nat) : Nat := 256 + 6 * len
def SRegion.slotVa (g : SRegion) (r : Nat) : Nat := (g.segB + g.back + r * slotBytes g.len) % 2 ^ 57

/-- What an engine finds at a page: translated, declined by the runtime, or not yet (R55). -/
inductive EngineTry where
  | tr (t : Tr)
  | declined (s : State)
  | wait (s : State)

/-- The page of an address for an engine. The engines of a cluster use its port: its cache, and a walk where that misses, whose
fault is posted once and waits for its answer; the fabric's and the dispatcher's (4 and 5) are translated where they are (R54,
R55). Host memory is out of reach while the tenant's TDI is in ERROR (R334); a write to a page under migration is held (R60). -/
def State.enginePage (s : State) (tn who c slot va acc : Nat) : EngineTry :=
  let found : Option Tr :=
    if who = 4 || who = 5 then
      match s.translate tn va acc with
      | .ok tr => some tr
      | .error _ => none
    else s.lookup (c / 8) va acc
  match found with
  | some tr =>
    if Leaf.h tr.leaf && (s.tenant tn).tdi = 3 then .declined s
    else if accWrites acc && Leaf.wb tr.leaf then .wait s
    else .tr tr
  | none =>
    match s.walks.find? (fun w => w.who = who && w.core = c && w.slot = slot && pageOf w.va = pageOf va) with
    | some w => if w.declined then .declined (s.dropWalk w.id) else .wait s
    | none => .wait (s.startWalk tn who c slot va acc)

/-- The physical lines of `n` bytes from an address; the first page that does not translate is reported. -/
def State.engineLines (s : State) (tn who c slot va acc fuel : Nat) : Except EngineTry (List Nat) :=
  match fuel with
  | 0 => .ok []
  | n + 1 =>
    match s.enginePage tn who c slot va acc with
    | .tr tr =>
      match s.engineLines tn who c slot (va + 128) acc n with
      | .ok l => .ok (tr.pa / 128 :: l)
      | .error e => .error e
    | e => .error e

/-- The number by which the walks of a row are known. -/
def rowSlot (tn i r : Nat) : Nat := tn * 2 ^ 40 + i * 2 ^ 32 + r

/-- A row's eviction has ended: the SAEVICTs that name it count it, and the last sends SADONE (R211). -/
def State.evicted (s : State) (tn i r : Nat) (ok : Bool) : State :=
  let t := s.tenant tn
  let es := t.evicts.map (fun e =>
    if e.region = i && e.todo.contains r then
      { e with todo := e.todo.filter (fun x => x ≠ r), count := if ok then e.count + 1 else e.count,
               status := if ok then e.status else 0x10 }
    else e)
  let fin := (es.zip t.evicts).filter (fun p => p.1.todo.isEmpty && !p.2.todo.isEmpty)
  (s.setTenant tn { t with evicts := es }).post (fin.map (fun p => evt .sadone [tn, p.1.id]))

/-- ROW_EVICTION: the row's state at this point is written to its slot, and its lines are free (R206). The write waits like any
engine write for what its lines are in. -/
def execRowEviction (s : State) : Out :=
  let tn := s.argN 0
  let i := s.argN 1
  let r := s.argN 2
  match SMap.get? (s.tenant tn).streams i with
  | none => .next s
  | some g =>
    let x := g.rowAt r
    match x.fmt with
    | none => .next s
    | some fmt =>
      let c := 8 * (s.tenant tn).rowHome i r g
      match s.engineLines tn 3 c (rowSlot tn i r) (g.slotVa r) 5 (slotBytes g.len / 128) with
      | .error (.declined s) =>
        .next ((s.setRow tn i r { x with p := true, res := false, fmt := none }).evicted tn i r false)
      | .error (.wait s) => .next (s.again .rowEviction)
      | .error (.tr _) => .next (s.again .rowEviction)
      | .ok ls =>
        match ls.findSome? (fun l => s.homeGate (128 * l) 128 true) with
        | some s => .next (s.again .rowEviction)
        | none =>
        let x := { x with version := (x.version + 1) % 2 ^ 64, res := false, img := true, fmt := none }
        let ws := (wordsOfBytes (slotBytes g.len) (x.image g.len fmt)).map (fun v => (⟨w64 v, x.t⟩ : TWord))
        let s := ls.zipIdx.foldl (fun (s : State) p => s.putLine p.1 ((ws.drop (16 * p.2)).take 16)) s
        .next ((s.setRow tn i r { Row.new with img := true, wait := x.wait }).evicted tn i r true)

/-- The elements that the body of a slot holds: its groups one after another. -/
def readGroups (n g : Nat) (map : Nat) (l : List Nat) : SMap Int :=
  match n with
  | 0 => []
  | k + 1 =>
    let z := map / 2 ^ g % 2 = 1
    let base := sgn 48 (fromLe (l.take 6))
    let el := fun (i : Nat) =>
      if z then base + sgn 16 (fromLe ((l.drop (8 + 2 * i)).take 2)) else sgn 48 (fromLe ((l.drop (6 * i)).take 6))
    ((List.range 64).filterMap (fun i => if el i = 0 then none else some (64 * g + i, el i)))
      ++ readGroups k (g + 1) map (l.drop (if z then 136 else 384))

/-- The row that a slot's bytes hold (R206 item 2), with the taint of its words. -/
def rowOfImage (len : Nat) (l : List Nat) (t : Bool) : Row :=
  let w := fun k => fromLe ((l.drop (8 * k)).take 8)
  let fl := w 4
  { x := readGroups (len / 64) 0 (fromLe ((l.drop 64).take 128)) (l.drop 256), ss := w 0 + 2 ^ 64 * w 1, adds := w 2,
    version := w 3, p := fl / 32 % 2 = 1, img := true, res := true, t := t || fl / 4 % 2 = 1, inv := fl / 2 % 2 = 1,
    ovf := fl % 2 = 1, fmt := none, used := 0, wait := [] }

/-- The bytes of a line at the point of coherence, and its taint. -/
def State.lineBytes (s : State) (line : Nat) : List Nat :=
  (List.range 16).flatMap (fun i => leBytes 8 (s.curWord (16 * line + i)).v.toNat)
def State.lineTaint (s : State) (line : Nat) : Bool := (List.range 16).any (fun i => (s.curWord (16 * line + i)).t)

/-- ROW_RELOAD: the row comes back from its slot, once there is room for it (R206). -/
def execRowReload (s : State) : Out :=
  let tn := s.argN 0
  let i := s.argN 1
  let r := s.argN 2
  match SMap.get? (s.tenant tn).streams i with
  | none => .next s
  | some g =>
    let x := g.rowAt r
    if x.res || x.p || !x.img then .next s
    else if !(s.tenant tn).roomFor i r g then
      .next ((s.pressRow tn ((s.tenant tn).rowHome i r g)).again .rowReload)
    else
      let c := 8 * (s.tenant tn).rowHome i r g
      match s.engineLines tn 3 c (rowSlot tn i r) (g.slotVa r) 4 (slotBytes g.len / 128) with
      | .error (.declined s) => .next (s.setRow tn i r { x with p := true })
      | .error (.wait s) => .next (s.again .rowReload)
      | .error (.tr _) => .next (s.again .rowReload)
      | .ok ls =>
        match ls.findSome? (fun l => s.homeGate (128 * l) 128 false) with
        | some s => .next (s.again .rowReload)
        | none =>
          if ls.any (fun l => s.mem.poisoned l) then .next (s.setRow tn i r { x with p := true })
          else
            let s := ls.foldl (fun (s : State) l => s.applyAdds (128 * l) 128) s
            let y := rowOfImage g.len (ls.flatMap s.lineBytes) (ls.any s.lineTaint)
            .next (s.setRow tn i r { y with used := s.now, wait := x.wait })

/-- SADONE: the message of a SAEVICT whose slots have all been written. -/
def execSadone (s : State) : Out :=
  let tn := s.argN 0
  let t := s.tenant tn
  match t.evicts.find? (fun e => e.id = s.argN 1) with
  | none => .next s
  | some e =>
    let s := s.setTenant tn { t with evicts := t.evicts.filter (fun x => x.id ≠ e.id) }
    let c := (s.tidCore e.owner).getD 0
    .next (s.engineMsg c e.owner e.owner mkSADONE e.status 0 ⟨w64 e.count, false⟩)

/-! ### SANEW (R207) -/

/-- What a range of pages is: of the class asked for, not so, without translation (with the cause and the address), or not yet
known. -/
inductive RangeTry where
  | ok
  | bad
  | unmapped (cause va : Nat)
  | parked (s : State)

/-- The pages of [va, va + n): device leaves of a class, throughout. The page that a walk is awaited for is kept, where the
check has a `stage`, so that it goes on from there. -/
def State.rangeOn (s : State) (c k : Nat) (t : Thread) (cl acc : Nat) (stage : Option Nat) (fuel va n : Nat) : RangeTry :=
  match fuel with
  | 0 => .ok
  | m + 1 =>
    if n = 0 then .ok
    else
      match s.pageFor c k t va acc with
      | .parked s => .parked (match stage with
        | some g => s.modThread c k (fun t => { t with part := [g, va, n] })
        | none => s)
      | .declined cause => .unmapped cause va
      | .tr tr =>
        if Leaf.h tr.leaf || Leaf.cl tr.leaf ≠ cl then .bad
        else
          let step := pageSize tr.level - va % pageSize tr.level
          s.rangeOn c k t cl acc stage m (va + step) (n - step)

/-- The same of the ordinary device pages of a range of segment offsets, which must lie within the limit. -/
def State.segOn (s : State) (c k : Nat) (t : Thread) (sn acc : Nat) (stage : Option Nat) (off n : Nat) : RangeTry :=
  if off + n > (t.seg sn).limit then .bad
  else s.rangeOn c k t 0 acc stage (n / 4096 + 2) (vaOf t sn off % 2 ^ 57) n

/-- What reading words gives. -/
inductive WordsTry where
  | ok (l : List TWord)
  | trap (code cause off : Nat)
  | parked (s : State)

/-- Read `n` words at a segment offset. -/
def State.readWords (s : State) (c k : Nat) (t : Thread) (sn off n : Nat) : WordsTry :=
  match n with
  | 0 => .ok []
  | m + 1 =>
    match s.readWord c k t (vaOf t sn off) with
    | .parked s => .parked s
    | .trap code cause => .trap code cause off
    | .val w =>
      match s.readWords c k t sn (off + 8) m with
      | .ok l => .ok (w :: l)
      | x => x

/-- The parameter block of R207. -/
structure SParam where
  rows : Nat
  len  : Nat
  die  : Nat
  ot   : Bool
  z    : Bool
  f    : Nat
  eps  : Nat
  gam  : Nat
  back : Nat
deriving DecidableEq, Repr

/-- The block's fields, or none where one is malformed. -/
def paramOf (w : List Word) : Option SParam :=
  let w0 := nthD w 0 0
  let w1 := nthD w 1 0
  let w2 := nthD w 2 0
  let w3 := nthD w 3 0
  let gam := (nthD w 4 0).toNat
  let back := (nthD w 5 0).toNat
  let len := w1.bits 16 0
  let eps := w3.bits 31 0
  let finite : Bool := match fp32.val eps with
    | .num n m _ => !n || m = 0
    | _ => false
  if w0.bits 63 24 ≠ 0 || w1.bits 63 17 ≠ 0 || len % 64 ≠ 0 || len < 64 || 65536 < len || w2.bits 63 12 ≠ 0
      || w2.bits 7 6 ≠ 0 || 40 < w2.bits 5 0 || w3.bits 63 32 ≠ 0 || !finite || gam % 64 ≠ 0 || back % 128 ≠ 0
      || nthD w 6 0 ≠ 0 || nthD w 7 0 ≠ 0 then none
  else some ⟨w0.bits 23 0 + 1, len, w2.bits 11 10, w2.bits 9 9 = 1, w2.bits 8 8 = 1, w2.bits 5 0,
             eps % 2 ^ 31, gam, back⟩

/-- The gains held by words: four to a word. -/
def gainsOf (l : List TWord) : List Nat :=
  l.flatMap (fun w => (List.range 4).map (fun j => w.v.toNat / 2 ^ (16 * j) % 65536))

/-- The lowest free entry of a table of 256. -/
def Tenant.freeStream (t : Tenant) : Option Nat := (List.range 256).find? (fun i => (SMap.get? t.streams i).isNone)

/-- What checks come to: a status, or a wait for a page. -/
inductive ParamCheck where
  | status (n : Nat)
  | parked (s : State)

/-- The region of `p` at a segment offset would overlap none that lives, begins aligned, and lies within the limit (R207). -/
def State.spanFits (s : State) (t : Thread) (sn off : Nat) (p : SParam) : Bool :=
  let va := vaOf t sn off % 2 ^ 57
  let n := 4 * p.rows * p.len
  va % 256 = 0 && off + n ≤ (t.seg sn).limit
    && !(s.tenant t.tenant).streams.any (fun q => q.2.base < va + n && va < q.2.base + 4 * q.2.rows * q.2.len)

/-- Where a check of [va, va + n) goes on: where it was left, or from the start. -/
def Thread.rangeLeft (t : Thread) (stage va n : Nat) : Nat × Nat :=
  match t.part with
  | [g, a, r] => if g = stage && a + r = va + n then (a, r) else (va, n)
  | _ => (va, n)

/-- Checks 4 to 7 of R207 for a region of a tenant, with its `bn` bytes of backing area: the status. The pages of the span are
known once the check has come to those of the backing area (stage 4). -/
def State.sanewStatus (s : State) (c k : Nat) (t : Thread) (sn off : Nat) (p : SParam) : ParamCheck :=
  let va := vaOf t sn off % 2 ^ 57
  let n := 4 * p.rows * p.len
  let bva := vaOf t sn p.back % 2 ^ 57
  let bn := p.rows * slotBytes p.len
  let span := t.rangeLeft 3 va n
  let back := t.rangeLeft 4 bva bn
  match (if back ≠ (bva, bn) then .ok else if !s.spanFits t sn off p then .bad
    else s.rangeOn c k t 2 6 (some 3) (n / 4096 + 2) span.1 span.2 : RangeTry) with
  | .parked s => .parked s
  | .bad => .status 2
  | .unmapped _ _ => .status 2
  | .ok =>
    if ((s.tenant t.tenant).slicesOn p.die).isEmpty then .status 4
    else if p.back + bn > (t.seg sn).limit || !(t.seg sn).has 'W' || !(t.seg sn).has 'E' then .status 5
    else
      match s.rangeOn c k t 0 6 (some 4) (bn / 4096 + 2) back.1 back.2 with
      | .parked s => .parked s
      | .bad => .status 5
      | .unmapped _ _ => .status 5
      | .ok => .status (if (s.tenant t.tenant).freeStream.isNone then 3 else 0)

/-- Create the region: it takes the lowest free entry. -/
def State.sanewMake (s : State) (t : Thread) (sn off : Nat) (p : SParam) (gains : List Nat) : State :=
  let g : SRegion :=
    { base := vaOf t sn off % 2 ^ 57, rows := p.rows, len := p.len, f := p.f, eps := p.eps,
      gamma := gains.zipIdx.map (fun x => (x.2, x.1)), die := p.die, ot := p.ot, z := p.z, segB := (t.seg sn).base,
      back := p.back, row := [] }
  s.modTenant t.tenant (fun tn => match tn.freeStream with
    | some i => { tn with streams := SMap.set tn.streams i g }
    | none => tn)

/-- What a check of SANEW that reads comes to: the words, a status, a trap, or a wait. -/
inductive SanewRead where
  | words (l : List TWord)
  | status (n : Nat)
  | trap (code : Nat) (addr aux : Word)
  | parked (s : State)

/-- Read `n` words at a segment offset, whose pages must be ordinary device memory within the limit (R207). -/
def State.sanewRead (s : State) (c k : Nat) (t : Thread) (sn off n : Nat) : SanewRead :=
  match s.segOn c k t sn 0 none off (8 * n) with
  | .bad => .status 5
  | .parked s => .parked s
  | .unmapped cause va => .trap tPAGEFLT (w64 (va - (t.seg sn).base)) (preciseAux cause)
  | .ok =>
    match s.readWords c k t sn off n with
    | .parked s => .parked s
    | .trap code cause bad => .trap code (w64 bad) (preciseAux cause)
    | .ok l => .words l

/-- SANEW's checks 1 to 3: the parameter block and the gains. -/
inductive SanewBlock where
  | ok (p : SParam) (gains : List Nat)
  | status (n : Nat)
  | trap (code : Nat) (addr aux : Word)
  | parked (s : State)

def State.sanewBlock (s : State) (c k : Nat) (t : Thread) (sn blk : Nat) : SanewBlock :=
  if blk % 64 ≠ 0 then .status 5
  else
    match s.sanewRead c k t sn blk 8 with
    | .status n => .status n
    | .trap a b d => .trap a b d
    | .parked s => .parked s
    | .words ws =>
      match paramOf (ws.map (fun w => w.v)) with
      | none => .status 1
      | some p =>
        match s.sanewRead c k t sn p.gam (p.len / 4) with
        | .status n => .status n
        | .trap a b d => .trap a b d
        | .parked s => .parked s
        | .words gw => if (gainsOf gw).any (fun b => !(bf16.val b).finite) then .status 1 else .ok p (gainsOf gw)

def execSanew (f : Fields) (s : State) : Out :=
  issue (.sanew f) s (fun c k t s =>
    let off := gOffset (s.getG c t f.a).v f.imm
    let blk := (s.readVals (.sanew f) c k t f).1.d.v.toNat
    let put := fun (s : State) (n : Nat) => (s.writeReg c k t f.d f.sd ⟨w64 n, false⟩).finish c k
    match memG t f.hi off 1 'R' with
    | some (code, addr, aux) => s.raise c k code addr aux
    | none =>
      match s.sanewBlock c k t f.hi blk with
      | .status n => put s n
      | .trap code addr aux => s.raise c k code addr aux
      | .parked s => s
      | .ok p gains =>
        match s.sanewStatus c k t f.hi off p with
        | .parked s => s
        | .status n => put (if n = 0 then s.sanewMake t f.hi off p gains else s) n)

/-! ### SAINFO, SAEVICT, SAFREE (R210 to R212) -/

/-- An instruction that names a region by an address of it: the checks, then the region, or SYNCMISUSE 2. -/
def regionOp (i : Instr) (f : Fields) (s : State) (size : Nat)
    (body : Nat → Nat → Thread → Nat → Nat → Nat → SRegion → State → State) : Out :=
  globalOp i f s size 'R' (fun c k t _ off s =>
    match (s.tenant t.tenant).streamAt (vaOf t f.hi off % 2 ^ 57) with
    | none => s.raise c k tSYNCMISUSE (w64 (vaOf t f.hi off % 2 ^ 57)) (preciseAux 2)
    | some (x, g) => body c k t off (vaOf t f.hi off % 2 ^ 57) x g s)

/-- The header of a row that is not resident, as its image holds it; a word that cannot be read is free. -/
def State.imageHeader (s : State) (tn : Nat) (g : SRegion) (r : Nat) : Row × State :=
  match s.translate tn (g.slotVa r) 4 with
  | .ok tr => (rowOfImage 0 (s.lineBytes (tr.pa / 128)) (s.lineTaint (tr.pa / 128)), s)
  | .error _ =>
    let (a, s) := s.freeVal
    let (b, s) := s.freeVal
    let (d, s) := s.freeVal
    ({ Row.new with ss := a.toNat, adds := b.toNat, version := d.toNat }, s)

/-- The row as SAINFO sees it (R210). -/
def State.infoRow (s : State) (tn i r : Nat) (g : SRegion) : Row × State :=
  let x := s.rowOf tn i r
  if x.res || !x.img then (x, s)
  else
    let (y, s) := s.imageHeader tn g r
    ({ y with res := false, img := true, p := x.p || y.p }, s)

def execSainfo (f : Fields) (s : State) : Out :=
  regionOp (.sainfo f) f s 4 (fun c k t _ va i g s =>
    if s.addsPending c k s.nextId g then s.park c k .storeSpace
    else
      let a := s.getG c t f.a
      let (v, s) := s.readVals (.sainfo f) c k t f
      let put := fun (s : State) (w : Word) (tn : Bool) => (s.writeReg c k t f.d f.sd ⟨w, tn⟩).finish c k
      match v.d.v.toNat with
      | 0 =>
        put s (w64 ((g.rows - 1) * 2 ^ 40 + (g.len / 64 - 1) * 2 ^ 29 + g.f * 2 ^ 23 + g.die * 2 ^ 21
          + (if g.ot then 2 ^ 20 else 0) + (if g.z then 2 ^ 19 else 0) + i)) a.t
      | n =>
        let (x, s) := s.infoRow t.tenant i (g.row? va) g
        if n ≤ 5 then put s (w64 (nthD x.header (n - 1) 0)) true
        else if n = 6 then put s (w64 (g.rms x.ss)) true
        else put s allOnes (a.t || v.d.t))

def execSaevict (f : Fields) (s : State) : Out :=
  regionOp (.saevict f) f s 1 (fun c k t off va i g s =>
    let (v, s') := s.readVals (.saevict f) c k t f
    let n := v.d.v.toNat
    let put := fun (s : State) (w : TWord) => (s.writeReg c k t f.d f.sd w).finish c k
    if (va - g.base) % (4 * g.len) ≠ 0 then s.raise c k tALIGN (w64 off) (w64 f.hi)
    else if n = 0 || 65536 < n then put s' ⟨allOnes, (s.getG c t f.a).t || v.d.t⟩
    else
      let r := g.row? va
      let rows := (g.row.filter (fun p => r ≤ p.1 && p.1 < min (r + n) g.rows && p.2.res && p.2.fmt.isNone)).map Prod.fst
      let s := rows.foldl (fun s q => s.scheduleEviction t.tenant i q f.lo) s'
      let (id, s) := s.fresh
      let e : Evict := ⟨id, s.tid c k t, i, rows, 0, 0⟩
      let s := s.modTenant t.tenant (fun tn => { tn with evicts := tn.evicts ++ [e] })
      let s := if rows.isEmpty then s.post [evt .sadone [t.tenant, id]] else s
      put s ⟨w64 rows.length, true⟩)

def execSafree (f : Fields) (s : State) : Out :=
  globalOp (.safree f) f s 1 'R' (fun c k t _ off s =>
    let va := vaOf t f.hi off % 2 ^ 57
    match (s.tenant t.tenant).streams.find? (fun p => p.2.base = va) with
    | none => s.raise c k tSYNCMISUSE (w64 va) (preciseAux 3)
    | some (i, g) =>
      if s.addsPending c k s.nextId g || g.row.any (fun p => p.2.fmt.isSome) then s.park c k .storeSpace
      else (s.modTenant t.tenant (fun tn => { tn with streams := SMap.del tn.streams i })).finish c k)

end Sys2Proof.Machine
end

