-- ==== Sys2Proof/Machine/Lattice.lean ====
section
/-!
DEFINITION. Sys2Proof/Machine/Lattice.lean: the Lattice (R176 to R185, R190 to R193): tiles, command queues, the fetch of
operands, plane pairs and accumulation, and the completion messages.
-/
namespace Sys2Proof.Machine
open Sys2Proof

/-! ### Queues and tiles (R177, R181) -/

def Core.tile (x : Core) (n : Nat) : Tile := nthD x.tiles n Tile.reset
def Core.setTile (x : Core) (n : Nat) (y : Tile) : Core := { x with tiles := setNth x.tiles n y }
def Core.setLCmd (x : Core) (m : LCmd) : Core := { x with lq := x.lq.map (fun y => if y.id = m.id then m else y) }

/-- The commands of a queue in front of one. -/
def Core.lqBefore (x : Core) (id : Nat) : List LCmd := x.lq.takeWhile (fun m => m.id ≠ id)

/-- An earlier command of the queue has not finished with the tile. -/
def Core.blocked (x : Core) (m : LCmd) : Bool := (x.lqBefore m.id).any (fun y => y.tile = m.tile && !y.fin)

/-- The command of a cluster by its identity, with its core. -/
def State.lcmd? (s : State) (cl id : Nat) : Option (Nat × LCmd) :=
  ((List.range 8).findSome? (fun j => ((s.core (8 * cl + j)).lq.find? (fun m => m.id = id)).map (fun m => (8 * cl + j, m))))

/-- A command is passed over: an earlier one on its tile is parked on a translation fault (R177). -/
def Core.passedOver (x : Core) (m : LCmd) : Bool := (x.lqBefore m.id).any (fun y => y.tile = m.tile && !y.fin && y.parked)

/-- The first command of a queue that has not started, past those that are passed over. -/
def Core.headCmd (x : Core) : Option LCmd := x.lq.find? (fun m => m.began = 0 && !x.passedOver m)

/-- The head may start: an MSTORE, MZERO or MFREE once every earlier command on the tile has finished with it (R190, R214). -/
def Core.startable (x : Core) : Option LCmd :=
  match x.headCmd with
  | none => none
  | some m => if m.kind ≠ 0 && x.blocked m then none else some m

/-- Ask the Lattice to start a command. -/
def State.kick (s : State) (cl : Nat) : State :=
  if s.due.any (fun e => e.ev = .latticeCommandStart && e.arg.nums = [cl]) then s
  else s.post [evt .latticeCommandStart [cl]]

/-- A release of a tile takes effect: it is free, and its poison clears (R181). -/
def Tile.freed (t : Tile) : Tile := { t with owner := none, rel := none, poison := false, poisonI := false }

/-- A command on the tile has finished: a release that waited for it takes effect (R181). -/
def Core.tileDone (x : Core) (m : LCmd) : Core :=
  if (x.tile m.tile).rel = some m.id then x.setTile m.tile (x.tile m.tile).freed else x

/-- A command has nothing left to do but its message. -/
def State.finishCmd (s : State) (c : Nat) (m : LCmd) : State :=
  let m := { m with fin := true, parked := false, abuf := [], bbuf := [], pins := [] }
  ((s.modCore c (fun x => (x.setLCmd m).tileDone m)).post [evt .mxdone [c / 8, m.id]]).kick (c / 8)

/-- A tile becomes poisoned. -/
def Tile.spoil (t : Tile) : Tile := { t with poison := true, poisonI := true }

/-- An MMA that meets a failing line stops and poisons its tile (R182). -/
def State.failCmd (s : State) (c : Nat) (m : LCmd) (status : Nat) : State :=
  (s.modCore c (fun x => x.setTile m.tile (x.tile m.tile).spoil)).finishCmd c { m with status := status }

/-- Tiles of an ending or waiting thread are released in queue order (R181). -/
def State.releaseTiles (s : State) (c : Nat) (tid : Word) : State :=
  s.modCore c (fun x => (List.range 2).foldl (fun (x : Core) n =>
    let t := x.tile n
    if t.owner ≠ some tid then x
    else
      match ((x.lq ++ x.lqWait).filter (fun m => m.tile = n && !m.fin)).getLast? with
      | some m => x.setTile n { t with owner := none, rel := some m.id }
      | none => x.setTile n t.freed) x)

/-! ### Issue (R185, R190 to R192) -/

/-- MXERR at the instruction. -/
def State.mxerr (s : State) (c k tile cause : Nat) : State := s.raise c k tMXERR 0 (w64 (tile * 256 + cause))

/-- The checks of ownership and poison: the cause, if one fails. -/
def State.tileCheck (s : State) (c tile : Nat) (tid : Word) : Option Nat :=
  let t := (s.core c).tile tile
  if t.owner ≠ some tid then some 1 else if t.poisonI then some 2 else none

/-- A command with nothing particular. -/
def LCmd.new (kind : Nat) (owner : Word) (slot tile : Nat) (ctx : Word) (det : Bool) : LCmd :=
  { id := 0, kind := kind, owner := owner, slot := slot, tile := tile, ctx := ctx, seg := Seg.zero, segN := 0, aform := 0,
    aOff := 0, aPtr := 0, bGlob := false, bOff := 0, bPtr := 0, kreg := 0, fmt := 0, ord := false, addrT := false,
    began := 0, parked := false, got := [], abuf := [], bbuf := [], pins := [], kdone := 0, exec := 0, skip := 0,
    piece := 0, count := 0, status := 0, taint := false, det := det, fin := false }

/-- MZERO: another thread of the core waits for the tile since before this one. -/
def Core.tileEarlier (x : Core) (k tile since : Nat) : Bool :=
  x.slots.any (fun p => p.1 ≠ k && (match p.2.occ with
    | .live t => t.want = some (.tile tile) && (since = 0 || t.since < since)
    | _ => false))

/-- The K register's fields. -/
def kOf (w : Nat) : Nat := bitsOf w 12 0
def kTag (w : Nat) : Nat := bitsOf w 31 16
def kBad (w : Nat) : Bool := w / 2 ^ 32 ≠ 0 || bitsOf w 15 13 ≠ 0 || kOf w % 64 ≠ 0 || kOf w < 64 || 4096 < kOf w

def LCmd.nk (m : LCmd) : Nat := kOf m.kreg / 64
def LCmd.ba (m : LCmd) : Nat := fmtAw m.ctx + 1
def LCmd.ta (m : LCmd) : Nat := fmtAt m.ctx + 1
def LCmd.bb (m : LCmd) : Nat := fmtBw m.ctx + 1
def LCmd.tb (m : LCmd) : Nat := fmtBt m.ctx + 1

/-- The sizes of the operand sets (R176). -/
def LCmd.aBytes (m : LCmd) : Nat := 2 * m.nk * panelBytes m.ba
def LCmd.bBytes (m : LCmd) : Nat := m.nk * panelBytes m.bb

/-- The lowest of the acceptance codes that hold, 0 for none (R182). -/
def lowest (l : List (Bool × Nat)) : Nat :=
  l.foldl (fun a p => if p.1 && (a = 0 || p.2 < a) then p.2 else a) 0

/-- The codes of a global extent. -/
def extentCodes (g : Seg) (off n : Nat) (wr : Bool) : List (Bool × Nat) :=
  [(off + n > g.limit, 0x04), (!g.has 'E' || !g.has (if wr then 'W' else 'R'), 0x05), (off % 64 ≠ 0, 0x13)]

/-- The code of a local extent. -/
def State.localCode (s : State) (tn : Nat) (p : Word) (n : Nat) : List (Bool × Nat) :=
  match blocksAt (s.memL tn) p n with
  | .ok _ => []
  | .error (code, _, _) => [(true, code)]

/-- The rows of a region from one on that 128 rows reach, and their extent in bytes from the addressed element on. -/
def SRegion.rowsFrom (g : SRegion) (r : Nat) : Nat := min 128 (g.rows - r)
def SRegion.extent (g : SRegion) (r n : Nat) : Nat := (g.rowsFrom r - 1) * 4 * g.len + 4 * n

/-- An address that no live region spans lies on the last page of one, past its rows: its row number is at or beyond the row count
(DEDUCED, log entry 74). -/
def State.pastRows (s : State) (tn va : Nat) : Bool :=
  match s.walk tn va 6 with
  | .fault _ _ _ => false
  | .leaf l _ e =>
    Leaf.cl e = 2 && (s.tenant tn).streams.any (fun p =>
      p.2.base ≤ va && va / pageSize l = (p.2.base + 4 * p.2.rows * p.2.len - 1) / pageSize l)

/-- The codes of a Radius source (R176, R182). -/
def State.radiusCodes (s : State) (tn : Nat) (g : Seg) (off k : Nat) : List (Bool × Nat) :=
  let va := (g.base + off) % 2 ^ 57
  match (s.tenant tn).streamAt va with
  | none => (s.pastRows tn va, 0x01) :: extentCodes g off 4 false
  | some (_, r) =>
    (r.col? va % 64 ≠ 0 || r.col? va + k > r.len, 0x01) :: extentCodes g off (r.extent (r.row? va) k) false

/-- The status of an MMA at acceptance. -/
def State.mmaCodes (s : State) (tn : Nat) (m : LCmd) : Nat :=
  let a := match m.aform with
    | 0 => extentCodes m.seg m.aOff m.aBytes false
    | 1 => s.localCode tn m.aPtr m.aBytes
    | _ => s.radiusCodes tn m.seg m.aOff (kOf m.kreg)
  let b := if m.bGlob then extentCodes m.seg m.bOff m.bBytes false else s.localCode tn m.bPtr m.bBytes
  lowest (a ++ b)

/-- The bytes an MSTORE writes in a format. -/
def LCmd.outBytes (m : LCmd) : Nat :=
  match m.fmt with
  | 0 => 32768
  | 1 => 16384
  | _ => 2 * panelBytes (fmtOw m.ctx + 1)

/-- The region of a command's global address. -/
def State.cmdRegion (s : State) (m : LCmd) : Option (Nat × SRegion) :=
  if m.aform = 0 then (s.tenant (tidTenant m.owner)).streamAt ((m.seg.base + m.aOff) % 2 ^ 57) else none

/-- The status of an MSTORE at acceptance. -/
def State.mstoreCodes (s : State) (tn : Nat) (m : LCmd) : Nat :=
  lowest (
    if m.aform = 1 then s.localCode tn m.aPtr m.outBytes
    else
      match s.cmdRegion m with
      | none => extentCodes m.seg m.aOff m.outBytes true
      | some (_, g) =>
        let va := (m.seg.base + m.aOff) % 2 ^ 57
        (m.fmt ≠ 0 || g.col? va % 64 ≠ 0, 0x01) :: extentCodes m.seg m.aOff (g.extent (g.row? va) 64) true)

/-- The status a command has as it is accepted: the checks of R182. -/
def State.acceptCodes (s : State) (m : LCmd) : Nat :=
  match m.kind with
  | 0 => s.mmaCodes (tidTenant m.owner) m
  | 1 => s.mstoreCodes (tidTenant m.owner) m
  | _ => 0

/-- A command enters the queue: the operation of its MMA or MSTORE ends (R24), the thread of its MZERO or MFREE, which waits at
the instruction, goes on at the address it has kept. A tile that MFREE names stops being owned. -/
def State.acceptCmd (s : State) (c : Nat) (m : LCmd) : State :=
  let m := { m with status := s.acceptCodes m }
  let s := s.modCore c (fun x =>
    let x := { x with lq := x.lq ++ [m], lqWait := x.lqWait.filter (fun y => y.id ≠ m.id) }
    if m.kind = 3 then x.setTile m.tile { x.tile m.tile with owner := none, rel := some m.id } else x)
  s.modThread c m.slot (fun t =>
    if m.kind < 2 then t.dropOp m.id
    else
      match t.part with
      | [6, i, next] => if i = m.id then { t.afresh with pc := next, run := .ready } else t
      | _ => t)

/-- The commands that wait for a queue entry take the free ones of the eight, in issue order (R177). -/
def State.acceptCmds (s : State) (c : Nat) : State :=
  ((s.core c).lqWait.foldl (fun (s : State) m => if (s.core c).lq.length < 8 then s.acceptCmd c m else s) s).kick (c / 8)

/-- An MMA or MSTORE that has captured what it needs is outstanding until the queue accepts it (R24, R191, R192). -/
def State.issueCmd (s : State) (c k : Nat) (t : Thread) (i : Instr) (la : Nat) (m : LCmd) : State :=
  let (id, s) := (s.finish c k).addOp c k (Op.new i t .lattice .stream la)
  (s.modCore c (fun x => { x with lqWait := x.lqWait ++ [{ m with id := id }] })).acceptCmds c

/-- An MZERO or MFREE waits at the instruction for its queue entry (R190). -/
def State.waitCmd (s : State) (c k : Nat) (m : LCmd) : State :=
  let (id, s) := s.fresh
  let s := s.modThread c k (fun t => { t with part := [6, id, s.next] })
  let s := (s.modCore c (fun x => { x with lqWait := x.lqWait ++ [{ m with id := id }] })).acceptCmds c
  if (s.core c).lqWait.any (fun y => y.id = id) then s.park c k .lqRoom else s

def execMzero (f : Fields) (s : State) : Out :=
  issue (.mzero f) s (fun c k t s =>
    let tid := s.tid c k t
    let x := s.core c
    let y := x.tile f.d
    if y.owner ≠ some tid && (y.owner ≠ none || y.rel ≠ none || x.tileEarlier k f.d t.since) then s.park c k (.tile f.d)
    else
      (s.setCore c (x.setTile f.d { y with owner := some tid, poisonI := false })).waitCmd c k
        (LCmd.new 2 tid k f.d x.fmt (taskDet t.task)))

def execMfree (f : Fields) (s : State) : Out :=
  issue (.mfree f) s (fun c k t s =>
    let tid := s.tid c k t
    let x := s.core c
    match (x.tile f.d).owner, (x.tile f.d).rel with
    | none, none => s.finish c k
    | o, _ => if o ≠ some tid then s.mxerr c k f.d 1 else s.waitCmd c k (LCmd.new 3 tid k f.d x.fmt (taskDet t.task)))

def execMma (f : Fields) (s : State) : Out :=
  issue (.mma f) s (fun c k t s =>
    let tile := f.d % 2
    let tid := s.tid c k t
    match s.tileCheck c tile tid with
    | some cause => s.mxerr c k tile cause
    | none =>
      let (v, s') := s.readVals (.mma f) c k t f
      let kr := v.b.v.toNat
      if kBad kr then s'.mxerr c k tile 3
      else
        let src := f.lo / 2
        s'.issueCmd c k t (.mma f) f.la { LCmd.new 0 tid k tile (s.core c).fmt (taskDet t.task) with
          seg := t.seg f.hi, segN := f.hi, aform := if src = 0 then 1 else if src = 1 then 0 else 2,
          aOff := v.a.v.toNat, aPtr := (t.ptr f.a).v, bGlob := f.d / 2 % 2 = 1,
          bOff := (s.getG c t (f.b + 1)).v.toNat, bPtr := (t.ptr f.fx).v, kreg := kr, ord := f.lo % 2 = 1 })

def execMstore (f : Fields) (s : State) : Out :=
  issue (.mstore f) s (fun c k t s =>
    let tile := f.d % 2
    let tid := s.tid c k t
    match s.tileCheck c tile tid with
    | some cause => s.mxerr c k tile cause
    | none =>
      let loc : Bool := f.d / 2 % 2 = 1
      let a := s.getG c t f.a
      let p := t.ptr f.a
      s.issueCmd c k t (.mstore f) f.la { LCmd.new 1 tid k tile (s.core c).fmt (taskDet t.task) with
        seg := t.seg f.hi, segN := f.hi, aform := if loc then 1 else 0, aOff := gOffset a.v f.imm, aPtr := p.v,
        fmt := f.lo / 2, ord := f.lo % 2 = 1, addrT := if loc then p.t else a.t })

/-! ### Starting (R177) -/

/-- The weight of a core's queue: 0 acts as 1. -/
def Cluster.weight (x : Cluster) (j : Nat) : Nat := max 1 (x.mxwgt.bits (4 * j + 3) (4 * j))

/-- The queue that is served next: an aged one first, then the queue of the turn while its weight lasts, then the next
in ascending core order. -/
def State.nextQueue (s : State) (cl : Nat) : Option (Nat × Bool) :=
  let x := s.cluster cl
  let l := (List.range 8).filter (fun j => (s.core (8 * cl + j)).startable.isSome)
  match l.find? (fun j => 8 ≤ nthD x.aged j 0) with
  | some j => some (j, true)
  | none =>
    if l.contains x.turn && x.turnN < x.weight x.turn then some (x.turn, false)
    else (firstAfter l x.turn).map (fun j => (j, false))

/-- Account for a start of queue `j`: the turn, and the age of the other heads. -/
def State.countStart (s : State) (cl j : Nat) (aged : Bool) : State :=
  let waits := fun (i : Nat) => (s.core (8 * cl + i)).headCmd.isSome
  s.modCluster cl (fun x =>
    { x with
      turn := if aged then x.turn else j
      turnN := if aged then x.turnN else if x.turn = j && x.turnN < x.weight j then x.turnN + 1 else 1
      aged := (List.range 8).map (fun i => if i = j then 0 else if waits i then nthD x.aged i 0 + 1 else 0) })

/-- A free value for the sub-arrays that fail a self-test: what the hardware's cells do is not for the model to say. -/
def State.testEvent (s : State) (cl : Nat) : State :=
  let (v, s) := s.freeVal
  s.post [evt .latticeSelfTest [cl, v.bits 7 0]]

/-- A scheduled self-test is pending (R184). -/
def State.scheduleTest (s : State) (cl : Nat) : State :=
  if s.due.any (fun e => e.ev = .latticeSelfTest && e.arg.nums.head? = some cl) then s else s.testEvent cl

/-- MZERO or MFREE takes effect: it leaves its entry to a command that waits for one. -/
def State.effectCmd (s : State) (c : Nat) (m : LCmd) (g : Tile → Tile) : State :=
  (s.modCore c (fun x =>
    let x := { x with lq := x.lq.filter (fun y => y.id ≠ m.id) }
    (x.setTile m.tile (g (x.tile m.tile))).tileDone m)).acceptCmds c

/-- A command starts, and is counted until the next test that passes (R184): MZERO and MFREE take effect; the others begin to
fetch or to read out. -/
def State.startCmd (s : State) (cl j : Nat) (m : LCmd) : State :=
  let c := 8 * cl + j
  let s := s.modCluster cl (fun x => { x with since := x.since + 1, users := insSorted x.users (tidTenant m.owner) })
  let s := s.scheduleTest cl
  match m.kind with
  | 2 => s.effectCmd c m (fun t => { t with el := [], taint := false, poison := false, poisonI := false })
  | 3 => s.effectCmd c m id
  | _ =>
    let (n, s) := s.fresh
    let m := { m with began := n + 1 }
    if m.status ≠ 0 then s.finishCmd c m
    else if (s.cluster cl).fence % 256 = 255 then s.finishCmd c { m with status := 0x0F }
    else
      let s := s.modCore c (fun x => x.setLCmd m)
      if m.kind = 0 then (s.post [evt .tileFetchLine [cl, m.id], evt .planePairExecute [cl, m.id]]).kick cl
      else (s.post [evt .mxdone [cl, m.id]]).kick cl

/-- LATTICE_COMMAND_START. -/
def execLatticeCommandStart (s : State) : Out :=
  let cl := s.argN 0
  match s.nextQueue cl with
  | none => .next s
  | some (j, aged) =>
    match (s.core (8 * cl + j)).startable with
    | none => .next s
    | some m => .next ((s.countStart cl j aged).startCmd cl j m)

/-! ### Fetching operands (R178) -/

/-- The bytes [lo, hi) of a set of `n` panels of width `b`, read at `t` planes, hold something that is read. -/
def needed (n b t lo hi : Nat) : Bool :=
  (List.range n).any (fun p => lo < p * panelBytes b + panelBytes t && p * panelBytes b < hi)

/-- The byte range of unit `u` of a set: a 128-byte line of a global set, a 64-byte block of a local one. -/
def unitRange (glob : Bool) (base n u : Nat) : Nat × Nat :=
  if glob then (128 * (base / 128 + u) - base, min n (128 * (base / 128 + u + 1) - base)) else (64 * u, 64 * u + 64)

/-- The units of an operand that are read. -/
def unitsOf (glob : Bool) (base n panels b t : Nat) : List Nat :=
  let count := if glob then (base % 128 + n + 127) / 128 else n / 64
  (List.range count).filter (fun u => needed panels b t (unitRange glob base n u).1 (unitRange glob base n u).2)

def LCmd.aVa (m : LCmd) : Nat := (m.seg.base + m.aOff) % 2 ^ 57
def LCmd.bVa (m : LCmd) : Nat := (m.seg.base + m.bOff) % 2 ^ 57

/-- Every unit of a command: A's as 2u, B's as 2u + 1; a Radius source has its 128 rows. -/
def LCmd.units (m : LCmd) : List Nat :=
  let a := match m.aform with
    | 0 => unitsOf true m.aVa m.aBytes (2 * m.nk) m.ba m.ta
    | 1 => unitsOf false 0 m.aBytes (2 * m.nk) m.ba m.ta
    | _ => List.range 128
  let b := if m.bGlob then unitsOf true m.bVa m.bBytes m.nk m.bb m.tb else unitsOf false 0 m.bBytes m.nk m.bb m.tb
  a.map (fun u => 2 * u) ++ b.map (fun u => 2 * u + 1)

/-- The first and the last K block that uses a unit. -/
def LCmd.kOfUnit (m : LCmd) (u : Nat) : Nat × Nat :=
  if u % 2 = 0 then
    if m.aform = 2 then (0, m.nk - 1)
    else
      let r := unitRange (m.aform = 0) m.aVa m.aBytes (u / 2)
      (r.1 / (2 * panelBytes m.ba), (r.2 - 1) / (2 * panelBytes m.ba))
  else
    let r := unitRange m.bGlob m.bVa m.bBytes (u / 2)
    (r.1 / panelBytes m.bb, (r.2 - 1) / panelBytes m.bb)

/-- Every unit that K block `k` needs has been fetched. -/
def LCmd.blockReady (m : LCmd) (k : Nat) : Bool :=
  m.units.all (fun u => m.got.contains u || k < (m.kOfUnit u).1 || (m.kOfUnit u).2 < k)

/-- Take words read at byte `lo` of a set into a command. -/
def LCmd.take (m : LCmd) (isB : Bool) (lo : Nat) (ws : List TWord) : LCmd :=
  let (n, b, t) := if isB then (m.nk, m.bb, m.tb) else (2 * m.nk, m.ba, m.ta)
  let put := fun (buf : SMap Nat) => ws.zipIdx.foldl (fun (buf : SMap Nat) p =>
    if p.1.v = 0 then buf else SMap.set buf (lo / 8 + p.2) p.1.v.toNat) buf
  let tn := ws.zipIdx.any (fun p => p.1.t && needed n b t (lo + 8 * p.2) (lo + 8 * p.2 + 8))
  if isB then { m with bbuf := put m.bbuf, taint := m.taint || tn }
  else { m with abuf := put m.abuf, taint := m.taint || tn }

/-- What fetching a unit gives: the command with it, a failure, or a wait. -/
inductive FetchTry where
  | got (m : LCmd) (s : State)
  | fail (status : Nat) (s : State)
  | wait (s : State)

/-- A command is parked on a translation fault: a record of it waits for the runtime's answer (R177, R178). -/
def State.faulted (s : State) (c : Nat) (m : LCmd) : Bool :=
  s.walks.any (fun w => w.who = 2 && w.core = c && w.slot = m.id && w.record.isSome)

/-- A fetch of the line would exceed the eight ways of its slice set that may be pinned at once (R178). -/
def State.pinsFull (s : State) (line : Nat) : Bool :=
  let pins := (s.cores.flatMap (fun p => p.2.lq.flatMap (fun m => m.pins.map (fun x => x / 64)))).eraseDups
  !pins.contains line
    && 8 ≤ (pins.filter (fun l => s.homeOf l = s.homeOf line && Config.sliceSet l % 2048 = Config.sliceSet line % 2048)).length

/-- Fetch a line of a global operand. -/
def State.fetchGlobal (s : State) (c : Nat) (m : LCmd) (u : Nat) : FetchTry :=
  let isB := u % 2 = 1
  let base := if isB then m.bVa else m.aVa
  let r := unitRange true base (if isB then m.bBytes else m.aBytes) (u / 2)
  let tn := tidTenant m.owner
  match s.enginePage tn 2 c m.id (base + r.1) 4 with
  | .wait s => .wait s
  | .declined s => .fail 0x06 s
  | .tr tr =>
    if loadRefusal tr 128 ≠ 0 then .fail 0x0D s
    else if s.poisoned tr.pa then .fail 0x10 s
    else
      match s.homeGate tr.pa (r.2 - r.1) false with
      | some s => .wait s
      | none =>
        if s.pinsFull (tr.pa / 128) then .wait s
        else
          let s := (s.applyAdds (tr.pa / 128 * 128) 128).touchLine (tr.pa / 128)
          let s := (s.countHot (c / 8) tn tr.leaf).demand (c / 8) (base + r.1)
          let ws := (List.range ((r.2 - r.1) / 8)).map (fun i => s.readHome (Leaf.sw tr.leaf) (tr.pa + 8 * i) 8)
          let m := m.take isB r.1 ws
          .got { m with pins := m.pins ++ [tr.pa / 128 * 64 + (m.kOfUnit u).2] } s

/-- Fetch a block of a local operand. -/
def State.fetchLocal (s : State) (m : LCmd) (u : Nat) : FetchTry :=
  let isB := u % 2 = 1
  let lo := 64 * (u / 2)
  match s.memL (tidTenant m.owner) (advancePtr (if isB then m.bPtr else m.aPtr) lo) 64 with
  | .error _ => .fail 0x14 s
  | .ok (tc, off) =>
    let x := s.core tc
    if s.barred tc m.id then .fail 0x14 s
    else if x.shut then .wait s
    else if x.win.poisoned (off / 128) then .fail 0x10 s
    else .got (m.take isB lo ((List.range 8).map (fun i => x.win.word (off / 8 + i)))) s

/-- Put a block of row `i` of K block `k` among the words of an A panel set. -/
def LCmd.putBlock (m : LCmd) (k i : Nat) (x : Block) : LCmd :=
  let base := (2 * k + i / 64) * (panelBytes m.ba / 8)
  let j := i % 64
  let buf := if x.1 = 0 then m.abuf
    else SMap.set m.abuf (base + j / 8) (SMap.get m.abuf (base + j / 8) 0 + x.1 * 2 ^ (8 * (j % 8)))
  let buf := (List.range m.ba).foldl (fun (buf : SMap Nat) q =>
    let w := planeOf (m.ba - 1 - q) x.2
    if w = 0 then buf else SMap.set buf (base + 8 + 64 * q + j) w) buf
  { m with abuf := buf }

/-- The pages of [va, va + n) for an engine: the last, or the first that does not translate. -/
def State.engineSpan (s : State) (tn who c slot acc fuel va n : Nat) : EngineTry :=
  match s.enginePage tn who c slot va acc with
  | .tr tr =>
    let step := pageSize tr.level - va % pageSize tr.level
    (match fuel with
     | 0 => .tr tr
     | k + 1 => if n ≤ step then .tr tr else s.engineSpan tn who c slot acc k (va + step) (n - step))
  | e => e

/-- Fetch a row through the Radius port: one snapshot serves every K block (R202). -/
def State.fetchRadius (s : State) (c : Nat) (m : LCmd) (u : Nat) : FetchTry :=
  let tn := tidTenant m.owner
  match (s.tenant tn).streamAt m.aVa with
  | none => .fail 0x0D s
  | some (i, g) =>
    let row := g.row? m.aVa + u / 2
    if g.rows ≤ row then .got m s
    else
      match s.engineSpan tn 2 c m.id 4 5 (m.aVa + 4 * g.len * (u / 2)) (4 * kOf m.kreg) with
      | .wait s => .wait s
      | .declined s => .fail 0x06 s
      | .tr tr =>
        if Leaf.cl tr.leaf ≠ 2 then .fail 0x0D s
        else
          match s.rowReady tn i row g false m.id with
          | .later s => .wait s
          | .ready s =>
            let x := s.rowOf tn i row
            if x.p then .fail 0x10 s
            else
              let p := x.snap
              let s := s.countHot (c / 8) tn tr.leaf
              let s := if x.res then s.setRow tn i row { x with used := s.now } else s
              let m := (List.range m.nk).foldl (fun (m : LCmd) k =>
                m.putBlock k (u / 2) (g.portBlock m.ba p (g.col? m.aVa + 64 * k)).1) m
              .got { m with taint := m.taint || p.t } s

def State.fetchUnit (s : State) (c : Nat) (m : LCmd) (u : Nat) : FetchTry :=
  if u % 2 = 1 then (if m.bGlob then s.fetchGlobal c m u else s.fetchLocal m u)
  else
    match m.aform with
    | 0 => s.fetchGlobal c m u
    | 1 => s.fetchLocal m u
    | _ => s.fetchRadius c m u

/-- TILE_FETCH_LINE: one more line arrives; which one is the hardware's choice. -/
def execTileFetchLine (s : State) : Out :=
  match s.lcmd? (s.argN 0) (s.argN 1) with
  | none => .next s
  | some (c, m) =>
    if m.began = 0 || m.fin || m.kind ≠ 0 then .next s
    else
      let left := m.units.filter (fun u => !m.got.contains u)
      match left[Config.choose s.tick % max 1 left.length]? with
      | none => .next s
      | some u =>
        match s.fetchUnit c m u with
        | .wait s =>
          let s := s.modCore c (fun x => x.setLCmd { m with parked := s.faulted c m })
          .next ((if s.faulted c m then s.kick (c / 8) else s).again .tileFetchLine)
        | .fail status s => .next (s.failCmd c m status)
        | .got m s =>
          let s := s.modCore c (fun x => x.setLCmd { m with got := u :: m.got, parked := false })
          if left.length = 1 then .next s else .next (s.again .tileFetchLine)

/-! ### Plane pairs and accumulation (R179, R180) -/

/-- The words of a panel of an operand. -/
def LCmd.aWord (m : LCmd) (k : Nat) (half : Nat) (i : Nat) : Nat :=
  SMap.get m.abuf ((2 * k + half) * (panelBytes m.ba / 8) + i) 0
def LCmd.bWord (m : LCmd) (k : Nat) (i : Nat) : Nat := SMap.get m.bbuf (k * (panelBytes m.bb / 8) + i) 0

/-- Plane `q`, counted from the sign plane down, is not zero in some block of a panel. -/
def planeLive (w : Nat → Nat) (q : Nat) : Bool :=
  (List.range 64).any (fun j => panelExp w j ≠ 0 && panelExp w j ≠ 255 && panelPlane w q j ≠ 0)

/-- Pair number `n` of a K block is executed: neither plane is zero throughout. -/
def LCmd.pairLive (m : LCmd) (k n : Nat) : Bool :=
  (planeLive (m.aWord k 0) (n / m.tb) || planeLive (m.aWord k 1) (n / m.tb)) && planeLive (m.bWord k) (n % m.tb)

/-- The dot product of two rows of mantissas. -/
def dot (a b : List Int) : Int := ((a.zip b).map (fun p => p.1 * p.2)).sum

/-- What a K block makes of one element (R180). -/
def accElem (ta tb : Nat) (a b : Block) (c : Nat) : Nat :=
  if a.1 = 255 || b.1 = 255 then fp32.nan
  else if a.1 = 0 || b.1 = 0 then c
  else
    let d := dot a.2 b.2
    if d = 0 then c
    else
      (sumV fp32 0 (fp32.val c)
        (.num (d < 0) d.natAbs ((a.1 : Int) - 127 - ((ta : Int) - 1) + ((b.1 : Int) - 127 - ((tb : Int) - 1)))) false).1

/-- The tile after K block `k` has been accumulated. -/
def LCmd.accumulate (m : LCmd) (k : Nat) (el : SMap Nat) : SMap Nat :=
  let as := (List.range 128).map (fun i => panelBlock m.ta (m.aWord k (i / 64)) (i % 64))
  let bs := (List.range 64).map (fun j => panelBlock m.tb (m.bWord k) j)
  (as.zipIdx.flatMap (fun a => bs.zipIdx.map (fun b =>
    (64 * a.2 + b.2, accElem m.ta m.tb a.1 b.1 (SMap.get el (64 * a.2 + b.2) 0))))).filter (fun p => p.2 ≠ 0)

/-- Pass over pairs that are skipped, from number `n` on. -/
def LCmd.skipPairs (m : LCmd) (fuel n : Nat) : LCmd × Nat :=
  match fuel with
  | 0 => (m, n)
  | f + 1 =>
    if m.ta * m.tb ≤ n || m.pairLive m.kdone n then (m, n)
    else ({ m with skip := m.skip + 1 } : LCmd).skipPairs f (n + 1)

/-- A started MMA of the cluster that may execute; a parked one is passed over (R177). -/
def Core.readyMma (x : Core) : List Nat :=
  (x.lq.filter (fun m => m.kind = 0 && m.began ≠ 0 && !m.fin && !m.parked && !x.blocked m)).map (fun m => m.began)
def Core.readyStore (x : Core) : List Nat :=
  (x.lq.filter (fun m => m.kind = 1 && m.began ≠ 0 && !m.fin && !m.parked)).map (fun m => m.began)

/-- The first started of those that may go on. -/
def State.isFirst (s : State) (cl : Nat) (g : Core → List Nat) (n : Nat) : Bool :=
  (List.range 8).all (fun j => (g (s.core (8 * cl + j))).all (fun b => n ≤ b))

/-- PLANE_PAIR_EXECUTE: one pair executes; the last of a K block brings the accumulation with one rounding for each
element, and after the last K block the command completes. -/
def execPlanePairExecute (s : State) : Out :=
  let cl := s.argN 0
  match s.lcmd? cl (s.argN 1) with
  | none => .next s
  | some (c, m) =>
    let x := s.core c
    if m.began = 0 || m.fin || m.kind ≠ 0 then .next s
    else if x.blocked m || m.parked || !s.isFirst cl Core.readyMma m.began then .next (s.again .planePairExecute)
    else if (x.tile m.tile).poison || (s.cluster cl).fence % 256 = 255 then
      .next (s.finishCmd c { m with status := 0x0F })
    else if !m.blockReady m.kdone then .next (s.again .planePairExecute)
    else
      let per := m.ta * m.tb
      let (m, n) := m.skipPairs per (m.exec + m.skip - m.kdone * per)
      let (m, n) := if n < per then ({ m with exec := m.exec + 1 }, n + 1) else (m, n)
      let (m, n) := m.skipPairs per n
      if n < per then .next ((s.modCore c (fun x => x.setLCmd m)).again .planePairExecute)
      else
        let t := x.tile m.tile
        let s := s.modCore c (fun x =>
          x.setTile m.tile { t with el := m.accumulate m.kdone t.el, taint := t.taint || m.taint })
        let m := { m with kdone := m.kdone + 1, pins := m.pins.filter (fun p => m.kdone < p % 64) }
        if m.kdone < m.nk then .next ((s.modCore c (fun x => x.setLCmd m)).again .planePairExecute)
        else .next (s.finishCmd c m)

/-! ### MSTORE and completion (R182, R192) -/

/-- Row `i` of a tile as FP32 bits. -/
def Tile.row (t : Tile) (i : Nat) : List Nat := (List.range 64).map (fun j => SMap.get t.el (64 * i + j) 0)

/-- The words an MSTORE writes. -/
def LCmd.outWords (m : LCmd) (t : Tile) : List Nat :=
  match m.fmt with
  | 0 => (List.range 128).flatMap (fun i => packElems 32 (t.row i))
  | 1 => (List.range 128).flatMap (fun i => packElems 16 ((t.row i).map (fun e => (fpToFp fp32 bf16 0 e).1)))
  | _ =>
    let b := fmtOw m.ctx + 1
    let blk := fun (i : Nat) => (quantise b ((t.row i).map fp32.val)).1
    panelWords b ((List.range 64).map blk) ++ panelWords b ((List.range 64).map (fun i => blk (64 + i)))

/-- What one piece of an MSTORE gives: `bytes` written and a failing status. -/
inductive PieceTry where
  | wrote (bytes status : Nat) (s : State)
  | wait (s : State)
  | last

/-- The words of a command of a deterministic thread may not be tainted: TAINTTRAP is set (R304). -/
def State.cmdTrap (s : State) (m : LCmd) : Bool := m.det && (s.tenant (tidTenant m.owner)).tntctl.bits 0 0 = 1

/-- A tile row added into a region (R192, R199), whose page is translated as for any write of an engine. -/
def State.pieceStream (s : State) (c : Nat) (m : LCmd) (t : Tile) (g : SRegion) : PieceTry :=
  let tn := tidTenant m.owner
  let va := m.aVa + 4 * g.len * m.piece
  if g.rowsFrom (g.row? m.aVa) ≤ m.piece then .last
  else
    match s.enginePage tn 2 c m.id va 5 with
    | .wait s => .wait s
    | .declined s => .wrote 0 0x06 s
    | .tr tr =>
      if Leaf.cl tr.leaf ≠ 2 then .wrote 0 0x0D s
      else
        let hot := fun (s : State) => s.countHot (c / 8) tn tr.leaf
        match s.streamAdd tn va 0 (t.row m.piece) (t.taint || m.addrT) (s.cmdTrap m) m.id with
        | .none => .wrote 0 0x0D s
        | .later s => .wait s
        | .poisoned s => .wrote 256 0 (hot s)
        | .tainted s => .wrote 0 0x11 (hot s)
        | .applied s sat ot => .wrote 256 (if sat.isSome && ot then 0x0E else 0) (hot s)

/-- A 64-byte block written through a pointer. -/
def State.pieceLocal (s : State) (m : LCmd) (t : Tile) : PieceTry :=
  if m.outBytes ≤ 64 * m.piece then .last
  else
    match s.memL (tidTenant m.owner) (advancePtr m.aPtr (64 * m.piece)) 64 with
    | .error _ => .wrote 0 0x14 s
    | .ok (tc, off) =>
      let ws := ((m.outWords t).drop (8 * m.piece)).take 8
      if s.barred tc m.id then .wrote 0 0x14 s
      else if (s.core tc).shut then .wait s
      else if (s.core tc).win.poisoned (off / 128) then .wrote 64 0 s
      else .wrote 64 0 (s.modCore tc (fun x => { x with win := ws.zipIdx.foldl (fun (w : Mem) p =>
        w.store (off + 8 * p.2) 8 ⟨w64 p.1, t.taint || m.addrT⟩) x.win }))

/-- A line written to memory: as a store of the core at the home; a page under migration, or a pinned line, holds it. -/
def State.pieceGlobal (s : State) (c : Nat) (m : LCmd) (t : Tile) : PieceTry :=
  let r := unitRange true m.aVa m.outBytes m.piece
  if m.outBytes ≤ r.1 then .last
  else
    match s.enginePage (tidTenant m.owner) 2 c m.id (m.aVa + r.1) 5 with
    | .wait s => .wait s
    | .declined s => .wrote 0 0x06 s
    | .tr tr =>
      if 2 ≤ Leaf.cl tr.leaf then .wrote 0 0x0D s
      else
        match s.engineGate tr (r.2 - r.1) with
        | some s => .wait s
        | none =>
          let ws := (m.outWords t).drop (r.1 / 8)
          .wrote (r.2 - r.1) 0 (s.engineWrite c (tidTenant m.owner) tr (r.2 - r.1) (fun w _ =>
            ⟨w64 (nthD ws (w - tr.pa / 8) 0), t.taint || m.addrT⟩))

/-- A piece of a command of a deterministic thread whose words would be tainted is not written while TAINTTRAP is set
(R304). -/
def State.pieceTaint (s : State) (m : LCmd) (t : Tile) : Bool := s.cmdTrap m && (t.taint || m.addrT)

/-- The number of pieces of a command. -/
def State.pieceCount (s : State) (m : LCmd) : Nat :=
  if m.aform = 1 then m.outBytes / 64
  else
    match s.cmdRegion m with
    | some (_, g) => g.rowsFrom (g.row? m.aVa)
    | none => (m.aVa % 128 + m.outBytes + 127) / 128

def State.pieceTry (s : State) (c : Nat) (m : LCmd) (t : Tile) : PieceTry :=
  if s.pieceTaint m t then (if s.pieceCount m ≤ m.piece then .last else .wrote 0 0x11 s)
  else if m.aform = 1 then s.pieceLocal m t
  else
    match s.cmdRegion m with
    | some (_, g) => s.pieceStream c m t g
    | none => s.pieceGlobal c m t

/-- The completion message of a command, once `.ord` allows it. -/
def State.reportCmd (s : State) (c : Nat) (m : LCmd) : State :=
  let x := s.core c
  if m.ord && (x.lqBefore m.id).any (fun y => y.owner = m.owner) then s.again .mxdone
  else
    let pay := if m.kind = 0 then (if m.status = 0 then m.skip * 2 ^ 32 + m.exec else 0) else m.count
    let s := (s.setCore c { x with lq := x.lq.filter (fun y => y.id ≠ m.id) }).acceptCmds c
    s.engineMsg c m.owner m.owner mkMXDONE m.status (if m.kind = 0 then kTag m.kreg else 0) ⟨w64 pay, false⟩

/-- MXDONE: an MSTORE writes its next piece; a command that is finished reports. -/
def execMxdone (s : State) : Out :=
  let cl := s.argN 0
  match s.lcmd? cl (s.argN 1) with
  | none => .next s
  | some (c, m) =>
    let x := s.core c
    if m.fin then .next (s.reportCmd c m)
    else if m.began = 0 || m.kind ≠ 1 then .next s
    else if !m.parked && !s.isFirst cl Core.readyStore m.began then .next (s.again .mxdone)
    else if (x.tile m.tile).poison || (s.cluster cl).fence % 256 = 255 then
      .next (s.finishCmd c { m with status := 0x0F })
    else
      match s.pieceTry c m (x.tile m.tile) with
      | .last => .next (s.finishCmd c m)
      | .wait s =>
        let s := s.modCore c (fun x => x.setLCmd { m with parked := s.faulted c m })
        .next ((if s.faulted c m then s.kick (c / 8) else s).again .mxdone)
      | .wrote n st s =>
        let m := { m with piece := m.piece + 1, count := m.count + n, parked := false,
                          status := if m.status = 0 then st else m.status }
        .next ((s.modCore c (fun x => x.setLCmd m)).again .mxdone)

/-! ### Errors, self-tests, MSTAT and MTEST (R181, R184, R193) -/

/-- TILE_ECC_ERROR: an uncorrectable error poisons the tile. -/
def execTileEccError (s : State) : Out :=
  .next (s.modCore (s.argN 0) (fun x => x.setTile (s.argN 1) (x.tile (s.argN 1)).spoil))

/-- An MMA of the cluster is between its first and its last pair. -/
def State.inCommand (s : State) (cl : Nat) : Bool :=
  (List.range 8).any (fun j => (s.core (8 * cl + j)).lq.any (fun m => m.kind = 0 && !m.fin && !m.parked && 0 < m.exec))

/-- The LATTICE records of a failing sub-array: one to each tenant served since the last test that passed. -/
def State.latticeRecs (s : State) (cl n : Nat) : State :=
  let x := s.cluster cl
  x.users.foldl (fun s tn =>
    let yx := (s.tenant tn).logical cl
    s.faultRec tn (recWord 5 (n * 2 ^ 48 + yx.1 * 256 + yx.2)) (w64 x.since)) s

/-- LATTICE_SELF_TEST: at a command boundary, the sub-arrays of the mask fail and are fenced. -/
def execLatticeSelfTest (s : State) : Out :=
  let cl := s.argN 0
  let bad := (List.range 8).filter (fun n => s.argN 1 / 2 ^ n % 2 = 1)
  if s.inCommand cl then .next (s.again .latticeSelfTest)
  else
    let s := bad.foldl (fun s n => s.latticeRecs cl n) s
    .next (s.modCluster cl (fun x =>
      if bad.isEmpty then { x with ran := x.ran + 1, tests := min (x.tests + 1) (2 ^ 32 - 1), since := 0, users := [] }
      else { x with ran := x.ran + 1, fence := bad.foldl (fun m n => Nat.lor m (2 ^ n)) x.fence }))

/-- APEX_LATTICE_REPAIR: a fenced sub-array returns to service. -/
def execApexLatticeRepair (s : State) : Out :=
  .next (s.modCluster (s.argN 0) (fun x =>
    if x.fence / 2 ^ s.argN 1 % 2 = 1 then { x with fence := x.fence - 2 ^ s.argN 1 } else x))

/-- How MSTAT shows a tile: one whose release has not taken effect is another's (DESIGN CHOICE, log entry 75). -/
def Tile.code (t : Tile) (tid : Word) : Nat :=
  match t.owner with
  | none => if t.rel.isSome then 2 else 0
  | some o => if o ≠ tid then 2 else if t.poisonI then 3 else 1

def execMstat (f : Fields) (s : State) : Out :=
  issue (.mstat f) s (fun c k t s =>
    let x := s.core c
    let y := s.cluster (c / 8)
    let tid := s.tid c k t
    let w := y.fence % 256 * 2 ^ 56 + min 8 x.lq.length * 2 ^ 48 + y.mxwgt.bits (4 * (c % 8) + 3) (4 * (c % 8)) * 2 ^ 44
      + (x.tile 1).code tid * 2 ^ 38 + (x.tile 0).code tid * 2 ^ 36 + y.tests
    (s.writeReg c k t f.d f.sd ⟨w64 w, true⟩).finish c k)

/-- MTEST: a self-test is forced at the next command boundary, and the thread waits until one has run. -/
def execMtest (f : Fields) (s : State) : Out :=
  issue (.mtest f) s (fun c k t s =>
    let n := (s.cluster (c / 8)).ran
    match t.want with
    | some (.selftest m) => if m < n then s.finish c k else s.park c k (.selftest m)
    | _ => (s.scheduleTest (c / 8)).park c k (.selftest n))

end Sys2Proof.Machine
end

