-- ==== Sys2Proof/Machine/Queues.lean ====
section
/-!
DEFINITION. Sys2Proof/Machine/Queues.lean: register-mapped queues and their credits (R139 to R142), mesh stream ports (R143
to R148), and the movement thread's registers seen from outside (R114).
-/
namespace Sys2Proof.Machine
open Sys2Proof

/-! ### Queue storage (R108, R139) -/

/-- The bytes of a queue of depth 2^n. -/
def queueBytes (n : Nat) : Nat := 8 * 2 ^ n

/-- Where a queue's storage may begin in a FIFO bank: bank 11 has its queue area, another FIFO bank all its bytes. -/
def queueFloor (bank : Nat) : Nat := if bank = 11 then 0x11000 else 0

/-- Two stretches of one bank overlap. -/
def clash (a n b m : Nat) : Bool := a < b + m && b < a + n

/-- The aligned places free for a queue of depth 2^n that is queue `q` of the core. -/
def Core.queuePlaces (x : Core) (q n : Nat) : List (Nat × Nat) :=
  let sz := queueBytes n
  ((List.range 12).filter (fun b => nthD x.banks b .cache = .fifo)).flatMap (fun b =>
    ((List.range (131072 / sz)).map (fun i => (b, i * sz))).filter (fun p =>
      queueFloor b ≤ p.2 &&
      (x.inq.zipIdx).all (fun y => y.2 = q || !y.1.conf || y.1.bank ≠ b || !clash p.2 sz y.1.off (queueBytes y.1.n))))

/-! ### Credits (R139) -/

/-- Space not yet held or promised. -/
def InQ.free (q : InQ) : Nat := 2 ^ q.n - q.held.length - q.cred

/-- Answer held requests in arrival order while there is space: each is granted min(8, free). -/
def serveCredits (fuel c i : Nat) (q : InQ) : InQ × List Event :=
  match fuel, q.reqs with
  | n + 1, (p, o) :: r =>
    if q.free = 0 then (q, [])
    else
      let g := min 8 q.free
      let (q', es) := serveCredits n c i { q with reqs := r, cred := q.cred + g }
      (q', evt .creditGrant [p, o, g, 4 * c + i] :: es)
  | _, _ => (q, [])

def State.serveQueue (s : State) (c i : Nat) : State :=
  let x := s.core c
  let q := nthD x.inq i InQ.reset
  let (q', es) := serveCredits q.reqs.length c i q
  (s.setCore c { x with inq := setNth x.inq i q' }).post es

/-- The transfer-unit command of core `p` that has asked queue `i` of core `c` for a credit. -/
def State.creditCmd (s : State) (p : Nat) : Option TUCmd := (s.core p).tu.find? (fun m => m.asked && !m.credit)

def Core.setCmd (x : Core) (m : TUCmd) : Core := { x with tu := x.tu.map (fun y => if y.id = m.id then m else y) }

/-- CREDIT_REQUEST: queued behind the requests that wait; refused where the queue is not configured, and the push that
waits on it then traps. A dead core grants nothing (R248). A CPYQ that has failed on a line keeps that status where its queue is
not configured (DESIGN CHOICE, log entry 71). -/
def execCreditRequest (s : State) : Out :=
  let c := s.argN 0
  let i := s.argN 1
  let p := s.argN 2
  let o := s.argN 3
  let x := s.core c
  let q := nthD x.inq i InQ.reset
  if x.dead then .next (s.again .creditRequest)
  else if q.conf then .next ((s.setCore c { x with inq := setNth x.inq i { q with reqs := q.reqs ++ [(p, o)] } }).serveQueue c i)
  else if o = 4 then
    match s.creditCmd p with
    | some m =>
      let st := if m.status = 0 then 0x17 else m.status
      .next ((s.modCore p (fun y => y.setCmd { m with asked := false, pushed := true, status := st })).post
        [evt .copydone [p, m.id]])
    | none => .next s
  else
    .next (s.modCore p (fun y =>
      let z := nthD y.outq o OutQ.reset
      if z.conf && z.core = c && z.tq = i && z.asked then
        { y with outq := setNth y.outq o { z with asked := false, refused := true } }
      else y))

/-- CREDIT_GRANT: the credits reach the producer; those of a queue that has been rebound meanwhile go back, and those that a
transfer unit has no word for. -/
def execCreditGrant (s : State) : Out :=
  let p := s.argN 0
  let o := s.argN 1
  let n := s.argN 2
  let c := s.argN 3 / 4
  let i := s.argN 3 % 4
  if o = 4 then
    match s.creditCmd p with
    | some m =>
      let s := (s.modCore p (fun y => y.setCmd { m with credit := true })).post [evt .cpyqPush [p, m.id]]
      .next (if n ≤ 1 then s else s.post [evt .creditReturn [c, i, n - 1]])
    | none => .next (s.post [evt .creditReturn [c, i, n]])
  else
    let z := nthD (s.core p).outq o OutQ.reset
    if z.conf && z.core = c && z.tq = i && z.asked then
      let s := s.modCore p (fun y => { y with outq := setNth y.outq o { z with asked := false, cred := min 8 (z.cred + n) } })
      .next (if z.cred + n ≤ 8 then s else s.post [evt .creditReturn [c, i, z.cred + n - 8]])
    else .next (s.post [evt .creditReturn [c, i, n]])

/-- CREDIT_RETURN: unused credits are space again, which a core that is not dead grants to the requests that wait (R248). -/
def execCreditReturn (s : State) : Out :=
  let c := s.argN 0
  let i := s.argN 1
  let x := s.core c
  let q := nthD x.inq i InQ.reset
  let s := s.setCore c { x with inq := setNth x.inq i { q with cred := q.cred - s.argN 2 } }
  .next (if x.dead then s else s.serveQueue c i)

/-- A release may be observed: the accesses before it are performed, and the core's write-combine buffer is drained (R256,
R257); with the state after what has drained. -/
def State.released (s : State) (c : Nat) (after : List Nat) : Bool × State :=
  if !s.performed c after then (false, s)
  else
    let s := s.drainWC c
    (s.wcEmpty c, s)

/-- A word in flight is a release of the thread that sent it: a push by an instruction, an end word (R257). -/
def Flit.release (f : Flit) : Bool := if f.kind = 0 then f.srcP < 4 else f.word.last && !f.word.abort

/-- A word in flight may be observed. -/
def State.flitReady (s : State) (f : Flit) : Bool × State := if f.release then s.released f.srcC f.after else (true, s)

/-- A flit sent earlier from the same place to the same place is still under way. -/
def State.flitAhead (s : State) (f : Flit) : Bool :=
  s.flits.any (fun g => g.id < f.id && g.kind = f.kind && g.srcC = f.srcC && g.srcP = f.srcP)

def State.dropFlit (s : State) (i : Nat) : State := { s with flits := s.flits.filter (fun f => f.id ≠ i) }

/-- QUEUE_WORD_ARRIVAL: the word is placed and its credit is used (R139, R140). -/
def execQueueWordArrival (s : State) : Out :=
  match s.flits.find? (fun f => f.id = s.argN 0 && f.kind = 0) with
  | none => .next s
  | some f =>
    if s.flitAhead f then .next (s.again .queueWordArrival)
    else
      let (ok, s) := s.flitReady f
      if !ok then .next (s.again .queueWordArrival)
      else
        .next ((s.dropFlit f.id).modCore f.core (fun x =>
          let q := nthD x.inq f.port InQ.reset
          { x with inq := setNth x.inq f.port { q with held := q.held ++ [⟨f.word.w, f.cpy⟩], cred := q.cred - 1 } }))

/-! ### QCFG and QSTAT -/

/-- A live thread of the core other than that of slot `k` waits on the operand. -/
def Core.waits (x : Core) (k n : Nat) : Bool :=
  x.slots.any (fun p => p.1 ≠ k && match p.2.occ with
    | .live t =>
      (match t.want with
       | some (.operands l) => l.contains n
       | _ => false)
    | _ => false)

/-- A control word of R141 that is malformed, with V as given. -/
def qcfgBad (g v : Word) : Bool :=
  v.bits 63 1 ≠ 0 || g.bits 50 8 ≠ 0 || g.bits 3 3 ≠ 0 ||
    (if v.bits 0 0 = 0 then g.bits 63 51 ≠ 0 || g.bits 7 4 ≠ 0
     else if g.bits 2 2 = 1 then g.bits 7 4 ≠ 0
     else g.bits 63 51 ≠ 0 || g.bits 7 4 < 4 || 14 < g.bits 7 4)

/-- Configure, resize or release an inbound queue: its status and the state. A place is free for the hardware to choose. -/
def State.qcfgIn (s : State) (c k q n : Nat) (on : Bool) : Nat × State :=
  let x := s.core c
  let y := nthD x.inq q InQ.reset
  if y.conf && (!y.held.isEmpty || y.cred ≠ 0 || !y.reqs.isEmpty || x.waits k (116 + q)) then (2, s)
  else if !on then (0, s.setCore c { x with inq := setNth x.inq q InQ.reset })
  else
    let l := x.queuePlaces q n
    match l[Config.choose s.tick % max 1 l.length]? with
    | none => (3, s)
    | some (b, o) => (0, s.setCore c { x with inq := setNth x.inq q ⟨true, n, b, o, [], 0, []⟩ })

/-- Credits on their way back to an inbound queue. -/
def State.returning (s : State) (c i : Nat) : Bool :=
  s.due.any (fun e => e.ev = .creditReturn && e.arg.nums.take 2 = [c, i])

/-- QCFG (R141). -/
def execQcfg (f : Fields) (s : State) : Out :=
  issue (.qcfg f) s (fun c k t s =>
    let (v, s') := s.readVals (.qcfg f) c k t f
    let g := v.a.v
    let q := g.bits 1 0
    let on := v.d.v.bits 0 0 = 1
    let put := fun (s : State) (st : Nat) => (s.writeReg c k t f.d f.sd ⟨w64 st, false⟩).finish c k
    if qcfgBad g v.d.v then put s' 1
    else if g.bits 2 2 = 0 then
      let (st, s'') := s'.qcfgIn c k q (g.bits 7 4) on
      put s'' st
    else if (s.core c).waits k (120 + q) || (s.core c).reserved (120 + q) ≠ 0 then put s' 2
    else
      let o := nthD (s.core c).outq q OutQ.reset
      let tc := s.coreAt t.tenant (g.bits 63 60) (g.bits 59 56) (g.bits 55 53)
      if on && tc.isNone then put s' 4
      else
        if o.conf && o.cred ≠ 0 then
          ((s.modCore c (fun x => { x with outq := setNth x.outq q { o with cred := 0 } })).post
            [evt .creditReturn [o.core, o.tq, o.cred]]).park c k .credit
        else if o.conf && s.returning o.core o.tq then s.park c k .credit
        else
          let o' : OutQ := if on then ⟨true, tc.getD 0, g.bits 52 51, 0, false, false⟩ else OutQ.reset
          put (s'.modCore c (fun x => { x with outq := setNth x.outq q o' })) 0)

/-- QSTAT (R142). -/
def execQstat (f : Fields) (s : State) : Out :=
  issue (.qstat f) s (fun c k t s =>
    let (v, s) := s.readVals (.qstat f) c k t f
    let g := v.a.v
    let x := s.core c
    let r :=
      if g.bits 63 3 ≠ 0 then allOnes
      else if g.bits 2 2 = 1 then
        let o := nthD x.outq (g.bits 1 0) OutQ.reset
        if o.conf then w64 (2 ^ 63 + o.cred * 2 ^ 16 + o.tq) else 0
      else
        let q := nthD x.inq (g.bits 1 0) InQ.reset
        if q.conf then w64 (2 ^ 63 + q.n * 2 ^ 32 + q.cred % 65536 * 2 ^ 16 + q.held.length % 65536) else 0
    (s.writeReg c k t f.d f.sd ⟨r, true⟩).finish c k)

/-! ### Stream ports (R143 to R148) -/

/-- STREAM_WORD_ARRIVAL: words of a packet arrive in write order; a head waits while another packet is being received, and
heads are taken in the order of their arrival. -/
def execStreamWordArrival (s : State) : Out :=
  match s.flits.find? (fun f => f.id = s.argN 0 && f.kind = 1) with
  | none => .next s
  | some f =>
    let d := nthD (s.core f.core).inp f.port InPort.reset
    let me := (f.srcC, f.srcP)
    let mine := d.rx = some me || (d.rx = none && (d.heads.head? = some me || d.heads.isEmpty))
    let wait := fun (s : State) => s.again .streamWordArrival
    if s.flitAhead f then .next (wait s)
    else if !mine then
      if d.rx = some me || d.heads.contains me then .next (wait s)
      else .next (wait (s.modCore f.core (fun x =>
        { x with inp := setNth x.inp f.port { d with heads := d.heads ++ [me] } })))
    else if 64 ≤ d.buf.length && !f.word.abort then .next (wait s)
    else
      let (ok, s) := s.flitReady f
      if !ok then .next (wait s)
      else
        let d := { d with rx := if f.word.last then none else some me, heads := d.heads.filter (fun h => h ≠ me),
                          buf := d.buf ++ [f.word] }
        .next ((s.dropFlit f.id).modCore f.core (fun x => { x with inp := setNth x.inp f.port d }))

/-- Close an open packet without its end word: an aborted end marker follows the words already sent (R145). -/
def State.abortPacket (s : State) (c p : Nat) (recorded : Bool) : State :=
  let o := nthD (s.core c).outp p OutPort.reset
  if !o.opened then s
  else
    let s := s.modCore c (fun x => { x with outp := setNth x.outp p { o with opened := false, abort := recorded } })
    let src := match o.owner.bind (fun k => (s.thread? c k).map (fun t => s.tid c k t)) with
      | some w => slotId w
      | none => 0
    let (i, s) := s.fresh
    let mark : Flit := ⟨i, 1, o.core, o.port, ⟨TWord.zero, true, true, src⟩, false, c, p, []⟩
    ({ s with flits := s.flits ++ [mark] } : State).post [evt .streamWordArrival [i]]

/-- STREAM_FORCE_CLOSE: Apex closes a packet that has been open for 2^16 cycles (R145), and no packet before. -/
def execStreamForceClose (s : State) : Out :=
  let o := nthD (s.core (s.argN 0)).outp (s.argN 1) OutPort.reset
  if o.opened && s.now < o.since + 2 ^ 16 then .next (s.again .streamForceClose)
  else .next (s.abortPacket (s.argN 0) (s.argN 1) true)

/-- EXIT and YIELD release a thread's claims, closing an open packet (R143, R145). -/
def State.releasePorts (s : State) (c k : Nat) : State :=
  let s := (List.range 2).foldl (fun s p =>
    let o := nthD (s.core c).outp p OutPort.reset
    if o.owner = some k then
      (s.abortPacket c p false).modCore c (fun x => { x with outp := setNth x.outp p OutPort.reset })
    else s) s
  s.modCore c (fun x => { x with inp := x.inp.map (fun d => if d.owner = some k then { d with owner := none } else d) })

/-- The checks of a use of outbound port `p` (R143 to R145): a trap, or whether the word can be accepted. -/
def State.portReady (s : State) (tn c k p : Nat) : Ready := s.writeReady tn c k 1 (114 + p)

def nopenBad (w : Word) : Bool :=
  w.bits 52 3 ≠ 0 || ((w.bits 0 0 = 0 || w.bits 1 1 = 0) && (w.bits 63 53 ≠ 0 || w.bits 2 2 = 1))

/-- NOPEN (R146). -/
def execNopen (f : Fields) (s : State) : Out :=
  issue (.nopen f) s (fun c k t s =>
    let (v, s') := s.readVals (.nopen f) c k t f
    let g := v.d.v
    let p := f.imm.toNat
    let on := g.bits 0 0 = 1
    let put := fun (s : State) (st : Nat) => (s.writeReg c k t f.d f.sd ⟨w64 st, false⟩).finish c k
    let was := nthD (s.core c).outp p OutPort.reset
    if g.bits 1 1 = 1 && was.owner = some k && was.abort then
      (s.modCore c (fun x => { x with outp := setNth x.outp p { was with abort := false } })).raise c k tSTREAMABORT 0 (w64 p)
    else
    let s := s'
    let x := s.core c
    if nopenBad g then put s 1
    else if g.bits 1 1 = 0 then
      let d := nthD x.inp p InPort.reset
      if d.owner ≠ none && d.owner ≠ some k then put s 2
      else put (s.setCore c { x with inp := setNth x.inp p { d with owner := if on then some k else none } }) 0
    else
      let o := nthD x.outp p OutPort.reset
      let tc := s.coreAt t.tenant (g.bits 63 60) (g.bits 59 56) (g.bits 55 53)
      if on && tc.isNone then put s 1
      else
        if o.owner ≠ none && o.owner ≠ some k then put s 2
        else if o.opened then put s 3
        else
          let o' : OutPort := if on then ⟨some k, true, tc.getD 0, g.bits 2 2, false, 0, false⟩ else OutPort.reset
          put (s.setCore c { x with outp := setNth x.outp p o' }) 0)

/-- NSENDE (R147): a release. -/
def execNsende (f : Fields) (s : State) : Out :=
  issue (.nsende f) s (fun c k t s =>
    let p := f.imm.toNat
    match s.portReady t.tenant c k p with
    | .trap code aux =>
      (if code = tSTREAMABORT then s.consumeTrap (.nsende f) c (114 + p) else s).raise c k code 0 aux
    | .no => s.park c k (.operands ((Instr.nsende f).specialReads ++ [114 + p]))
    | .yes =>
      let (v, s) := s.readVals (.nsende f) c k t f
      (s.sendStream t.tenant c k p v.d true (s.storesOf c k)).finish c k)

/-- NSTAT (R148): always tainted. -/
def execNstat (f : Fields) (s : State) : Out :=
  issue (.nstat f) s (fun c k t s =>
    let p := f.imm.toNat
    let o := nthD (s.core c).outp p OutPort.reset
    let d := nthD (s.core c).inp p InPort.reset
    let mine := o.owner = some k
    let src := match d.buf with
      | w :: _ => w.src
      | [] => 0
    let r := w64 ((if mine then 2 ^ 63 else 0) + (if o.opened then 2 ^ 62 else 0)
      + (if o.abort then 2 ^ 61 else 0) + (if d.owner = some k then 2 ^ 60 else 0)
      + (if nthD t.inEnd p false then 2 ^ 59 else 0) + min d.buf.length 64 * 2 ^ 17 + src)
    (s.writeReg c k t f.d f.sd ⟨r, true⟩).finish c k)

/-! ### The mx registers (R114) -/

/-- MX_WRITE_WAIT: a writer that waits on an empty register, and whose first attempt came earliest, goes on. -/
def execMxWriteWait (s : State) : Out :=
  let c := s.argN 0
  let k := s.argN 1
  match s.thread? c k with
  | some t =>
    (match t.run with
     | .wait (.operands l) =>
       if l.contains (124 + s.argN 2) && s.writeReady t.tenant c k t.since (124 + s.argN 2) = .yes then .next (s.wake c k)
       else .next s
     | _ => .next s)
  | none => .next s

end Sys2Proof.Machine
end

