-- ==== Sys2Proof/Machine/Mail.lean ====
section
/-!
DEFINITION. Sys2Proof/Machine/Mail.lean: messages and mailboxes (R125 to R128, R299).
-/
namespace Sys2Proof.Machine
open Sys2Proof

/-! ### Which message a thread sees next (R128, R299) -/

/-- A message that carries a key for this thread: from a thread of the same deterministic launch. -/
def Thread.keyedFor (t : Thread) (m : Msg) : Bool := taskDet t.task && m.keyed = some (taskLaunch t.task)

/-- The first of two messages in (lane, sequence) order, where only keyed ones that are presentable are compared. -/
def smaller (a b : Msg) : Msg := if b.lane < a.lane || (b.lane = a.lane && b.seq < a.seq) then b else a

/-- The message MSGRD dequeues: outside a deterministic launch the oldest; inside one, the presentable message with the
smallest key, and an unkeyed one only when no keyed message is present. -/
def Thread.nextMsg (t : Thread) : Option Msg :=
  if !taskDet t.task then t.mail.head?
  else
    let ks := t.mail.filter t.keyedFor
    match ks with
    | [] => t.mail.head?
    | _ =>
      match ks.filter (fun m => m.seq = SMap.get t.got m.src.toNat 0) with
      | [] => none
      | a :: r => some (r.foldl smaller a)

/-- The thread without the message it dequeues. -/
def Thread.dequeue (t : Thread) (m : Msg) : Thread :=
  let t := { t with mail := t.mail.erase m }
  if t.keyedFor m then { t with got := SMap.set t.got m.src.toNat (SMap.get t.got m.src.toNat 0 + 1) } else t

/-! ### Delivery (R127) -/

/-- Kinds whose messages a thread stopped by debug does not receive (R310). -/
def heldKind (k : Nat) : Bool := k = mkCOPYDONE || k = mkMXDONE || k = mkSADONE || k = mkNOTIFY

/-- A refused message returns to its sender as a BOUNCE; a BOUNCE that cannot be delivered is discarded and counted. -/
def State.bounce (s : State) (c : Nat) (m : Msg) (status : Nat) : State :=
  if m.w0.bits 63 56 = mkBOUNCE then s.modCore c (fun x => x.count 273)
  else
    let w := msgWord mkBOUNCE status (m.w0.bits 47 32) (m.w0.bits 63 56) (slotId m.dst)
    s.transmit c [] ⟨m.src, m.src, w, m.w1, none, 0, 0⟩

/-- Append a message to a saved image: its two words and the count of the state word (R127 item 2, R244). -/
def State.appendImage (s : State) (tn image n : Nat) (m : Msg) : State :=
  let s := s.writeVa tn (image + 0x300 + 16 * n) [⟨m.w0, false⟩, m.w1]
  match s.translate tn (image + 0x20) 5 with
  | .ok tr =>
    let w := (s.readHome (Leaf.sw tr.leaf) tr.pa 8).v
    s.writeHome (Leaf.sw tr.leaf) tr.pa 8
      ⟨w64 (w.bits 63 56 * 2 ^ 56 + (n + 1) * 2 ^ 48 + w.bits 47 0), false⟩
  | .error _ => s

/-- Deliver a message by the rules of R127, in order. -/
def State.deliverMsg (s : State) (c0 : Nat) (m : Msg) : State :=
  if tidTenant m.dst ≠ tidTenant m.src then s.bounce c0 m 4
  else
    match s.tidCore m.dst with
    | none => s.bounce c0 m 5
    | some c =>
      if m.dst.bits 42 32 ≠ 0 then s.bounce c0 m 5
      else if (s.core c).dead then s.bounce c0 m 1
      else
        let k := tidSlot m.dst
        let sl := (s.core c).slot k
        let i := tidInc m.dst
        let otherwise :=
          let d := (i + 2 ^ 32 - sl.inc) % 2 ^ 32
          if 1 ≤ d && d ≤ 2 ^ 31 then s.bounce c m 3 else s.bounce c m 1
        match sl.occ with
        | .reserved t image n =>
          if s.tid c k t ≠ m.dst then otherwise
          else if 16 ≤ n then s.bounce c m 2
          else (s.appendImage t.tenant image n m).setOcc c k (.reserved { t with mail := t.mail ++ [m] } image (n + 1))
        | .live t =>
          if t.inc ≠ i then otherwise
          else if t.run = .stopped true && heldKind (m.w0.bits 63 56) then
            s.setThread c k { t with held := t.held ++ [m] }
          else if 8 ≤ t.mail.length && 256 ≤ (s.core c).overflow then s.bounce c m 2
          else s.setThread c k { t with mail := t.mail ++ [m] }
        | .vacant => otherwise

/-- A message sent earlier by the same thread to the same thread is still on the mesh (R126). -/
def State.msgAhead (s : State) (n : NetMsg) : Bool :=
  s.net.any (fun m => m.id < n.id && m.msg.src = n.msg.src && m.msg.dst = n.msg.dst)

/-- MESSAGE_ARRIVAL: a message reaches its target once what it releases has been performed (a message without accesses that it
releases is none of its thread's: a completion, an answer). -/
def execMessageArrival (s : State) : Out :=
  match s.net.find? (fun m => m.id = s.argN 0) with
  | none => .next s
  | some n =>
    if s.msgAhead n then .next (s.again .messageArrival)
    else
      let (ok, s) := if n.after.isEmpty then (true, s) else s.released n.core n.after
      if !ok then .next (s.again .messageArrival)
      else .next (({ s with net := s.net.filter (fun m => m.id ≠ n.id) } : State).deliverMsg n.core n.msg)

/-- MESSAGE_DEPART: the oldest message of the outbound buffer whose release allows it leaves the core (R128). -/
def execMessageDepart (s : State) : Out :=
  let c := s.argN 0
  let x := s.core c
  match x.outbox with
  | [] => .next s
  | _ =>
    match x.outbox.find? (fun n =>
        s.performed c n.after && !x.outbox.any (fun m => m.id < n.id && m.msg.src = n.msg.src)) with
    | none => .next (s.again .messageDepart)
    | some n =>
      let (ok, s) := s.released c n.after
      if !ok then .next (s.again .messageDepart)
      else
      let s := s.modCore c (fun x => { x with outbox := x.outbox.filter (fun m => m.id ≠ n.id) })
      .next (({ s with net := s.net ++ [{ n with after := [] }] } : State).post [evt .messageArrival [n.id]])

/-! ### The instructions (R128) -/

/-- MSGSEND. -/
def execMsgsend (f : Fields) (s : State) : Out :=
  issue (.msgsend f) s (fun c k t s =>
    if 16 ≤ (s.core c).outbox.length then s.park c k .outbox
    else
      let (v, s) := s.readVals (.msgsend f) c k t f
      let me := s.tid c k t
      let (key, lane, seq, t') := t.sendKey v.d.v
      let w := msgWord mkUSER (v.a.v.bits 23 16) (v.a.v.bits 15 0) 0 (slotId me)
      let after := s.storesOf c k
      let s := s.modThread c k (fun t => { t with sendSeq := t'.sendSeq })
      let (i, s) := s.fresh
      let n : NetMsg := ⟨i, ⟨v.d.v, me, w, v.b, key, lane, seq⟩, c, after⟩
      ((s.modCore c (fun x => { x with outbox := x.outbox ++ [n] })).post [evt .messageDepart [c]]).finish c k)

/-- MSGRD: its two results, and the thread without the message. -/
def execMsgrd (f : Fields) (s : State) : Out :=
  issue (.msgrd f) s (fun c k t s =>
    let out := fun (s : State) (a b : TWord) =>
      ((s.writeReg c k t f.d f.sd a).writeReg c k t f.a f.sa b).finish c k
    let det := taskDet t.task
    match t.nextMsg with
    | none => out s ⟨0, !det⟩ ⟨0, !det⟩
    | some m =>
      let tn := !det || !t.keyedFor m
      out (s.modThread c k (fun t => t.dequeue m)) ⟨m.w0, tn⟩ ⟨m.w1.v, m.w1.t || tn⟩)

/-- MSGCNT: always tainted. -/
def execMsgcnt (f : Fields) (s : State) : Out :=
  issue (.msgcnt f) s (fun c k t s => (s.writeReg c k t f.d f.sd ⟨w64 t.mail.length, true⟩).finish c k)

/-- WAITM. -/
def execWaitm (f : Fields) (s : State) : Out :=
  issue (.waitm f) s (fun c k t s => if t.nextMsg.isSome then s.finish c k else s.park c k .mail)

end Sys2Proof.Machine
end

