-- ==== Sys2Proof/Machine/Objects.lean ====
section
/-!
DEFINITION. Sys2Proof/Machine/Objects.lean: what sync objects are made of: their words (R264 to R267), the requests to their
homes (R276), and the groups of threads they count (R228, R234, R235).
-/
namespace Sys2Proof.Machine
open Sys2Proof

/-! ### The words of an object line -/

/-- What Locus keeps of a line that it has not yet touched. -/
def SyncObj.new : SyncObj :=
  { owner := 0, spin := [], queue := [], seq := 0, changes := 0, peak := 0, nonEmpty := false, heldWin := false, gap := true,
    idle := 0, long := 0, delTid := none, pend := 0, winEnd := 0, task := 0, need := 0, early := 0, joined := [], wait := [], arrivals := 0,
    firstAt := 0, lastAt := 0, fails := 0 }

def State.obj (s : State) (l : Nat) : SyncObj := SMap.get s.objs l SyncObj.new
def State.setObj (s : State) (l : Nat) (o : SyncObj) : State := { s with objs := SMap.set s.objs l o }
def State.modObj (s : State) (l : Nat) (g : SyncObj → SyncObj) : State := s.setObj l (g (s.obj l))

/-- Word `i` of the object on line `l`. -/
def State.objW (s : State) (l i : Nat) : Word := (s.mem.word (16 * l + i)).v
def State.setObjW (s : State) (l i : Nat) (w : Word) : State := s.setHome (16 * l + i) ⟨w, false⟩

/-- A word with field [hi:lo] replaced. -/
def putBits (w : Word) (hi lo v : Nat) : Word :=
  w64 (w.toNat - w.bits hi lo * 2 ^ lo + v % 2 ^ (hi - lo + 1) * 2 ^ lo)

def State.putObj (s : State) (l i hi lo v : Nat) : State := s.setObjW l i (putBits (s.objW l i) hi lo v)

def State.oKind (s : State) (l : Nat) : Nat := (s.objW l 0).bits 63 60
def State.oMode (s : State) (l : Nat) : Nat := (s.objW l 0).bits 59 56
def State.oDG (s : State) (l : Nat) : Bool := (s.objW l 0).bits 55 55 = 1
def State.oP (s : State) (l : Nat) : Bool := (s.objW l 0).bits 54 54 = 1
def State.oDT (s : State) (l : Nat) : Bool := (s.objW l 0).bits 53 53 = 1
def State.oH (s : State) (l : Nat) : Bool := (s.objW l 0).bits 52 52 = 1
def State.oGF (s : State) (l : Nat) : Bool := (s.objW l 0).bits 51 51 = 1
def State.oSP (s : State) (l : Nat) : Bool := (s.objW l 0).bits 50 50 = 1
/-- The completed phases of a PHASE object. -/
def State.oC (s : State) (l : Nat) : Nat := (s.objW l 0).bits 47 0
/-- A threshold of word 2. -/
def State.oT (s : State) (l hi lo : Nat) : Nat := (s.objW l 2).bits hi lo

/-- The threads that wait at an object. -/
def SyncObj.waiters (o : SyncObj) : Nat := o.spin.length + o.queue.length + o.wait.length

/-- The fields of word 1 that follow the waiters: their number, and for a LOCK the largest bypass count, for a PHASE the
arrivals of the phase (R265). -/
def State.measure (s : State) (l : Nat) : State :=
  let o := s.obj l
  let s := s.putObj l 1 63 48 (min o.waiters 65535)
  if s.oKind l = 1 then s.putObj l 1 31 16 (min (o.spin.foldl (fun m x => max m x.bypass) 0) 65535)
  else s.putObj l 1 15 0 (min o.arrivals 65535)

/-! ### Requests to a home (R276) -/

def SyncReq.new (kind obj : Nat) (tid : Word) (c k : Nat) : SyncReq :=
  { id := 0, kind := kind, obj := obj, tid := tid, core := c, slot := k, lane := 0, body := 0, args := [], ref := 0,
    fails := 0, ans := 0, gone := false, after := [] }

/-- The event in which a request is handled at the home. -/
def SyncReq.event (q : SyncReq) : Event :=
  match q.kind with
  | 0 | 1 | 2 => evt .lockAttempt [q.id]
  | 4 => evt .lockRelease [q.id]
  | 5 => evt .lockWithdrawal [q.id]
  | 6 => evt .grantAck [q.id]
  | 7 => evt .grantReturned [q.id]
  | 8 => evt .phaseArrival [q.id]
  | 9 => evt .phaseWaitRequest [q.id]
  | _ => evt .phaseLeave [q.id]

/-- Send a request to its object's home. -/
def State.sendReq (s : State) (q : SyncReq) : Nat × State :=
  let (i, s) := s.fresh
  let q := { q with id := i }
  (i, ({ s with reqs := s.reqs ++ [q] } : State).post [q.event])

def State.req? (s : State) (r : Nat) : Option SyncReq := s.reqs.find? (fun q => q.id = r)
def State.setReq (s : State) (q : SyncReq) : State :=
  { s with reqs := s.reqs.map (fun x => if x.id = q.id then q else x) }
def State.dropReq (s : State) (r : Nat) : State := { s with reqs := s.reqs.filter (fun q => q.id ≠ r) }

/-- An earlier request of the thread to the object has not been answered: a new one waits at the core (R276). -/
def State.asking (s : State) (tid : Word) (l : Nat) : Bool :=
  s.reqs.any (fun q => q.tid = tid && q.obj = l && q.kind ≠ 6 && q.kind ≠ 7 && q.kind ≠ 10)

/-! ### Groups (R228) -/

/-- The PHASE objects of a tenant that are bound to a group. -/
def State.boundObjs (s : State) (tn g : Nat) : List Nat :=
  (s.objs.filter (fun p => s.oKind p.1 = 2 && (s.objW p.1 3).bits 15 0 = g && s.tenantOf (128 * p.1) = tn)).map Prod.fst

/-- The first id from `g` on that is not live, counting up and wrapping to 1. -/
def freeGroup (live : SMap Nat) (fuel g : Nat) : Option Nat :=
  match fuel with
  | 0 => none
  | n + 1 => if (SMap.get? live g).isSome then freeGroup live n (g % 65535 + 1) else some g

/-- A waiting PHASE object takes its membership at the first JOIN (R271). -/
def State.rearm (s : State) (tn g : Nat) : State :=
  (s.boundObjs tn g).foldl (fun s l =>
    if (s.obj l).need = 0 then s.modObj l (fun o => { o with need := SMap.get (s.tenant tn).groups g 0 }) else s) s

/-- A new group of `count` members: its id, where one is free. -/
def State.newGroup (s : State) (tn count : Nat) : Option (Nat × State) :=
  let t := s.tenant tn
  match freeGroup t.groups 65535 t.nextGroup with
  | none => none
  | some g =>
    some (g, (s.setTenant tn { t with groups := SMap.set t.groups g count, nextGroup := g % 65535 + 1 }).rearm tn g)

/-- A thread leaves its group (R228, R271): the count falls; at each bound PHASE object, a thread that joined in the phase is
struck off with its early arrival, and a member that has not arrived counts as arrived, with no release. -/
def State.leaveGroup (s : State) (c k : Nat) : State :=
  match s.thread? c k with
  | none => s
  | some t =>
    let g := taskGroup t.task
    if g = 0 then s
    else
      let tid := s.tid c k t
      let n := SMap.get (s.tenant t.tenant).groups g 0
      let s := s.modTenant t.tenant (fun x =>
        { x with groups := if n ≤ 1 then SMap.del x.groups g else SMap.set x.groups g (n - 1) })
      let s := s.setThread c k { t with task := taskSetGroup t.task 0 }
      (s.boundObjs t.tenant g).foldl (fun s l =>
        let o := s.obj l
        let ph := s.oC l
        if o.joined.contains tid then
          s.setObj l { o with joined := o.joined.erase tid,
                              early := if t.arrival = some (l, ph + 1) then o.early - 1 else o.early }
        else if t.arrival = some (l, ph) then s
        else (s.sendReq { SyncReq.new 10 l tid c k with ref := ph }).2) s

/-- A failure of JOIN or LEAVE. -/
def groupFail (n : Nat) : TWord := ⟨w64 (2 ^ 63 + n), false⟩

/-- JOIN (R234). -/
def execJoin (f : Fields) (s : State) : Out :=
  issue (.join f) s (fun c k t s =>
    let (v, s) := s.readVals (.join f) c k t f
    let g := v.a.v.toNat
    let put := fun (s : State) (w : TWord) => (s.writeReg c k t f.d f.sd w).finish c k
    let member := fun (s : State) (g : Nat) =>
      put (s.modThread c k (fun t => { t with task := taskSetGroup t.task g })) ⟨w64 g, false⟩
    let live := (SMap.get? (s.tenant t.tenant).groups g).isSome
    if 65535 < g || (g ≠ 0 && !live) then put s (groupFail 2)
    else if taskGroup t.task ≠ 0 then put s (groupFail 1)
    else if g = 0 then
      match s.newGroup t.tenant 1 with
      | none => put s (groupFail 3)
      | some (g, s) => member s g
    else
      let tid := s.tid c k t
      let s := (s.boundObjs t.tenant g).foldl (fun s l => s.modObj l (fun o => { o with joined := o.joined ++ [tid] })) s
      member (s.modTenant t.tenant (fun x => { x with groups := SMap.set x.groups g (SMap.get x.groups g 0 + 1) })) g)

/-- LEAVE (R234). -/
def execLeave (f : Fields) (s : State) : Out :=
  issue (.leave f) s (fun c k t s =>
    let (v, s) := s.readVals (.leave f) c k t f
    let g := v.a.v.toNat
    let put := fun (s : State) (w : TWord) => (s.writeReg c k t f.d f.sd w).finish c k
    if 65535 < g || !(SMap.get? (s.tenant t.tenant).groups g).isSome then put s (groupFail 2)
    else if g ≠ taskGroup t.task then put s (groupFail 1)
    else put (s.leaveGroup c k) TWord.zero)

/-- GRPINFO (R235), always tainted. -/
def execGrpinfo (f : Fields) (s : State) : Out :=
  issue (.grpinfo f) s (fun c k t s =>
    let (v, s) := s.readVals (.grpinfo f) c k t f
    let g := if v.a.v = 0 then taskGroup t.task else v.a.v.toNat
    let w := match SMap.get? (s.tenant t.tenant).groups g with
      | some n => 2 ^ 63 + g * 2 ^ 32 + n
      | none => g % 65536 * 2 ^ 32
    (s.writeReg c k t f.d f.sd ⟨w64 w, true⟩).finish c k)

/-- TID (R233). -/
def execTid (f : Fields) (s : State) : Out :=
  issue (.tid f) s (fun c k t s => (s.writeReg c k t f.d f.sd ⟨s.tid c k t, false⟩).finish c k)

end Sys2Proof.Machine
end

