-- ==== Sys2Proof/Machine/Regs.lean ====
section
/-!
DEFINITION. Sys2Proof/Machine/Regs.lean: register scopes (R131, R132) and pointer registers (R133 to R135).
-/
namespace Sys2Proof.Machine
open Sys2Proof

/-! ### Scopes -/

/-- Another thread of the core waits in SCOPEO, or for the granules of a restore, since before this one (R131, R246). -/
def Core.scopeAhead (x : Core) (k since : Nat) : Bool :=
  x.slots.any (fun p => p.1 ≠ k && (match p.2.occ with
    | .live t =>
      (match t.want with
       | some (.granules _) => since = 0 || t.since < since
       | _ => false)
    | _ => false))

/-- Take `n` free granules of a core, cleared (R130). -/
def Core.takeGran (x : Core) (n : Nat) : List Nat × Core :=
  let g := x.freeGran.take n
  (g, x.clearGran g)

/-- SCOPEO (R131, R132). The window of the movement thread is fixed (R113): in slot 63 it raises REGRANGE with 0x201, as for a top
that cannot rise (DESIGN CHOICE, log entry 80). -/
def execScopeo (f : Fields) (s : State) : Out :=
  issue (.scopeo f) s (fun c k t s =>
    let n := f.imm.toNat
    if 4 ≤ t.scopes.length then s.raise c k tREGRANGE 0 (w64 0x200)
    else if 16 < t.window.length + n || k = 63 then s.raise c k tREGRANGE 0 (w64 0x201)
    else if (s.core c).freeGran.length < n || (s.core c).scopeAhead k t.since then s.park c k (.granules n)
    else
      let (g, x) := (s.core c).takeGran n
      (((s.setCore c x).modThread c k
        (fun t => { t with window := t.window ++ g, scopes := n :: t.scopes })).post
          [evt .admission [c]]).finish c k)

/-- SCOPEC (R131, R132); a register that dies while an operation still has to write it is not written. -/
def execScopec (f : Fields) (s : State) : Out :=
  issue (.scopec f) s (fun c k t s =>
    match t.scopes with
    | [] => s.raise c k tREGRANGE 0 (w64 0x202)
    | n :: r =>
      ((s.modThread c k (fun t =>
        let w := t.window.take (t.window.length - n)
        { t with window := w, scopes := r,
                 ops := t.ops.map (fun o => { o with pend := o.pend.filter (fun p => p < 8 * w.length) }) })).post [evt .admission [c]]).finish c k)

/-- SCOPE_SPACE_GRANT: a waiting SCOPEO, or restore, that finds its granules free and is the first in line goes on. -/
def execScopeSpaceGrant (s : State) : Out :=
  let c := s.argN 0
  let k := s.argN 1
  match s.thread? c k with
  | some t =>
    (match t.run with
     | .wait (.granules n) =>
       if n ≤ (s.core c).freeGran.length && !(s.core c).scopeAhead k t.since then .next (s.wake c k) else .next s
     | _ => .next s)
  | none => .next s

/-! ### Pointers -/

/-- A pointer image without its reserved bits [40:21]. -/
def cleanPtr (w : Word) : Word := w64 (w.bits 63 41 * 2 ^ 41 + w.bits 20 0)

def execPset (f : Fields) (s : State) : Out :=
  issue (.pset f) s (fun c k t s =>
    let (v, s) := s.readVals (.pset f) c k t f
    (s.modThread c k (fun t => { t with ptrs := setNth t.ptrs f.d ⟨cleanPtr v.a.v, v.a.t⟩ })).finish c k)

def execPget (f : Fields) (s : State) : Out := compute (.pget f) f s (fun v => v.a)

def execPadd (f : Fields) (s : State) : Out :=
  issue (.padd f) s (fun c k _ s =>
    (s.modThread c k (fun t =>
      let p := nthD t.ptrs f.d TWord.zero
      { t with ptrs := setNth t.ptrs f.d { p with v := advancePtr p.v f.imm } })).finish c k)

end Sys2Proof.Machine
end

