-- ==== Sys2Proof/Machine/Inputs.lean ====
section
/-!
DEFINITION. Sys2Proof/Machine/Inputs.lean: what reaches the machine from outside its cores: the host, the fabric, Apex, other
dies, errors and power. Which comes when, and with what, is free (log entry 1).
-/
namespace Sys2Proof.Machine
open Sys2Proof

/-- The events that need no cause inside the machine, each with the bounds of its numbers and how many words it carries. A
bound of 0 stands for a tenant that exists. -/
def inputTable : List (Instr × List Nat × Nat) :=
  [(.lqwp, [0, 4, 2 ^ 32], 0), (.lqctl, [0, 8], 1), (.ringRpWrite, [0, 2, 2 ^ 32], 0), (.fcopenOpen, [0, 4096], 0),
   (.fcopenClose, [0, 4096], 0), (.fswp, [0, 2 ^ 32], 0), (.doorbellRegWrite, [0, 2 ^ 22], 1),
   (.hostMemAccess, [2 ^ 39, 2], 1), (.hostSnoop, [2 ^ 46, 2], 8), (.atsInvalidation, [0, 2 ^ 48, 2 ^ 40 + 1], 0),
   (.msixVectorUnmask, [128], 0)] ++
  [(.dataFrame, [16, 4096, 16, 2 ^ 32, 2 ^ 64, 2 ^ 16, 4097], 512), (.ackFrame, [16, 4096, 2 ^ 32], 0),
   (.nackFrame, [16, 4096, 256, 2 ^ 32], 0), (.connect, [16, 4096, 2 ^ 21, 16, 4096], 0), (.accept, [16, 4096], 0),
   (.refuse, [16, 4096], 0), (.closeFrame, [16, 4096], 0), (.portLinkDown, [8], 0), (.portLinkUp, [8], 0),
   (.fabidAssign, [2 ^ 21], 0)] ++
  [(.getVersion, [], 0), (.getCapabilities, [], 0), (.negotiateAlgorithms, [], 0), (.getDigests, [], 0),
   (.getCertificate, [], 0), (.challenge, [], 0), (.getMeasurements, [256], 0), (.keyExchange, [], 0), (.spdmFinish, [], 0),
   (.endSession, [], 0), (.lockInterfaceRequest, [0], 0), (.startInterfaceRequest, [0], 0), (.tdiUnlock, [0], 0),
   (.tdiError, [0], 0)] ++
  [(.powerGood, [], 0), (.railTimeout, [256], 0), (.firmwareCheck, [2 ^ 32, 2 ^ 384, 2 ^ 384, 2, 2 ^ 32], 0),
   (.topologyWalk, [], 0), (.hbmTraining, [9, 2 ^ 40], 2048), (.cxlLinkUp, [], 0), (.cxlConfigRequest, [], 0),
   (.cxlLinkTrainingFail, [], 0), (.moduleReset, [2], 0), (.clusterPowerGate, [256], 0), (.powerOverload, [], 0),
   (.tenantCreated, 16 :: List.replicate 16 16, 4096)] ++
  [(.ucieLinkUp, [16], 0), (.ucieTrainingFail, [16], 0), (.ucieReplayFail, [16], 0), (.param, [16, 4, 2 ^ 8, 2 ^ 50], 0),
   (.splParamTimeout, [16], 0), (.splCreditReturn, [16, 5, 2 ^ 10], 0), (.topord, [10, 2 ^ 16], 0),
   (.toprsp, 10 :: List.replicate 512 256, 0), (.splErr, [16], 1), (.dieReset, [4], 0)] ++
  [(.coreFatalError, [2048], 0), (.apexCoreRepair, [2048], 0), (.apexCoreFence, [2048], 0), (.stopRequest, [2048, 64], 0),
   (.poisonDetected, [2 ^ 34 + 2 ^ 25, 6], 0), (.softErrorCorrected, [], 0), (.tileEccError, [2048, 2], 0),
   (.apexLatticeRepair, [256, 64], 0), (.apexWindowShrink, [0, 2 ^ 48], 0), (.registrantWriteBack, [2 ^ 60], 0),
   (.leaseHeartbeat, [256], 0), (.leaseExpiry, [2 ^ 57, 2], 0)]

/-- The numbers of an input, each within its bound; none when a tenant is asked for and there is none. -/
def State.inputNums (s : State) (i : Nat) (bounds : List Nat) : Option (List Nat) :=
  match bounds with
  | [] => some []
  | b :: r =>
    let v := Config.inputNum s.tick i
    let ts := s.tenants.map Prod.fst
    let x : Option Nat := if b = 0 then ts[v % max 1 ts.length]? else some (v % b)
    match x, s.inputNums (i + 1) r with
    | some x, some l => some (x :: l)
    | _, _ => none

/-- The numbers that TENANT_CREATED carries: of its sixteen places for quadrants, some at the front. -/
def trimInput (ev : Instr) (n : Nat) (l : List Nat) : List Nat :=
  match ev with
  | .tenantCreated => l.take (2 + n % 16)
  | _ => l

/-- The input at this step, if it can arise. -/
def State.input (s : State) : Option Event :=
  match inputTable[Config.inputNum s.tick 0 % inputTable.length]? with
  | none => none
  | some (ev, bounds, words) =>
    match s.inputNums 1 bounds with
    | none => none
    | some l =>
      some ⟨ev, ⟨trimInput ev (Config.inputNum s.tick 600) l,
        (List.range words).map (fun i => ⟨Config.inputWord s.tick i, false⟩)⟩⟩

end Sys2Proof.Machine
end

