-- ==== Sys2Proof/Machine/Schedule.lean ====
section
/-!
DEFINITION. Sys2Proof/Machine/Schedule.lean: which thread a core issues from (R225, R226), the classes of turns (R312), and
what surrounds the execution of one instruction.
-/
namespace Sys2Proof.Machine
open Sys2Proof

/-- The cores of a tenant's partition that Apex has not fenced, in ascending logical (y, x, core) (R222). -/
def State.coresOf (s : State) (tn : Nat) : List Nat :=
  ((List.range 256).filter (fun cl => (s.tenant tn).quads.contains (quadOf cl))).flatMap
    (fun cl => ((List.range 8).map (fun j => 8 * cl + j)).filter (fun c => !(s.core c).fenced))

/-- The position of an element in a list. -/
def indexOf (l : List Nat) (n : Nat) : Option Nat :=
  match l with
  | [] => none
  | x :: r => if x = n then some 0 else (indexOf r n).map (fun i => i + 1)

/-- How many slots of core `c` are bound to lanes of the deterministic launch it belongs to (R226): the cores are those numbered
at its creation. -/
def State.boundSlots (s : State) (c : Nat) : Option Nat :=
  match (s.core c).launch with
  | none => none
  | some (tn, l) =>
    match (SMap.get? (s.tenant tn).launches l).bind (fun la => (indexOf la.cores c).map (fun k => (la, k))) with
    | some (la, k) =>
      let n := (nthD la.hdr 2 0).bits 17 0
      let cs := la.cores.length
      if (nthD la.hdr 2 0).bits 18 18 = 1 then some ((n + cs - 1 - k) / cs) else none
    | none => none

/-- Ready to issue: neither parked nor stopped (R225). -/
def Slot.readyThread (x : Slot) : Option Thread :=
  match x.occ with
  | .live t => if t.run = .ready then some t else none
  | _ => none

def Core.readySlots (x : Core) : List Nat :=
  (x.slots.map Prod.fst).filter (fun k => (x.slot k).readyThread ≠ none)

/-- The issue class of a slot: its thread's priority; slot 63 takes part as the highest (R225). -/
def Core.classOf (x : Core) (k : Nat) : Nat :=
  if k = 63 then 3
  else
    match (x.slot k).readyThread with
    | some t => taskPrio t.task
    | none => 0

/-- The ready slot that has waited longest since its last issue; ties go to the lower slot. -/
def Core.longest (x : Core) (l : List Nat) : Option Nat :=
  l.foldl (fun b k =>
    let r := fun k => match (x.slot k).readyThread with
      | some t => t.lastRun
      | none => 0
    match b with
    | none => some k
    | some j => if r k < r j then some k else some j) none

/-- The slot a core issues from in the cycle `now` (R225). A core of a deterministic launch turns strictly over its bound slots and
slot 63, and a turn passes whether or not its thread is ready (R226). -/
def State.issueSlot (s : State) (c : Nat) : Option Nat :=
  let x := s.core c
  let l := x.readySlots
  match s.boundSlots c with
  | some m => some (if x.rot % (m + 1) < m then x.rot % (m + 1) else 63)
  | none =>
    if s.now % 16 = 15 then x.longest l
    else
      let top := l.foldl (fun m k => max m (x.classOf k)) 0
      firstAfter (l.filter (fun k => x.classOf k = top)) (nthD x.lastIss top 63)

/-- The turn of a core of a deterministic launch passes to its next slot (R226). -/
def State.turned (s : State) (c : Nat) : State :=
  match s.boundSlots c with
  | some m => s.modCore c (fun x => { x with rot := (x.rot + 1) % (m + 1) })
  | none => s

/-- Every core that has a thread to issue from now, or a turn that passes, with its slot. -/
def State.issuers (s : State) : List (Nat × Nat) :=
  s.cores.filterMap (fun p => if (s.core p.1).dead then none else (s.issueSlot p.1).map (fun k => (p.1, k)))

/-- The class of a wait: EVENT, else MEMORY (R26, R312). -/
def Wait.event (w : Wait) : Bool :=
  match w with
  | .operands _ | .mail | .granules _ | .tile _ | .syncWord _ _ | .spawn _ | .locus _ | .axis _ _ | .fifo | .body => true
  | _ => false

/-- The class of a slot's turn (R312): 0 ISSUED, 1 MEMORY, 2 EVENT, 3 VACANT. -/
def Slot.turnClass (x : Slot) : Nat :=
  match x.occ with
  | .live t =>
    (match t.run with
     | .ready => 0
     | .wait w => if w.event then 2 else 1
     | .stopped _ => 3)
  | _ => 3

/-- The accounting of one cycle of a core (R312): the turn of slot t mod 64 and the histogram of ready threads. -/
def Core.account (x : Core) (now : Nat) : Core :=
  let k := now % 64
  (x.count (4 * k + (x.slot k).turnClass)).count (256 + (x.readySlots.length + 3) / 4)

/-- The end of a step: the cycle count and the counter of free choices move on, every listed core accounts for the cycle,
and no core has an instruction at hand. -/
def State.endStep (s : State) : State :=
  { s with cores := s.cores.map (fun p => (p.1, p.2.account s.now)), now := s.now + 1, tick := s.tick + 1, cur := none }

/-- A core issues from slot `k`: the thread's last issue, and the slot last issued from in its class (R225). -/
def State.issued (s : State) (c k next : Nat) : State :=
  let x := s.core c
  let cl := x.classOf k
  let s := s.setCore c { x with lastIss := setNth x.lastIss cl k }
  let s := s.modThread c k (fun t => { t with lastRun := s.now, resumed := false })
  { s with next := next }

/-- The outcome of a step once its instruction or event is done. -/
def endOut (o : Out) : Out :=
  match o with
  | .next s => .next s.endStep
  | .fault f => .fault f
  | .refused r => .refused r

/-- What a step does before any instruction runs: an instruction to execute and the state it executes in, or the outcome. -/
inductive Front where
  | run (i : Instr) (s : State)
  | done (s : State)

/-- What keeps a thread in rotation from going on with accesses that it has issued: a fault record of one of them waits for its
answer (R55), a store to a line that its cluster does not own waits in the buffer (R96), a write waits for the end of a
migration (R60). -/
def State.mustWait (s : State) (c k : Nat) (t : Thread) : Option Wait :=
  if s.walks.any (fun w => w.who = 0 && w.core = c && w.slot = k && w.record.isSome) then some .fault
  else
    let own := fun (e : SBEntry) => s.madeBy c k e && e.needsOwner && !s.ownsLine (c / 8) (e.addr / 128)
    match (s.pendingStores c).find? own with
    | some e => some (.own (e.addr / 128))
    | none =>
      match (s.core c).sb.find? (fun e => s.madeBy c k e && s.migrating t.tenant e) with
      | some e => some (.migrate e.va)
      | none =>
        match (s.core c).parked.find? (fun e => s.madeBy c k e) with
        | some e => some (.migrate e.va)
        | none => none

/-- The front of a step in which core `c` issues from slot `k`: the boundary, then fetch and decode (R27). -/
def State.frontOf (s : State) (c k : Nat) : Front :=
  match s.thread? c k with
  | none => .done s
  | some t =>
    if t.run ≠ .ready then .done s
    else
      match s.boundary c k t with
      | some s' => .done s'
      | none =>
        match (if t.answer.isSome || t.midway then none else s.mustWait c k t) with
        | some w => .done (s.parkAfter c k w)
        | none =>
        match s.fetch c k t with
        | .parked s' => .done s'
        | .trap code addr aux => .done (s.raise c k code addr aux)
        | .ok ps =>
          match decode ps with
          | .error _ => .done (s.raise c k tILLOP (w64 t.pc) 0)
          | .ok (i, n, _) => .run i (s.issued c k (t.pc + 2 * n))

/-- The turn of a core has come: it passes to the next slot where the core turns strictly (R226). -/
def State.front (s : State) (c k : Nat) : Front := (s.turned c).frontOf c k

/-- The choice of what comes next: one of the events that may take place, one of the cores that have a thread to issue, or
something from outside. The specification leaves the order open (R225 orders the threads of one core only): Config.choose
decides. -/
inductive Choice where
  | event (e : Event) (s : State)
  | issue (c k : Nat)
  | idle

def State.choice (s : State) : Choice :=
  let iss := s.issuers
  let i := Config.choose s.tick % (s.due.length + iss.length + 1)
  match s.due[i]? with
  | some e => .event e { s with due := s.due.eraseIdx i, arg := e.arg }
  | none =>
    match iss[i - s.due.length]? with
    | some (c, k) => .issue c k
    | none =>
      match s.input with
      | some e => .event e { s with arg := e.arg }
      | none => .idle

end Sys2Proof.Machine
end

