-- ==== Sys2Proof/Machine/Threads.lean ====
section
/-!
DEFINITION. Sys2Proof/Machine/Threads.lean: how work becomes threads and how threads end (R215 to R218, R224, R230 to R232).
-/
namespace Sys2Proof.Machine
open Sys2Proof

/-! ### The run FIFO (R224) -/

/-- A continuation of the core finds room: in its run FIFO behind nothing in the pool, or in the tenant's continuation pool. -/
def State.fifoRoom (s : State) (c tn : Nat) : Bool :=
  ((s.core c).fifo.length < 1024 && !(s.tenant tn).pool.any (fun p => p.1 = c)) || (s.tenant tn).pool.length < Config.poolSize

/-- Append a continuation to a core's run FIFO; beyond 1,024 records it goes to the tenant's continuation pool. -/
def State.pushFifo (s : State) (c : Nat) (x : Cont) : State :=
  let tn := x.task.bits 63 60
  if (s.core c).fifo.length < 1024 && !(s.tenant tn).pool.any (fun p => p.1 = c) then
    (s.modCore c (fun y => { y with fifo := y.fifo ++ [(x, 0)] })).post [evt .admission [c]]
  else s.modTenant tn (fun y => { y with pool := y.pool ++ [(c, x)] })

/-- Move a continuation back from the pool where the FIFO has room, the oldest first. -/
def State.refill (s : State) (c : Nat) : State :=
  if 1024 ≤ (s.core c).fifo.length then s
  else
    match s.tenants.find? (fun p => p.2.pool.any (fun q => q.1 = c)) with
    | none => s
    | some (tn, t) =>
      match t.pool.find? (fun q => q.1 = c) with
      | none => s
      | some q =>
        (s.setTenant tn { t with pool := t.pool.erase q }).modCore c (fun y => { y with fifo := y.fifo ++ [(q.2, 0)] })

/-! ### A new thread (R215, R216, R218) -/

/-- Segment `i` of s0 to s3 by the header of a launch. -/
def State.launchSeg (s : State) (tn l i : Nat) : Seg :=
  match SMap.get? (s.tenant tn).launches l with
  | some la => segOf (nthD la.hdr (7 + 2 * i) 0) (nthD la.hdr (8 + 2 * i) 0)
  | none => Seg.zero

/-- The save segment of slot `k` of core `c` (R218). -/
def State.saveSeg (s : State) (tn c k : Nat) : Seg :=
  let t := s.tenant tn
  let yx := t.logical (c / 8)
  let i := ((16 * yx.1 + yx.2) * 8 + c % 8) * 64 + k
  ⟨(t.savebase.toNat / 4096 * 4096 + i * t.savesize.toNat) % 2 ^ 57, t.savesize.toNat, 3⟩

/-- The incarnation after `n` (R127): 2^32 − 1 is followed by 1. -/
def nextInc (n : Nat) : Nat := if 2 ^ 32 ≤ n + 1 then 1 else n + 1

/-- A thread as admission leaves it (R218), in a window of granules `w`. -/
def Thread.new (tn inc : Nat) (x : Cont) (w : List Nat) (segs : List Seg) (now : Nat) : Thread :=
  { tenant := tn, inc := inc, pc := x.pc, priv := x.k, window := w, base := w.length, scopes := [], frames := [],
    ptrs := List.replicate 8 TWord.zero, segs := segs, fpstat := 0, trap := TrapRegs.zero, task := x.task,
    reply := x.reply, mail := [], held := [], ops := [], nextOp := 0, defers := [], fpx := none, saovf := none,
    pend := none, answer := none, locks := 0, deleg := none, arrival := none, axis := List.replicate 4 none,
    hbmiss := List.replicate 4 0, sendSeq := [], got := [], amoSeq := 0, inEnd := [false, false], declined := none,
    part := [], since := 0, want := none, lastRun := now, run := .ready, stopReq := 0, watch := none, brk := none, resumed := false }

/-- The delegate of an object starts idle (R270): it waits for a body. Origin 3 marks its continuation, whose pc field holds
the object's line. -/
def Thread.delegate (t : Thread) (l : Nat) : Thread :=
  { t with pc := 0, deleg := some ⟨l, 0, 0, 0, 0, true, 0⟩, run := .wait .body }

/-- Admit a continuation into slot `k` of core `c`: a new incarnation, its window and its state. -/
def State.enrol (s : State) (c k : Nat) (x : Cont) : State :=
  let tn := x.task.bits 63 60
  let l := taskLaunch x.task
  let inc := nextInc ((s.core c).slot k).inc
  let (w, y) := (s.core c).takeGran (taskGran x.task + 1)
  let segs := (List.range 4).map (s.launchSeg tn l) ++ [Seg.zero, Seg.zero, Seg.zero, s.saveSeg tn c k]
  let t := Thread.new tn inc x w segs s.now
  let t := if x.origin = 3 then t.delegate x.pc else t
  let s := s.setCore c { y with slots := SMap.set y.slots k ⟨inc, .live t⟩ }
  let s := s.setGs c t 2 x.args
  let s := s.modTenant tn (fun z => match SMap.get? z.launches l with
    | some la => { z with launches := SMap.set z.launches l { la with admitted := (la.admitted + 1) % 2 ^ 64 } }
    | none => z)
  if x.origin = 3 then s.post [evt .delegateAdmitted [x.pc, c, k]]
  else if x.origin = 2 then
    (s.boundObjs tn (taskGroup x.task)).foldl (fun s o => s.modObj o (fun ob =>
      { ob with joined := ob.joined.map (fun w => if w = x.was then s.tidAt tn c k inc else w) })) s
  else s

/-! ### Admission (R224, R226) -/

def Core.vacant (x : Core) : List Nat := (List.range 63).filter (fun k => (x.slot k).occ = .vacant)

/-- The slot a continuation may be admitted into: any vacant one, the choice free; on a core of a deterministic launch only
its lane's slot, for a continuation of that launch. -/
def State.slotFor (s : State) (c : Nat) (x : Cont) : Option Nat :=
  let y := s.core c
  match y.launch with
  | some (tn, l) =>
    let cs := match SMap.get? (s.tenant tn).launches l with
      | some la => la.cores.length
      | none => 1
    let k := taskLane x.task / max 1 cs
    if x.task.bits 63 60 = tn && taskLaunch x.task = l && taskDet x.task && y.vacant.contains k then some k else none
  | none => if taskDet x.task then none else y.vacant[(Config.free s.tick).toNat % max 1 y.vacant.length]?

/-- The continuation that is admitted next: one passed over by 64 admissions before all others, which it blocks while it
waits for space; otherwise, among those whose granules are free, the oldest of the highest priority. -/
def State.pickFifo (s : State) (c : Nat) : Option Nat :=
  let y := s.core c
  let free := y.freeGran.length
  let l := y.fifo.zipIdx.filter (fun p => (s.slotFor c p.1.1).isSome)
  let fits := fun (p : (Cont × Nat) × Nat) => taskGran p.1.1.task + 1 ≤ free
  match l.find? (fun p => 64 ≤ p.1.2) with
  | some p => if fits p then some p.2 else none
  | none =>
    (l.filter fits).foldl (fun b p =>
      match b with
      | none => some p.2
      | some j =>
        (match y.fifo[j]? with
         | some q => if taskPrio q.1.task < taskPrio p.1.1.task then some p.2 else b
         | none => b)) none

/-- The thread that has waited longest for granules, if one waits: until its instruction has taken them (R131). -/
def Core.scopeWaiter (x : Core) : Option Nat :=
  (x.slots.find? (fun p => match p.2.occ with
    | .live t =>
      (match t.want with
       | some (.granules _) => !x.scopeAhead p.1 t.since
       | _ => false)
    | _ => false)).map Prod.fst

/-- A SPAWN request can be served now: a slot for its child, and its granules. -/
def State.spawnSlot (s : State) (c : Nat) (q : SpawnReq) : Option Nat :=
  match s.slotFor c q.cont with
  | some k => if taskGran q.cont.task + 1 ≤ (s.core c).freeGran.length then some k else none
  | none => none

/-- The core takes work: it is neither dead nor fenced, and its tenant is not in ERROR (R248, R334). -/
def State.serves (s : State) (c : Nat) : Bool :=
  !(s.core c).dead && !(s.core c).fenced
    && (match s.ownerOf (c / 8) with
        | some tn => (s.tenant tn).tdi ≠ 3
        | none => true)

/-- ADMISSION: a core serves waiting work: granule requests of its threads, then SPAWN requests in arrival order, then the
run FIFO. -/
def execAdmission (s : State) : Out :=
  let c := s.argN 0
  let s := s.refill c
  let x := s.core c
  if !s.serves c then .next s
  else
    match x.scopeWaiter with
    | some k => .next (s.post [evt .scopeSpaceGrant [c, k]])
    | none =>
      match x.spawns.find? (fun q => q.arrived), x.launch with
      | some q, none =>
        (match s.spawnSlot c q with
         | some k =>
           let s := s.modCore c (fun y => { y with spawns := y.spawns.filter (fun r => r.id ≠ q.id) })
           .next ((({ s with tick := s.tick + 1 } : State).enrol c k q.cont).post
             [evt .spawnAnswer [q.src, q.slot, q.id, 1], evt .admission [c]])
         | none => .next s)
      | _, _ =>
        match s.pickFifo c with
        | none => .next s
        | some j =>
          match x.fifo[j]? with
          | none => .next s
          | some (q, _) =>
            (match s.slotFor c q with
             | none => .next s
             | some k =>
               let s := s.modCore c (fun y =>
                 { y with fifo := (y.fifo.take j).map (fun p => (p.1, p.2 + 1)) ++ y.fifo.drop (j + 1) })
               .next ((({ s with tick := s.tick + 1 } : State).enrol c k q).post [evt .admission [c]]))

/-- How a thread that was stopped goes on: an idle delegate waits for its next body. -/
def Thread.resumed' (t : Thread) : Run :=
  match t.deleg with
  | some d => if d.remote && d.req = 0 then .wait .body else .ready
  | none => .ready

/-- A delegate that was stopped or saved is idle again: its object is told so. -/
def State.idleAgain (s : State) (c k : Nat) : State :=
  match (s.thread? c k).bind (fun t => t.deleg) with
  | some d => if d.remote && d.req = 0 then s.post [evt .delegateAdmitted [d.obj, c, k]] else s
  | none => s

/-! ### The end of a thread (R232) -/

/-- Steps 3 to 6 of R232; YIELD leaves out the group. -/
def State.endThread (s : State) (c k : Nat) (leave : Bool) : State :=
  match s.thread? c k with
  | none => s
  | some t =>
    let s := if leave then s.leaveGroup c k else s
    let s := ((s.releaseTiles c (s.tid c k t)).releasePorts c k)
    let s := t.mail.foldl (fun s m => if m.w0.bits 63 56 = mkBOUNCE then s else s.bounce c m 1) s
    let s := (s.modCore c (fun x => x.clearGran t.window)).setOcc c k .vacant
    s.post [evt .admission [c], evt .launchDone [t.tenant, taskLaunch t.task]]

/-- SYNCMISUSE, class 4 (R282), with a subcause. -/
def State.misuse (s : State) (c k va sub : Nat) : State := s.raise c k tSYNCMISUSE (w64 va) (w64 (4 * 2 ^ 56 + sub))

/-- An instruction that sent a request, waited for its answer and now completes with it: its operands have been taken. A
special operand it writes must be ready. Otherwise the instruction starts. -/
def answered (i : Instr) (s : State) (done : Nat → Nat → Thread → Answer → State → State)
    (body : Nat → Nat → Thread → State → State) : Out :=
  match s.current with
  | none => .next s
  | some (c, k, t) =>
    match t.answer with
    | none => issue i s body
    | some a =>
      match joinReady (i.specialWrites.map (fun n => s.writeReady t.tenant c k t.since n)) with
      | .yes => .next ((done c k t a s).shortened c k t.pc s.nextId)
      | .no => .next ((s.askCredits c i.specialWrites).park c k (.operands i.specialWrites))
      | .trap code aux => .next ((s.clearAborts i c k code).raise c k code 0 aux)

/-! ### SPAWN (R230) -/

/-- Run the child's body inline in the caller's slot: a frame records where and how it returns. -/
def State.runInline (s : State) (c k : Nat) (f : Fields) (pc : Word) (status : Nat) : State :=
  let fr := fun (t : Thread) => (⟨s.next, t.scopes.length, f.d, f.sd, status⟩ : InlineFrame)
  (s.settle c k).modThread c k (fun t => { t with pc := pc.toNat, frames := fr t :: t.frames })

/-- The child's record. -/
def State.childCont (s : State) (c k : Nat) (t : Thread) (pc : Word) : Cont :=
  { pc := pc.toNat, args := s.getGs c t 2 4,
    task := mkTask t.tenant (taskPrio t.task) (taskDet t.task) (t.base - 1) (taskLane t.task) 0 (taskLaunch t.task),
    reply := s.tid c k t, inc := 0, origin := 1, k := false, was := 0 }

def execSpawn (f : Fields) (s : State) : Out :=
  answered (.spawn f) s
    (fun c k t a s =>
      if a.code = 1 then (s.writeReg c k t f.d f.sd ⟨0, !taskDet t.task⟩).finish c k else s.runInline c k f a.val.v 1)
    (fun c k t s =>
      let (v, s') := s.readVals (.spawn f) c k t f
      let pc := v.b.v
      let full := 4 ≤ t.frames.length
      if pc.toNat % 2 = 1 then s.raise c k tALIGN pc 0
      else if taskDet t.task then
        if full then s.raise c k tREGRANGE 0 (w64 0x204) else s'.runInline c k f pc 1
      else
        match s.coreAt t.tenant (v.a.v.bits 59 56) (v.a.v.bits 55 52) (v.a.v.bits 51 49) with
        | none =>
          if full then (s'.writeReg c k t f.d f.sd ⟨w64 3, true⟩).finish c k else s'.runInline c k f pc 2
        | some to' =>
          let q := s'.childCont c k t pc
          let (r, s') := s'.fresh
          let after := s'.storesOf c k
          let s' := s'.modCore to' (fun y => { y with spawns := y.spawns ++ [⟨r, c, k, t.inc, q, full, false, after, 0⟩] })
          (s'.post [evt .spawnRequestArrival [to', r]]).park c k (.spawn r))

/-- SPAWN_REQUEST_ARRIVAL: a request reaches its target core once the caller's earlier accesses have been performed; its
time limit runs from here, unless the caller has no frame left. -/
def execSpawnRequestArrival (s : State) : Out :=
  let c := s.argN 0
  match (s.core c).spawns.find? (fun q => q.id = s.argN 1) with
  | none => .next s
  | some q =>
    let (ok, s) := s.released q.src q.after
    if !ok then .next (s.again .spawnRequestArrival)
    else
      let q := { q with arrived := true, since := s.now }
      let s := s.modCore c (fun y => { y with spawns := y.spawns.filter (fun r => r.id ≠ q.id) ++ [q] })
      .next (s.post (evt .admission [c] :: (if q.full then [] else [evt .spawnAdmitTimeout [c, q.id]])))

/-- The target core could admit the child of a request now: it is the oldest request, no thread waits for granules, and a slot and
its granules are free. -/
def State.couldAdmit (s : State) (c : Nat) (q : SpawnReq) : Bool :=
  let x := s.core c
  s.serves c && x.launch.isNone && x.scopeWaiter.isNone
    && (match x.spawns.find? (fun r => r.arrived) with
        | some r => r.id = q.id
        | none => false)
    && (s.spawnSlot c q).isSome

/-- SPAWN_ADMIT_TIMEOUT: the target has not been able to admit the child within 64 cycles of the request's arrival; the caller
runs it inline. -/
def execSpawnAdmitTimeout (s : State) : Out :=
  let c := s.argN 0
  match (s.core c).spawns.find? (fun q => q.id = s.argN 1) with
  | none => .next s
  | some q =>
    if s.now < q.since + 64 || s.couldAdmit c q then .next (s.again .spawnAdmitTimeout)
    else
    let s := s.modCore c (fun y => { y with spawns := y.spawns.filter (fun r => r.id ≠ q.id) })
    .next (s.post [⟨.spawnAnswer, ⟨[q.src, q.slot, q.id, 0], [⟨w64 q.cont.pc, false⟩]⟩⟩, evt .admission [c],
      evt .launchDone [q.cont.task.bits 63 60, taskLaunch q.cont.task]])

/-- Answer the thread of slot `k` that waits for `w`: its instruction completes with the answer when it next runs. -/
def State.reply (s : State) (c k : Nat) (w : Wait) (a : Answer) : State :=
  s.modThread c k (fun t => if t.run = .wait w then { t with answer := some a, run := .ready } else t)

/-- SPAWN_ANSWER: the caller learns whether the child was placed. -/
def execSpawnAnswer (s : State) : Out :=
  .next (s.reply (s.argN 0) (s.argN 1) (.spawn (s.argN 2)) ⟨if s.argN 3 = 1 then 1 else 2, s.argW 0, 0⟩)

/-! ### YIELD (R231) -/

/-- The task word with another demand. -/
def taskSetGran (w : Word) (g : Nat) : Word :=
  mkTask (w.bits 63 60) (taskPrio w) (taskDet w) g (taskLane w) (taskGroup w) (taskLaunch w)

def execYield (f : Fields) (s : State) : Out :=
  issue (.yield f) s (fun c k t s =>
    if !t.frames.isEmpty then s.raise c k tREGRANGE 0 (w64 0x203)
    else if t.locks ≠ 0 || t.deleg ≠ none then s.misuse c k 0 8
    else if !t.ops.isEmpty then s.park c k .opsDone
    else if !s.fifoRoom c t.tenant then s.park c k .fifo
    else
      let q : Cont := { pc := s.next, args := s.getGs c t 2 4, task := taskSetGran t.task (t.base - 1), reply := t.reply,
                        inc := t.inc, origin := 2, k := t.priv, was := s.tid c k t }
      (s.endThread c k false).pushFifo c q)

/-! ### EXIT (R232, R285) -/

/-- Return from the innermost inline SPAWN. -/
def State.inlineReturn (s : State) (f : Fields) (c k : Nat) (t : Thread) (fr : InlineFrame) (r : List InlineFrame) : State :=
  if t.scopes.length ≠ fr.depth then s.raise c k tREGRANGE 0 (w64 0x203)
  else
    match if fr.sp then s.writeReady t.tenant c k t.since fr.d else .yes with
    | .trap code aux => s.raise c k code 0 aux
    | .no => (s.askCredits c [fr.d]).park c k (.operands [fr.d])
    | .yes =>
      let (v, s) := s.readVals (.exit f) c k t f
      let s := s.setG c t 2 v.d
      let s := s.writeReg c k t fr.d fr.sp ⟨w64 fr.status, !taskDet t.task⟩
      (s.settle c k).modThread c k (fun t => { t with pc := fr.ret, frames := r })

/-- The end of a body that runs under a lock: a release in the thread's own slot, an exit value from a delegate. -/
def State.endBody (s : State) (f : Fields) (c k : Nat) (t : Thread) (d : Deleg) : State :=
  if t.scopes.length ≠ d.depth then s.raise c k tREGRANGE 0 (w64 0x203)
  else if d.remote then
    if d.req = 0 then s.park c k .body
    else if !t.ops.isEmpty then s.park c k .opsDone
    else
      let (v, s) := s.readVals (.exit f) c k t f
      ((s.modThread c k (fun t => { t with deleg := some { d with req := 0 } })).post
        [⟨.delegateBodyExit, ⟨[d.obj, d.req], [v.d]⟩⟩]).park c k .body
  else
    let tid := s.tid c k t
    if s.asking tid d.obj then s.park c k .storeSpace
    else
      let (v, s) := s.readVals (.exit f) c k t f
      let (r, s) := s.sendReq { SyncReq.new 4 d.obj tid c k with args := [v.d], after := s.storesOf c k }
      s.park c k (.home r)

/-- Send SPAWNRET with the exit value, a release (R232 step 2). -/
def State.sendReturn (s : State) (c k : Nat) (t : Thread) (v : TWord) : State :=
  if t.reply = 0 then s
  else
    let me := s.tid c k t
    let (key, lane, seq, t') := t.sendKey t.reply
    let after := s.storesOf c k
    let s := s.modThread c k (fun t => { t with sendSeq := t'.sendSeq })
    let (i, s) := s.fresh
    let n : NetMsg := ⟨i, ⟨t.reply, me, msgWord mkSPAWNRET 0 0 0 (slotId me), v, key, lane, seq⟩, c, after⟩
    (s.modCore c (fun x => { x with outbox := x.outbox ++ [n] })).post [evt .messageDepart [c]]

/-- EXIT where neither a body nor an inline SPAWN ends. -/
def State.exitThread (s : State) (f : Fields) (c k : Nat) (t : Thread) : State :=
  if t.locks ≠ 0 then s.misuse c k 0 8
  else if !t.ops.isEmpty then s.park c k .opsDone
  else if t.reply ≠ 0 && 16 ≤ (s.core c).outbox.length then s.park c k .outbox
  else
    let (v, s) := s.readVals (.exit f) c k t f
    (s.sendReturn c k t v.d).endThread c k true

def execExit (f : Fields) (s : State) : Out :=
  answered (.exit f) s
    (fun c k t a s =>
      match t.deleg with
      | none => s.settle c k
      | some d =>
        if 16 ≤ a.code then s.misuse c k d.va (a.code - 16)
        else ((s.setG c t 2 a.val).settle c k).modThread c k (fun t => { t with pc := d.ret, deleg := none }))
    (fun c k t s =>
      let plain := match t.frames with
        | fr :: r => s.inlineReturn f c k t fr r
        | [] => s.exitThread f c k t
      match t.deleg with
      | some d => if t.frames.length = d.inl then s.endBody f c k t d else plain
      | none => plain)

end Sys2Proof.Machine
end

