-- ==== Sys2Proof/Machine/Locus.lean ====
section
/-!
DEFINITION. Sys2Proof/Machine/Locus.lean: how the home of a sync object runs it (R268 to R275), and how its answers reach the
threads that wait (R276, R277).
-/
namespace Sys2Proof.Machine
open Sys2Proof

/-! ### Windows (R272) -/

/-- The cycles of a window: a FLAG window, or one of QUEUE and DELEGATE. -/
def State.windowLen (s : State) (l m : Nat) : Nat := 2 ^ (if m = 1 then s.oT l 19 16 else s.oT l 15 12)

/-- The first multiple of `n` that is not before `t`. -/
def nextMultiple (t n : Nat) : Nat := (t + n - 1) / n * n

/-- A window of a LOCK, or the gap before its first one, has ended and its end is still to be taken: what reaches the home later
waits for that. -/
def State.windowOver (s : State) (l : Nat) : Bool := s.oKind l = 1 && (s.obj l).winEnd ≠ 0 && (s.obj l).winEnd ≤ s.now

/-! ### The state of a LOCK -/

/-- H ← 1 with an owner; the val field takes the owner's slot id. -/
def State.takeLock (s : State) (l : Nat) (tid : Word) : State :=
  ((s.putObj l 0 52 52 1).putObj l 0 47 0 (slotId tid)).modObj l (fun o => { o with owner := tid })
def State.freeLock (s : State) (l : Nat) : State :=
  ((s.putObj l 0 52 52 0).putObj l 0 47 0 0).modObj l (fun o => { o with owner := 0 })

/-- A change of mode at a cycle `t` (R272, R273): counted, and the window in progress is abandoned; the new mode's first window
starts at the first multiple of its length from then on, which may be that cycle itself (DESIGN CHOICE, log entry 81). -/
def State.changeModeAt (s : State) (l m t : Nat) : State :=
  let n := nextMultiple t (s.windowLen l m)
  ((if s.oKind l = 1 then s.putObj l 1 15 0 0 else s).putObj l 0 59 56 m).modObj l (fun o =>
    { o with changes := (o.changes + 1) % 65536, gap := true, winEnd := n, idle := 0, long := 0, fails := 0 })
def State.changeMode (s : State) (l m : Nat) : State := s.changeModeAt l m s.now

/-- After an event at the home of a LOCK: its measurements (R265). -/
def State.measured (s : State) (l : Nat) : State :=
  let h := s.oH l
  (s.modObj l (fun o => { o with peak := max o.peak o.waiters, nonEmpty := o.nonEmpty || !o.queue.isEmpty,
                                 heldWin := o.heldWin || h })).measure l

/-- A request's queue entry. -/
def State.entryOf (s : State) (tid : Word) (r : Nat) : QEnt :=
  match s.req? r with
  | some q => ⟨tid, q.lane, r, q.kind = 2⟩
  | none => ⟨tid, 0, r, false⟩

/-- Spinners in ascending order of first sequence number. -/
def insertSpin (l : List Spin) (x : Spin) : List Spin :=
  match l with
  | [] => [x]
  | y :: r => if x.seq < y.seq then x :: y :: r else y :: insertSpin r x

/-- FLAG → QUEUE: the listed spinners are enrolled (R273). -/
def State.enrolAll (s : State) (l : Nat) : State :=
  let o := s.obj l
  let q := (o.spin.foldl insertSpin []).map (fun x => s.entryOf x.tid x.req)
  (s.setObj l { o with spin := [], queue := o.queue ++ q }).changeMode l 2

/-- QUEUE → FLAG after enough idle windows; not while a grant is in flight (R273). -/
def State.toFlag (s : State) (l t : Nat) : State :=
  let o := s.obj l
  if s.oMode l = 2 && !s.oGF l && !s.oP l && o.queue.isEmpty && s.oT l 55 52 ≤ o.idle then s.changeModeAt l 1 t else s

/-- The head of the queue (R269). -/
def State.headOf (s : State) (l : Nat) : Option QEnt :=
  match (s.obj l).queue with
  | [] => none
  | e :: r => some (if s.oDT l then r.foldl (fun (b x : QEnt) => if x.lane < b.lane then x else b) e else e)

/-- The home cluster's core that runs the delegate, and the delegate's slot there. -/
def State.delegateAt (s : State) (l : Nat) : Nat × Nat :=
  (8 * s.homeOf l + s.oT l 11 9, tidSlot ((s.obj l).delTid.getD 0))

/-- The head becomes the owner and is sent a GRANT. -/
def State.grantTo (s : State) (l : Nat) (e : QEnt) : State :=
  let s := s.modObj l (fun o => { o with queue := o.queue.erase e })
  let s := (s.takeLock l e.tid).putObj l 0 51 51 1
  match s.req? e.req with
  | some q => s.post [evt .grant [q.core, q.slot, q.id]]
  | none => s

/-- The delegate begins a request's body (R270): its registers are cleared, g2 to g5 take the arguments, the scope stack and
FPSTAT are emptied. One that is saved begins it when it is back. The requester waits for SPAWNRET from here on. -/
def State.startBody (s : State) (l r : Nat) : State :=
  let (c, k) := s.delegateAt l
  match s.req? r with
  | none => s
  | some q =>
    let s : State := match s.thread? c k with
      | none => s.modObj l (fun o => { o with pend := r })
      | some t =>
        let t' : Thread :=
          { t with window := t.window.take t.base, scopes := [], frames := [], fpstat := 0, pc := q.body,
                   deleg := some ⟨l, 0, 0, 0, 0, true, r⟩,
                   run := if t.run = .wait .body then .ready else t.run }
        ((s.modCore c (fun x => x.clearGran t.window)).setThread c k t'.afresh).setGs c t' 2 q.args
    s.modThread q.core q.slot (fun u => if u.run = .wait (.locus r) then { u with run := .wait (.spawn r) } else u)

/-- The delegate is told to exit: it ends when it is next idle (R270), which one that is stopped or saved is once it is back
(`ret` 1). -/
def State.dismiss (s : State) (c k : Nat) : State :=
  let told := fun (t : Thread) => { t with deleg := t.deleg.map (fun d => { d with ret := 1 }) }
  match ((s.core c).slot k).occ with
  | .live t => if t.run = .wait .body && t.stopReq = 0 then s.endThread c k true else s.setThread c k (told t)
  | .reserved t image n => s.setOcc c k (.reserved (told t) image n)
  | .vacant => s

/-- Dispatch (R270). -/
def State.dispatch (s : State) (l : Nat) : State :=
  match s.headOf l with
  | none => s.freeLock l
  | some e =>
    if e.dlg then
      let s := s.modObj l (fun o => { o with queue := o.queue.erase e })
      (s.takeLock l ((s.obj l).delTid.getD 0)).startBody l e.req
    else s.grantTo l e

/-- QUEUE → DELEGATE (R273). -/
def State.enterDelegate (s : State) (l : Nat) : State :=
  ((s.changeMode l 4).putObj l 0 50 50 0).setObjW l 3 ((s.obj l).delTid.getD 0)

/-- What the owner's release does (R274). -/
def State.releaseLock (s : State) (l : Nat) : State :=
  match s.oMode l with
  | 1 => s.freeLock l
  | 2 =>
    if s.oSP l && (s.obj l).delTid.isSome then (s.enterDelegate l).dispatch l
    else
      match s.headOf l with
      | none => s.freeLock l
      | some e => s.grantTo l e
  | _ => s.dispatch l

/-! ### Answers -/

/-- Answers: 1 OK, 2 FAIL, 3 ENROLLED, 6 RUN, 16 + n the refusal with subcause n. -/
def State.answerReq (s : State) (q : SyncReq) (a : Nat) : State :=
  (s.setReq { q with ans := a }).post [evt .locusAnswer [q.id]]

/-- The answer of an attempt that has succeeded. -/
def SyncReq.won (q : SyncReq) : Nat := if q.kind = 2 then 6 else 1

/-- An attempt at the home (R268 to R270, R274). -/
def State.attempt (s : State) (q : SyncReq) : State :=
  let l := q.obj
  let o := s.obj l
  let free := !s.oH l
  if s.oKind l ≠ 1 then s.answerReq q 18
  else if !free && o.owner = q.tid then s.answerReq q 20
  else
    match s.oMode l with
    | 1 =>
      if free then
        let sp := (o.spin.filter (fun x => x.req ≠ q.id)).map (fun x => { x with bypass := x.bypass + 1 })
        let s := (s.setObj l { o with spin := sp }).takeLock l q.tid
        let s := if sp.any (fun x => s.oT l 59 56 ≤ x.bypass) && !s.oP l then s.enrolAll l else s
        s.answerReq q q.won
      else if q.kind = 1 then s.answerReq q 2
      else
        let o := if o.spin.any (fun x => x.req = q.id) then o
          else { o with seq := o.seq + 1, spin := o.spin ++ [⟨q.tid, q.id, o.seq + 1, 0⟩] }
        let s := s.setObj l o
        if s.oT l 63 60 ≤ o.waiters && !s.oP l then (s.enrolAll l).answerReq q 3 else s.answerReq q 2
    | m =>
      if free && o.queue.isEmpty then
        if m = 4 && q.kind = 2 then (s.takeLock l (o.delTid.getD 0)).startBody l q.id
        else (s.takeLock l q.tid).answerReq q q.won
      else if q.kind = 1 then s.answerReq q 2
      else
        let o := if o.queue.any (fun e => e.req = q.id) then o
          else { o with queue := o.queue ++ [⟨q.tid, q.lane, q.id, q.kind = 2⟩] }
        (s.setObj l o).answerReq q 3

/-- LOCK_ATTEMPT; that of a SYDLG is a release of the requester (R279). -/
def execLockAttempt (s : State) : Out :=
  match s.req? (s.argN 0) with
  | none => .next s
  | some q =>
    let (ok, s) := if q.kind = 2 then s.released q.core q.after else (true, s)
    if !ok || s.windowOver q.obj then .next (s.again .lockAttempt)
    else .next ((s.attempt q).measured q.obj)

/-- The cycles from a thread's FAIL to its retry, after `n` earlier ones: 16, 32, 64, then 128 (R268). -/
def backoff (n : Nat) : Nat := 16 * 2 ^ min n 3

/-- FLAG_RETRY: not sent before its backoff has passed; only a listed spinner's retry is an attempt; one of a queued thread
is told so, any other is dropped. -/
def execFlagRetry (s : State) : Out :=
  match s.req? (s.argN 0) with
  | none => .next s
  | some q =>
    let o := s.obj q.obj
    if s.windowOver q.obj || s.now < s.argN 1 then .next (s.again .flagRetry)
    else if o.spin.any (fun x => x.req = q.id) then .next ((s.attempt q).measured q.obj)
    else if o.queue.any (fun e => e.req = q.id) then .next (s.answerReq q 3)
    else .next s

/-- LOCK_RELEASE: once the accesses it orders have been performed, and after the acknowledgement of its own grant. -/
def execLockRelease (s : State) : Out :=
  match s.req? (s.argN 0) with
  | none => .next s
  | some q =>
    let l := q.obj
    let (ok, s) := s.released q.core q.after
    if !ok || s.windowOver l || s.reqs.any (fun x => x.kind = 6 && x.tid = q.tid && x.obj = l) then
      .next (s.again .lockRelease)
    else
      if s.oKind l ≠ 1 then .next (s.answerReq q 18)
      else if !(s.oH l && (s.obj l).owner = q.tid) then .next (s.answerReq q 19)
      else .next (((s.releaseLock l).measured l).answerReq q 1)

/-- A withdrawal follows the request it withdraws. -/
def State.requestDue (s : State) (r : Nat) : Bool :=
  s.due.any (fun e => (e.ev = .lockAttempt || e.ev = .phaseWaitRequest) && e.arg.nums = [r])

/-- LOCK_WITHDRAWAL: a listed, queued or waiting thread is removed and answered TIMEOUT; any other withdrawal is dropped. -/
def execLockWithdrawal (s : State) : Out :=
  match s.req? (s.argN 0) with
  | none => .next s
  | some q =>
    if s.requestDue q.ref || s.windowOver q.obj then .next (s.again .lockWithdrawal)
    else
      let s := s.dropReq q.id
      let o := s.obj q.obj
      if o.spin.any (fun x => x.req = q.ref) || o.queue.any (fun x => x.req = q.ref) || o.wait.any (fun x => x.req = q.ref)
      then
        let s := s.setObj q.obj { o with spin := o.spin.filter (fun x => x.req ≠ q.ref),
                                         queue := o.queue.filter (fun x => x.req ≠ q.ref),
                                         wait := o.wait.filter (fun x => x.req ≠ q.ref) }
        .next ((s.measured q.obj).post [evt .timeout [q.core, q.slot, q.ref]])
      else .next s

/-- GRANT_ACK: GF clears, and a switch that waited for it is made. -/
def execGrantAck (s : State) : Out :=
  match s.req? (s.argN 0) with
  | none => .next s
  | some q =>
    if s.windowOver q.obj then .next (s.again .grantAck)
    else
    let s := s.dropReq q.id
    if s.oGF q.obj && (s.obj q.obj).owner = q.tid then .next (((s.putObj q.obj 0 51 51 0).toFlag q.obj s.now).measured q.obj)
    else .next s

/-- GRANT_RETURNED: as a release by the grantee. -/
def execGrantReturned (s : State) : Out :=
  match s.req? (s.argN 0) with
  | none => .next s
  | some q =>
    if s.windowOver q.obj then .next (s.again .grantReturned)
    else
    let s := s.dropReq q.id
    let l := q.obj
    if s.oH l && (s.obj l).owner = q.tid then .next ((((s.putObj l 0 51 51 0).releaseLock l).toFlag l s.now).measured l)
    else .next s

/-! ### Answers at the core (R276) -/

/-- The thread that waits for a request's answer, with its wait. -/
def State.waiting (s : State) (q : SyncReq) : Option Wait :=
  match s.thread? q.core q.slot with
  | none => none
  | some t =>
    if s.tid q.core q.slot t ≠ q.tid then none
    else
      match t.run with
      | .wait (.locus r) => if r = q.id then some (.locus r) else none
      | .wait (.home r) => if r = q.id then some (.home r) else none
      | .wait (.spawn r) => if r = q.id then some (.spawn r) else none
      | _ => none

/-- Raise or lower the count of LOCKs a thread holds (R280). -/
def State.countLock (s : State) (c k : Nat) (up : Bool) : State :=
  s.modThread c k (fun t => { t with locks := if up then t.locks + 1 else t.locks - 1 })

/-- An acquire that reaches a thread which no longer waits for it goes back to the home. -/
def State.giveBack (s : State) (q : SyncReq) : State :=
  if q.kind = 0 || q.kind = 2 then (s.sendReq (SyncReq.new 7 q.obj q.tid q.core q.slot)).2 else s

/-- What an instruction needs again when it completes: the body's address of a SYDLG, the exit value of a body's end. -/
def SyncReq.carried (q : SyncReq) : TWord := if q.kind = 2 then ⟨w64 q.body, false⟩ else nthD q.args 0 TWord.zero

/-- LOCUS_ANSWER: OK, FAIL, ENROLLED, RUN or a refusal reaches the thread's core. -/
def execLocusAnswer (s : State) : Out :=
  match s.req? (s.argN 0) with
  | none => .next s
  | some q =>
    match s.waiting q with
    | none => .next (if q.ans = 1 || q.ans = 6 then (s.dropReq q.id).giveBack q
        else if 16 ≤ q.ans then s.dropReq q.id else s)
    | some w =>
      if q.ans = 3 then .next s
      else if q.ans = 2 && q.kind ≠ 1 then
        .next ((s.setReq { q with fails := q.fails + 1 }).post
          (if s.reqs.any (fun x => x.kind = 5 && x.ref = q.id) then [] else [evt .flagRetry [q.id, s.now + backoff q.fails]]))
      else
        let s := s.dropReq q.id
        let s := if (q.ans = 1 && q.kind ≤ 1) || q.ans = 6 then s.countLock q.core q.slot true
          else if q.ans = 1 && q.kind = 4 then s.countLock q.core q.slot false else s
        .next (s.reply q.core q.slot w ⟨q.ans, q.carried, q.obj⟩)

/-- GRANT: acknowledged by the core of the thread that waits for it, else returned; a waiter of a phase is woken by it. -/
def execGrant (s : State) : Out :=
  match s.req? (s.argN 2) with
  | none => .next s
  | some q =>
    let s := s.dropReq q.id
    match s.waiting q with
    | none => .next (s.giveBack q)
    | some w =>
      if q.kind = 9 then .next (s.reply q.core q.slot w ⟨1, TWord.zero, q.obj⟩)
      else
        let s := (s.countLock q.core q.slot true).reply q.core q.slot w ⟨q.won, q.carried, q.obj⟩
        .next (s.sendReq (SyncReq.new 6 q.obj q.tid q.core q.slot)).2

/-- TIMEOUT: completes the instruction as a failure; discarded where the thread no longer waits. -/
def execTimeout (s : State) : Out :=
  match s.req? (s.argN 2) with
  | none => .next s
  | some q =>
    let s := s.dropReq q.id
    match s.waiting q with
    | none => .next s
    | some w => .next (s.reply q.core q.slot w ⟨5, TWord.zero, q.obj⟩)

/-- SYNC_TIMEOUT_EXPIRY: the core of a timed wait sends a withdrawal, once the cycles of its timeout have passed. -/
def execSyncTimeoutExpiry (s : State) : Out :=
  let r := s.argN 2
  match s.thread? (s.argN 0) (s.argN 1) with
  | some t =>
    if t.run = .wait (.locus r) && !s.reqs.any (fun q => q.kind = 5 && q.ref = r) then
      if s.now < s.argN 3 then .next (s.again .syncTimeoutExpiry) else .next (s.withdraw r)
    else .next s
  | none => .next s

/-! ### The end of a window (R272, R273) -/

/-- Place the delegate's continuation (R270). -/
def State.placeDelegate (s : State) (l : Nat) : State :=
  let t := (s.obj l).task
  s.pushFifo (8 * s.homeOf l + s.oT l 11 9)
    { pc := l, args := [], task := mkTask (t.bits 63 60) 3 false (s.oT l 8 5) 0 0 (taskLaunch t), reply := 0, inc := 0,
      origin := 3, k := false, was := 0 }

/-- The end of a window, or the start of the first one after a change of mode; a change is made at that cycle. -/
def State.windowEnd (s : State) (l : Nat) : State :=
  let t := (s.obj l).winEnd
  let o := { s.obj l with winEnd := t + s.windowLen l (s.oMode l) }
  let fresh := fun (o : SyncObj) => { o with peak := o.waiters, nonEmpty := !o.queue.isEmpty, heldWin := s.oH l, gap := false }
  if o.gap then (s.setObj l (fresh o)).measure l
  else
    let s := s.putObj l 1 47 32 (min o.peak 65535)
    match s.oMode l with
    | 2 =>
      let o := { o with idle := if o.nonEmpty then 0 else o.idle + 1,
                        long := if s.oDG l && s.oT l 47 40 ≤ o.queue.length then o.long + 1 else 0 }
      let s := (s.setObj l (fresh o)).putObj l 1 15 0 (min (max o.idle o.long) 65535)
      let room := s.fifoRoom (8 * s.homeOf l + s.oT l 11 9) (o.task.bits 63 60)
      let s := if s.oDG l && !s.oP l && !s.oSP l && s.oT l 51 48 ≤ o.long && room
        then (s.putObj l 0 50 50 1).placeDelegate l else s
      (s.toFlag l t).measure l
    | 4 =>
      let o := { o with idle := if o.nonEmpty || o.heldWin then 0 else o.idle + 1 }
      let s := (s.setObj l (fresh o)).putObj l 1 15 0 (min o.idle 65535)
      if s.oT l 55 52 ≤ o.idle && !s.oH l && o.queue.isEmpty then
        let (c, k) := s.delegateAt l
        (((s.changeModeAt l 2 t).setObjW l 3 0).modObj l (fun o => { o with delTid := none })).dismiss c k
      else s.measure l
    | _ => (s.setObj l (fresh o)).measure l

/-- LOCUS_WINDOW_END: at the end of a window, and at the start of the first. -/
def execLocusWindowEnd (s : State) : Out :=
  let l := s.argN 0
  if s.oKind l ≠ 1 then .next s
  else if s.windowOver l then .next ((s.windowEnd l).again .locusWindowEnd)
  else .next (s.again .locusWindowEnd)

/-- DELEGATE_ADMITTED: the delegate is ready; a free object goes over to it at once. One that is idle again ends where it has
been told to, or begins the body that waits for it. -/
def execDelegateAdmitted (s : State) : Out :=
  let l := s.argN 0
  let c := s.argN 1
  let k := s.argN 2
  match s.thread? c k with
  | none => .next s
  | some t =>
    match t.deleg with
    | none => .next s
    | some d =>
      if !d.remote || d.obj ≠ l || d.req ≠ 0 then .next s
      else if d.ret = 1 then .next (s.dismiss c k)
      else if s.windowOver l then .next (s.again .delegateAdmitted)
      else if (s.obj l).delTid = some (s.tid c k t) then
        let r := (s.obj l).pend
        .next (if r = 0 then s else (s.modObj l (fun o => { o with pend := 0 })).startBody l r)
      else
        let s := s.modObj l (fun o => { o with delTid := some (s.tid c k t) })
        .next ((if s.oMode l = 2 && s.oSP l && !s.oH l then s.enterDelegate l else s).measured l)

/-- DELEGATE_BODY_EXIT: a release of the delegate; the exit value reaches the requester as SPAWNRET, and the next entry is
dispatched. -/
def execDelegateBodyExit (s : State) : Out :=
  let l := s.argN 0
  let (c, k) := s.delegateAt l
  let (ok, s) := s.released c (s.storesOf c k)
  if !ok || s.windowOver l then .next (s.again .delegateBodyExit)
  else
    match s.req? (s.argN 1) with
    | none => .next ((s.dispatch l).measured l)
    | some q =>
      let s := match s.waiting q with
        | some w => s.reply q.core q.slot w ⟨7, s.argW 0, l⟩
        | none => s
      .next (((s.dropReq q.id).dispatch l).measured l)

/-! ### Phases (R271, R275) -/

/-- A phase completes: waiters with a lower target are woken in order, the membership of the next phase is taken, and the
mode follows R273. A phase whose members have all arrived early completes at once. -/
def State.completePhase (s : State) (l fuel : Nat) : State :=
  match fuel with
  | 0 => s
  | n + 1 =>
    let o := s.obj l
    let ph := (s.oC l + 1) % 2 ^ 48
    let count := SMap.get (s.tenant (s.tenantOf (128 * l))).groups ((s.objW l 3).bits 15 0) 0
    let span := if o.arrivals = 0 then 0 else o.lastAt - o.firstAt
    let busy := s.oT l 39 32 ≤ o.arrivals && span < 16 * s.oT l 31 24
    let s := (s.putObj l 0 47 0 ph).setObjW l 1
      (w64 (min o.arrivals 65535 * 2 ^ 32 + min (span / 16) 65535 * 2 ^ 16))
    let woken := o.wait.filter (fun w => w.target < ph)
    let s := s.setObj l { o with wait := o.wait.filter (fun w => ph ≤ w.target), need := count - o.early,
                                 arrivals := o.early, early := 0, joined := [], firstAt := s.now, lastAt := s.now,
                                 fails := if busy then 0 else o.fails + 1 }
    let s := woken.foldl (fun s w => match s.req? w.req with
      | some q => s.post [evt .grant [q.core, q.slot, q.id]]
      | none => s) s
    let s := if s.oP l then s
      else if s.oMode l = 1 && busy then s.changeMode l 3
      else if s.oMode l = 3 && s.oT l 23 20 ≤ (s.obj l).fails then s.changeMode l 1 else s
    let s := s.measure l
    if count ≠ 0 && (s.obj l).need = 0 then s.completePhase l n else s

/-- Members of the phase that have arrived, or have left without arriving (`arr` false). -/
def State.arriveHome (s : State) (l n : Nat) (arr : Bool) : State :=
  let o := s.obj l
  let o := if arr then { o with arrivals := o.arrivals + n, firstAt := if o.arrivals = 0 then s.now else o.firstAt,
                                lastAt := s.now }
    else o
  let s := (s.setObj l { o with need := o.need - n }).measure l
  if 0 < o.need && o.need ≤ n then s.completePhase l 2 else s

/-- The die's combiner (R271): of the tenant's slices on the die, the one nearest to (3, 3) within it. -/
def State.dieCombiner (s : State) (tn cl : Nat) : Nat :=
  let far := fun (x : Nat) => (x / 16 % 8 - 3) + (3 - x / 16 % 8) + (x % 8 - 3) + (3 - x % 8)
  ((s.tenant tn).slicesOn (dieOf cl)).foldl (fun b x => if far x < far b then x else b) cl

/-- Add a partial count at a combiner; the first arrival it holds starts its way on. -/
def State.combineAt (s : State) (cl key n : Nat) : State :=
  let x := s.cluster cl
  if x.comb.any (fun y => y.obj = key) then
    s.setCluster cl { x with comb := x.comb.map (fun y => if y.obj = key then { y with count := y.count + n } else y) }
  else (s.setCluster cl { x with comb := x.comb ++ [⟨key, n⟩] }).post [evt .combinerForward [cl, key]]

/-- What marks a count held at a die's combiner. -/
def dieLevel : Nat := 2 ^ 60

/-- COMBINER_FORWARD: a combiner of a cluster forwards its partial count to the die's, and the die's to the home, which
takes it in either mode. -/
def execCombinerForward (s : State) : Out :=
  let cl := s.argN 0
  let key := s.argN 1
  let x := s.cluster cl
  match x.comb.find? (fun y => y.obj = key) with
  | none => .next s
  | some y =>
    let s := s.setCluster cl { x with comb := x.comb.filter (fun z => z.obj ≠ key) }
    if dieLevel ≤ key then
      let l := key - dieLevel
      if s.oKind l = 2 then .next (s.arriveHome l y.count true) else .next s
    else .next (s.combineAt (s.dieCombiner (s.tenantOf (128 * key)) cl) (key + dieLevel) y.count)

/-- PHASE_ARRIVAL (R275, R286). -/
def execPhaseArrival (s : State) : Out :=
  match s.req? (s.argN 0) with
  | none => .next s
  | some q =>
    let l := q.obj
    let (ok, s) := s.released q.core q.after
    if !ok then .next (s.again .phaseArrival)
    else
      match s.waiting q, s.thread? q.core q.slot with
      | some _, some t =>
        let g := (s.objW l 3).bits 15 0
        let ph := s.oC l
        let note := fun (s : State) (n : Nat) => s.modThread q.core q.slot (fun t => { t with arrival := some (l, n) })
        if s.oKind l ≠ 2 then .next (s.answerReq q 18)
        else if taskGroup t.task ≠ g || g = 0 then .next (s.answerReq q 21)
        else if (s.obj l).joined.contains q.tid then
          .next ((note (s.modObj l (fun o => { o with early := o.early + 1 })) (ph + 1)).answerReq q 1)
        else
          let s := (note s ph).answerReq q 1
          if s.oMode l = 3 then .next (s.combineAt (q.core / 8) l 1) else .next (s.arriveHome l 1 true)
      | _, _ => .next (s.dropReq q.id)

/-- PHASE_WAIT_REQUEST: `ref` is 1 + the phase the thread's arrival record names for the object, 0 where it names none. -/
def execPhaseWaitRequest (s : State) : Out :=
  match s.req? (s.argN 0) with
  | none => .next s
  | some q =>
    let l := q.obj
    let t := if q.ref = 0 then s.oC l else q.ref - 1
    if s.oKind l ≠ 2 then .next (s.answerReq q 18)
    else if t < s.oC l then .next (s.answerReq q 1)
    else .next ((s.modObj l (fun o => { o with wait := o.wait ++ [⟨q.tid, t, q.id⟩] })).measure l)

/-- PHASE_LEAVE: `ref` is the phase in which a member left without having arrived. -/
def execPhaseLeave (s : State) : Out :=
  match s.req? (s.argN 0) with
  | none => .next s
  | some q =>
    let s := s.dropReq q.id
    if s.oKind q.obj = 2 && s.oC q.obj = q.ref then .next (s.arriveHome q.obj 1 false) else .next s

end Sys2Proof.Machine
end

