-- ==== Sys2Proof/Machine/Sync.lean ====
section
/-!
DEFINITION. Sys2Proof/Machine/Sync.lean: the sync instructions (R281 to R287) and the Axis wires (R288 to R291).
-/
namespace Sys2Proof.Machine
open Sys2Proof

/-! ### What the object instructions share (R282) -/

/-- The offset and the virtual address of the object operand. -/
def State.syncVa (s : State) (c : Nat) (t : Thread) (f : Fields) : Nat := vaOf t f.hi (gOffset (s.getG c t f.a).v f.imm)

/-- The checks of R282: the object's line, and the instruction goes on. -/
def syncBody (f : Fields) (right : Char) (body : Nat → Nat → Thread → Nat → State → State) (c k : Nat) (t : Thread)
    (s : State) : State :=
  let off := gOffset (s.getG c t f.a).v f.imm
  match memG t f.hi off 128 right with
  | some (code, addr, aux) => s.raise c k code addr aux
  | none =>
    let va := vaOf t f.hi off
    match s.pageFor c k t va 2 with
    | .parked s => s
    | .declined cause => s.raise c k tPAGEFLT (w64 off) (preciseAux cause)
    | .tr tr =>
      if Leaf.cl tr.leaf ≠ 3 || Leaf.h tr.leaf then s.misuse c k va 1
      else if s.poisoned tr.pa then
        let (i, s) := s.fresh
        (s.finish c k).addDefer c k tPOISON (w64 va) 0 t.pc i t.trap.tip
      else body c k t (tr.pa / 128) s

/-- An object instruction: a refusal by the home is its misuse trap. -/
def syncOp (i : Instr) (f : Fields) (s : State) (right : Char) (done : Nat → Nat → Thread → Answer → State → State)
    (body : Nat → Nat → Thread → Nat → State → State) : Out :=
  answered i s
    (fun c k t a s => if 16 ≤ a.code then s.misuse c k (s.syncVa c t f) (a.code - 16) else done c k t a s)
    (syncBody f right body)

/-- An instruction whose whole effect is at the home in its own cycle waits while the thread's earlier request to the object is not
answered (R276), and for the end of a window that is due. -/
def State.homeWaits (s : State) (c k : Nat) (t : Thread) (l : Nat) : Bool := s.asking (s.tid c k t) l || s.windowOver l

/-- Send a request of the thread and wait for its answer: parked on the object (`ev`), or else classed MEMORY. -/
def State.request (s : State) (c k : Nat) (t : Thread) (kind l : Nat) (ev : Bool) (g : SyncReq → SyncReq) : Nat × State :=
  let (r, s) := s.sendReq (g { SyncReq.new kind l (s.tid c k t) c k with lane := taskLane t.task })
  (r, s.park c k (if ev then .locus r else .home r))

/-- Whether a timed form names a register. -/
def Fields.timed (f : Fields) : Bool := f.d ≠ 0 || f.sd

/-- A wait of the timed or untimed form (R284, R286): a malformed timeout is reported at once; an attempt beyond 255 LOCKs
(`full`) is a misuse (R280). -/
def timedWait (i : Instr) (f : Fields) (c k : Nat) (t : Thread) (s : State) (kind l : Nat) (full : Bool)
    (g : SyncReq → SyncReq) : State :=
  if s.asking (s.tid c k t) l then s.park c k .storeSpace
  else
    let (v, s') := s.readVals i c k t f
    let n := if Fields.timed f then v.d.v.toNat else 0
    if 2 ^ 40 ≤ n then (s'.writeReg c k t f.d f.sd ⟨w64 2, false⟩).finish c k
    else if full then s.misuse c k (s.syncVa c t f) 9
    else
      let s := s'
      let (r, s) := s.request c k t kind l true g
      if n = 0 then s else s.post [evt .syncTimeoutExpiry [c, k, r, s.now + n]]

/-- The end of a timed or untimed wait: 0, or 1 on a timeout, tainted. -/
def timedDone (f : Fields) (c k : Nat) (t : Thread) (a : Answer) (s : State) : State :=
  (if Fields.timed f then s.writeReg c k t f.d f.sd ⟨w64 (if a.code = 5 then 1 else 0), true⟩ else s).finish c k

/-! ### LOCKs (R284, R285) -/

def execSyacq (f : Fields) (s : State) : Out :=
  syncOp (.syacq f) f s 'A' (timedDone f) (fun c k t l s =>
    timedWait (.syacq f) f c k t s 0 l (t.locks = 255) id)

def execSytry (f : Fields) (s : State) : Out :=
  syncOp (.sytry f) f s 'A'
    (fun c k t a s => (s.writeReg c k t f.d f.sd ⟨w64 (if a.code = 1 then 0 else 1), true⟩).finish c k)
    (fun c k t l s =>
      if t.locks = 255 then s.misuse c k (s.syncVa c t f) 9
      else if s.asking (s.tid c k t) l then s.park c k .storeSpace
      else (s.request c k t 1 l false id).2)

def execSyrel (f : Fields) (s : State) : Out :=
  syncOp (.syrel f) f s 'A' (fun c k _ _ s => s.finish c k) (fun c k t l s =>
    if s.asking (s.tid c k t) l then s.park c k .storeSpace
    else (s.request c k t 4 l false (fun q => { q with after := s.storesOf c k })).2)

/-- SYDLG: an odd body address raises ALIGN at issue, before the other checks. RUN starts the body inline, under a delegation
record; the answer of a delegate is g2's value. -/
def execSydlg (f : Fields) (s : State) : Out :=
  answered (.sydlg f) s
    (fun c k t a s =>
      if 16 ≤ a.code then s.misuse c k (s.syncVa c t f) (a.code - 16)
      else if a.code = 6 then
        let va := s.syncVa c t f
        let ret := s.next
        (s.settle c k).modThread c k (fun t =>
          { t with pc := a.val.v.toNat, deleg := some ⟨a.ref, va, ret, t.frames.length, t.scopes.length, false, 0⟩ })
      else (s.setG c t 2 a.val).finish c k)
    (fun c k t s =>
      let v := (s.readVals (.sydlg f) c k t f).1
      if v.d.v.toNat % 2 = 1 then s.raise c k tALIGN v.d.v 0
      else
        syncBody f 'A' (fun c k t l s =>
          let (v, s') := s.readVals (.sydlg f) c k t f
          if t.deleg.isSome then s.misuse c k (s.syncVa c t f) 6
          else if t.locks = 255 then s.misuse c k (s.syncVa c t f) 9
          else if s.asking (s.tid c k t) l then s.park c k .storeSpace
          else
            (s'.request c k t 2 l true (fun q =>
              { q with body := v.d.v.toNat, args := s.getGs c t 2 4, after := s.storesOf c k })).2) c k t s)

/-! ### Phases (R286) -/

def execSyarv (f : Fields) (s : State) : Out :=
  syncOp (.syarv f) f s 'A' (fun c k _ _ s => s.finish c k) (fun c k t l s =>
    if s.asking (s.tid c k t) l then s.park c k .storeSpace
    else (s.request c k t 8 l false (fun q => { q with after := s.storesOf c k })).2)

def execSywait (f : Fields) (s : State) : Out :=
  syncOp (.sywait f) f s 'A' (timedDone f) (fun c k t l s =>
    let ref := match t.arrival with
      | some (o, n) => if o = l then n + 1 else 0
      | none => 0
    timedWait (.sywait f) f c k t s 9 l false (fun q => { q with ref := ref }))

/-! ### SYMODE and SYINIT (R283, R287) -/

def execSymode (f : Fields) (s : State) : Out :=
  syncOp (.symode f) f s 'R' (fun c k _ _ s => s.finish c k) (fun c k t l s =>
    if s.homeWaits c k t l then s.park c k .storeSpace
    else
    let w0 := s.objW l 0
    let w1 := s.objW l 1
    let v := if s.oKind l = 0 then 0
      else w0.bits 63 48 * 2 ^ 48 + w1.bits 63 48 * 2 ^ 32 + (s.obj l).changes * 2 ^ 16 + w1.bits 47 32
    (s.writeReg c k t f.d f.sd ⟨w64 v, true⟩).finish c k)

/-- The default thresholds (R266). -/
def defaultThresholds : Nat := 0x342408202048C * 2 ^ 12

/-- A field of the thresholds lies outside its range. -/
def thresholdsBad (w : Word) : Bool :=
  w.bits 11 0 ≠ 0 || w.bits 63 60 = 0 || w.bits 59 56 = 0 || w.bits 55 52 = 0 || w.bits 51 48 = 0 || w.bits 47 40 = 0
    || w.bits 39 32 = 0 || w.bits 31 24 = 0 || w.bits 23 20 = 0 || w.bits 19 16 < 4 || w.bits 15 12 < 8

/-- A malformed control word of SYINIT (R283). -/
def syinitBad (g : Word) (det : Bool) : Bool :=
  let kind := g.bits 63 60
  let mode := g.bits 59 56
  let dg := g.bits 55 55 = 1
  let pin := g.bits 54 54 = 1
  g.bits 46 16 ≠ 0 || (kind ≠ 1 && kind ≠ 2) || (kind = 1 && mode ≠ 1 && mode ≠ 2) || (kind = 2 && mode ≠ 1 && mode ≠ 3)
    || (dg && (kind = 2 || pin || det)) || (!dg && g.bits 53 47 ≠ 0) || (kind = 1 && pin && mode ≠ 2)
    || (kind = 1 && g.bits 15 0 ≠ 0) || (kind = 2 && g.bits 15 0 = 0)

/-- The object is in use: SYINIT answers busy. -/
def State.objBusy (s : State) (l : Nat) : Bool :=
  let o := s.obj l
  s.oKind l ≠ 0 && (s.oH l || s.oGF l || s.oSP l || o.waiters ≠ 0 || o.delTid.isSome || o.arrivals ≠ 0 || o.early ≠ 0
    || s.clusters.any (fun p => p.2.comb.any (fun y => y.obj = l || y.obj = l + dieLevel)))

/-- The object as SYINIT leaves it: its words, and empty private state. -/
def State.initObj (s : State) (l : Nat) (t : Thread) (g thr : Word) : State :=
  let det := taskDet t.task
  let kind := g.bits 63 60
  let mode := if det && kind = 1 then 2 else g.bits 59 56
  let pin := g.bits 54 54 = 1 || (det && kind = 1)
  let grp := g.bits 15 0
  let w0 := kind * 2 ^ 60 + mode * 2 ^ 56 + g.bits 55 55 * 2 ^ 55 + (if pin then 2 ^ 54 else 0) + (if det then 2 ^ 53 else 0)
  let w2 := (if thr = 0 then defaultThresholds else thr.toNat) + g.bits 53 51 * 2 ^ 9 + g.bits 50 47 * 2 ^ 5
  let s := (((s.setObjW l 0 (w64 w0)).setObjW l 1 0).setObjW l 2 (w64 w2)).setObjW l 3 (w64 grp)
  let s := s.setObj l { SyncObj.new with task := t.task, winEnd := if kind = 1 then nextMultiple s.now (s.windowLen l mode) else 0,
                                         need := if kind = 2 then SMap.get (s.tenant t.tenant).groups grp 0 else 0 }
  if kind = 1 && !s.due.any (fun e => e.ev = .locusWindowEnd && e.arg.nums = [l]) then s.post [evt .locusWindowEnd [l]] else s

/-- SYINIT: it orders like a store, after the thread's earlier accesses. -/
def execSyinit (f : Fields) (s : State) : Out :=
  syncOp (.syinit f) f s 'A' (fun c k _ _ s => s.finish c k) (fun c k t l s =>
    let g := (s.getG c t f.d).v
    let thr := (s.getG c t (f.d + 1)).v
    if !(s.storesOf c k).isEmpty then s.park c k .drained
    else if s.homeWaits c k t l then s.park c k .storeSpace
    else
      let put := fun (s : State) (n : Nat) => (s.setG c t f.d ⟨w64 n, false⟩).finish c k
      if syinitBad g (taskDet t.task) || (thr ≠ 0 && thresholdsBad thr) then put s 1
      else if s.objBusy l then put s 2
      else if g.bits 63 60 = 2 && !(SMap.get? (s.tenant t.tenant).groups (g.bits 15 0)).isSome then put s 3
      else put (s.initObj l t g thr) 0)

/-! ### The Axis wires (R288 to R291) -/

def State.axisCtx (s : State) (n : Nat) : Axis := nthD s.axis n Axis.reset
def State.setAxis (s : State) (n : Nat) (a : Axis) : State := { s with axis := setNth s.axis n a }

/-- The clusters of a context's rectangle. -/
def State.axisRect (s : State) (a : Axis) : List Nat :=
  (s.tenant a.tenant).slices.filter (fun cl =>
    let yx := (s.tenant a.tenant).logical cl
    a.y0 ≤ yx.1 && yx.1 ≤ a.y1 && a.x0 ≤ yx.2 && yx.2 ≤ a.x1)

def State.axisCount (s : State) (n cl : Nat) : Nat := nthD (s.cluster cl).axis n 0
def State.setAxisCount (s : State) (n cl v : Nat) : State := s.modCluster cl (fun x => { x with axis := setNth x.axis n v })

/-- The context is valid for a thread of tenant `tn` on cluster `cl`. -/
def State.axisValid (s : State) (n tn cl : Nat) : Bool :=
  let a := s.axisCtx n
  a.held && a.tenant = tn && (s.axisRect a).contains cl

/-- A wire has risen at a cycle `at'`, or is up as an episode begins then: the timer starts with the first, and with the last the
episode is complete. -/
def State.axisWire (s : State) (n at' : Nat) : State :=
  let a := s.axisCtx n
  if !(s.axisRect a).any (fun cl => a.p ≤ s.axisCount n cl) then s
  else
    let s := if a.start.isSome then s
      else (s.setAxis n { a with start := some at' }).post [evt .axisEpisodeTimeout [n, a.ep]]
    if (s.axisRect a).all (fun cl => a.p ≤ s.axisCount n cl) then s.post [evt .axisEpisodeComplete [n]] else s

/-- Threads that wait for an episode are told how it ended: 0 complete, 1 failed. -/
def State.axisAnswer (s : State) (n ep code : Nat) : State :=
  s.cores.foldl (fun s p => p.2.slots.foldl (fun s q => s.reply p.1 q.1 (.axis n ep) ⟨code, TWord.zero, ep⟩) s) s

/-- An episode ends at a cycle `at'`: every count loses p, partial ones are discarded, and the next episode begins. -/
def State.axisNext (s : State) (n at' : Nat) (missing : Option (List Word)) : State :=
  let a := s.axisCtx n
  let s := (s.axisRect a).foldl (fun s cl => s.setAxisCount n cl (s.axisCount n cl - a.p)) s
  let s := s.setAxis n { a with ep := a.ep + 1, start := none, ended := match missing with
    | some m => SMap.set a.ended a.ep m
    | none => a.ended }
  (s.axisAnswer n a.ep (if missing.isSome then 1 else 0)).axisWire n at'

/-- AXIS_EPISODE_COMPLETE: when every cluster of the rectangle has raised its wire. -/
def execAxisEpisodeComplete (s : State) : Out :=
  let n := s.argN 0
  let a := s.axisCtx n
  if a.held && (s.axisRect a).all (fun cl => a.p ≤ s.axisCount n cl) then .next (s.axisNext n s.now none) else .next s

/-- The mask of the clusters whose wires are down (R291). -/
def State.axisMissing (s : State) (n : Nat) : List Word :=
  let a := s.axisCtx n
  let bits := ((s.axisRect a).filter (fun cl => s.axisCount n cl < a.p)).map (fun cl =>
    let yx := (s.tenant a.tenant).logical cl
    16 * yx.1 + yx.2)
  (List.range 4).map (fun i => w64 ((bits.filter (fun b => b / 64 = i)).map (fun b => 2 ^ (b % 64))).sum)

/-- The episode in progress fails at this cycle: 2^(12+T) after its first wire rose, its last wire not having risen before
(R288, R293). -/
def State.axisEnds (s : State) (n : Nat) : Option Nat :=
  let a := s.axisCtx n
  if !a.held || (s.axisRect a).all (fun cl => a.p ≤ s.axisCount n cl) then none else a.start.map (fun b => b + 2 ^ (12 + a.tmo))

/-- Episodes whose time has passed fail, one after the other: a surplus may raise wires of the next at once. -/
def State.axisFail (s : State) (fuel n : Nat) : State :=
  match fuel with
  | 0 => s
  | m + 1 =>
    match s.axisEnds n with
    | some b => if b ≤ s.now then (s.axisNext n b (some (s.axisMissing n))).axisFail m n else s
    | none => s

/-- What an instruction finds of a context: every failure that is due has taken place. A surplus lasts for no more episodes than the
largest count. -/
def State.axisDue (s : State) (n : Nat) : State :=
  s.axisFail (((s.axisRect (s.axisCtx n)).map (fun cl => s.axisCount n cl)).foldl max 0 + 1) n

/-- AXIS_EPISODE_TIMEOUT: the episode has not completed in time; it fails. -/
def execAxisEpisodeTimeout (s : State) : Out :=
  let n := s.argN 0
  if (s.axisCtx n).ep ≠ s.argN 1 then .next s
  else
    match s.axisEnds n with
    | none => .next s
    | some b => if b ≤ s.now then .next (s.axisFail 1 n) else .next (s.again .axisEpisodeTimeout)

/-- HBARV: one arrival, which counts toward the current episode or, where the cluster already holds enough, a later one. -/
def execHbarv (f : Fields) (s : State) : Out :=
  issue (.hbarv f) s (fun c k t s =>
    let n := f.imm.toNat
    if !s.axisValid n t.tenant (c / 8) then s.misuse c k 0 7
    else
      let s := s.axisDue n
      let a := s.axisCtx n
      let v := s.axisCount n (c / 8) + 1
      let s := (s.setAxisCount n (c / 8) v).modThread c k (fun t =>
        { t with axis := setNth t.axis n (some (a.ep + (v - 1) / max 1 a.p)) })
      (if v = a.p then s.axisWire n s.now else s).finish c k)

/-- HBWAIT. -/
def execHbwait (f : Fields) (s : State) : Out :=
  let n := f.imm.toNat
  let told := fun (c k : Nat) (t : Thread) (s : State) (ep : Nat) (failed : Bool) =>
    let m := if failed then SMap.get (s.axisCtx n).ended ep (List.replicate 4 0) else List.replicate 4 0
    ((s.modThread c k (fun t => { t with hbmiss := m })).writeReg c k t f.d f.sd
      ⟨w64 (if failed then 1 else 0), failed⟩).finish c k
  answered (.hbwait f) s (fun c k t a s => told c k t s a.ref (a.code = 1)) (fun c k t s =>
    if !s.axisValid n t.tenant (c / 8) then (s.writeReg c k t f.d f.sd ⟨w64 2, true⟩).finish c k
    else
      let s := s.axisDue n
      let a := s.axisCtx n
      let ep := (nthD t.axis n none).getD a.ep
      if ep < a.ep then told c k t s ep (SMap.get? a.ended ep).isSome else s.park c k (.axis n ep))

/-- A malformed word of HBCFG (R290). -/
def hbcfgBad (w : Word) : Bool :=
  if w.bits 0 0 = 0 then w ≠ 0
  else w.bits 47 44 ≠ 0 || w.bits 30 1 ≠ 0 || w.bits 55 52 < w.bits 63 60 || w.bits 51 48 < w.bits 59 56
    || w.bits 39 31 = 0 || 504 < w.bits 39 31

/-- HBCFG. -/
def execHbcfg (f : Fields) (s : State) : Out :=
  issue (.hbcfg f) s (fun c k t s =>
    let (v, s) := s.readVals (.hbcfg f) c k t f
    let n := f.imm.toNat
    let w := v.d.v
    let s := s.axisDue n
    let a := s.axisCtx n
    let put := fun (s : State) (st : Nat) => (s.writeReg c k t f.d f.sd ⟨w64 st, false⟩).finish c k
    let b : Axis := { a with held := true, tenant := t.tenant, y0 := w.bits 63 60, x0 := w.bits 59 56, y1 := w.bits 55 52,
                             x1 := w.bits 51 48, tmo := w.bits 43 40, p := w.bits 39 31, start := none }
    if hbcfgBad w then put s 1
    else if a.held && a.tenant ≠ t.tenant then put s 2
    else if a.held && (s.axisRect a).any (fun cl => s.axisCount n cl ≠ 0) then put s 3
    else if w = 0 then put (s.setAxis n { Axis.reset with ep := a.ep, ended := a.ended }) 0
    else if (s.axisRect b).length ≠ (b.y1 - b.y0 + 1) * (b.x1 - b.x0 + 1) then put s 4
    else put (s.setAxis n b) 0)

end Sys2Proof.Machine
end

