-- ==== Sys2Proof/Machine/Views.lean ====
section
/-!
DEFINITION. Sys2Proof/Machine/Views.lean: covered regions and view handles (R70 to R89): Chord's operations and its freeing
sequence, the view caches, LDV and STV.
-/
namespace Sys2Proof.Machine
open Sys2Proof

/-! ### Handles (R72, R73) -/

/-- The XOR of the fifteen 4-bit groups of bits [63:4] and 5. -/
def handleCheck (h : Word) : Nat :=
  (List.range 15).foldl (fun x i => Nat.xor x (h.bits (4 * i + 7) (4 * i + 4))) 5

/-- The handle of a view slot. -/
def mkHandle (tn region view gen : Nat) : Word :=
  let h := w64 (tn * 2 ^ 60 + region * 2 ^ 36 + view * 2 ^ 20 + gen * 16)
  w64 (h.toNat + handleCheck h)

def hTenant (h : Word) : Nat := h.bits 63 60
def hRegion (h : Word) : Nat := h.bits 59 36
def hView (h : Word) : Nat := h.bits 35 20
def hGen (h : Word) : Nat := h.bits 19 4

/-- What validating a handle finds: its span in granules, or the trap, with the number VWINFO gives it. -/
inductive Validated where
  | ok (v : View)
  | bad (code info : Nat)

/-- CheckHandle of R73, against the state of the region's Chord. -/
def Tenant.checkHandle (t : Tenant) (tn : Nat) (h : Word) : Validated :=
  if hTenant h ≠ tn then .bad tVIEWFOREIGN 1
  else if h.bits 3 0 ≠ handleCheck h then .bad tVIEWSTALE 2
  else
    let r := t.region (hRegion h)
    let v := r.view (hView h)
    if 4095 < hRegion h || !r.live || 4095 < hView h || !v.live || v.gen ≠ hGen h then .bad tVIEWSTALE 3
    else .ok v

/-! ### Coverage (R74) -/

/-- Granule `g` is covered by a live view. -/
def Region.covered (r : Region) (g : Nat) : Bool :=
  r.views.any (fun p => p.2.live && p.2.start ≤ g && g < p.2.start + p.2.len)

def Region.liveViews (r : Region) : Nat := (r.views.filter (fun p => p.2.live)).length

/-- A view slot dies: its generation rises, from 65,535 to 1. -/
def View.die (v : View) : View := ⟨if v.gen = 65535 then 1 else v.gen + 1, false, 0, 0⟩

/-- The granules a tenant holds over the whole module (R71). -/
def Tenant.coveredGranules (t : Tenant) : Nat := (t.regions.map (fun p => p.2.frames.length)).sum

/-! ### The granule pool (R71) -/

/-- The 64 KiB frames of a die that may be allocated (R43). -/
def dieFrames : Nat := 2929687

/-- A 64 KiB frame of a die that lies in no window, belongs to no host-visible range and has not been drawn. -/
def State.frameFree (s : State) (f : Nat) : Bool :=
  !(s.tenants.any (fun p => p.2.window.any (fun e => e.2 = f))) && !(s.die (f / 2 ^ 22)).frames.contains f
    && !(s.boot.hdm.any (fun p => p.2 = f / 4096))

/-- The first `n` free frames of a die from number `i` on, looking at `fuel` frames. -/
def State.drawFrames (s : State) (d fuel i n : Nat) : List Nat :=
  match fuel with
  | 0 => []
  | m + 1 =>
    if n = 0 then []
    else
      let f := d * 2 ^ 22 + i
      if s.frameFree f then f :: s.drawFrames d m (i + 1) (n - 1) else s.drawFrames d m (i + 1) n

/-- Take `n` granule frames of a die: from its pool, and from frames drawn for it; none where they do not suffice. -/
def State.takeGranules (s : State) (d n : Nat) : Option (List Nat × State) :=
  let x := s.die d
  let have_ := x.granules.length
  let fs := if n ≤ have_ then [] else s.drawFrames d dieFrames 0 ((n - have_ + 15) / 16)
  let pool := x.granules ++ fs.flatMap (fun f => (List.range 16).map (fun i => 16 * f + i))
  if pool.length < n then none
  else some (pool.take n, s.setDie d { x with granules := pool.drop n, frames := x.frames ++ fs })

/-! ### The operations of Chord (R83 to R88) -/

/-- What an operation of Chord comes to: results for d and d + 1, the view whose entries must be invalidated and the state,
or a trap. -/
inductive ViewOut where
  | ok (out : List TWord) (gone : Option (Nat × Nat)) (s : State)
  | trap (code : Nat) (addr : Nat) (h : Word)

def State.setRegion (s : State) (tn r : Nat) (x : Region) : State :=
  s.modTenant tn (fun t => { t with regions := SMap.set t.regions r x })

/-- The numbers below 4,096 that a table of slots does not use. -/
def freeSlots (used : Nat → Bool) : List Nat := (List.range 4096).filter (fun i => !used i)

/-- The view slots a region takes next, in order (R296): those that have never been live in it, then the dead ones, lowest
first. -/
def Region.nextSlots (r : Region) (n : Nat) : List Nat :=
  let new := (List.range (min n (4096 - r.used))).map (· + r.used)
  if new.length = n then new
  else new ++ ((freeSlots (fun i => (r.view i).live)).filter (fun i => i < r.used)).take (n - new.length)

/-- VWNEW (R83): status 1 for a refused field, a length of 0 or past 2^24, or a reserved bit; 4 for a die without a quadrant of
the tenant; 2 past CVQUOTA or where the pool has too few frames, nothing being taken; 3 without a free region slot. Else view
slot 0 of the lowest free region slot gets the whole span, and the handle its current generation. -/
def State.viewNew (s : State) (tn die0 : Nat) (a : TWord) : ViewOut :=
  let w := a.v
  let fail := fun (n : Nat) => ViewOut.ok [⟨w64 n, a.t⟩] none s
  let len := w.bits 24 0
  let sh := w.bits 27 25
  let dc := w.bits 30 28
  if w.bits 63 32 ≠ 0 || len = 0 || 2 ^ 24 < len || 4 < dc || !(sh = 2 || sh = 3) then fail 1
  else
    let d := if dc = 4 then die0 else dc
    let t := s.tenant tn
    if !(t.quads.any (fun q => dieOfQuad q = d)) then fail 4
    else if t.cvquota.toNat < t.coveredGranules + len then fail 2
    else
      match s.takeGranules d len with
      | none => fail 2
      | some (gs, s') =>
        match freeSlots (fun i => (t.region i).live) with
        | [] => fail 3
        | r :: _ =>
          let old := t.region r
          let gen := (old.view 0).gen
          let x : Region := { live := true, epoch := old.epoch + 1, die := d, sh := sh, notify := w.bits 31 31 = 1, len := len,
                              views := SMap.set old.views 0 ⟨gen, true, 0, len⟩, used := 1,
                              frames := gs.zipIdx.map (fun p => (p.2, p.1)) }
          .ok [⟨mkHandle tn r 0 gen, a.t⟩] none (s'.setRegion tn r x)

/-- VWDUP (R84). -/
def State.viewDup (s : State) (tn : Nat) (h : TWord) : ViewOut :=
  let t := s.tenant tn
  match t.checkHandle tn h.v with
  | .bad code _ => .trap code 0 h.v
  | .ok v =>
    let r := t.region (hRegion h.v)
    match r.nextSlots 1 with
    | [] => .ok [⟨w64 3, h.t⟩] none s
    | n :: _ =>
      let gen := (r.view n).gen
      .ok [⟨mkHandle tn (hRegion h.v) n gen, h.t⟩] none
        (s.setRegion tn (hRegion h.v) { r with views := SMap.set r.views n ⟨gen, true, v.start, v.len⟩, used := max r.used (n + 1) })

/-- VWSPLIT (R85). -/
def State.viewSplit (s : State) (tn : Nat) (h m : TWord) : ViewOut :=
  let t := s.tenant tn
  let off := m.v.toNat
  match t.checkHandle tn h.v with
  | .bad code _ => .trap code off h.v
  | .ok v =>
    if off % 4096 ≠ 0 then .trap tALIGN off h.v
    else if off / 4096 ≤ v.start || v.start + v.len ≤ off / 4096 then .trap tWIDEN off h.v
    else
      let r := t.region (hRegion h.v)
      match r.nextSlots 2 with
      | i :: j :: _ =>
        let lo := min i j
        let hi := max i j
        let g := off / 4096
        let vs := SMap.set r.views (hView h.v) v.die
        let vs := SMap.set vs lo ⟨(r.view lo).gen, true, v.start, g - v.start⟩
        let vs := SMap.set vs hi ⟨(r.view hi).gen, true, g, v.start + v.len - g⟩
        .ok [⟨mkHandle tn (hRegion h.v) lo (r.view lo).gen, h.t || m.t⟩,
             ⟨mkHandle tn (hRegion h.v) hi (r.view hi).gen, h.t || m.t⟩]
          (some (hRegion h.v, hView h.v)) (s.setRegion tn (hRegion h.v) { r with views := vs, used := max r.used (hi + 1) })
      | _ => .ok [⟨w64 3, h.t || m.t⟩, ⟨w64 3, h.t || m.t⟩] none s

/-- Runs of consecutive numbers: each with the first of its run. -/
def runsOf (l : List Nat) : List (Nat × Nat) :=
  (l.foldl (fun (p : List (Nat × Nat) × Option (Nat × Nat)) g =>
    match p.2 with
    | some (last, first) => if g = last + 1 then (p.1 ++ [(g, first)], some (g, first)) else (p.1 ++ [(g, g)], some (g, g))
    | none => (p.1 ++ [(g, g)], some (g, g))) ([], none)).1

/-- A region's views have changed by operation `op`: the granules no view covers any longer will be freed once the operation has
completed, and a region with no view left dies (R74, R76). -/
def State.freeUncovered (s : State) (op tn ri view : Nat) (r : Region) : State :=
  let gone := r.frames.filter (fun p => !r.covered p.1)
  let r' := { r with frames := r.frames.filter (fun p => r.covered p.1), live := 0 < r.liveViews }
  let runs := runsOf (gone.map Prod.fst)
  let base := s.nextId
  let fs := gone.map (fun p =>
    (⟨tn, ri, r.epoch, view, p.1, p.2, false, false, op, base + SMap.get runs p.1 0, r.notify⟩ : Free))
  let s := { s with nextId := base + r.len + 1 }
  (s.setRegion tn ri r').modDie r.die (fun d => { d with frees := d.frees ++ fs })

/-- A view operation has completed: its granules are freed (R76). -/
def State.startFrees (s : State) (op : Nat) : State :=
  s.dies.foldl (fun s p =>
    s.post ((p.2.frees.filter (fun x => x.op = op && !x.retired)).map (fun x => evt .granuleFreeStart [p.1, x.frame]))) s

/-- VWDROP (R87). -/
def State.viewDrop (s : State) (op tn : Nat) (h : Word) (off : Nat) : ViewOut :=
  let t := s.tenant tn
  match t.checkHandle tn h with
  | .bad code _ => .trap code off h
  | .ok v =>
    let r := t.region (hRegion h)
    .ok [] (some (hRegion h, hView h))
      (s.freeUncovered op tn (hRegion h) (hView h) { r with views := SMap.set r.views (hView h) v.die })

/-- VWNARROW (R86): the handle is validated; a length of 0 drops the view; then the alignment of either number, and the span,
checked on the unbounded sum, trap. Else the view keeps its generation with the smaller span, and the granules no view covers
any longer are freed. It writes no register. -/
def State.viewNarrow (s : State) (op tn : Nat) (h : Word) (ns nl : Nat) : ViewOut :=
  let t := s.tenant tn
  match t.checkHandle tn h with
  | .bad code _ => .trap code ns h
  | .ok v =>
    if nl = 0 then s.viewDrop op tn h ns
    else if ns % 4096 ≠ 0 || nl % 4096 ≠ 0 then .trap tALIGN ns h
    else if ns < 4096 * v.start || 4096 * (v.start + v.len) < ns + nl then .trap tWIDEN ns h
    else
      let r := t.region (hRegion h)
      let v' := { v with start := ns / 4096, len := nl / 4096 }
      .ok [] (if v' = v then none else some (hRegion h, hView h))
        (s.freeUncovered op tn (hRegion h) (hView h) { r with views := SMap.set r.views (hView h) v' })

/-- VWINFO (R88). -/
def State.viewInfo (s : State) (tn : Nat) (h : TWord) : ViewOut :=
  let t := s.tenant tn
  match t.checkHandle tn h.v with
  | .bad _ n => .ok [⟨0, h.t⟩, ⟨w64 n, true⟩] none s
  | .ok v =>
    let r := t.region (hRegion h.v)
    .ok [⟨w64 (v.len * 2 ^ 32 + v.start), h.t⟩,
         ⟨w64 (v.gen * 2 ^ 48 + r.liveViews * 2 ^ 32 + r.frames.length), true⟩] none s

/-- The operation number `op` that an instruction asks of Chord, from the values of its registers. -/
def State.viewOp (s : State) (op : Nat) (i : Instr) (c tn : Nat) (v : Vals) : ViewOut :=
  match i with
  | .vwnew _ => s.viewNew tn (dieOf (c / 8)) v.a
  | .vwdup _ => s.viewDup tn v.a
  | .vwsplit _ => s.viewSplit tn v.a v.b
  | .vwnarrow _ => s.viewNarrow op tn v.d.v v.a.v.toNat v.b.v.toNat
  | .vwdrop _ => s.viewDrop op tn v.d.v 0
  | .vwinfo _ => s.viewInfo tn v.a
  | _ => .ok [] none s

/-- The register that holds the handle of a view instruction that obeys R80 item 1. -/
def viewHandle (i : Instr) (v : Vals) : Option Word :=
  match i with
  | .vwdup _ => some v.a.v
  | .vwsplit _ => some v.a.v
  | .vwnarrow _ => some v.d.v
  | .vwdrop _ => some v.d.v
  | _ => none

/-- An earlier LDV or STV of the thread through the same handle has not completed (R80 item 1). -/
def State.viewPending (s : State) (c k : Nat) (t : Thread) (h : Word) : Bool :=
  t.ops.any (fun o => o.space = .view && (nthD o.data 0 TWord.zero).v = h)
    || (s.pendingStores c ++ (s.core c).parked).any (fun e => e.wide && s.madeBy c k e && e.handle = h)

/-! ### The view caches (R78) -/

def State.viewEntry (s : State) (cl : Nat) (h : Word) : Option VCEntry :=
  (s.cluster cl).vcache.find? (fun e => e.region = hRegion h && e.view = hView h && e.gen = hGen h)

/-- Ask Chord for a view's span, unless that is under way. -/
def State.askView (s : State) (cl : Nat) (h : Word) : State :=
  let e : Event := ⟨.viewCacheFetch, ⟨[cl], [⟨h, false⟩]⟩⟩
  if s.due.contains e then s else s.post [e]

/-- VIEW_CACHE_FETCH: the port receives the view's span from Chord; 256 entries, the oldest dropped. -/
def execViewCacheFetch (s : State) : Out :=
  let cl := s.argN 0
  let h := (s.argW 0).v
  match s.ownerOf cl with
  | none => .next s
  | some tn =>
    match (s.tenant tn).checkHandle tn h with
    | .bad _ _ => .next s
    | .ok v =>
      if (s.viewEntry cl h).isSome then .next s
      else
        let r := (s.tenant tn).region (hRegion h)
        .next (s.modCluster cl (fun x =>
          { x with vcache := (⟨hRegion h, hView h, hGen h, v.start, v.len, r.epoch, r.sh⟩ :: x.vcache).take 256 }))

/-- VIEW_INVALIDATE: a port drops its entry of the view. -/
def execViewInvalidate (s : State) : Out :=
  .next (s.modCluster (s.argN 0) (fun x =>
    { x with vcache := x.vcache.filter (fun e => !(e.region = s.argN 1 && e.view = s.argN 2)) }))

/-- The invalidations of a view that ports have not yet acknowledged. -/
def State.invalidating (s : State) (tn r v : Nat) : Bool :=
  s.due.any (fun e => e.ev = .viewInvalidate && e.arg.nums.drop 1 = [r, v]
    && s.ownerOf (nthD e.arg.nums 0 0) = some tn)

/-! ### The view instructions (R82) -/

/-- Write a view instruction's results to d and d + 1. -/
def State.viewResults (s : State) (c k : Nat) (t : Thread) (f : Fields) (out : List TWord) : State :=
  match out with
  | [] => s
  | a :: r => (s.writeReg c k t f.d f.sd a).setGs c t (f.d + 1) r

/-- The values of d, a and b that a view instruction read when it issued (R82). -/
def ViewReq.read (r : ViewReq) : Vals :=
  ⟨nthD r.vals 0 TWord.zero, nthD r.vals 1 TWord.zero, nthD r.vals 2 TWord.zero⟩

/-- The request leaves; the granules that its operation left uncovered are freed (R76). -/
def State.endView (s : State) (r : ViewReq) : State :=
  ({ s with vreqs := s.vreqs.filter (fun (x : ViewReq) => x.id ≠ r.id) } : State).startFrees r.id

/-- A view instruction completes: its pops and its results (R82, R138). -/
def State.completeView (s : State) (r : ViewReq) (t : Thread) (f : Fields) (out : List TWord) : State :=
  let s := (s.readVals r.ins r.core r.slot t f).2
  (((s.viewResults r.core r.slot t f out).settle r.core r.slot).goto r.core r.slot r.next).wake r.core r.slot

/-- VIEW_OP_REQUEST: Chord performs an operation that has reached it (R75); once the ports it invalidates have
acknowledged, the instruction completes, and then the freeing begins (R76, R78, R82). A trap leaves its special operands
unread. -/
def execViewOpRequest (s : State) : Out :=
  match s.vreqs.find? (fun r => r.id = s.argN 0) with
  | none => .next s
  | some r =>
    match s.thread? r.core r.slot, r.ins.fields with
    | some t, some f =>
      if r.done then
        if s.invalidating t.tenant r.region r.view then .next (s.again .viewOpRequest)
        else .next ((s.completeView r t f r.out).endView r)
      else
        match s.viewOp r.id r.ins r.core t.tenant r.read with
        | .trap code addr h =>
          .next (((s.endView r).wake r.core r.slot).raise r.core r.slot code (w64 addr) h)
        | .ok out none s => .next ((s.completeView r t f out).endView r)
        | .ok out (some (ri, vi)) s =>
          let ports := (s.tenant t.tenant).slices.filter (fun cl =>
            (s.cluster cl).vcache.any (fun e => e.region = ri && e.view = vi))
          let s := s.post (ports.map (fun cl => evt .viewInvalidate [cl, ri, vi]))
          let s := { s with vreqs := s.vreqs.map (fun (x : ViewReq) =>
            if x.id = r.id then { r with done := true, out := out, region := ri, view := vi } else x) }
          .next (s.again .viewOpRequest)
    | _, _ =>
      if r.done && (match s.ownerOf (r.core / 8) with
          | some tn => s.invalidating tn r.region r.view
          | none => false) then .next (s.again .viewOpRequest)
      else .next (s.endView r)

/-- A view instruction: after the wait of R80 item 1 its request goes to the region's Chord with the values it has read, and it
waits for the answer; the special operands it names are held until then. -/
def viewInstr (i : Instr) (f : Fields) (s : State) : Out :=
  issue i s (fun c k t s =>
    let (v, _) := s.readVals i c k t f
    let busy := match viewHandle i v with
      | some h => s.viewPending c k t h
      | none => false
    if busy then s.park c k .steps
    else
      let (r, s) := s.fresh
      let q : ViewReq := ⟨r, c, k, i, s.next, false, [], 0, 0, [v.d, v.a, v.b]⟩
      let l := i.specialReads ++ i.specialWrites
      let since := s.tick + 1
      (({ s with vreqs := s.vreqs ++ [q], tick := since } : State).post [evt .viewOpRequest [r]]).modThread c k
        (fun t => { t with run := .wait (.chord r), want := some (if l.isEmpty then .chord r else .operands l), since := since }))

def execVwnew (f : Fields) (s : State) : Out := viewInstr (.vwnew f) f s
def execVwdup (f : Fields) (s : State) : Out := viewInstr (.vwdup f) f s
def execVwsplit (f : Fields) (s : State) : Out := viewInstr (.vwsplit f) f s
def execVwnarrow (f : Fields) (s : State) : Out := viewInstr (.vwnarrow f) f s
def execVwdrop (f : Fields) (s : State) : Out := viewInstr (.vwdrop f) f s
def execVwinfo (f : Fields) (s : State) : Out := viewInstr (.vwinfo f) f s

/-! ### The freeing sequence (R76, R77) -/

/-- GRANULE_FREE_START: the frame's lines are marked retiring, scrubbed, and forgotten by every cache (steps 1 to 3), in
ascending order of the operation's granules. -/
def execGranuleFreeStart (s : State) : Out :=
  let d := s.argN 0
  let f := s.argN 1
  match (s.die d).frees.find? (fun x => x.frame = f && !x.retired) with
  | none => .next s
  | some y =>
    if (s.die d).frees.any (fun x => x.op = y.op && x.granule < y.granule && !x.retired) then .next (s.again .granuleFreeStart)
    else
    let s := s.modDie d (fun y => { y with frees := y.frees.map (fun x => if x.frame = f then { x with retired := true } else x) })
    let s := (List.range 32).foldl (fun s i =>
      let line := 32 * f + i
      let s := (s.discardLine line).unresident line
      { s with mem := s.mem.zeroLine line }) s
    .next ((s.forgetPhysical y.tenant (4096 * f) (4096 * f + 4096)).post [evt .granuleDrainDone [d, f]])

/-- A request to a granule frame that remains unanswered (R76 step 4). -/
def State.granuleBusy (s : State) (f : Nat) : Bool :=
  s.flights.any (fun x => x.entry.wide && x.stage ≠ 2 && x.entry.addr / 4096 = f)
    || s.cores.any (fun p => (p.2.sb ++ p.2.parked).any (fun e => e.wide && e.addr / 4096 = f)
      || p.2.slots.any (fun q => match q.2.occ with
        | .live t => t.ops.any (fun o => o.space = .view && o.acc.any (fun a => a.addr / 4096 = f && !a.done && a.refuse = 0))
        | _ => false))

/-- The FREED record of a run (R77). -/
def freedRec (x : Free) (first count : Nat) : Word × Word :=
  (recWord 2 (x.region * 2 ^ 24 + first), w64 (x.view * 2 ^ 48 + count))

/-- Post the FREED records of a region whose runs are back, in the order of the operations that freed them and of the
granules of one operation (R76, R297); `n` bounds the number of runs. -/
def State.postFreed (s : State) (d tn ri ep n : Nat) : State :=
  match n with
  | 0 => s
  | m + 1 =>
    match (s.die d).frees.find? (fun x => x.tenant = tn && x.region = ri && x.epoch = ep) with
    | none => s
    | some x =>
      let run := (s.die d).frees.filter (fun z => z.run = x.run)
      if !run.all (fun z => z.done) then s
      else
        let s := s.modDie d (fun y => { y with frees := y.frees.filter (fun z => z.run ≠ x.run) })
        let r := freedRec x x.granule run.length
        (if x.note then s.notify x.tenant r.1 r.2 else s).postFreed d tn ri ep m

/-- GRANULE_DRAIN_DONE: the granule frame returns to the granule pool; a run that is back posts its record once the records before
it are posted (steps 4 and 5). A 64 KiB frame whose sixteen granule frames are all back stays with Chord, which may give it back
to the frame pool but never does here (DESIGN CHOICE, log entry 76). -/
def execGranuleDrainDone (s : State) : Out :=
  let d := s.argN 0
  let f := s.argN 1
  match (s.die d).frees.find? (fun x => x.frame = f && x.retired && !x.done) with
  | none => .next s
  | some x =>
    if s.granuleBusy f then .next (s.again .granuleDrainDone)
    else
      let s := s.modDie d (fun y =>
        { y with granules := y.granules ++ [f],
                 frees := y.frees.map (fun z => if z.frame = f && !z.done then { z with done := true } else z) })
      .next (s.postFreed d x.tenant x.region x.epoch (s.die d).frees.length)

/-! ### LDV and STV (R89) -/

/-- An access through a handle: checked at the port against its view cache (R73, R78), and translated there by the granule map
of the region the entry was fetched from (R71, R80 item 4); the thread waits for a fetch or a walk. The body takes the physical
address, none where the map holds the granule no longer, and the region's sharing. -/
def viewAccess (i : Instr) (f : Fields) (s : State)
    (body : Nat → Nat → Thread → TWord → TWord → Option Nat → Nat → State → State) : Out :=
  issue i s (fun c k t s =>
    let h := s.getG c t f.a
    let b := s.getG c t f.b
    let off := b.v.toNat
    let size := sizeBytes f.lo
    let tr := fun (code : Nat) => s.raise c k code (w64 off) h.v
    if hTenant h.v ≠ t.tenant then tr tVIEWFOREIGN
    else if h.v.bits 3 0 ≠ handleCheck h.v || 4095 < hRegion h.v || 4095 < hView h.v then tr tVIEWSTALE
    else
      match s.viewEntry (c / 8) h.v with
      | none =>
        (match (s.tenant t.tenant).checkHandle t.tenant h.v with
         | .bad code _ => tr code
         | .ok _ => (s.askView (c / 8) h.v).park c k (.page 0))
      | some e =>
        if off % size ≠ 0 then tr tALIGN
        else if off < 4096 * e.start || 4096 * (e.start + e.len) < off + size then tr tWIDEN
        else
          let g := off / 4096
          match s.lookupMap (c / 8) e.region e.epoch g with
          | some fr => body c k t h b (some (fr + off % 4096)) e.sh s
          | none =>
            if t.declined = some (mapKey e.region g, tWIDEN) then body c k t h b none e.sh s
            else
              let va := (e.region * 2 ^ 24 + g) * 4096
              (s.startWalk t.tenant 7 c k va e.epoch).park c k (.page va))

/-- An access that its granule map no longer serves is refused: a deferred WIDEN (R79, R80 item 4). -/
def State.startViewOp (s : State) (c k : Nat) (pa : Option Nat) (size : Nat) (v : TWord) (o : Op) : State :=
  match pa with
  | some pa => s.startOp c k { o with acc := [Access.at pa size v] }
  | none =>
    let (i, s) := s.addOp c k { o with acc := [{ Access.at 0 size v with refuse := tWIDEN }] }
    s.post [evt .deferredTrap [c, k, i]]

def execLdv (f : Fields) (s : State) : Out :=
  viewAccess (.ldv f) f s (fun c k t h b pa sh s =>
    (s.finish c k).startViewOp c k pa (sizeBytes f.lo) TWord.zero
      { Op.new (.ldv f) t .load .view f.la with
        seg := sh, off := b.v.toNat, pend := Fields.pendD f, ataint := h.t || b.t, data := [⟨h.v, false⟩] })

def execStv (f : Fields) (s : State) : Out :=
  viewAccess (.stv f) f s (fun c k t h b pa sh s =>
    let (v, s) := s.readVals (.stv f) c k t f
    (s.finish c k).startViewOp c k pa (sizeBytes f.lo) ⟨v.d.v, v.d.t || h.t || b.t⟩
      { Op.new (.stv f) t .store .view f.la with
        seg := sh, off := b.v.toNat, ataint := h.t || b.t, data := [⟨h.v, false⟩] })

end Sys2Proof.Machine
end

