-- ==== Sys2Proof/Machine/Copy.lean ====
section
/-!
DEFINITION. Sys2Proof/Machine/Copy.lean: the transfer unit and its copy commands (R115 to R120), sync words (R121, R122) and
descriptor-guided prefetch (R123, R124).
-/
namespace Sys2Proof.Machine
open Sys2Proof

/-! ### Where the bytes of a command lie (R118) -/

/-- The pointer of a local operand at byte `o` of row `j`: one advance by the stride, then one through the bytes. An offset at or
above 2^w is so brought below it before the first byte, as any advance does (DEDUCED, log entry 77). -/
def rowPtr (p : Word) (stride : Int) (j o : Nat) : Word := advancePtr (advancePtr p (stride * (j : Int))) o

/-- The address of a global or view operand at byte `o` of row `j`, as an integer. -/
def rowAddr (a : Nat) (stride : Int) (j o : Nat) : Int := (a : Int) + stride * (j : Int) + (o : Int)

/-- The number that fixes how an operand's row is cut: its line, or its chunk of one core. -/
def cutOf (kind : Nat) (p : Word) : Nat := if kind = 1 then min 128 (2 ^ ptrW p) else 128

/-- Where a row begins within the unit of its cuts. -/
def cutStart (kind : Nat) (base : Nat) (p : Word) (stride : Int) (j : Nat) : Nat :=
  if kind = 1 then ptrOff (rowPtr p stride j 0) % cutOf kind p else (rowAddr base stride j 0).toNat % 128

/-- The parts into which cuts at multiples of `g` divide the bytes [lo, hi) of a row that begins at `a` in the unit. -/
def cuts (g a lo hi : Nat) : List (Nat × Nat) :=
  let first := (a + lo) / g
  let last := (a + hi + g - 1) / g
  (List.range (last - first)).map (fun i =>
    let l := max lo (g * (first + i) - a)
    (l, min hi (g * (first + i + 1) - a) - l))

def TUCmd.srcBase (m : TUCmd) : Nat := if m.skind = 0 then m.seg.base + m.src.toNat else m.src.toNat
def TUCmd.dstBase (m : TUCmd) : Nat := if m.dkind = 0 then m.seg.base + m.dst.toNat else m.dst.toNat

/-- The destination pieces of row `j`: each lies in one line of one core or page. -/
def TUCmd.rowPieces (m : TUCmd) (j : Nat) : List (Nat × Nat) :=
  cuts (cutOf m.dkind m.dst) (cutStart m.dkind m.dstBase m.dst m.dstride j) 0 m.len

/-- Pieces are numbered row by row. -/
def TUCmd.perRow (m : TUCmd) : Nat := m.len / 64 + 3
def TUCmd.pieces (m : TUCmd) : List Nat :=
  (List.range m.rows).flatMap (fun j => (List.range (m.rowPieces j).length).map (fun i => j * m.perRow + i))

/-! ### The checks at acceptance (R116, R117, R81) -/

/-- A view operand's check: its code, or none; `el` is the copy's element size. -/
def State.viewCode (s : State) (c tn : Nat) (h : Word) (a len rows : Nat) (stride : Int) (el : Nat) : Option Nat :=
  if hTenant h ≠ tn then some 0x09
  else if h.bits 3 0 ≠ handleCheck h || 4095 < hRegion h || 4095 < hView h then some 0x08
  else
    match s.viewEntry (c / 8) h with
    | none => some 0x08
    | some e =>
      let lo : Int := min (a : Int) (rowAddr a stride (rows - 1) 0)
      let hi : Int := max ((a : Int) + len) (rowAddr a stride (rows - 1) len)
      if lo < 4096 * (e.start : Int) || 4096 * ((e.start + e.len : Nat) : Int) < hi then some 0x07
      else if a % el ≠ 0 || len % el ≠ 0 || stride % (el : Int) ≠ 0 then some 0x13 else none

/-- The port has to fetch an operand's view first (R78, R81). -/
def State.viewMissing (s : State) (c tn : Nat) (h : Word) : Bool :=
  hTenant h = tn && h.bits 3 0 = handleCheck h && hRegion h ≤ 4095 && hView h ≤ 4095 && (s.viewEntry (c / 8) h).isNone
    && (match (s.tenant tn).checkHandle tn h with
        | .ok _ => true
        | _ => false)

/-- Every byte of a local extent passes MemL: both ends of each part that lies in one chunk. -/
def State.localOk (s : State) (tn : Nat) (p : Word) (stride : Int) (len rows : Nat) : Bool :=
  (List.range rows).all (fun j =>
    (cuts (cutOf 1 p) (cutStart 1 0 p stride j) 0 len).all (fun x =>
      let ok := fun (o : Nat) => match s.memL tn (rowPtr p stride j o) 1 with
        | .ok _ => true
        | .error _ => false
      ok x.1 && ok (x.1 + x.2 - 1)))

/-- Both ends of a global extent lie within the segment. -/
def segOk (g : Seg) (a : Nat) (stride : Int) (len rows : Nat) : Bool :=
  let r := rowAddr a stride (rows - 1) 0
  a + len ≤ g.limit && 0 ≤ r && r + (len : Int) ≤ (g.limit : Int)

/-- Sync operand and control word (R116). -/
def syE (w : Word) : Bool := w.bits 40 40 = 1
def syOff (w : Word) : Nat := w.bits 20 0

/-- Status 0x01 (R117): a malformed control or row word. -/
def copyBad (op : Nat) (g row sync : Word) : Bool :=
  let sk := g.bits 63 62
  let dk := g.bits 61 60
  let len := g.bits 20 0
  let rows := row.bits 63 48
  sk = 3 || dk = 3 || (sk = 0 && dk = 0) || len = 0 || g.bits 45 39 ≠ 0 || (sk ≠ 2 && g.bits 59 53 ≠ 0)
    || (dk ≠ 2 && g.bits 52 46 ≠ 0) || (op ≠ 3 && g.bits 38 37 ≠ 0) || (op = 3 && dk ≠ 1)
    || (syE sync && sync.bits 39 21 ≠ 0)
    || (op = 2 && (rows = 0 || row.bits 47 32 ≠ 0 || 2 ^ 32 ≤ rows * len))

/-- The status of the checks at acceptance, in the order of R117; `regs` says that a handle's register is in the window. -/
def State.acceptCode (s : State) (c tn : Nat) (m : TUCmd) (bad regs : Bool) : Nat :=
  let glob := m.skind = 0 || m.dkind = 0
  let el := if m.dkind = 0 && ((s.tenant tn).streamAt (m.dstBase % 2 ^ 57)).isSome then 4 else 1
  let sv := if m.skind = 2 then s.viewCode c tn m.hsrc m.srcBase m.len m.rows m.sstride el else none
  let dv := if m.dkind = 2 then s.viewCode c tn m.hdst m.dstBase m.len m.rows m.dstride el else none
  let isView := fun (v : Option Nat) => v.isSome && v ≠ some 0x13
  if bad || (m.op = 2 && ((m.skind = 1 && m.sstride < 0) || (m.dkind = 1 && m.dstride < 0))) then 0x01
  else if !regs then 0x03
  else if (m.skind = 0 && !segOk m.seg m.src.toNat m.sstride m.len m.rows)
    || (m.dkind = 0 && !segOk m.seg m.dst.toNat m.dstride m.len m.rows) then 0x04
  else if glob && (!m.seg.has 'E' || (m.skind = 0 && !m.seg.has 'R') || (m.dkind = 0 && !m.seg.has 'W')) then 0x05
  else if isView sv then sv.getD 0
  else if isView dv then dv.getD 0
  else if (syE m.sync && syOff m.sync % 16 ≠ 0) || sv.isSome || dv.isSome then 0x13
  else if (m.skind = 1 && !s.localOk tn m.src m.sstride m.len m.rows)
    || (m.dkind = 1 && !s.localOk tn m.dst m.dstride m.len m.rows) then 0x14
  else if syE m.sync && (m.dkind ≠ 1 || (match s.coreAt tn (ptrY m.sync) (ptrX m.sync) (ptrC m.sync) with
      | some x => (s.core x).pubWin < syOff m.sync + 16
      | none => true)) then 0x14
  else 0

/-- Which use of its region slot a handle's cached entry belongs to (R80, R81). -/
def State.epochOf (s : State) (c : Nat) (h : Word) : Nat :=
  match s.viewEntry (c / 8) h with
  | some e => e.epoch
  | none => 0

/-- The signed value of a 32-bit field. -/
def signed32 (n : Nat) : Int := if 2 ^ 31 ≤ n then (n : Int) - 2 ^ 32 else (n : Int)

/-- The command an instruction issues, from its block of registers. -/
def State.copyCmd (s : State) (op : Nat) (f : Fields) (c k : Nat) (t : Thread) (sync : TWord) : TUCmd :=
  let g := fun (i : Nat) => s.getG c t (f.a + i)
  let ctl := (g 2).v
  let sk := ctl.bits 63 62
  let dk := ctl.bits 61 60
  let row := (g 5).v
  let hs := s.getG c t (ctl.bits 59 53)
  let hd := s.getG c t (ctl.bits 52 46)
  let regs := (List.range 4).map g ++ (if op = 2 then [g 4, g 5] else if op = 3 then [g 4] else []) ++ (if sk = 2 then [hs] else [])
    ++ (if dk = 2 then [hd] else [])
  { id := 0, op := op, owner := s.tid c k t, seg := t.seg f.hi, src := (g 0).v, dst := (g 1).v, skind := sk, dkind := dk,
    hsrc := if sk = 2 then hs.v else 0, hdst := if dk = 2 then hd.v else 0, sepoch := s.epochOf c hs.v,
    depoch := s.epochOf c hd.v, len := ctl.bits 20 0, rows := if op = 2 then row.bits 63 48 else 1,
    sstride := if op = 2 then (g 4).v.toInt else 0, dstride := if op = 2 then signed32 (row.bits 31 0) else 0,
    q := if op = 3 then ctl.bits 38 37 else 0, tag := ctl.bits 36 21, target := (g 3).v, sync := sync.v, handle := g 4,
    ord := f.lo % 2 = 1, det := taskDet t.task, addrT := sync.t || regs.any (fun w => w.t), checked := false,
    accepted := false, status := 0, stOff := 0, left := [], moved := 0, counted := 0, asked := false, credit := false,
    pushed := false }

/-- CPY, CPY2D and CPYQ (R120): the command enters the unit as it issues, with the checks of acceptance. -/
def copyInstr (i : Instr) (op : Nat) (f : Fields) (s : State) : Out :=
  issue i s (fun c k t s =>
    if 32 ≤ (s.core c).tu.length then s.park c k .tuRoom
    else
      let (v, s') := s.readVals i c k t f
      let m := s'.copyCmd op f c k t v.d
      let ctl := (s.getG c t (f.a + 2)).v
      let fetch := (if m.skind = 2 && s.viewMissing c t.tenant m.hsrc then [m.hsrc] else [])
        ++ (if m.dkind = 2 && s.viewMissing c t.tenant m.hdst then [m.hdst] else [])
      if !fetch.isEmpty then
        (fetch.foldl (fun s h => s.askView (c / 8) h) s).park c k (.page 0)
      else
        let regs := (m.skind ≠ 2 || ctl.bits 59 53 < t.top) && (m.dkind ≠ 2 || ctl.bits 52 46 < t.top)
        let code := s.acceptCode c t.tenant m (copyBad op ctl (s.getG c t (f.a + 5)).v m.sync) regs
        let (i, s') := s'.fresh
        let m := { m with id := i, status := code, checked := code = 0 }
        ((s'.modCore c (fun x => { x with tu := x.tu ++ [m] })).post [evt .tuCommandAccept [c, i]]).finish c k)

def execCpy (f : Fields) (s : State) : Out := copyInstr (.cpy f) 1 f s
def execCpy2d (f : Fields) (s : State) : Out := copyInstr (.cpy2d f) 2 f s
def execCpyq (f : Fields) (s : State) : Out := copyInstr (.cpyq f) 3 f s

/-! ### Moving the lines (R115, R117, R118) -/

def Core.tuCmd? (x : Core) (i : Nat) : Option TUCmd := x.tu.find? (fun m => m.id = i)
def State.setTu (s : State) (c : Nat) (m : TUCmd) : State := s.modCore c (fun x => x.setCmd m)

/-- What follows when no piece is left: a CPYQ pushes its handle, the others report. -/
def TUCmd.after (c : Nat) (m : TUCmd) : Event :=
  if m.op = 3 && m.checked then evt .cpyqPush [c, m.id] else evt .copydone [c, m.id]

/-- TU_COMMAND_ACCEPT: an accepted command's lines may move in any order; one whose checks failed only completes. -/
def execTuCommandAccept (s : State) : Out :=
  let c := s.argN 0
  match (s.core c).tuCmd? (s.argN 1) with
  | none => .next s
  | some m =>
    let m := { m with accepted := true, left := if m.checked then m.pieces else [] }
    .next ((s.setTu c m).post
      (if m.checked then m.left.map (fun n => evt .tuLineTransfer [c, m.id, n]) else [m.after c]))

/-- What reading a part of the source gives: bytes with their taint, a poisoned line, a failure, or a wait. -/
inductive PartTry where
  | bytes (l : List (Nat × Bool)) (s : State)
  | poison (s : State)
  | fail (status : Nat) (s : State)
  | wait (s : State)

/-- Bytes at the home, from a physical address. -/
def State.homeBytes (s : State) (sw : Bool) (pa n : Nat) (t : Bool) : List (Nat × Bool) :=
  (List.range n).map (fun i =>
    let v := s.readHome sw (pa + i) 1
    (v.v.toNat, v.t || t))

/-- Where a region offset under a handle lies. -/
inductive ViewTry where
  | pa (a : Nat)
  | refused (s : State)
  | wait (s : State)

/-- The physical address of a region offset under a handle, through the granule map (R71); refused where the map holds the granule
no longer, or its line is retiring (R79, R80). -/
def State.viewPa (s : State) (tn c slot : Nat) (h : Word) (epoch off : Nat) : ViewTry :=
  let r := hRegion h
  let g := off / 4096
  match s.lookupMap (c / 8) r epoch g with
  | some fr => if s.retired fr then .refused s else .pa (fr + off % 4096)
  | none =>
    let va := (r * 2 ^ 24 + g) * 4096
    match s.walks.find? (fun w => w.who = 8 && w.core = c && w.slot = slot && w.va = va) with
    | some w => if w.declined then .refused (s.dropWalk w.id) else .wait s
    | none => .wait (s.startWalk tn 8 c slot va epoch)

/-- Read `n` bytes of one source line at byte `o` of row `j`. -/
def State.readPart (s : State) (c : Nat) (m : TUCmd) (j o n : Nat) : PartTry :=
  let tn := tidTenant m.owner
  match m.skind with
  | 0 =>
    let va := (rowAddr m.srcBase m.sstride j o).toNat % 2 ^ 57
    (match s.enginePage tn 1 c m.id va 4 with
     | .wait s => .wait s
     | .declined s => .fail 0x06 s
     | .tr tr =>
       if Leaf.cl tr.leaf = 2 || (Leaf.cl tr.leaf = 3 && 32 < tr.pa % 128 + n) then .fail 0x0D s
       else if s.poisoned tr.pa then .poison s
       else
         match s.homeGate tr.pa n false with
         | some s => .wait s
         | none =>
           let s := (((s.applyAdds tr.pa n).countHot (c / 8) tn tr.leaf).touchLine (tr.pa / 128)).demand (c / 8) va
           .bytes (s.homeBytes (Leaf.sw tr.leaf) tr.pa n (Leaf.cl tr.leaf = 3)) s)
  | 1 =>
    (match s.memL tn (rowPtr m.src m.sstride j o) 1 with
     | .error _ => .fail 0x14 s
     | .ok (tc, off) =>
       let w := (s.core tc).win
       if s.barred tc m.id then .fail 0x14 s
       else if (s.core tc).shut then .wait s
       else if w.poisoned (off / 128) then .poison s
       else .bytes ((List.range n).map (fun i => ((w.byte (off + i)).toNat, w.tainted ((off + i) / 8)))) s)
  | _ =>
    match s.viewPa tn c m.id m.hsrc m.sepoch (rowAddr m.srcBase m.sstride j o).toNat with
    | .refused s => .fail 0x07 s
    | .wait s => .wait s
    | .pa pa =>
      if s.poisoned pa then .poison s
      else
        match s.homeGate pa n false with
        | some s => .wait s
        | none => .bytes (s.homeBytes false pa n false) (s.touchLine (pa / 128))

/-- The source offset of byte `o` of row `j` (R117). -/
def TUCmd.srcOff (m : TUCmd) (j o : Nat) : Int := rowAddr 0 m.sstride j o

/-- The source bytes of a piece: those that could be read, the first failure with its source offset, and poison. -/
structure Gathered where
  got    : List (Option (Nat × Bool))
  fail   : Option (Int × Nat)
  poison : Bool

inductive GatherTry where
  | got (g : Gathered) (s : State)
  | wait (s : State)

def Gathered.firstFail (g : Gathered) (off : Int) (st : Nat) : Option (Int × Nat) :=
  match g.fail with
  | some x => some x
  | none => some (off, st)

/-- Gather the parts of a piece, in rising order. -/
def State.gatherParts (s : State) (c : Nat) (m : TUCmd) (j : Nat) (l : List (Nat × Nat)) (g : Gathered) : GatherTry :=
  match l with
  | [] => .got g s
  | (o, n) :: r =>
    let off := m.srcOff j o
    let none' := List.replicate n (none : Option (Nat × Bool))
    match s.readPart c m j o n with
    | .wait s => .wait s
    | .bytes b s => s.gatherParts c m j r { g with got := g.got ++ b.map some }
    | .poison s => s.gatherParts c m j r
        { got := g.got ++ none', fail := g.firstFail off 0x10, poison := true }
    | .fail st s => s.gatherParts c m j r { g with got := g.got ++ none', fail := g.firstFail off st }

/-- Every byte of a whole line is there. -/
def Gathered.whole (g : Gathered) : Bool := g.got.length = 128 && g.got.all Option.isSome

/-- The words that a piece at address `a` touches. -/
def Gathered.words (g : Gathered) (a : Nat) : List Nat :=
  (List.range ((a % 8 + g.got.length + 7) / 8)).map (fun i => a / 8 + i)

/-- The bytes of word `w`, by their place, that a piece at address `a` writes. -/
def Gathered.bytesOf (g : Gathered) (a w : Nat) : List (Nat × (Nat × Bool)) :=
  (List.range 8).filterMap (fun b =>
    if a ≤ 8 * w + b then (nthD g.got (8 * w + b - a) none).map (fun x => (b, x)) else none)

/-- What a piece at address `a` makes of word `w`: a whole line brings the source's taint, a part of a line adds it to the
word's (R118). -/
def Gathered.word (g : Gathered) (a : Nat) (t : Bool) (w : Nat) (old : TWord) : TWord :=
  let bs := g.bytesOf a w
  ⟨bs.foldl (fun v p => spliceWord v p.1 1 (w64 p.2.1)) old.v,
   bs.any (fun p => t || p.2.2) || (old.t && !g.whole)⟩

/-- A word that the piece writes would be tainted. -/
def Gathered.taints (g : Gathered) (a : Nat) (t : Bool) (old : Nat → TWord) : Bool :=
  (g.words a).any (fun w => !(g.bytesOf a w).isEmpty && (g.word a t w (old w)).t)

/-- What writing a piece gives: the bytes written, and a failing status with its source offset. -/
inductive PutTry where
  | done (n : Nat) (st : Option (Int × Nat)) (s : State)
  | wait (s : State)

/-- The poisoned destination line of a poisoned source. -/
def State.spoilLine (s : State) (line : Nat) : State := { s with mem := s.mem.setPoison line true }

/-- Write a piece to memory as a store of the issuing core (R115): a whole line clears the poison of the line it replaces, and the
line of a poisoned source becomes poisoned (R48). -/
def State.putHome (s : State) (c tn : Nat) (tr : Tr) (g : Gathered) (t : Bool) : State :=
  let line := tr.pa / 128
  let n := g.got.length
  if g.poison then
    ((if Leaf.sw tr.leaf then s.applyAdds tr.pa n else ((s.applyAdds tr.pa n).countHot (c / 8) tn tr.leaf).gather line).touchLine
      line).spoilLine line
  else
    let s : State := if g.whole then { s with mem := s.mem.setPoison line false } else s
    s.engineWrite c tn tr n (fun w old => if (g.bytesOf tr.pa w).isEmpty then old else g.word tr.pa t w old)

/-- The taint trap of a deterministic thread's command (R304). -/
def State.tuTrap (s : State) (m : TUCmd) : Bool := m.det && (s.tenant (tidTenant m.owner)).tntctl.bits 0 0 = 1

/-- A piece added into a STREAM region as one add operation (R117, R118, R199); a copy whose destination offset, stride or length
is not a multiple of 4 adds nothing. -/
def State.putStream (s : State) (m : TUCmd) (va : Nat) (off : Int) (g : Gathered) : PutTry :=
  let tn := tidTenant m.owner
  let n := g.got.length
  let bytes := g.got.map (fun b => (b.getD (0, false)).1)
  let ds := (List.range (n / 4)).map (fun i => fromLe ((bytes.drop (4 * i)).take 4))
  let tainted := m.addrT || g.got.any (fun b => (b.getD (0, false)).2)
  if m.dst.toNat % 4 ≠ 0 || m.len % 4 ≠ 0 || m.dstride % 4 ≠ 0 then .done 0 (some (off, 0x13)) s
  else
    match (s.tenant tn).streamAt va with
    | none => .done 0 (some (off, 0x0D)) s
    | some (i, r) =>
      if g.poison then
        match s.rowReady tn i (r.row? va) r true m.id with
        | .later s => .wait s
        | .ready s => .done 0 none (s.setRow tn i (r.row? va) { s.rowOf tn i (r.row? va) with p := true })
      else if g.fail.isSome then .done 0 none s
      else
        match s.streamAdd tn va 0 ds tainted (s.tuTrap m) m.id with
        | .none => .done 0 (some (off, 0x0D)) s
        | .later s => .wait s
        | .poisoned s => .done n (some (off, 0x10)) s
        | .tainted s => .done 0 (some (off, 0x11)) s
        | .applied s sat ot => .done n (if sat.isSome && ot then some (off, 0x0E) else none) s

/-- Write a piece to the page or granule of a translated address, once the home slice takes it. -/
def State.putAt (s : State) (c : Nat) (m : TUCmd) (tr : Tr) (off : Int) (g : Gathered) (n : Nat) (arrived : State → State) : PutTry :=
  match s.engineGate tr g.got.length with
  | some s => .wait s
  | none =>
    let old := fun (w : Nat) => if Leaf.sw tr.leaf then s.swWord c w else s.curWord w
    if s.tuTrap m && !g.poison && g.taints tr.pa m.addrT old then .done 0 (some (off, 0x11)) s
    else .done n none ((arrived s).putHome c (tidTenant m.owner) tr g m.addrT)

/-- Write a piece at byte `o` of row `j`. -/
def State.putPiece (s : State) (c : Nat) (m : TUCmd) (j o : Nat) (g : Gathered) : PutTry :=
  let tn := tidTenant m.owner
  let off := m.srcOff j o
  let n := (g.got.filter Option.isSome).length
  let n := if g.poison then g.got.length else n
  match m.dkind with
  | 0 =>
    let va := (rowAddr m.dstBase m.dstride j o).toNat % 2 ^ 57
    (match s.enginePage tn 1 c m.id va 5 with
     | .wait s => .wait s
     | .declined s => .done 0 (some (off, 0x06)) s
     | .tr tr =>
       if Leaf.cl tr.leaf = 3 then .done 0 (some (off, 0x0D)) s
       else if Leaf.cl tr.leaf = 2 then s.putStream m va off g
       else s.putAt c m tr off g n (fun s => s.demand (c / 8) va))
  | 1 =>
    (match s.memL tn (rowPtr m.dst m.dstride j o) 1 with
     | .error _ => .done 0 (some (off, 0x14)) s
     | .ok (tc, a) =>
       if s.barred tc m.id then .done 0 (some (off, 0x14)) s
       else if (s.core tc).shut then .wait s
       else if s.tuTrap m && !g.poison && g.taints a m.addrT (fun w => (s.core tc).win.word w) then .done 0 (some (off, 0x11)) s
       else if g.poison then .done n none (s.modCore tc (fun x => { x with win := x.win.setPoison (a / 128) true }))
       else
         let s := if g.whole then s.modCore tc (fun x => { x with win := x.win.setPoison (a / 128) false }) else s
         .done n none ((g.words a).foldl (fun s w => if (g.bytesOf a w).isEmpty then s
           else s.modCore tc (fun x => { x with win := x.win.setWord w (g.word a m.addrT w (x.win.word w)) })) s))
  | _ =>
    match s.viewPa tn c m.id m.hdst m.depoch (rowAddr m.dstBase m.dstride j o).toNat with
    | .refused s => .done 0 (some (off, 0x07)) s
    | .wait s => .wait s
    | .pa pa => s.putAt c m ⟨pa, viewLeaf 2, 5⟩ off g n id

/-- The status of the failing line with the lowest source offset. -/
def TUCmd.note (m : TUCmd) (st : Option (Int × Nat)) : TUCmd :=
  match st with
  | none => m
  | some (off, code) => if m.status = 0 || off < m.stOff then { m with status := code, stOff := off } else m

/-- The core of the sync operand. -/
def State.syncCore (s : State) (m : TUCmd) : Option Nat :=
  s.coreAt (tidTenant m.owner) (ptrY m.sync) (ptrX m.sync) (ptrC m.sync)

/-- Bytes are counted into the sync word. -/
def State.countSync (s : State) (m : TUCmd) (n : Nat) : State :=
  match s.syncCore m with
  | some c => if syE m.sync && n ≠ 0 then s.post [evt .syncWordCount [c, syOff m.sync, n]] else s
  | none => s

/-- With `.ord`, an earlier command of the same thread has not completed. -/
def Core.tuHeld (x : Core) (m : TUCmd) : Bool :=
  m.ord && (x.tu.takeWhile (fun y => y.id ≠ m.id)).any (fun y => y.owner = m.owner)

/-- TU_LINE_TRANSFER: one destination piece. Its bytes are counted once it has been performed; with `.ord`, once the earlier
commands of the thread have completed (R119). -/
def execTuLineTransfer (s : State) : Out :=
  let c := s.argN 0
  match (s.core c).tuCmd? (s.argN 1) with
  | none => .next s
  | some m =>
    let n := s.argN 2
    let j := n / m.perRow
    match (m.rowPieces j)[n % m.perRow]? with
    | none => .next s
    | some (o, len) =>
      if !m.left.contains n then .next s
      else
        match s.gatherParts c m j (cuts (cutOf m.skind m.src) (cutStart m.skind m.srcBase m.src m.sstride j) o (o + len))
            ⟨[], none, false⟩ with
        | .wait s => .next (s.again .tuLineTransfer)
        | .got g s =>
          match s.putPiece c m j o g with
          | .wait s => .next (s.again .tuLineTransfer)
          | .done k st s =>
            let held := (s.core c).tuHeld m
            let m := (m.note g.fail).note st
            let m := { m with left := m.left.filter (fun x => x ≠ n), moved := m.moved + k,
                              counted := if held then m.counted + k else m.counted }
            let s := if held then s else s.countSync m k
            .next ((s.setTu c m).post (if m.left.isEmpty then [m.after c] else []))

/-! ### Completion (R119) -/

/-- CPYQ_PUSH: the handle of a CPYQ takes a credit of the consumer's queue, then a word; one command of a unit asks at a
time. A command whose destination names a core that is gone completes without a push (DESIGN CHOICE, log entry 78). -/
def execCpyqPush (s : State) : Out :=
  let c := s.argN 0
  let x := s.core c
  match x.tuCmd? (s.argN 1) with
  | none => .next s
  | some m =>
    match s.memL (tidTenant m.owner) (rowPtr m.dst 0 0 0) 1 with
    | .error _ => .next ((s.setTu c { m with pushed := true }).post [evt .copydone [c, m.id]])
    | .ok (qc, _) =>
      if m.credit then
        let (i, s) := s.fresh
        let w : Flit := ⟨i, 0, qc, m.q, ⟨m.handle, false, false, slotId m.owner⟩, true, c, 4, []⟩
        .next (({ (s.setTu c { m with pushed := true, asked := false }) with flits := s.flits ++ [w] } : State).post
          [evt .queueWordArrival [i], evt .copydone [c, m.id]])
      else if m.asked then .next s
      else if x.tuHeld m || x.tu.any (fun y => y.asked) then .next (s.again .cpyqPush)
      else .next ((s.setTu c { m with asked := true }).post [evt .creditRequest [qc, m.q, c, 4]])

/-- The command that an earlier one's completion frees counts the bytes it has held (R119). -/
def State.releaseHeld (s : State) (c : Nat) : State :=
  (s.core c).tu.foldl (fun s m =>
    if m.counted ≠ 0 && !(s.core c).tuHeld m then (s.countSync m m.counted).setTu c { m with counted := 0 } else s) s

/-- COPYDONE: the command completes and its place in the unit is free. -/
def execCopydone (s : State) : Out :=
  let c := s.argN 0
  match (s.core c).tuCmd? (s.argN 1) with
  | none => .next s
  | some m =>
    if (s.core c).tuHeld m then .next (s.again .copydone)
    else
      let s := (s.modCore c (fun x => { x with tu := x.tu.filter (fun y => y.id ≠ m.id) })).releaseHeld c
      if m.target = 0 then .next s
      else .next (s.engineMsg c m.owner m.target mkCOPYDONE m.status m.tag ⟨w64 m.moved, false⟩)

/-! ### Sync words (R121, R122) -/

/-- Wake the threads of a core whose expected generation of a sync word is not its own. -/
def State.wakeGen (s : State) (c off gen : Nat) : State :=
  (s.core c).slots.foldl (fun s p => match p.2.occ with
    | .live t => (match t.run with
      | .wait (.syncWord o g) => if o = off && g ≠ gen then s.wake c p.1 else s
      | _ => s)
    | _ => s) s

/-- The loop of R121, at most as often as the target fits. -/
def syncStep (target count gen n : Nat) : Nat × Nat :=
  let c := (count + n) % 2 ^ 32
  if target = 0 then (c, gen) else (c % target, (gen + c / target) % 2 ^ 32)

/-- SYNC_WORD_COUNT: `n` bytes are counted into the sync word. -/
def execSyncWordCount (s : State) : Out :=
  let c := s.argN 0
  let off := s.argN 1
  let w := (s.core c).win
  let r := syncStep (w.readN off 4) (w.readN (off + 4) 4) (w.readN (off + 8) 4) (s.argN 2)
  let s := s.modCore c (fun x => { x with win := (x.win.store (off + 4) 4 ⟨w64 r.1, false⟩).store (off + 8) 4 ⟨w64 r.2, false⟩ })
  .next (s.wakeGen c off r.2)

/-- A store of the thread to the sync word has not been performed. -/
def State.storesTo (s : State) (c k tc off : Nat) : Bool :=
  (s.pendingStores c ++ (s.core c).parked).any (fun e =>
    s.madeBy c k e && e.loc && e.core = tc && e.addr < off + 16 && off < e.addr + e.size)

/-- What SWINIT follows as a 16-byte local store of its thread (R254, R262): the thread's stores to the word and its earlier loads
of the ordered kind or of the word, and the earlier entries of the core's buffer; entries that the litmus hold keeps there are
not waited for, since R122 names only those to the word (DEDUCED, log entry 79). -/
def State.initFollows (s : State) (c k : Nat) (t : Thread) (tc off : Nat) : Bool :=
  let die := dieOf (tc / 8) = dieOf (c / 8)
  s.storesTo c k tc off || t.storeQueued
    || t.ops.any (fun o => o.orderedLoad && o.acc.any (fun a => !a.done && a.refuse = 0
        && ((die && s.ordered c o a) || (o.space = .loc && a.core = tc && sameWord a.addr a.size off 16))))
    || (die && !(s.core c).lthold && (s.pendingStores c).any (fun e => e.loc || dieScope e.sh e.sw e.host))

/-- SWINIT. -/
def execSwinit (f : Fields) (s : State) : Out :=
  issue (.swinit f) s (fun c k t s =>
    match s.memLAt t (t.ptr f.d).v 16 with
    | .error (code, addr, aux) => s.raise c k code addr aux
    | .ok (tc, off) =>
      if (s.core tc).shut then s.park c k (.pool tc)
      else if s.initFollows c k t tc off then s.park c k .storeSpace
      else
        let (v, s) := s.readVals (.swinit f) c k t f
        let put := fun (m : Mem) => (m.store off 8 ⟨w64 (v.a.v.bits 31 0), false⟩).store (off + 8) 8 TWord.zero
        let s := if (s.core tc).win.poisoned (off / 128) then s else s.modCore tc (fun x => { x with win := put x.win })
        (s.wakeGen tc off 0).finish c k)

/-- SWWAIT. -/
def execSwwait (f : Fields) (s : State) : Out :=
  issue (.swwait f) s (fun c k t s =>
    match s.memLAt t (t.ptr f.a).v 16 with
    | .error (code, addr, aux) => s.raise c k code addr aux
    | .ok (tc, off) =>
      if tc ≠ c then s.raise c k tPTRRANGE (w64 off) 0
      else if (s.core tc).shut then s.park c k (.pool tc)
      else
        let gen := (s.core c).win.readN (off + 8) 4
        let (v, s') := s.readVals (.swwait f) c k t f
        if v.d.v.bits 31 0 = gen then s.park c k (.syncWord off gen)
        else (s'.writeReg c k t f.d f.sd ⟨w64 gen, false⟩).finish c k)

/-! ### Descriptor-guided prefetch (R123, R124) -/

/-- SDESC: the failing check, in the order of its codes. -/
def sdescFail (g : Seg) (off : Nat) (stride : Int) (extent : Nat) (ctl : Word) (free : Option Nat) : Option Nat :=
  if stride = 0 || 2 ^ 32 < stride.natAbs || extent = 0 || 2 ^ 32 < extent || ctl.bits 56 16 ≠ 0 || ctl.bits 15 0 = 0
    || 1024 < ctl.bits 15 0 then some 0x01
  else if g.limit ≤ off then some 0x04
  else if !g.has 'R' || !g.has 'E' then some 0x05
  else if stride % 128 ≠ 0 then some 0x13
  else if free.isNone then some 0xFF else none

def execSdesc (f : Fields) (s : State) : Out :=
  issue (.sdesc f) s (fun c k t s =>
    let r := fun (i : Nat) => s.getG c t (f.a + i)
    let ctl := (r 3).v
    let g := t.seg (ctl.bits 63 61)
    let x := s.cluster (c / 8)
    let free := (List.range 16).find? (fun n => (SMap.get? x.pdesc n).isNone)
    let tnt := (List.range 4).any (fun i => (r i).t)
    match sdescFail g (r 0).v.toNat (r 1).v.toInt (r 2).v.toNat ctl free, free with
    | none, some n =>
      let d : PDesc := ⟨c, g, (g.base + (r 0).v.toNat) / 128 * 128, (r 1).v.toInt, (r 2).v.toNat, ctl.bits 60 60 = 1,
        ctl.bits 59 57, ctl.bits 15 0, 0, 0⟩
      let s := (s.setCluster (c / 8) { x with pdesc := SMap.set x.pdesc n d }).post [evt .prefetchIssue [c / 8, n]]
      (s.writeReg c k t f.d f.sd ⟨w64 n, tnt⟩).finish c k
    | e, _ => (s.writeReg c k t f.d f.sd ⟨w64 (2 ^ 63 + e.getD 0xFF), tnt⟩).finish c k)

/-- SDSTOP. -/
def execSdstop (f : Fields) (s : State) : Out :=
  issue (.sdstop f) s (fun c k t s =>
    let (v, s) := s.readVals (.sdstop f) c k t f
    let x := s.cluster (c / 8)
    match SMap.get? x.pdesc v.a.v.toNat with
    | some d => (if d.core = c then s.setCluster (c / 8) { x with pdesc := SMap.del x.pdesc v.a.v.toNat } else s).finish c k
    | none => s.finish c k)

/-- The requests of a cluster's descriptors that are outstanding at its port. -/
def State.descLoad (s : State) (cl : Nat) : Nat :=
  (s.due.filter (fun e => e.ev = .l2Request && nthD e.arg.nums 1 0 = 64 && nthD e.arg.nums 0 0 / 8 = cl
    && e.arg.nums.length = 5)).length

/-- PREFETCH_ISSUE: the descriptor's next line, while it lies less than the lead ahead; a line beyond the limit ends it. A line
whose page has no translation is walked for (R54), and skipped where PREF would do nothing. -/
def execPrefetchIssue (s : State) : Out :=
  let cl := s.argN 0
  let n := s.argN 1
  let x := s.cluster cl
  match SMap.get? x.pdesc n with
  | none => .next s
  | some d =>
    if d.extent ≤ d.issued || d.ic + d.lead ≤ d.issued then .next s
    else
      let va : Int := (d.base : Int) + d.stride * (d.issued : Int)
      if va < (d.seg.base : Int) || ((d.seg.base + d.seg.limit : Nat) : Int) ≤ va then
        .next (s.setCluster cl { x with pdesc := SMap.del x.pdesc n })
      else
        let va := va.toNat % 2 ^ 57
        let next := fun (s : State) =>
          (s.modCluster cl (fun x => { x with pdesc := SMap.set x.pdesc n { d with issued := d.issued + 1 } })).again .prefetchIssue
        let who := if d.c then 8 * cl + d.named else d.core
        match s.lookup cl va 6 with
        | some tr =>
          if loadRefusal tr 1 ≠ 0 || s.poisoned tr.pa || s.portFull cl then .next (next s)
          else if 1024 ≤ s.descLoad cl then .next (s.again .prefetchIssue)
          else .next (next (s.post [⟨.l2Request, ⟨[who, 64, tr.pa, d.c.toNat, n], [⟨tr.leaf, false⟩]⟩⟩]))
        | none =>
          match s.walks.find? (fun w => w.who = 9 && w.core / 8 = cl && w.slot = n && pageOf w.va = pageOf va) with
          | some w => if w.declined then .next (next (s.dropWalk w.id)) else .next (s.again .prefetchIssue)
          | none => .next ((s.startWalk ((s.ownerOf cl).getD 0) 9 d.core n va 6).again .prefetchIssue)

end Sys2Proof.Machine
end

