-- ==== Sys2Proof/Machine/Pool.lean ====
section
/-!
DEFINITION. Sys2Proof/Machine/Pool.lean: the twelve banks of a core (R105 to R108): BKMODE and BKINFO.
-/
namespace Sys2Proof.Machine
open Sys2Proof

/-- The indices of the banks in a mode, in rising order. -/
def banksIn (l : List Bank) (m : Bank) : List Nat := (l.zipIdx.filter (fun p => p.1 = m)).map Prod.snd

/-- The position at which entry `a`, of `per` entries to a bank, stands after the SCRATCH banks `old` become `new`: none
where its bank leaves. -/
def movedEntry (old new : List Nat) (per a : Nat) : Option Nat :=
  match old[a / per]? with
  | none => none
  | some b =>
    match new.findIdx? (fun x => x = b) with
    | some i => some (i * per + a % per)
    | none => none

/-- The window after the SCRATCH banks change: contents move with their bank; a bank that enters reads as zero (R107). -/
def Mem.moved (m : Mem) (old new : List Nat) : Mem :=
  { bytes := m.bytes.filterMap (fun p => (movedEntry old new 131072 p.1).map (fun a => (a, p.2)))
    taint := m.taint.filterMap (movedEntry old new 16384)
    poison := m.poison.filterMap (movedEntry old new 1024) }

/-- Accesses of a core's window that have issued, so that its size at their issue was checked, and are not yet performed: they are
performed before the window changes (R111 step 1). -/
def State.windowBusy (s : State) (c : Nat) : Bool :=
  s.flights.any (fun f => f.entry.loc && f.entry.core = c && f.stage ≠ 2)
    || s.cores.any (fun p => p.2.sb.any (fun e => e.loc && e.core = c) || p.2.slots.any (fun q => match q.2.occ with
        | .live t => t.ops.any (fun o => (o.space = .loc && o.acc.any (fun a => a.core = c && !a.done && a.refuse = 0))
            || (s.panelCores t.tenant o).contains c)
        | _ => false))

/-- Write back and drop everything a core's CACHE banks hold (R111 step 2): dirty words go to the home copy, and what the cluster's
slice holds of them follows (R101). -/
def State.flushBanks (s : State) (c : Nat) : State :=
  let s := (s.regw.filter (fun p => p.2.core = c)).foldl (fun s p =>
    (s.unregister p.1).retryFlights (fun f =>
      f.stage = 1 && f.entry.addr / 8 ≤ p.1 && p.1 ≤ (f.entry.addr + f.entry.size - 1) / 8)) s
  (s.copies.filter (fun p => p.1 % 4096 = bankHolder c)).foldl (fun s p =>
    let line := p.1 / 4096
    let cp := p.2
    let s : State := { s with mem := mergeWords s.mem line cp.words cp.dirty }
    let s := match s.copy? line (c / 8) with
      | some y => s.setCopy line (c / 8)
          { y with words := cp.dirty.foldl (fun ws i => setNth ws i (nthD cp.words i TWord.zero)) y.words
                   dirty := y.dirty.filter (fun i => !cp.dirty.contains i) }
      | none => s
    s.dropCopy line (bankHolder c)) s

/-- The bank holds a queued word; bank 11 is never asked. -/
def Core.bankBusy (x : Core) (b : Nat) : Bool := x.inq.any (fun q => q.conf && q.bank = b && !q.held.isEmpty)

/-- An empty queue whose bank leaves FIFO takes another place, where there is one; else it is no longer configured. -/
def Core.replaceQueue (x : Core) (i b : Nat) : Core :=
  let q := nthD x.inq i InQ.reset
  if q.conf && q.bank = b then
    match x.queuePlaces i q.n with
    | (b', o) :: _ => { x with inq := setNth x.inq i { q with bank := b', off := o } }
    | [] => { x with inq := setNth x.inq i InQ.reset }
  else x

/-- The mode of a control word. -/
def modeOf (n : Nat) : Bank :=
  match n with
  | 0 => .cache
  | 1 => .scratch
  | _ => .fifo

/-- Steps 3 and 4 of R111: the bank takes its mode, the window moves and its size is published. -/
def Core.setBank (x : Core) (b : Nat) (m : Bank) : Core :=
  let old := nthD x.banks b .cache
  let bs := setNth x.banks b m
  let so := banksIn x.banks .scratch
  let sn := banksIn bs .scratch
  let x := { x with banks := bs, win := x.win.moved so sn, pubWin := 131072 * sn.length, moving := false }
  if old = .fifo then (List.range 4).foldl (fun x i => x.replaceQueue i b) x else x

/-- BKMODE (R111). -/
def execBkmode (f : Fields) (s : State) : Out :=
  issue (.bkmode f) s (fun c k t s =>
    let (v, s') := s.readVals (.bkmode f) c k t f
    let g := v.a.v
    let b := g.bits 3 0
    let m := modeOf (g.bits 5 4)
    let x := s.core c
    let put := fun (s : State) (st : Nat) => (s.writeReg c k t f.d f.sd ⟨w64 st, false⟩).finish c k
    if g.bits 63 6 ≠ 0 || 11 < b || g.bits 5 4 = 3 then put s' 1
    else if nthD x.banks b .cache = m then put s' 0
    else if b = 11 then put s' 3
    else if nthD x.banks b .cache = .fifo && x.bankBusy b then put s' 2
    else
      let moves := nthD x.banks b .cache = .scratch || m = .scratch
      if moves && s.windowBusy c then (s.modCore c (fun x => { x with moving := true })).park c k .bank
      else
        let s' := if nthD x.banks b .cache = .cache then s'.flushBanks c else s'
        put (s'.modCore c (fun x => x.setBank b m)) 0)

/-- The occupied 16-byte entries of a FIFO bank: four for a continuation record, one for a mailbox overflow entry, one for
two queue words. -/
def Core.occupied (x : Core) (b : Nat) : Nat :=
  (if b = 11 then 4 * x.fifo.length + x.overflow else 0)
    + (x.inq.map (fun q => if q.conf && q.bank = b then (q.held.length + 1) / 2 else 0)).sum

/-- The code of a mode. -/
def Bank.code (b : Bank) : Nat :=
  match b with
  | .cache => 0
  | .scratch => 1
  | .fifo => 2

/-- BKINFO (R112). The valid lines of a CACHE bank are a free value of at most 1,024: placement is not architectural. -/
def execBkinfo (f : Fields) (s : State) : Out :=
  issue (.bkinfo f) s (fun c k t s =>
    let (v, s) := s.readVals (.bkinfo f) c k t f
    let n := v.a.v.toNat
    let x := s.core c
    let put := fun (s : State) (w : TWord) => (s.writeReg c k t f.d f.sd w).finish c k
    let count := fun (m : Bank) => (banksIn x.banks m).length
    if n = 12 then
      put s ⟨w64 (count .cache * 2 ^ 44 + count .scratch * 2 ^ 40 + count .fifo * 2 ^ 36 + x.pubWin), v.a.t⟩
    else if 12 < n then put s ⟨allOnes, v.a.t⟩
    else
      let m := nthD x.banks n .cache
      let head := m.code * 2 ^ 62 + (if n = 11 then 2 ^ 61 else 0)
      match m with
      | .scratch =>
        put s ⟨w64 (head + 131072 * ((banksIn x.banks .scratch).filter (fun j => j < n)).length), v.a.t⟩
      | .fifo => put s ⟨w64 (head + x.occupied n), true⟩
      | .cache =>
        let (fv, s) := s.freeVal
        put s ⟨w64 (head + fv.toNat % 1025), true⟩)

end Sys2Proof.Machine
end

