-- ==== Sys2Proof/Machine/Launch.lean ====
section
/-!
DEFINITION. Sys2Proof/Machine/Launch.lean: the dispatcher (R219 to R223, R226): launch queues, headers, pool plans, the
creation of a launch's continuations and its end.
-/
namespace Sys2Proof.Machine
open Sys2Proof

/-! ### Taking an entry (R219 to R221) -/

/-- What an engine finds when it reads words. -/
inductive HeaderTry where
  | ok (ws : List Word) (s : State)
  | unreadable (s : State)
  | wait (s : State)

/-- `n` words read by an engine of a tenant, at the home, like any read that arrives there: after the pending adds (R301). -/
def State.engineWords (s : State) (tn who slot va n : Nat) : HeaderTry :=
  match n with
  | 0 => .ok [] s
  | m + 1 =>
    match s.enginePage tn who ((s.coresOf tn).headD 0) slot va 4 with
    | .declined s => .unreadable s
    | .wait s => .wait s
    | .tr tr =>
      match s.homeGate tr.pa 8 false with
      | some s => .wait s
      | none =>
        let s := s.applyAdds tr.pa 8
        match s.engineWords tn who slot (va + 8) m with
        | .ok ws s' => .ok ((s.readHome (Leaf.sw tr.leaf) tr.pa 8).v :: ws) s'
        | e => e

/-- Words read by the dispatcher. -/
def State.dispatcherRead (s : State) (tn va n : Nat) : HeaderTry := s.engineWords tn 5 0 va n

/-- The fields of a header's launch word (R220). -/
def hdrN (h : List Word) : Nat := (nthD h 2 0).bits 17 0
def hdrDet (h : List Word) : Bool := (nthD h 2 0).bits 18 18 = 1
def hdrPrio (h : List Word) : Nat := (nthD h 2 0).bits 20 19
def hdrRegs (h : List Word) : Nat := (nthD h 2 0).bits 28 21
def hdrC (h : List Word) : Nat := (nthD h 2 0).bits 32 29
def hdrS (h : List Word) : Nat := (nthD h 2 0).bits 36 33
def hdrF (h : List Word) : Nat := (nthD h 2 0).bits 40 37
def hdrEntry (h : List Word) : Nat := (nthD h 1 0).bits 31 0

/-- The check of R221 that a header fails: its cause and code. -/
def hdrFault (h : List Word) (cores : Nat) : Option (Nat × Nat) :=
  if hdrRegs h = 0 then some (1, 0x16)
  else if 128 < hdrRegs h then some (2, 0x16)
  else if (nthD h 0 0).bits 15 0 ≠ 1 || (nthD h 0 0).bits 31 16 ≠ 0 || (nthD h 2 0).bits 63 41 ≠ 0 || nthD h 15 0 ≠ 0
    || hdrEntry h % 2 = 1 then some (3, 1)
  else if hdrC h + hdrS h + hdrF h ≠ 12 || hdrF h = 0 then some (4, 1)
  else if hdrN h = 0 || 131072 < hdrN h || (hdrDet h && 63 * cores < hdrN h) then some (5, 1)
  else none

/-- A LAUNCH record (R221). -/
def State.launchRec (s : State) (tn code cause q : Nat) (w : Word) : State :=
  s.faultRec tn (recWord 6 (code * 2 ^ 48 + cause * 2 ^ 40 + q)) w

/-- The first launch id from `l` on that is not live. -/
def freeLaunch (live : SMap Launch) (fuel l : Nat) : Nat :=
  match fuel with
  | 0 => l
  | n + 1 => if (SMap.get? live l).isSome then freeLaunch live n ((l + 1) % 65536) else l

/-- A launch queue has an entry to take: enabled, not empty, and no launch from it is still to be created. -/
def Tenant.queueReady (t : Tenant) (q : Nat) : Bool :=
  let r := nthD t.lq q Ring.reset
  ctlEn r.ctl && r.acc ≠ r.rp && !t.launches.any (fun p => p.2.queue = q && !p.2.created)

/-- LAUNCH_ENTRY_TAKEN: the dispatcher takes the next entry of a queue, the highest priority first, and accepts its launch
or rejects it. -/
def execLaunchEntryTaken (s : State) : Out :=
  let tn := s.argN 0
  let q := s.argN 1
  let t := s.tenant tn
  let r := nthD t.lq q Ring.reset
  if !ctlEn r.ctl || r.acc = r.rp || t.tdi = 3 then .next s
  else if !t.queueReady q || 4096 ≤ t.launches.length
    || (List.range 4).any (fun p => q < p && t.queueReady p) then .next (s.again .launchEntryTaken)
  else
    let took := fun (s : State) =>
      let s := s.modTenant tn (fun t =>
        let r := nthD t.lq q Ring.reset
        { t with lq := setNth t.lq q { r with rp := (r.rp + 1) % 2 ^ 32 } })
      if (nthD (s.tenant tn).lq q Ring.reset).acc ≠ (nthD (s.tenant tn).lq q Ring.reset).rp
      then s.again .launchEntryTaken else s
    match s.dispatcherRead tn (r.base + 16 * (r.rp % ctlSize r.ctl)) 1 with
    | .wait s => .next (s.again .launchEntryTaken)
    | .unreadable s => .next (took (s.launchRec tn 6 6 0 0))
    | .ok e s =>
      let hva := e.headD 0
      match s.dispatcherRead tn (hva.toNat / 128 * 128) 16 with
      | .wait s => .next (s.again .launchEntryTaken)
      | .unreadable s => .next (took (s.launchRec tn 6 6 0 hva))
      | .ok h s =>
        match hdrFault h (s.coresOf tn).length with
        | some (cause, code) => .next (took (s.launchRec tn code cause 0 hva))
        | none =>
          let l := freeLaunch t.launches 4097 t.nextLaunch
          let s := s.modTenant tn (fun t =>
            { t with nextLaunch := (l + 1) % 65536
                     launches := SMap.set t.launches l ⟨h, hva.toNat, q, 0, false, 0, 0, s.coresOf tn, false⟩ })
          .next (took (s.post ((s.coresOf tn).map (fun c => evt .poolPlanReady [tn, l, c]) ++ [evt .launchCreate [tn, l]])))

/-! ### The pool plan (R221) -/

/-- The banks of a plan (R105). -/
def planBanks (h : List Word) : List Bank :=
  List.replicate (hdrC h) .cache ++ List.replicate (hdrS h) .scratch ++ List.replicate (hdrF h) .fifo

/-- Work of a launch of the tenant for which `p` holds is on the core: a thread or a saved image in slots 0 to 62, a
continuation in the run FIFO, or one in the pool that waits for the core. -/
def State.workOn (s : State) (tn c : Nat) (p : Nat → Bool) : Bool :=
  let x := s.core c
  let own := fun (w : Word) => w.bits 63 60 = tn && p (taskLaunch w)
  x.slots.any (fun q => q.1 ≠ 63 && (match q.2.occ with
      | .live t => t.tenant = tn && p (taskLaunch t.task)
      | .reserved t _ _ => t.tenant = tn && p (taskLaunch t.task)
      | .vacant => false))
    || x.fifo.any (fun q => own q.1.task) || (s.tenant tn).pool.any (fun q => q.1 = c && own q.2.task)

/-- A core may take another plan for a launch: no work of another launch and no command outstanding, and every FIFO bank
that changes is empty. -/
def State.planFree (s : State) (tn l c : Nat) (bs : List Bank) : Bool :=
  let x := s.core c
  !s.workOn tn c (fun m => m ≠ l) && x.tu.isEmpty && x.lq.isEmpty && x.lqWait.isEmpty
    && (List.range 11).all (fun b => nthD x.banks b .cache ≠ .fifo || nthD bs b .cache = .fifo || !x.bankBusy b)

/-- POOL_PLAN_READY: a core is brought into a launch's plan, bank by bank as by BKMODE. -/
def execPoolPlanReady (s : State) : Out :=
  let tn := s.argN 0
  let l := s.argN 1
  let c := s.argN 2
  match SMap.get? (s.tenant tn).launches l with
  | none => .next s
  | some la =>
    let bs := planBanks la.hdr
    let x := s.core c
    if x.banks = bs then .next (s.modCore c (fun x => { x with plan := bs }))
    else if !s.planFree tn l c bs then .next (s.again .poolPlanReady)
    else if banksIn x.banks .scratch ≠ banksIn bs .scratch && s.windowBusy c then
      .next ((s.modCore c (fun x => { x with moving := true })).again .poolPlanReady)
    else
      let s := s.flushBanks c
      .next (s.modCore c (fun x =>
        { (List.range 11).foldl (fun x b => if nthD x.banks b .cache = nthD bs b .cache then x
            else x.setBank b (nthD bs b .cache)) x with moving := false, plan := bs }))

/-! ### Creation (R222, R226) -/

/-- The cores that lanes of a deterministic launch of `n` threads are bound to. -/
def laneCores (cores : List Nat) (n : Nat) : List Nat := cores.take n

/-- A core may be given over to a deterministic launch. -/
def State.coreFree (s : State) (c : Nat) : Bool :=
  (s.core c).launch = none && (List.range 63).all (fun k => ((s.core c).slot k).occ = .vacant)

/-- The continuation of a lane. -/
def laneCont (tn l g : Nat) (h : List Word) (lane : Nat) : Cont :=
  { pc := hdrEntry h, args := (List.range 4).map (fun i => ⟨nthD h (3 + i) 0, false⟩),
    task := mkTask tn (hdrPrio h) (hdrDet h) ((hdrRegs h + 7) / 8 - 1) lane g l, reply := 0, inc := 0, origin := 0,
    k := false, was := 0 }

/-- Change a live launch. -/
def State.modLaunch (s : State) (tn l : Nat) (g : Launch → Launch) : State :=
  s.modTenant tn (fun t => match SMap.get? t.launches l with
    | some la => { t with launches := SMap.set t.launches l (g la) }
    | none => t)

/-- A launch that has its group places its lanes in ascending order, while their cores have room (R222, R224). -/
def State.placeLanes (s : State) (tn l : Nat) (la : Launch) (fuel lane : Nat) : State :=
  let stop := fun (s : State) => s.modLaunch tn l (fun x => { x with placed := lane })
  match fuel with
  | 0 => ((stop s).modLaunch tn l (fun x => { x with created := true })).post [evt .launchDone [tn, l]]
  | n + 1 =>
    let c := nthD la.cores (lane % la.cores.length) 0
    if s.fifoRoom c tn then (s.pushFifo c (laneCont tn l la.group la.hdr lane)).placeLanes tn l la n (lane + 1)
    else (stop s).again .launchCreate

/-- The cores of a held launch that are not in its plan are brought into it (R221), again where another launch has changed them
meanwhile. -/
def State.askPlans (s : State) (tn l : Nat) (la : Launch) : State :=
  s.post (((s.coresOf tn).filter (fun c => (s.core c).banks ≠ planBanks la.hdr
    && !s.due.any (fun e => e.ev = .poolPlanReady && e.arg.nums = [tn, l, c]))).map (fun c => evt .poolPlanReady [tn, l, c]))

/-- LAUNCH_CREATE: once every core of the partition has the plan, the launch's group and its continuations are created, in
ascending lane order. -/
def execLaunchCreate (s : State) : Out :=
  let tn := s.argN 0
  let l := s.argN 1
  match SMap.get? (s.tenant tn).launches l with
  | none => .next s
  | some la =>
    let cores := s.coresOf tn
    let n := hdrN la.hdr
    let bound := laneCores cores n
    if la.created then .next s
    else if la.group ≠ 0 then .next (s.placeLanes tn l la (n - la.placed) la.placed)
    else if cores.isEmpty || !cores.all (fun c => (s.core c).banks = planBanks la.hdr)
      || (hdrDet la.hdr && !bound.all s.coreFree) then .next ((s.askPlans tn l la).again .launchCreate)
    else
      match s.newGroup tn n with
      | none => .next (s.again .launchCreate)
      | some (g, s) =>
        let s := if hdrDet la.hdr then bound.foldl (fun s c => s.modCore c (fun x => { x with launch := some (tn, l), rot := 0 })) s
          else s
        let la := { la with group := g, cores := cores }
        .next ((s.modLaunch tn l (fun _ => la)).placeLanes tn l la n 0)

/-! ### The end of a launch (R223) -/

/-- Something still carries the launch id. -/
def State.carried (s : State) (tn l : Nat) : Bool :=
  s.cores.any (fun p => s.workOn tn p.1 (fun m => m = l)
      || p.2.spawns.any (fun q => q.cont.task.bits 63 60 = tn && taskLaunch q.cont.task = l))
    || (s.tenant tn).pool.any (fun q => taskLaunch q.2.task = l)

/-- DONE: when the last carrier has ended, the pending adds of the launch are applied and its domains end (R301), its id is free and
the record is posted. A launch that has lost a thread with its core lives on (R248). -/
def execLaunchDone (s : State) : Out :=
  let tn := s.argN 0
  let l := s.argN 1
  match SMap.get? (s.tenant tn).launches l with
  | none => .next s
  | some la =>
    if !la.created || la.lost || s.carried tn l then .next s
    else
      let mine := fun (p : Nat × AddList) => p.2.tenant = tn && p.2.launch = l
      let s := (s.addl.filter mine).foldl (fun s p => s.applyList p.1) s
      let s : State := { s with addl := s.addl.filter (fun p => !mine p) }
      let held := s.cores.filter (fun p => p.2.launch = some (tn, l))
      let s := held.foldl (fun s p =>
        (s.modCore p.1 (fun x => { x with launch := none })).post [evt .admission [p.1]]) s
      let s := s.modTenant tn (fun t => { t with launches := SMap.del t.launches l })
      .next (s.notify tn (recWord 6 l) (w64 la.admitted))

end Sys2Proof.Machine
end

