-- ==== Sys2Proof/Machine/MemEvents.lean ====
section
/-!
DEFINITION. Sys2Proof/Machine/MemEvents.lean: how outstanding accesses and store-buffer entries are performed (R23, R25, R60,
R91, R92, R96, R254 to R256, R261, R338), how parked instructions resume (R38), how traps and stops that wait take effect
(R238, R243, R309), and the FP collection window (R240).
-/
namespace Sys2Proof.Machine
open Sys2Proof

/-! ### Outstanding operations -/

/-- A local access to a dead core waits until Apex acts, and is refused then (R248). -/
def State.deadTarget (s : State) (o : Op) : Bool := o.space = .loc && o.acc.any (fun a => !a.done && (s.core a.core).dead)
def State.goneTarget (s : State) (o : Op) : Bool := o.space = .loc && o.acc.any (fun a => !a.done && s.barred a.core o.id)

/-- The operation ends: its results are written and the watchpoints it meets are noted. Where a stream port that it writes has been
closed meanwhile (R145), it is refused, and its trap reports the port. -/
def State.completeOp (s : State) (c k : Nat) (t : Thread) (o : Op) : State :=
  match s.writeResults c k t o with
  | .done s => (s.watchOp c k o).modThread c k (fun t => t.dropOp o.id)
  | .wait => s.again .longLatencyComplete
  | .trap code =>
    let n := (o.ins.specialWrites.headD 114)
    let s := if code = tSTREAMABORT then s.consumeTrap o.ins c n else s
    let o := { o with acc := o.acc.map (fun a => { a with refuse := code, cause := n - 114 }) }
    (s.modThread c k (fun t => t.setOp o)).post [evt .deferredTrap [c, k, o.id]]

/-- LONG_LATENCY_COMPLETE: an operation all of whose accesses are performed writes its results; a local load first reads its
banks (R109). -/
def execLongLatencyComplete (s : State) : Out :=
  let c := s.argN 0
  let k := s.argN 1
  match s.opOf c k (s.argN 2) with
  | none => .next s
  | some (t, o) =>
    if o.space = .loc && o.kind = .load && !o.ended then
      if s.goneTarget o then
        .next ((s.modThread c k (fun t => t.setOp { o with acc := o.acc.map (fun a => { a with refuse := tPTRRANGE }) })).post
          [evt .deferredTrap [c, k, o.id]])
      else if s.deadTarget o || o.acc.any (fun a => s.mustFollow c t o a) then .next (s.again .longLatencyComplete)
      else
        let o := s.localLoads c k o
        let s := s.modThread c k (fun t => t.setOp o)
        if o.refusal.isSome then .next (s.post [evt .deferredTrap [c, k, o.id]]) else .next (s.completeOp c k t o)
    else if o.refusal.isSome || !o.ended then .next s
    else .next (s.completeOp c k t o)

/-- The address a deferred trap reports: that of the access, and none for a port. -/
def Op.trapAddr (o : Op) (a : Access) : Word :=
  if a.refuse = tSTREAMABORT || a.refuse = tQCFGERR || a.refuse = tMESHGATE then 0 else o.faultAddr a

/-- DEFERRED_TRAP (R25): a refused operation ends with its destinations unchanged, and its trap becomes pending. A store first ends
with every access that is not refused (R170). -/
def execDeferredTrap (s : State) : Out :=
  let c := s.argN 0
  let k := s.argN 1
  match s.opOf c k (s.argN 2) with
  | none => .next s
  | some (_, o) =>
    match o.refusal with
    | none => .next s
    | some a =>
      if o.kind = .store && !o.ended then .next (s.again .deferredTrap)
      else .next ((s.modThread c k (fun t => t.dropOp o.id)).addDefer c k a.refuse (o.trapAddr a) a.cause o.pc o.id o.tip)

/-- L2_REQUEST: the request of an operation is tried at its port and its home slice; slot 64 stands for the request of a
prefetch. -/
def execL2Request (s : State) : Out :=
  let c := s.argN 0
  let k := s.argN 1
  if k = 64 then .next (s.prefetchLine c (s.argN 2) (s.argN 3 = 1) (s.argW 0).v)
  else
    match s.opOf c k (s.argN 2) with
    | none => .next s
    | some (t, o) =>
      if o.refusal.isSome && o.kind ≠ .store && o.kind ≠ .pref then .next s
      else
        match o.kind with
        | .load | .loadAcq => .next (s.loadProgress c k t o false)
        | .amo => .next (s.amoProgress c k t o)
        | .store =>
          let s := s.storeProgress c k o.id
          (match s.opOf c k o.id with
           | some (_, o') => if o'.ended then .next s else .next (s.again .l2Request)
           | none => .next s)
        | .pref => .next (s.prefetch c k t o)
        | .bpack => .next (s.packProgress c k t o)
        | .saread => .next (s.sareadProgress c k t o)
        | .lattice => .next s

/-- FORWARDED_LOAD (R92): the registrant answers; a load that meets a recall waits for its end at the home slice. -/
def execForwardedLoad (s : State) : Out :=
  let c := s.argN 0
  let k := s.argN 1
  match s.opOf c k (s.argN 2) with
  | none => .next s
  | some (t, o) =>
    if o.refusal.isSome || (o.kind ≠ .load && o.kind ≠ .loadAcq) then .next s
    else
      let recalling : Bool := match o.pendingAcc with
        | none => false
        | some (_, a) =>
          (match s.placeOf c o a 0 with
           | none => false
           | some tr => s.recalling (tr.pa / 8))
      if recalling then .next (s.post [evt .l2Request [c, k, o.id]]) else .next (s.loadProgress c k t o true)

/-! ### The store buffer (R60, R254, R261) -/

/-- An entry leaves the buffer for its home slice or bank. -/
def State.sendStore (s : State) (c : Nat) (e : SBEntry) : State :=
  let (i, s) := s.fresh
  ({ s with flights := s.flights ++ [⟨i, c, e, 0, []⟩] } : State).post [evt .storeRegistration [i]]

/-- Parked writes that the end of their migration releases, each thread's in its order; `kept` are those that stay. -/
def State.releaseParked (s : State) (c tn : Nat) (l kept : List SBEntry) : State × List SBEntry :=
  match l with
  | [] => (s, kept)
  | e :: r =>
    if kept.any (fun x => x.slot = e.slot && x.inc = e.inc) || s.migrating tn e then s.releaseParked c tn r (kept ++ [e])
    else (s.sendStore c (s.replaced tn e)).releaseParked c tn r kept

/-- A release that is on its way names the access by its identity: a message, a word, a request to a home, a SPAWN (R257). -/
def State.releasing (s : State) (c i : Nat) : Bool :=
  (s.core c).outbox.any (fun n => n.after.contains i)
    || s.net.any (fun n => n.core = c && n.after.contains i)
    || s.flits.any (fun f => f.srcC = c && f.after.contains i)
    || s.reqs.any (fun q => q.core = c && q.after.contains i)
    || s.cores.any (fun p => p.2.spawns.any (fun q => q.src = c && q.after.contains i))

/-- A fence or a release of its thread needs the entry gone (R261). -/
def State.demanded (s : State) (c : Nat) (e : SBEntry) : Bool :=
  (match e.kind with
   | .release | .amo true | .streamAdd _ true => true
   | _ => false)
    || (match s.sameThread c e.slot e.inc with
        | none => false
        | some t =>
          (match t.run with
           | .wait .drained => true
           | .wait .fenced => true
           | .wait .combined => true
           | _ => false)
          || (match t.deleg with
              | some d => d.remote && s.due.any (fun x => x.ev = .delegateBodyExit && nthD x.arg.nums 0 0 = d.obj)
              | none => false))
    || s.releasing c e.id

/-- The litmus hold lets the head of the buffer go: a fence or a release drains it through the last entry of its thread (R261). -/
def State.holdLifted (s : State) (c : Nat) : Bool := (s.core c).sb.any (s.demanded c)

/-- STORE_BUFFER_DRAIN: writes whose migration has ended are performed; then the head of the buffer leaves it, to its home or
to its thread's parked writes; the litmus hold stops it unless a fence or release needs it gone, and a full memory port. -/
def execStoreBufferDrain (s : State) : Out :=
  let c := s.argN 0
  let tn := s.tenantOn c
  if (s.core c).dead then .next s
  else
    let (s, kept) := s.releaseParked c tn (s.core c).parked []
    let s := s.modCore c (fun x => { x with parked := kept })
    match (s.core c).sb with
    | [] => .next s
    | e :: r =>
      if ((s.core c).lthold && !s.holdLifted c) || (!e.loc && s.portFull (c / 8)) then .next (s.again .storeBufferDrain)
      else
        let s := s.modCore c (fun x => { x with sb := r })
        if kept.any (fun x => x.slot = e.slot && x.inc = e.inc) || s.migrating tn e then
          .next (s.modCore c (fun x => { x with parked := x.parked ++ [e] }))
        else .next (s.sendStore c e)

/-- Two entries write a common word. -/
def SBEntry.meets (e g : SBEntry) : Bool :=
  e.loc = g.loc && (!e.loc || e.core = g.core) && sameWord e.addr e.size g.addr g.size

/-- An access of an operation that is still to be performed touches a word of an entry; where it is not yet translated, it may. -/
def State.opMeets (s : State) (c : Nat) (o : Op) (e : SBEntry) : Bool :=
  o.acc.any (fun a => !a.done && a.refuse = 0 &&
    (if e.loc || o.space = .loc then e.loc && o.space = .loc && a.core = e.core && sameWord a.addr a.size e.addr e.size
     else
       match s.placeOf c o a 0 with
       | some tr => sameWord tr.pa a.size e.addr e.size
       | none => sameWord (a.addr % 4096) a.size (e.addr % 4096) e.size))

/-- What must be performed before a store in flight (R252, R254, R255): earlier entries of its core of the ordered kind or
to the same word, and the earlier loads of its thread. -/
def State.storeMustFollow (s : State) (f : Flight) : Bool :=
  let e := f.entry
  let die := dieScope e.sh e.sw e.host
  s.flights.any (fun g => g.core = f.core && g.stage ≠ 2 && g.id < f.id
      && ((die && dieScope g.entry.sh g.entry.sw g.entry.host) || g.entry.meets e))
    || (match s.sameThread f.core e.slot e.inc with
        | none => false
        | some t => t.ops.any (fun o => o.id < e.id && o.kind ≠ .store && o.kind ≠ .pref && !o.ended
            && (o.acq || s.opMeets f.core o e
              || (die && o.orderedLoad && o.acc.any (fun a => !a.done && a.refuse = 0 && s.ordered f.core o a)))))

/-- Try a store in flight again, once. -/
def State.retryStore (s : State) (r : Nat) : State :=
  if s.due.any (fun e => e.ev = .storeRegistration && e.arg.nums = [r]) then s else s.post [evt .storeRegistration [r]]

def State.setFlight (s : State) (f : Flight) : State :=
  { s with flights := s.flights.map (fun g => if g.id = f.id then f else g) }

/-- A store that is not performed: its entry retires, and its thread takes a deferred trap. -/
def State.refuseStore (s : State) (f : Flight) (code : Nat) (addr : Word) : State :=
  let s := { s with flights := s.flights.filter (fun g => g.id ≠ f.id) }
  match s.sameThread f.core f.entry.slot f.entry.inc with
  | none => s
  | some t => s.addDefer f.core f.entry.slot code addr 0 f.entry.pc f.entry.id t.trap.tip

/-- The accesses of an entry's thread that are older than it and not yet performed. -/
def State.olderOf (s : State) (c : Nat) (e : SBEntry) : List Nat :=
  let mine := fun (x : SBEntry) => x.slot = e.slot && x.inc = e.inc && x.id < e.id
  ((s.pendingStores c ++ (s.core c).parked).filter mine).map (fun x => x.id)
    ++ (match s.sameThread c e.slot e.inc with
        | some t => (t.ops.filter (fun o => o.id < e.id && !o.ended && o.kind ≠ .pref)).map (fun o => o.id)
        | none => [])

/-- The entry is a release (R62, R65, R203, R257). -/
def StKind.releases (k : StKind) : Bool :=
  match k with
  | .release | .amo true | .streamAdd _ true => true
  | _ => false

/-- A releasing store may be performed: the accesses before it are performed, and the write-combine buffer has drained. -/
def State.mayPerform (s : State) (c : Nat) (e : SBEntry) : Bool × State :=
  if e.kind.releases then
    if (s.olderOf c e).isEmpty then s.released c [] else (false, s)
  else (true, s)

/-- Send a RECALL for a word registered to another core, once (R92): the store whose request caused it is served first after it. -/
def State.askRecall (s : State) (w r : Nat) : State :=
  match SMap.get? s.regw w with
  | none => s
  | some x =>
    if x.asker.isSome then s
    else ({ s with regw := SMap.set s.regw w { x with asker := some r } } : State).post [evt .recallWord [w]]

/-- A store in flight has been performed: a demand access at the port, a write to a ring's write-pointer word is noticed, and the
acknowledgement is on its way. -/
def State.performed' (s : State) (f : Flight) : State :=
  let e := f.entry
  let s := if e.loc || e.wide then s else s.demand (f.core / 8) e.va
  let s := if e.loc then s else s.pokeRings (s.tenantOn f.core) (e.addr / 128)
  (s.setFlight { f with stage := 2, left := [] }).post [evt .registrationAck [f.id]]

/-- One word of a store on a page of die scope at the home slice: applied at once, or left for the end of a recall (R92). -/
def State.registerWord (s : State) (f : Flight) (w : Nat) : List Nat × State :=
  if s.recalling w then ([w], s)
  else if s.elsewhere f.core w then ([w], s.askRecall w f.id)
  else ([], s.storeWordDie f.core f.entry w)

/-- Words of a store on a page of die scope, in order: those that are left, and the state. -/
def State.registerWords (s : State) (f : Flight) (ws : List Nat) : List Nat × State :=
  match ws with
  | [] => ([], s)
  | w :: r =>
    let (l, s) := s.registerWord f w
    let (l', s) := s.registerWords f r
    (l ++ l', s)

/-- A store to a page of die scope is at its home slice: the words that wait for a recall are tried again. -/
def State.storeDie (s : State) (f : Flight) (ws : List Nat) : State :=
  let (l, s) := s.registerWords f ws
  if l.isEmpty then s.performed' f else (s.setFlight { f with stage := 1, left := l }).retryStore f.id

/-- A store to a page of module or system scope (R96): by the owner, or once the cluster owns the line. Pending adds come first. -/
def State.storeModule (s : State) (f : Flight) : State :=
  let e := f.entry
  let cl := f.core / 8
  let line := e.addr / 128
  let retry := fun (s : State) => s.retryStore f.id
  if s.addsDue e.addr e.size then
    match s.homeGate e.addr e.size true with
    | some s => retry s
    | none => retry (s.applyAdds e.addr e.size)
  else if s.ownsLine cl line then
    if s.pinned line then retry s
    else
      match s.backInvalidate line with
      | some s => retry s
      | none => (s.storeOwned f.core e).performed' f
  else
    match s.needLine line with
    | some s => retry s
    | none => retry ((s.askGetM cl line e.leaf).setFlight { f with stage := 3 })

/-- A store in flight reaches its home slice, past every check of its own. -/
def State.storeAtHome (s : State) (f : Flight) : State :=
  let e := f.entry
  let c := f.core
  let tn := s.tenantOn c
  let line := e.addr / 128
  let retry := fun (s : State) => s.retryStore f.id
  if e.host then
    if e.kind = .nonTemporal then
      if s.pinned line || s.lineBusy line then retry s
      else (((s.applyAdds e.addr e.size).countHot (c / 8) tn e.leaf).storeNonTemporal c e).performed' f
    else
      let (ok, s) := s.combineRoom c e.addr
      if ok then (s.combine c e).performed' f else retry s
  else if e.sw then
    match s.homeGate (128 * line) 128 false with
    | some s => retry s
    | none =>
      let s := s.applyAdds e.addr e.size
      let s := if s.swMiss c line then (s.countHot (c / 8) tn e.leaf).touchLine line else s
      (s.storeSw c e).performed' f
  else if 3 ≤ e.sh then s.storeModule f
  else
    match s.homeGate e.addr e.size true with
    | some s => retry s
    | none => (((s.applyAdds e.addr e.size).countHot (c / 8) tn e.leaf).touchLine line).storeDie f e.words

/-- An atomic reaches its home slice (R65): its core's own combined bytes of a host half go there first; on a poisoned line it is
refused. -/
def State.atomicAtHome (s : State) (f : Flight) (t : Thread) (o : Op) : State :=
  let e := f.entry
  let c := f.core
  let done := fun (s : State) => (s.setFlight { f with stage := 2 }).post [evt .registrationAck [f.id]]
  match o.pendingAcc with
  | none => done s
  | some (j, a) =>
    let s := if (s.core c).wc.any (fun x => x.half = e.addr / 64) then s.drainHalf c (halfOf e.addr) else s
    if (s.core c).wc.any (fun x => x.half = e.addr / 64) then s.retryStore f.id
    else
      match s.homeGate e.addr e.size true with
      | some s => s.retryStore f.id
      | none =>
        if s.poisoned e.addr then done (s.opNext c e.slot (o.refuse j tPOISON 0))
        else done (s.amoAtHome c e.slot j t o a ⟨e.addr, e.leaf, 5⟩)

/-- A local store reaches its target bank (R109): refused where the window no longer holds it, waiting where the core is dead. -/
def State.storeAtBank (s : State) (f : Flight) (taint : Bool) : State :=
  let e := f.entry
  let x := s.core e.core
  if s.barred e.core f.id || x.pubWin < e.addr + e.size then s.refuseStore f tPTRRANGE (w64 e.addr)
  else if x.dead then s.retryStore f.id
  else if taint then s.refuseStore f tTAINT (w64 e.addr)
  else (s.storeLocal e.core e).performed' f

/-- STORE_REGISTRATION: a store in flight reaches its home slice or target bank; words that wait for recalls are tried again. -/
def execStoreRegistration (s : State) : Out :=
  match s.flights.find? (fun f => f.id = s.argN 0) with
  | none => .next s
  | some f =>
    let e := f.entry
    let c := f.core
    if f.stage = 2 then .next s
    else if f.stage = 1 then .next (s.storeDie f f.left)
    else if s.storeMustFollow f then .next (s.retryStore f.id)
    else
      let (ok, s) := s.mayPerform c e
      if !ok then .next (s.retryStore f.id)
      else
        let taint : Bool := match s.sameThread c e.slot e.inc with
          | some t => s.taintTrap t.tenant t.task (s.taintsWord c e)
          | none => false
        match e.kind with
        | .streamAdd _ _ =>
          .next (if s.due.any (fun x => x.ev = .streamAddApply && x.arg.nums = [f.id]) then s else s.post [evt .streamAddApply [f.id]])
        | .amo _ =>
          (match (s.sameThread c e.slot e.inc).bind (fun t => (t.op? e.id).map (fun o => (t, o))) with
           | some (t, o) => .next (s.atomicAtHome f t o)
           | none => .next { s with flights := s.flights.filter (fun g => g.id ≠ f.id) })
        | _ =>
          if e.loc then .next (s.storeAtBank f taint)
          else if e.wide && s.retired e.addr then .next (s.refuseStore f tWIDEN (w64 e.va))
          else if taint then .next (s.refuseStore f tTAINT (w64 e.va))
          else .next (s.storeAtHome f)

/-- REGISTRATION_ACK (R91): the entry retires. -/
def execRegistrationAck (s : State) : Out :=
  .next { s with flights := s.flights.filter (fun f => !(f.id = s.argN 0 && f.stage = 2)) }

/-- The registered word comes home, and the store whose request caused a recall is applied next (R92). -/
def State.recallEnds (s : State) (w : Nat) (r : RegWord) : State :=
  let s := s.unregister w
  match s.flights.find? (fun f => r.asker = some f.id && f.left.contains w) with
  | none => s
  | some f =>
    let s := s.storeWordDie f.core f.entry w
    let l := f.left.filter (fun x => x ≠ w)
    if l.isEmpty then s.performed' f else s.setFlight { f with left := l }

/-- RECALL_ANSWER (R92). -/
def execRecallAnswer (s : State) : Out :=
  match SMap.get? s.regw (s.argN 0) with
  | some r => if r.asker.isSome then .next (s.recallEnds (s.argN 0) r) else .next s
  | none => .next s

/-- REGISTRANT_WRITE_BACK (R92): the registrant evicts the word; one that crosses a RECALL is its answer. -/
def execRegistrantWriteBack (s : State) : Out :=
  match SMap.get? s.regw (s.argN 0) with
  | some r => .next (s.recallEnds (s.argN 0) r)
  | none => .next s

/-- WC_DRAIN: an entry of the write-combine buffer drains. -/
def execWcDrain (s : State) : Out := .next (s.drainHalf (s.argN 0) (s.argN 1))

/-- WC_DRAIN_TIMEOUT: an entry held for 1,024 cycles drains. -/
def execWcDrainTimeout (s : State) : Out :=
  match (s.core (s.argN 0)).wc.find? (fun e => e.half = hostBase / 64 + s.argN 1) with
  | none => .next s
  | some e => if e.born + 1024 ≤ s.now then .next (s.drainHalf (s.argN 0) (s.argN 1)) else .next (s.again .wcDrainTimeout)

/-! ### Parked instructions, traps that wait, stops -/

/-- Accesses of the thread of slot `k` are not yet performed: entries of the store buffer that have not reached their place, for
which `p` holds. -/
def State.ownEntries (s : State) (c k : Nat) (p : SBEntry → Bool) : Bool :=
  (s.pendingStores c ++ (s.core c).parked).any (fun e => s.madeBy c k e && p e)

/-- The condition a parked instruction waits for holds (R38). Waits that an answer ends are ended by that answer. -/
def State.mayWake (s : State) (c k : Nat) (t : Thread) (w : Wait) : Bool :=
  match w with
  | .opsDone | .fenced => t.ops.isEmpty
  | .window => !t.ops.any (fun o => o.left = 0)
  | .opSlot => t.ops.length < 4
  | .acquire => !t.ops.any (fun o => o.acq)
  | .storeSpace | .tuRoom | .tile _ | .credit | .steps | .combined | .lost _ => true
  | .fifo => s.fifoRoom c t.tenant
  | .drained => (s.storesOf c k).isEmpty && s.detQuiet c k
  | .stores => (s.storesOf c k).isEmpty
  | .fault => !s.walks.any (fun w => w.who = 0 && w.core = c && w.slot = k && w.record.isSome)
  | .page va => !s.walking 0 c k va && !s.walking 7 c k va
  | .migrate va =>
    (match s.translate t.tenant va 1 with
     | .ok tr => !Leaf.wb tr.leaf
     | .error _ => true) && !(s.core c).parked.any (fun e => s.madeBy c k e)
  | .own line => !s.ownEntries c k (fun e => e.needsOwner && e.addr / 128 = line)
  | .outbox => (s.core c).outbox.length < 16
  | .selftest n => n < (s.cluster (c / 8)).ran
  | .pool c' => !(s.core c').shut || (s.core c').fenced
  | .bank => !s.windowBusy c
  | .operands l =>
    l.all (fun n => if n < 114 || (116 ≤ n && n < 120) then s.readReady c k t.since n (countIn l n) ≠ .no
      else if n < 124 then s.writeReady t.tenant c k t.since n ≠ .no
      else if k = 63 then s.readReady c k t.since n 1 ≠ .no
      else s.writeReady t.tenant c k t.since n ≠ .no)
  | .mail => t.nextMsg.isSome
  | .lqRoom | .syncWord _ _ => false
  | .chord _ | .home _ | .save _ | .granules _ | .spawn _ | .locus _ | .axis _ _ | .body => false

/-- INSTRUCTION_WAKE: a parked instruction goes back into rotation once its condition holds. -/
def execInstructionWake (s : State) : Out :=
  let c := s.argN 0
  let k := s.argN 1
  match s.thread? c k with
  | none => .next s
  | some t =>
    match t.run with
    | .wait w =>
      (match w with
       | .chord _ | .home _ | .save _ | .granules _ | .spawn _ | .locus _ | .axis _ _ | .body | .syncWord _ _ | .lqRoom => .next s
       | _ => if s.mayWake c k t w then .next (s.wake c k) else .next (s.again .instructionWake))
    | _ => .next s

/-- TRAP_DELIVERY (R238, R239): once nothing is outstanding, the first of the traps that wait is delivered. -/
def execTrapDelivery (s : State) : Out :=
  let c := s.argN 0
  let k := s.argN 1
  match s.thread? c k with
  | none => .next s
  | some t =>
    if t.pend.isNone then .next s
    else if !t.ops.isEmpty then .next (s.again .trapDelivery)
    else
      match t.run with
      | .stopped _ => .next s
      | _ =>
        (match t.dueTrap with
         | some (tr, t') => .next ((s.setThread c k t').deliver c k tr)
         | none => .next (s.wake c k))

/-- Apex asks a thread to stop (R243). -/
def State.askStop (s : State) (c k : Nat) (t : Thread) : State :=
  (s.setThread c k { t with stopReq := if t.stopReq = 0 || t.stopReq = 2 then 2 else 3 }).post [evt .stopTakesEffect [c, k]]

/-- STOP_REQUEST (R243): Apex asks for a stop. -/
def execStopRequest (s : State) : Out :=
  let c := s.argN 0
  let k := s.argN 1
  match s.thread? c k with
  | none => .next s
  | some t =>
    match t.run with
    | .stopped _ => .next s
    | _ => .next (s.askStop c k t)

/-- STOP_TAKES_EFFECT: at a boundary that R243 allows, a parked thread stops, after a deferred trap that is due, which it takes
first; one in rotation is stopped at its next boundary as it comes to issue. A stop that a later boundary must take is tried
again. -/
def execStopTakesEffect (s : State) : Out :=
  let c := s.argN 0
  let k := s.argN 1
  match s.thread? c k with
  | none => .next s
  | some t =>
    match t.run with
    | .stopped _ => .next s
    | .wait _ =>
      if t.stopReq = 0 then .next s
      else if (s.core c).mayStop k t then .next (s.takeStop c k t)
      else
        (match (if t.atBoundary && t.ops.isEmpty && !t.defers.isEmpty then t.dueTrap else none) with
         | some (tr, t') => .next ((((s.abandon c t).setThread c k t').deliver c k tr).again .stopTakesEffect)
         | none => .next (s.again .stopTakesEffect))
    | .ready =>
      if t.stopReq = 0 then .next s
      else if (s.core c).mayStop k t then .next (s.takeStop c k t)
      else .next (s.again .stopTakesEffect)

/-- A parked thread that debug stops: a breakpoint at its instruction, a watchpoint it has met, or a BRK. -/
def State.debugNow (s : State) (c k : Nat) : Out :=
  match s.thread? c k with
  | none => .next s
  | some t =>
    match t.run with
    | .stopped _ => .next s
    | _ =>
      let x := s.core c
      let bp := if t.resumed then none else x.breakHit k t.pc
      if x.mayStop k t && t.stopReq = 0 && (bp ≠ none || t.watch ≠ none || t.brk ≠ none) then
        .next (s.debugStop c k t bp)
      else .next s

/-- BREAKPOINT_HIT (R309). -/
def execBreakpointHit (s : State) : Out := s.debugNow (s.argN 0) (s.argN 1)

/-- WATCHPOINT_HIT (R309). -/
def execWatchpointHit (s : State) : Out := s.debugNow (s.argN 0) (s.argN 1)

/-- A write to DRES (R308, R310): each named slot that debug has stopped goes on, with the messages held for it in its
mailbox first. -/
def execDres (s : State) : Out :=
  let c := s.argN 0
  let m := (s.argW 0).v.toNat
  .next ((List.range 64).foldl (fun s k =>
    if m / 2 ^ k % 2 = 0 then s
    else
      match s.thread? c k with
      | none => s
      | some t =>
        if t.run = .stopped true then
          (s.setThread c k { t with mail := t.mail ++ t.held, held := [], resumed := true, run := t.resumed' }).idleAgain c k
        else s) s)

/-! ### The litmus hold (R261) -/

/-- The hold takes effect: every entry not yet performed is held in the buffer, in entry order, also those that were on
their way, but for one of which a word has been performed. -/
def State.holdStores (s : State) (c : Nat) : State :=
  let held := fun (f : Flight) => f.core = c && f.stage ≠ 2 && !(f.stage = 1 && f.left.length < f.entry.words.length)
  let l := (s.flights.filter held).map (fun f => f.entry)
  let s := { s with flights := s.flights.filter (fun f => !held f) }
  (s.modCore c (fun x => { x with lthold := true, sb := l ++ x.sb })).post (l.map (fun _ => evt .storeBufferDrain [c]))

/-- LTHOLD_SET: the hold is in effect, and the WRSR that asked for it completes. -/
def execLtholdSet (s : State) : Out := .next (s.holdStores (s.argN 0))

/-- LTHOLD_CLEAR: the hold has been cleared, and the held entries drain in order. -/
def execLtholdClear (s : State) : Out :=
  let c := s.argN 0
  if (s.core c).lthold then .next s
  else .next (s.post ((s.core c).sb.map (fun _ => evt .storeBufferDrain [c])))

/-! ### The FP collection window (R240) -/

/-- The earliest entry of a window: cycles rise as entries are made. -/
def firstEntry (l : List FPEntry) : Option FPEntry :=
  match l with
  | [] => none
  | e :: r => some (r.foldl (fun b x => if x.cycle < b.cycle then x else b) e)

/-- An operation that issued in a window and has not yet converted its elements may still enter it. -/
def Core.converting (x : Core) (w : Nat) : Bool :=
  x.slots.any (fun p => match p.2.occ with
    | .live t => t.ops.any (fun o => (o.kind = .bpack || o.kind = .saread) && !o.ended && o.born / 64 = w)
    | _ => false)

/-- FP_WINDOW_END: after the 64th cycle of a window its earliest entry is reported to its thread, if that is still the thread
that raised it and no report is pending; the others are counted. -/
def execFpWindowEnd (s : State) : Out :=
  let c := s.argN 0
  match firstEntry (s.core c).fpwin with
  | none => .next s
  | some e =>
    if s.now / 64 ≤ e.cycle / 64 || (s.core c).converting (e.cycle / 64) then .next (s.again .fpWindowEnd)
    else
    let l := (s.core c).fpwin.filter (fun x => x.cycle / 64 = e.cycle / 64)
    let rest := (s.core c).fpwin.filter (fun x => x.cycle / 64 ≠ e.cycle / 64)
    let s := s.modCore c (fun x => { x with fpwin := rest })
    let aux := w64 (min 65535 (l.length - 1) * 2 ^ 48 + e.flags % 32 * 2 ^ 40 + e.pc % 2 ^ 40)
    let s := match s.sameThread c e.slot e.inc, ((s.core c).slot e.slot).occ with
      | none, .reserved t image _ => if t.inc = e.inc then s.reportSaved t.tenant image e.addr aux else s
      | none, _ => s
      | some t, _ =>
        s.setThread c e.slot { t with fpx := if t.fpx.isSome then t.fpx else some ⟨tFPX, e.addr, aux, t.trap.tip⟩ }
    .next s

end Sys2Proof.Machine
end

