-- ==== Sys2Proof/Machine/System.lean ====
section
/-!
DEFINITION. Sys2Proof/Machine/System.lean: software traps and the return from a trap, system registers (R241, R242, R247),
saving and loading a thread (R244 to R246), and core-fatal errors (R248).
-/
namespace Sys2Proof.Machine
open Sys2Proof

/-! ### TRAP, SVCALL, RETT (R247) -/

def execTrap (f : Fields) (s : State) : Out :=
  issue (.trap f) s (fun c k _ s => s.raiseAt c k tSOFTTRAP 0 (w64 f.imm.toNat) s.next)

def execSvcall (f : Fields) (s : State) : Out :=
  issue (.svcall f) s (fun c k _ s => s.raiseAt c k tSOFTTRAP 0 (w64 (2 ^ 62 + f.imm.toNat)) s.next)

/-- RETT: a return to an odd address raises ALIGN, as every control transfer does (R14). -/
def execRett (f : Fields) (s : State) : Out :=
  issue (.rett f) s (fun c k t s =>
    if t.trap.pc.toNat % 2 = 1 then s.raise c k tALIGN t.trap.pc 0 else (s.settle c k).retTrap c k)

/-! ### System registers (R241) -/

/-- TRAPSTAT (R237). -/
def TrapRegs.stat (x : TrapRegs) : Word := w64 ((if x.pk then 2 else 0) + (if x.tip then 1 else 0))

/-- The value of system register `k`, as a thread of core `c` reads it; CYCLE and the missing-cluster masks are tainted. -/
def State.sysRead (s : State) (c : Nat) (t : Thread) (k : Nat) : TWord :=
  let tn := s.tenant t.tenant
  match k with
  | 0 => ⟨t.fpstat, false⟩
  | 1 => ⟨t.trap.stat, false⟩
  | 2 => ⟨t.trap.pc, false⟩
  | 3 => ⟨t.trap.code, false⟩
  | 4 => ⟨t.trap.addr, false⟩
  | 5 => ⟨t.trap.aux, false⟩
  | 6 => ⟨t.trap.scr0, false⟩
  | 7 => ⟨t.trap.scr1, false⟩
  | 8 => ⟨tn.trapvec, false⟩
  | 9 => ⟨tn.ttroot, false⟩
  | 12 => ⟨tn.savebase, false⟩
  | 13 => ⟨tn.savesize, false⟩
  | 14 => ⟨tn.cvquota, false⟩
  | 15 => ⟨(s.cluster (c / 8)).mxwgt, false⟩
  | 16 => ⟨if (s.core c).lthold then 1 else 0, false⟩
  | 17 => ⟨tn.tntctl, false⟩
  | 21 => ⟨nthD t.hbmiss 0 0, true⟩
  | 22 => ⟨nthD t.hbmiss 1 0, true⟩
  | 23 => ⟨nthD t.hbmiss 2 0, true⟩
  | 24 => ⟨nthD t.hbmiss 3 0, true⟩
  | 25 => ⟨w64 s.now, true⟩
  | _ => TWord.zero

def execRdsr (f : Fields) (s : State) : Out :=
  issue (.rdsr f) s (fun c k t s => (s.writeReg c k t f.d f.sd (s.sysRead c t f.imm.toNat)).finish c k)

/-- A SAVESIZE that the register takes (R242). -/
def savesizeOk (v : Word) : Bool := v = 0 || (v.toNat % 4096 = 0 && 0x11000 ≤ v.toNat)

/-- A write of a tenant's register; the bits that are ignored or reserved read as zero. -/
def Tenant.sysWrite (x : Tenant) (k : Nat) (v : Word) : Tenant :=
  match k with
  | 8 => { x with trapvec := w64 (v.toNat / 2 * 2) }
  | 9 => { x with ttroot := v }
  | 12 => { x with savebase := w64 (v.toNat / 4096 * 4096) }
  | 13 => if savesizeOk v then { x with savesize := v } else x
  | 14 => { x with cvquota := v }
  | 17 => { x with tntctl := w64 (v.toNat % 4) }
  | _ => x

/-- A write of a thread's register. -/
def Thread.sysWrite (t : Thread) (k : Nat) (v : Word) : Thread :=
  match k with
  | 0 => { t with fpstat := fpstatWrite t.fpstat v }
  | 1 => { t with trap := { t.trap with pk := v.bits 1 1 = 1, tip := v.bits 0 0 = 1 } }
  | 2 => { t with trap := { t.trap with pc := v } }
  | 3 => { t with trap := { t.trap with code := w64 (v.toNat % 256) } }
  | 4 => { t with trap := { t.trap with addr := v } }
  | 5 => { t with trap := { t.trap with aux := v } }
  | 6 => { t with trap := { t.trap with scr0 := v } }
  | 7 => { t with trap := { t.trap with scr1 := v } }
  | _ => t

/-- The bytes that the page of a virtual address spans: by its leaf, or where it is unmapped by the level of the entry that is
empty; or by the largest of the old translations that caches of the partition hold. -/
def State.pageSpan (s : State) (tn va : Nat) : Nat :=
  let now := match s.walk tn va 6 with
    | .leaf l _ _ => pageSize l
    | .fault _ l _ => pageSize l
  (s.tenant tn).slices.foldl (fun n cl => (s.cluster cl).tlb.foldl (fun n e =>
    if e.va = va / pageSize e.level then max n (pageSize e.level) else n) n) now

/-- A write of XINV (R56): the page leaves every cache of the partition; the write completes once every access that used an old
translation has been performed. -/
def State.xinv (s : State) (c k : Nat) (t : Thread) (va : Nat) (done : State) : State :=
  match t.part with
  | [1, lo, n] => if s.pageBusy t.tenant lo n then s.continue c k t.part else done
  | _ =>
    let n := s.pageSpan t.tenant va
    let lo := va / n * n
    if s.pageBusy t.tenant lo n then (s.invalidatePage t.tenant va).continue c k [1, lo, n] else done.invalidatePage t.tenant va

/-- WRSR. PFRESP and XINV and a setting of LTHOLD wait for their effect. -/
def execWrsr (f : Fields) (s : State) : Out :=
  issue (.wrsr f) s (fun c k t s =>
    let (v, s') := s.readVals (.wrsr f) c k t f
    let n := f.imm.toNat
    if n = 10 then (s'.answerFault t.tenant v.d.v).finish c k
    else if n = 11 then s.xinv c k t (v.d.v.toNat % 2 ^ 57) (s'.finish c k)
    else if n = 16 then
      if v.d.v.bits 0 0 = 0 then
        ((s'.modCore c (fun x => { x with lthold := false })).post [evt .ltholdClear [c]]).finish c k
      else if (s.core c).lthold then s'.finish c k
      else
        (if s.due.any (fun e => e.ev = .ltholdSet && e.arg.nums = [c]) then s else s.post [evt .ltholdSet [c]]).park c k
          .storeSpace
    else
      let s := s'.modThread c k (fun t => t.sysWrite n v.d.v)
      let s := s.modTenant t.tenant (fun x => x.sysWrite n v.d.v)
      let s := if n = 15 then s.modCluster (c / 8) (fun x => { x with mxwgt := w64 (v.d.v.toNat % 2 ^ 32) }) else s
      s.finish c k)

/-! ### The image of a saved thread (R244) -/

/-- The sum of bits `b i` weighed 2^(i·w). -/
def packBits (n w : Nat) (b : Nat → Nat) : Nat := (List.range n).foldl (fun m i => m + b i * 2 ^ (w * i)) 0

def flagN (b : Bool) : Nat := if b then 1 else 0

/-- Tile `n` is owned by the thread. -/
def Core.owns (x : Core) (n : Nat) (tid : Word) : Bool := (x.tile n).owner = some tid

/-- The state word. -/
def State.stateWord (s : State) (c k : Nat) (t : Thread) (mail : Nat) : Nat :=
  let x := s.core c
  let tid := s.tid c k t
  let own := fun n => x.owns n tid
  2 ^ 63 + flagN t.priv * 2 ^ 62
    + packBits 2 1 (fun n => flagN (own n)) * 2 ^ 60
    + packBits 2 1 (fun n => flagN (own n && (x.tile n).poison)) * 2 ^ 58
    + packBits 2 1 (fun n => flagN (own n && (x.tile n).taint)) * 2 ^ 56
    + mail % 256 * 2 ^ 48 + t.window.length * 2 ^ 40 + t.scopes.length * 2 ^ 36 + t.frames.length * 2 ^ 32
    + packBits 8 1 (fun n => flagN (nthD t.ptrs n TWord.zero).t) * 2 ^ 24 + t.locks % 256 * 2 ^ 16

/-- An inline frame as it is saved. -/
def InlineFrame.word (fr : InlineFrame) : Nat :=
  fr.ret % 2 ^ 40 + fr.depth % 8 * 2 ^ 47 + fr.d % 128 * 2 ^ 50 + fr.status % 4 * 2 ^ 57

/-- A segment as a descriptor (R49). -/
def Seg.words (g : Seg) : List TWord := [⟨w64 g.base, false⟩, ⟨w64 (g.rights * 2 ^ 40 + g.limit), false⟩]

def plain (n : Nat) : TWord := ⟨w64 n, false⟩

/-- The words from +0x000 to +0x098. -/
def State.imageHead (s : State) (c k : Nat) (t : Thread) (mail : Nat) (regs : List TWord) : List TWord :=
  let fpx := t.fpx.getD ⟨0, 0, 0, false⟩
  let ovf := t.saovf.getD ⟨0, 0, 0, false⟩
  [⟨s.tid c k t, false⟩, ⟨t.task, false⟩, ⟨t.reply, false⟩, plain t.pc, plain (s.stateWord c k t mail), ⟨t.fpstat, false⟩,
   plain (packBits 64 1 (fun i => flagN (nthD regs i TWord.zero).t)),
   plain (packBits 64 1 (fun i => flagN (nthD regs (64 + i) TWord.zero).t)),
   ⟨t.trap.pc, false⟩, ⟨t.trap.code, false⟩, ⟨t.trap.addr, false⟩, ⟨t.trap.aux, false⟩, ⟨t.trap.stat, false⟩,
   ⟨t.trap.scr0, false⟩, ⟨t.trap.scr1, false⟩,
   plain (flagN t.fpx.isSome * 2 ^ 63 + flagN t.saovf.isSome * 2 ^ 62),
   ⟨fpx.addr, false⟩, ⟨fpx.aux, false⟩, ⟨ovf.addr, false⟩, ⟨ovf.aux, false⟩]

/-- The words of tile `n`: zeros where it is poisoned. -/
def Tile.words (y : Tile) : List TWord :=
  if y.poison then List.replicate 4096 TWord.zero
  else (List.range 128).flatMap (fun i => (packElems 32 (y.row i)).map (fun w => (⟨w64 w, y.taint⟩ : TWord)))

/-- The image: blocks of words with their offsets. -/
def State.image (s : State) (c k : Nat) (t : Thread) (mail : List Msg) : List (Nat × List TWord) :=
  let x := s.core c
  let tid := s.tid c k t
  let regs := (List.range 128).map (fun n => if n < t.top then s.getG c t n else TWord.zero)
  let fr := t.frames.reverse
  let msgs := mail.flatMap (fun m => [⟨m.w0, false⟩, m.w1])
  [(0, s.imageHead c k t mail.length regs), (0xA0, List.replicate 12 TWord.zero),
   (0x100, plain (packBits 4 4 (fun i => nthD t.scopes.reverse i 0))
     :: (List.range 4).map (fun i => match fr[i]? with
       | some f => plain f.word
       | none => TWord.zero)),
   (0x128, List.replicate 11 TWord.zero), (0x180, t.ptrs), (0x200, t.segs.flatMap Seg.words), (0x300, msgs), (0x400, regs)]
    ++ (if x.owns 0 tid then [(0x800, (x.tile 0).words)] else [])
    ++ (if x.owns 1 tid then [(0x8800, (x.tile 1).words)] else [])

/-- The 4 KiB pages of an image that are used: the first, and those of the tiles in it. -/
def imagePages (t0 t1 : Bool) : List Nat :=
  [0] ++ (if t0 then (List.range 8).map (fun i => 4096 * (i + 1)) else []) ++ (if t1 then (List.range 9).map (fun i => 4096 * (i + 8)) else [])

/-! ### CTXSV (R245) -/

/-- A thread of the core is being saved. -/
def Thread.beingSaved (t : Thread) : Bool := t.stopReq = 1 || t.stopReq = 3

/-- The slot that CTXSV may save: another slot of the core, live with that incarnation, not being saved already. -/
def State.saveSlot (s : State) (c k : Nat) (tn : Nat) (id : Word) : Option (Nat × Thread) :=
  let j := tidSlot id
  if tidTenant id ≠ tn || s.tidCore id ≠ some c || id.bits 42 32 ≠ 0 || j = k then none
  else
    match s.thread? c j with
    | some u => if u.inc = tidInc id && !u.beingSaved then some (j, u) else none
    | none => none

def execCtxsv (f : Fields) (s : State) : Out :=
  answered (.ctxsv f) s
    (fun c k t a s => (s.writeReg c k t f.d f.sd ⟨w64 a.code, false⟩).finish c k)
    (fun c k t s =>
      let (v, s') := s.readVals (.ctxsv f) c k t f
      match s.saveSlot c k t.tenant v.d.v with
      | none => (s'.writeReg c k t f.d f.sd ⟨1, false⟩).finish c k
      | some (j, u) =>
        let r := match u.run with
          | .stopped _ => 3
          | _ => if u.stopReq = 2 then 3 else 1
        let s := s'.setThread c j { u with stopReq := r }
        (s.modThread c k (fun t => { t with run := .wait (.save j), want := some (.save j) })).post
          [evt .stopTakesEffect [c, j], evt .contextSaveComplete [c, j]])

/-- The thread that waits for the save of slot `j` goes on with a status. -/
def State.saved (s : State) (c j status : Nat) : State :=
  match (s.core c).slots.find? (fun p => match p.2.occ with
      | .live t => t.run = .wait (.save j)
      | _ => false) with
  | some (k, _) => s.modThread c k (fun t => { t with run := .ready, answer := some ⟨status, TWord.zero, 0⟩ })
  | none => s

/-- A save that fails: the thread resumes where it stopped, unless it had been stopped before or Apex stops it too. -/
def State.saveFails (s : State) (c j status : Nat) : State :=
  let on : Bool := match s.thread? c j with
    | some u => u.stopReq = 1
    | none => false
  let s := s.modThread c j (fun u => { u with stopReq := 0, run := if on then u.resumed' else u.run })
  (if on then s.idleAgain c j else s).saved c j status

/-- Nothing of the thread is left to complete (R245 steps 2 and 3). -/
def State.saveQuiet (s : State) (c j : Nat) (u : Thread) : Bool :=
  let tid := s.tid c j u
  let x := s.core c
  u.ops.isEmpty && !((x.sb ++ x.parked).any (fun e => e.slot = j)) && !s.flights.any (fun f => f.core = c && f.entry.slot = j)
    && !x.lq.any (fun m => (m.tile = 0 && x.owns 0 tid) || (m.tile = 1 && x.owns 1 tid))
    && !s.net.any (fun n => n.msg.dst = tid && n.msg.w0.bits 63 56 = mkMXDONE)

/-- The first page of the image that is not there for a store. -/
def State.savePages (s : State) (tn c j base : Nat) (l : List Nat) : EngineTry :=
  match l with
  | [] => .tr ⟨0, 0, 0⟩
  | a :: r =>
    match s.enginePage tn 6 c j (base + a) 1 with
    | .tr tr => if 2 ≤ Leaf.cl tr.leaf then .declined s else s.savePages tn c j base r
    | e => e

/-- The slot becomes reserved: the image is written, the tiles are released, the granules are cleared and free. -/
def State.reserve (s : State) (c j : Nat) (u : Thread) (mail : List Msg) : State :=
  let base := (u.seg 7).base
  let s := (s.image c j u mail).foldl (fun s b => s.writeVa u.tenant (base + b.1) b.2) s
  let s := s.releaseTiles c (s.tid c j u)
  let s := s.modCore c (fun x => x.clearGran u.window)
  let u' := { u.afresh with mail := mail, held := [], window := [], fpx := none, saovf := none, stopReq := 0, run := .ready,
                            watch := none, brk := none, resumed := false }
  (s.setOcc c j (.reserved u' base mail.length)).post [evt .admission [c]]

/-- CONTEXT_SAVE_COMPLETE: once the thread has stopped and nothing of it is outstanding, its s7 and messages are checked and
the image is written (R245 steps 4 to 6). -/
def execContextSaveComplete (s : State) : Out :=
  let c := s.argN 0
  let j := s.argN 1
  match s.thread? c j with
  | none => .next s
  | some u =>
    if !u.beingSaved then .next s
    else
      match u.run with
      | .stopped _ =>
        if !s.saveQuiet c j u then .next (s.again .contextSaveComplete)
        else
          let g := u.seg 7
          let mail := u.mail ++ u.held
          let tid := s.tid c j u
          if g.limit < 0x10800 || !g.has 'W' || g.base % 4096 ≠ 0 then .next (s.saveFails c j 2)
          else if 16 < mail.length then .next (s.saveFails c j 3)
          else
            (match s.savePages u.tenant c j g.base (imagePages ((s.core c).owns 0 tid) ((s.core c).owns 1 tid)) with
             | .wait s => .next (s.again .contextSaveComplete)
             | .declined s => .next (s.saveFails c j 2)
             | .tr _ => .next ((s.reserve c j u mail).saved c j 0))
      | _ => .next (s.again .contextSaveComplete)

/-! ### CTXLD (R246) -/

/-- What reading an image's pages gives. -/
inductive ImageTry where
  | ready
  | declined
  | bad
  | parked (s : State)

/-- The pages of an image are there for slot `k` to read: ORDINARY pages (else as if declined), no line poisoned. -/
def State.imageTry (s : State) (c k : Nat) (t : Thread) (base : Nat) (l : List Nat) : ImageTry :=
  match l with
  | [] => .ready
  | a :: r =>
    match s.pageFor c k t (base + a) 0 with
    | .parked s => .parked s
    | .declined _ => .declined
    | .tr tr =>
      if 2 ≤ Leaf.cl tr.leaf then .declined
      else if (List.range 32).any (fun i => s.poisoned (tr.pa / 4096 * 4096 + 128 * i)) then .bad
      else s.imageTry c k t base r

/-- Word at offset `o` of an image. -/
def State.imageWord (s : State) (tn base o : Nat) : TWord := s.peekVa tn (base + o)
def State.imageN (s : State) (tn base o : Nat) : Nat := (s.peekVa tn (base + o)).v.toNat

/-- The granule counts of the scopes, outermost first. -/
def State.imageScopes (s : State) (tn base sd : Nat) : List Nat :=
  (List.range sd).map (fun i => bitsOf (s.imageN tn base 0x100) (4 * i + 3) (4 * i))

/-- An inline frame of an image is well formed. -/
def frameOk' (n : Nat) : Bool :=
  bitsOf n 63 59 = 0 && bitsOf n 46 40 = 0 && (bitsOf n 58 57 = 1 || bitsOf n 58 57 = 2) && bitsOf n 49 47 ≤ 4 && n % 2 = 0

/-- A descriptor of an image is well formed: its reserved bits, and the check of SEGLD (R49, R66). -/
def descOk (w0 w1 : Word) : Bool := w0.bits 63 57 = 0 && w1.bits 63 45 = 0 && segCheck w0 w1 = none

/-- An image that CTXLD accepts (status 1 otherwise). `fresh` says that it is to be a new thread. -/
def State.imageOk (s : State) (tn base slot : Nat) (fresh : Bool) : Bool :=
  let n := s.imageN tn base
  let st := n 0x20
  let gran := bitsOf st 47 40
  let sd := bitsOf st 39 36
  let id := bitsOf st 35 32
  let sc := s.imageScopes tn base sd
  bitsOf st 63 63 = 1 && bitsOf st 15 0 = 0 && 1 ≤ gran && gran ≤ 16 && sd ≤ 4 && id ≤ 4 && bitsOf st 55 48 ≤ 16
    && n 0x18 % 2 = 0 && bitsOf (n 0x08) 52 49 = 0 && bitsOf (n 0x28) 63 10 = 0
    && bitsOf (n 0x48) 63 8 = 0 && bitsOf (n 0x60) 63 2 = 0 && bitsOf (n 0x78) 61 0 = 0
    && (List.range 12).all (fun i => n (0xA0 + 8 * i) = 0) && (List.range 11).all (fun i => n (0x128 + 8 * i) = 0)
    && bitsOf (n 0x100) 63 (4 * sd) = 0 && sc.all (fun g => 1 ≤ g) && sc.sum < gran
    && (List.range 4).all (fun i => if i < id then frameOk' (n (0x108 + 8 * i)) else n (0x108 + 8 * i) = 0)
    && (List.range 8).all (fun i => bitsOf (n (0x180 + 8 * i)) 40 21 = 0)
    && (List.range 8).all (fun i => descOk (s.imageWord tn base (0x200 + 16 * i)).v (s.imageWord tn base (0x208 + 16 * i)).v)
    && (!fresh || (bitsOf st 61 60 = 0 && bitsOf st 55 48 = 0 && bitsOf st 23 16 = 0))
    && (slot ≠ 63 || gran = 4)

/-- The mailbox of an image: the words from memory, and what the core kept of each message. -/
def State.imageMail (s : State) (tn base n : Nat) (dst : Word) (kept : List Msg) : List Msg :=
  (List.range n).map (fun i =>
    let w0 := (s.imageWord tn base (0x300 + 16 * i)).v
    let w1 := s.imageWord tn base (0x308 + 16 * i)
    match kept[i]? with
    | some m => { m with w0 := w0, w1 := w1 }
    | none => ⟨dst, 0, w0, w1, none, 0, 0⟩)

/-- The inline frames of an image, innermost first; whether gd names a special operand is not in the image: the core keeps it
for a frame that is still the same. -/
def State.imageFrames (s : State) (tn base id : Nat) (kept : List InlineFrame) : List InlineFrame :=
  ((List.range id).map (fun i =>
    let n := s.imageN tn base (0x108 + 8 * i)
    let d := bitsOf n 56 50
    let sp := match kept.reverse[i]? with
      | some f => f.sp && f.d = d
      | none => false
    (⟨bitsOf n 39 0, bitsOf n 49 47, d, sp, bitsOf n 58 57⟩ : InlineFrame))).reverse

/-- A pending report of an image. -/
def State.imageTrap (s : State) (tn base bit o code : Nat) : Option Trap :=
  if s.imageN tn base 0x78 / 2 ^ bit % 2 = 1 then
    some ⟨code, (s.imageWord tn base o).v, (s.imageWord tn base (o + 8)).v, false⟩
  else none

/-- A thread with every field of R244 loaded from an image, in a window of granules `w`. -/
def State.loadThread (s : State) (t : Thread) (tn base : Nat) (w : List Nat) (dst : Word) : Thread :=
  let n := s.imageN tn base
  let v := fun o => (s.imageWord tn base o).v
  let st := n 0x20
  let sc := s.imageScopes tn base (bitsOf st 39 36)
  let t := { t with
    pc := n 0x18, priv := bitsOf st 62 62 = 1, window := w, base := w.length - sc.sum, scopes := sc.reverse,
    frames := s.imageFrames tn base (bitsOf st 35 32) t.frames,
    ptrs := (List.range 8).map (fun i => ⟨v (0x180 + 8 * i), bitsOf st 31 24 / 2 ^ i % 2 = 1⟩),
    segs := (List.range 8).map (fun i => segOf (v (0x200 + 16 * i)) (v (0x208 + 16 * i))),
    fpstat := v 0x28,
    trap := ⟨v 0x40, v 0x48, v 0x50, v 0x58, bitsOf (n 0x60) 1 1 = 1, bitsOf (n 0x60) 0 0 = 1, v 0x68, v 0x70⟩,
    task := v 0x08, reply := v 0x10, mail := s.imageMail tn base (bitsOf st 55 48) dst t.mail, held := [],
    fpx := s.imageTrap tn base 63 0x80 tFPX, saovf := s.imageTrap tn base 62 0x90 tSAOVF, locks := bitsOf st 23 16,
    stopReq := 0, lastRun := s.now }
  { t.afresh with run := t.resumed' }

/-- The registers of an image, those below the window top. -/
def State.imageRegs (s : State) (tn base count : Nat) : List TWord :=
  (List.range count).map (fun i =>
    ⟨(s.imageWord tn base (0x400 + 8 * i)).v, s.imageN tn base (if i < 64 then 0x30 else 0x38) / 2 ^ (i % 64) % 2 = 1⟩)

/-- Tile `n` of an image. -/
def State.imageTile (s : State) (tn base n : Nat) (tid : Word) : Tile :=
  let st := s.imageN tn base 0x20
  let p : Bool := bitsOf st 59 58 / 2 ^ n % 2 = 1
  let el : SMap Nat := ((List.range 8192).map (fun i =>
    (i, (s.imageN tn base ((if n = 0 then 0x800 else 0x8800) + 8 * (i / 2))) / 2 ^ (32 * (i % 2)) % 2 ^ 32))).filter
      (fun q => q.2 ≠ 0)
  { owner := some tid, rel := none, poisonI := p, poison := p, taint := bitsOf st 57 56 / 2 ^ n % 2 = 1, el := el }

/-- The tiles an image owns. -/
def ownedTiles (st : Nat) : List Nat := (List.range 2).filter (fun n => bitsOf st 61 60 / 2 ^ n % 2 = 1)

/-- Put a loaded thread into its slot: window, registers and tiles. One that is new is admitted under its launch (R223); a delegate
that was idle waits for its next body again (R270). -/
def State.install (s : State) (c slot : Nat) (t : Thread) (inc tn base : Nat) (fresh : Bool) : State :=
  let st := s.imageN tn base 0x20
  let gran := bitsOf st 47 40
  let (w, x) := if slot = 63 then ([252, 253, 254, 255], (s.core c).clearGran [252, 253, 254, 255])
    else (s.core c).takeGran gran
  let tid := s.tidAt tn c slot inc
  let t' := { s.loadThread t tn base w tid with inc := inc, tenant := tn }
  let regs := s.imageRegs tn base (8 * w.length)
  let s := (s.setCore c { x with slots := SMap.set x.slots slot ⟨inc, .live t'⟩ }).setGs c t' 0 regs
  let s := (ownedTiles st).foldl (fun s n => s.modCore c (fun x => x.setTile n (s.imageTile tn base n tid))) s
  let s := if fresh then s.modLaunch tn (taskLaunch t'.task) (fun la => { la with admitted := (la.admitted + 1) % 2 ^ 64 }) else s
  (s.idleAgain c slot).post [evt .admission [c]]

/-- The end of a discarded thread (R246): as EXIT ends one, but the image stays unread and nothing is sent. -/
def State.discardThread (s : State) (c slot : Nat) (t : Thread) : State :=
  (s.setOcc c slot (.live { t with mail := [], held := [], window := [] })).endThread c slot true

def execCtxld (f : Fields) (s : State) : Out :=
  issue (.ctxld f) s (fun c k t s =>
    let (v, s') := s.readVals (.ctxld f) c k t f
    let w := v.d.v
    let slot := w.bits 11 6
    let base := w.bits 56 12 * 4096
    let put := fun (s : State) (n : Nat) => (s.writeReg c k t f.d f.sd ⟨w64 n, false⟩).finish c k
    let x := s.core c
    if w.bits 63 57 ≠ 0 || w.bits 5 1 ≠ 0 then put s' 1
    else
      let kept : Option Thread := match (x.slot slot).occ with
        | .reserved u image _ => if image = base then some u else none
        | _ => none
      let vacant : Bool := decide ((x.slot slot).occ = .vacant)
      if w.bits 0 0 = 1 then
        match kept with
        | some u => put (s'.discardThread c slot u) 0
        | none => put s' 2
      else if kept.isNone && !vacant then put s' 2
      else if !x.sb.isEmpty || !x.parked.isEmpty || s.flights.any (fun y => y.core = c && y.stage ≠ 2) then
        s.park c k .storeSpace
      else
        match s.imageTry c k t base [0] with
        | .parked s => s
        | .declined => put s' 4
        | .bad => put s' 1
        | .ready =>
          let tn := t.tenant
          if !s.imageOk tn base slot vacant then put s' 1
          else if vacant && s.imageN tn base 0 ≠ 0 then put s' 2
          else
            let tiles := ownedTiles (s.imageN tn base 0x20)
            match s.imageTry c k t base (imagePages (tiles.contains 0) (tiles.contains 1)) with
            | .parked s => s
            | .declined => put s' 4
            | .bad => put s' 1
            | .ready =>
              let gran := bitsOf (s.imageN tn base 0x20) 47 40
              if tiles.any (fun n => (x.tile n).owner ≠ none) then put s' 3
              else if tiles.any (fun n => (x.tile n).rel ≠ none || x.lq.any (fun m => m.tile = n && !m.fin)) then s.park c k .storeSpace
              else if slot ≠ 63 && (x.freeGran.length < gran || x.scopeAhead k t.since) then s.park c k (.granules gran)
              else
                match kept with
                | some u => put (s'.install c slot u u.inc u.tenant base false) 0
                | none =>
                  let s' := if slot = 63 then s'.modCore c (fun x => { x with mx := x.mx.map (fun m => { m with full := false }) })
                    else s'
                  put (s'.install c slot (Thread.new tn 0 ⟨0, [], 0, 0, 0, 0, false, 0⟩ [] [] s.now) (nextInc (x.slot slot).inc) tn
                    base true) 0)

/-! ### Core-fatal errors (R248) -/

/-- The row of a STREAM region that a virtual address names becomes poisoned. -/
def State.poisonRow (s : State) (tn va : Nat) : State :=
  match (s.tenant tn).streamAt va with
  | some (i, g) => s.setRow tn i (g.row? va) { s.rowOf tn i (g.row? va) with p := true }
  | none => s

/-- Poison the line an entry of core `c` would have written; the row, where it is an add. -/
def State.poisonEntry (s : State) (c : Nat) (e : SBEntry) : State :=
  if e.loc then s.modCore e.core (fun x => { x with win := x.win.setPoison (e.addr / 128) true })
  else
    match e.kind, s.ownerOf (c / 8) with
    | .streamAdd _ _, some tn => s.poisonRow tn e.va
    | _, _ => (if e.sw then s else s.gather (e.addr / 128)).spoilLine (e.addr / 128)

/-- The destination lines of an abandoned copy become poisoned; one that lies in a STREAM region poisons its row. -/
def State.poisonPiece (s : State) (m : TUCmd) (n : Nat) : State :=
  let tn := tidTenant m.owner
  let j := n / m.perRow
  match (m.rowPieces j)[n % m.perRow]? with
  | none => s
  | some (o, _) =>
    match m.dkind with
    | 0 =>
      let va := (rowAddr m.dstBase m.dstride j o).toNat % 2 ^ 57
      (match s.translate tn va 5 with
       | .error _ => s
       | .ok tr =>
         if Leaf.cl tr.leaf = 2 then s.poisonRow tn va
         else (if Leaf.sw tr.leaf then s else s.gather (tr.pa / 128)).spoilLine (tr.pa / 128))
    | 1 =>
      (match s.memL tn (rowPtr m.dst m.dstride j o) 1 with
       | .error _ => s
       | .ok (tc, a) => s.modCore tc (fun x => { x with win := x.win.setPoison (a / 128) true }))
    | _ =>
      let off := (rowAddr m.dstBase m.dstride j o).toNat
      match s.walkMap tn (hRegion m.hdst) m.depoch (off / 4096) with
      | none => s
      | some fr => (s.gather ((4096 * fr + off % 4096) / 128)).spoilLine ((4096 * fr + off % 4096) / 128)

def State.poisonCopy (s : State) (m : TUCmd) : State :=
  if m.checked then m.pieces.foldl (fun s n => s.poisonPiece m n) s else s

/-- The threads of a core: those in its slots, saved ones included. -/
def Core.lost (x : Core) : List (Nat × Thread) :=
  x.slots.filterMap (fun p => match p.2.occ with
    | .live t => some (p.1, t)
    | .reserved t _ _ => some (p.1, t)
    | .vacant => none)

/-- A core stops at once: its entries and copies leave poison, its threads are lost and their tiles are released. A launch whose id
a lost thread carried does not end (R223). -/
def State.stopCore (s : State) (c : Nat) : State :=
  let x := s.core c
  let fl := (s.flights.filter (fun f => f.core = c && f.stage ≠ 2)).map (fun f => f.entry)
  let s := { s with flights := s.flights.filter (fun f => f.core ≠ c) }
  let s := (fl ++ x.sb ++ x.parked).foldl (fun s e => s.poisonEntry c e) s
  let s := x.tu.foldl (fun s m => s.poisonCopy m) s
  let s := s.modCore c (fun y => { y with lqWait := [] })
  let s := x.lost.foldl (fun s p => (s.modLaunch p.2.tenant (taskLaunch p.2.task) (fun la => { la with lost := true })).releaseTiles c
    (s.tid c p.1 p.2)) s
  s.modCore c (fun y => { y with
    sb := [], parked := [], tu := [], dead := true, moving := false,
    slots := y.slots.map (fun p => (p.1, { p.2 with occ := .vacant })) })

/-- CORE_FATAL_ERROR: the core stops, and each tenant with threads on it is told how many are lost. -/
def execCoreFatalError (s : State) : Out :=
  let c := s.argN 0
  let x := s.core c
  if x.dead then .next s
  else
    .next (s.tenants.foldl (fun s p =>
      let l := x.lost.filter (fun q => q.2.tenant = p.1)
      if l.isEmpty then s
      else s.faultRec p.1 (recWord 8 (s.destWord p.1 c).toNat) (w64 l.length)) (s.stopCore c))

/-- The operations, stores and commands that wait for a dead core: those of other cores, and engine commands, that name its
window. -/
def State.waitingFor (s : State) (c : Nat) : List Nat :=
  let names := fun (tn : Nat) (p : Word) => s.coreAt tn (ptrY p) (ptrX p) (ptrC p) = some c
  (s.flights.filter (fun f => f.entry.loc && f.entry.core = c && f.stage ≠ 2)).map (fun f => f.id)
    ++ s.cores.flatMap (fun p =>
        p.2.slots.flatMap (fun q => match q.2.occ with
          | .live t => (t.ops.filter (fun o => (o.space = .loc && o.acc.any (fun a => a.core = c && !a.done))
              || (s.panelCores t.tenant o).contains c)).map (fun o => o.id)
          | _ => [])
        ++ (p.2.tu.filter (fun m => m.checked && ((m.skind = 1 && names (tidTenant m.owner) m.src)
              || (m.dkind = 1 && names (tidTenant m.owner) m.dst)))).map (fun m => m.id)
        ++ (p.2.lq.filter (fun m => !m.fin && m.began ≠ 0 && ((m.aform = 1 && names (tidTenant m.owner) m.aPtr)
              || (m.kind = 0 && !m.bGlob && names (tidTenant m.owner) m.bPtr)))).map (fun m => m.id))

/-- A thread whose local access waits for core `c` at the instruction takes PTRRANGE as it issues again. -/
def Core.refuseWaiting (x : Core) (c : Nat) : Core :=
  { x with slots := x.slots.map (fun q => (q.1, match q.2.occ with
      | .live t => if t.run = .wait (.pool c) then { q.2 with occ := .live { t with run := .wait (.lost c), want := some (.lost c) } }
          else q.2
      | _ => q.2)) }

/-- APEX_CORE_REPAIR: a dead core comes back with every slot vacant and its pool plan reapplied; what its CACHE banks hold is
written back, its window is empty and its counters are 0. What waited for its window is refused. Its Lattice, and the work that
waits for its slots, stay. -/
def execApexCoreRepair (s : State) : Out :=
  let c := s.argN 0
  if !(s.core c).dead || (s.core c).fenced then .next s
  else
    let x := s.core c
    let late := s.waitingFor c
    let s := s.flushBanks c
    let s := (s.cores.map Prod.fst).foldl (fun s d => s.modCore d (fun x => x.refuseWaiting c)) s
    let s := s.setCore c
      { Core.reset with
        slots := x.slots, banks := x.plan, plan := x.plan, pubWin := 131072 * (banksIn x.plan .scratch).length, lq := x.lq,
        tiles := x.tiles, wc := x.wc, outbox := x.outbox, spawns := x.spawns, launch := x.launch, late := late,
        inp := x.inp.map (fun p => { InPort.reset with heads := p.heads }) }
    .next (s.post (evt .admission [c] :: x.inq.zipIdx.flatMap (fun q => q.1.reqs.map (fun r => evt .creditRequest [c, q.2, r.1, r.2]))))

/-- APEX_CORE_FENCE: a dead core leaves the partition; its published window size is 0; a locked or
running TDI goes to ERROR (R334). -/
def execApexCoreFence (s : State) : Out :=
  let c := s.argN 0
  if (s.core c).dead then
    let s := s.modCore c (fun x => { x with fenced := true, pubWin := 0 })
    match s.ownerOf (c / 8) with
    | some tn =>
      .next (if (s.tenant tn).tdi = 1 || (s.tenant tn).tdi = 2 then s.post [evt .tdiError [tn]] else s)
    | none => .next s
  else .next s

end Sys2Proof.Machine
end

