-- ==== Sys2Proof/Machine/Debug.lean ====
section
/-!
DEFINITION. Sys2Proof/Machine/Debug.lean: BRK (R311), TNTRD and TNTCLR (R305), PERFRD (R313), and page hash trees (R306,
R307).
-/
namespace Sys2Proof.Machine
open Sys2Proof

/-- BRK (R311): in debug mode the thread stops at the boundary after it. -/
def execBrk (f : Fields) (s : State) : Out :=
  issue (.brk f) s (fun c k t s =>
    let s := s.finish c k
    if (s.tenant t.tenant).tntctl.bits 1 1 = 1 then s.modThread c k (fun t => { t with brk := some f.imm.toNat }) else s)

def execTntrd (f : Fields) (s : State) : Out := compute (.tntrd f) f s (fun v => ⟨if v.a.t then 1 else 0, false⟩)

/-- TNTCLR: its privilege is checked before it runs. -/
def execTntclr (f : Fields) (s : State) : Out :=
  issue (.tntclr f) s (fun c k t s => (s.setG c t f.d ⟨(s.getG c t f.d).v, false⟩).finish c k)

def execPerfrd (f : Fields) (s : State) : Out :=
  issue (.perfrd f) s (fun c k t s =>
    (s.writeReg c k t f.d f.sd ⟨w64 (SMap.get (s.core c).perf f.imm.toNat 0), true⟩).finish c k)

/-! ### SHA-256 (R306 names it; FIPS 180-4) -/

/-- The largest number of `b` more bits below `acc` whose power `k` is at most `n`. -/
def rootDown (k n b acc : Nat) : Nat :=
  match b with
  | 0 => acc
  | m + 1 => rootDown k n m (if (acc + 2 ^ m) ^ k ≤ n then acc + 2 ^ m else acc)

/-- The first 32 bits of the fraction of the `k`-th root of a number below 1,024. -/
def rootFraction (k p : Nat) : Nat := rootDown k (p * 2 ^ (32 * k)) 38 0 % 2 ^ 32

/-- The first 64 primes. -/
def shaPrimes : List Nat :=
  (List.range 312).filter (fun p => 2 ≤ p && (List.range 18).all (fun d => d < 2 || p ≤ d || p % d ≠ 0))

/-- The round constants, from cube roots, and the initial hash value, from square roots. -/
def shaK : List Nat := shaPrimes.map (rootFraction 3)
def shaInit : List Nat := (shaPrimes.take 8).map (rootFraction 2)

/-- Rotate right, within 32 bits. -/
def rotr (x n : Nat) : Nat := x / 2 ^ n + x * 2 ^ (32 - n) % 2 ^ 32

def xor3 (a b c : Nat) : Nat := Nat.xor (Nat.xor a b) c

/-- The message schedule: `n` more words after the sixteen of a block. `l` holds the last sixteen, newest first. -/
def shaSchedule (n : Nat) (l : List Nat) : List Nat :=
  match n with
  | 0 => []
  | m + 1 =>
    let a := nthD l 14 0
    let b := nthD l 1 0
    let w := (nthD l 15 0 + xor3 (rotr a 7) (rotr a 18) (a / 2 ^ 3) + nthD l 6 0
      + xor3 (rotr b 17) (rotr b 19) (b / 2 ^ 10)) % 2 ^ 32
    w :: shaSchedule m (w :: l.take 15)

/-- One round on the eight working variables. -/
def shaRound (v : List Nat) (kw : Nat × Nat) : List Nat :=
  match v with
  | [a, b, c, d, e, f, g, h] =>
    let s1 := xor3 (rotr e 6) (rotr e 11) (rotr e 25)
    let ch := Nat.xor (Nat.land e f) (Nat.land (2 ^ 32 - 1 - e) g)
    let t1 := h + s1 + ch + kw.1 + kw.2
    let s0 := xor3 (rotr a 2) (rotr a 13) (rotr a 22)
    let maj := xor3 (Nat.land a b) (Nat.land a c) (Nat.land b c)
    [(t1 + s0 + maj) % 2 ^ 32, a, b, c, (d + t1) % 2 ^ 32, e, f, g]
  | _ => v

/-- A big-endian number of bytes. -/
def fromBe (l : List Nat) : Nat := l.foldl (fun n b => 256 * n + b) 0

/-- One 64-byte block. -/
def shaBlock (h : List Nat) (b : List Nat) : List Nat :=
  let w := (List.range 16).map (fun i => fromBe ((b.drop (4 * i)).take 4))
  let v := (shaK.zip (w ++ shaSchedule 48 w.reverse)).foldl shaRound h
  (h.zip v).map (fun p => (p.1 + p.2) % 2 ^ 32)

/-- Whole blocks, with `fuel` of them at most. -/
def shaBlocks (fuel : Nat) (h : List Nat) (l : List Nat) : List Nat :=
  match fuel with
  | 0 => h
  | n + 1 => if l.isEmpty then h else shaBlocks n (shaBlock h (l.take 64)) (l.drop 64)

/-- The 32 bytes of the SHA-256 of a list of bytes. -/
def sha256 (l : List Nat) : List Nat :=
  let n := l.length
  let p := l ++ [0x80] ++ List.replicate ((119 - n % 64) % 64) 0
    ++ (List.range 8).map (fun i => 8 * n / 256 ^ (7 - i) % 256)
  (shaBlocks (p.length / 64) shaInit p).flatMap (fun w => (List.range 4).map (fun i => w / 256 ^ (3 - i) % 256))

/-! ### Hash jobs (R306) -/

/-- The smallest power of two that is at least `n`. -/
def treeLeaves (n : Nat) : Nat := if n ≤ 1 then 1 else 2 ^ (Nat.log2 (n - 1) + 1)

/-- Bytes of a tree over `n` units. -/
def treeBytes (n : Nat) : Nat := 32 * (2 * treeLeaves n - 1)

/-- The 4 KiB pieces of the 64 KiB unit at a virtual address, each as a job reads it: none where one cannot be hashed. -/
def State.hashPieces (s : State) (tn va : Nat) : Option (List Tr) :=
  (List.range 16).mapM (fun i =>
    match s.translate tn (va + 4096 * i) 4 with
    | .error _ => none
    | .ok tr => if Leaf.h tr.leaf || Leaf.cl tr.leaf ≠ 0 then none else some tr)

/-- The leaf of a unit, and whether it met poison. -/
def State.hashLeaf (s : State) (tn va : Nat) : List Nat × Bool :=
  let bad := List.replicate 32 0xFF
  match s.hashPieces tn va with
  | none => (bad, false)
  | some l =>
    if l.any (fun tr => (List.range 32).any (fun i => s.poisoned (tr.pa + 128 * i))) then (bad, true)
    else
      (sha256 (l.flatMap (fun tr =>
        (List.range 4096).map (fun i => (s.readHome (Leaf.sw tr.leaf) (tr.pa + i) 1).v.toNat))), false)

/-- The levels of a tree above a level of nodes, the root's level first. -/
def hashLevels (fuel : Nat) (l : List (List Nat)) : List (List (List Nat)) :=
  match fuel with
  | 0 => [l]
  | n + 1 =>
    if l.length ≤ 1 then [l]
    else
      hashLevels n ((List.range (l.length / 2)).map (fun i => sha256 (nthD l (2 * i) [] ++ nthD l (2 * i + 1) []))) ++ [l]

/-- The nodes of a tree, 1 to 2N − 1, each of 32 bytes. -/
def hashTree (leaves : List (List Nat)) : List (List Nat) := (hashLevels 21 leaves).flatten

/-- Pending adds of the units are applied before they are read. -/
def State.hashAdds (s : State) (tn va n : Nat) : State :=
  (List.range (16 * n)).foldl (fun s i => match s.translate tn (va + 4096 * i) 4 with
    | .ok tr => s.applyAdds tr.pa 4096
    | .error _ => s) s

/-- A job waits: a line that it reads or writes is in a transition at its home, or one that it writes is pinned (R178) or lies on a
page under migration (R60). -/
def State.hashWaits (s : State) (tn : Nat) (j : HashJob) : Bool :=
  let lines := fun (va n acc : Nat) (p : Tr → Nat → Bool) => (List.range n).any (fun i => match s.translate tn (va + 128 * i) acc with
    | .ok tr => p tr (tr.pa / 128)
    | .error _ => false)
  lines j.va (512 * j.n) 4 (fun _ l => s.lineBusy l)
    || lines j.out ((treeBytes j.n + 127) / 128) 5 (fun tr l => Leaf.wb tr.leaf || s.lineBusy l || s.pinned l)

/-- Write bytes, eight at a time, at a virtual address; a line that is written whole loses its poison. -/
def State.putBytesVa (s : State) (tn va : Nat) (l : List Nat) : State :=
  (List.range ((l.length + 7) / 8)).foldl (fun s i =>
    match s.translate tn (va + 8 * i) 5 with
    | .error _ => s
    | .ok tr =>
      let whole : Bool := (va + 8 * i) % 128 = 0 && 8 * i + 128 ≤ l.length
      let s := if whole then { s with mem := s.mem.setPoison (tr.pa / 128) false } else s
      s.writeHome (Leaf.sw tr.leaf) tr.pa 8 ⟨w64 (fromLe ((l.drop (8 * i)).take 8)), false⟩) s

/-- The jobs of a die, and one of them. -/
def State.jobs (s : State) (d : Nat) : List HashJob := SMap.get s.hashes d []
def State.setJobs (s : State) (d : Nat) (l : List HashJob) : State := { s with hashes := SMap.set s.hashes d l }

/-- HASH_JOB_COMPLETE: the whole tree is written and the issuing thread is told. -/
def execHashJobComplete (s : State) : Out :=
  let d := s.argN 0
  match (s.jobs d).find? (fun j => j.id = s.argN 1) with
  | none => .next s
  | some j =>
    if !j.busy then .next s
    else if s.hashWaits (tidTenant j.owner) j then .next (s.again .hashJobComplete)
    else
      let tn := tidTenant j.owner
      let s := s.hashAdds tn j.va j.n
      let ls := (List.range j.n).map (fun i => s.hashLeaf tn (j.va + 65536 * i))
      let tree := hashTree (ls.map Prod.fst ++ List.replicate (treeLeaves j.n - j.n) (List.replicate 32 0))
      let s := s.putBytesVa tn j.out tree.flatten
      let n := j.count + 1
      let s := s.setJobs d (if j.period.isNone then (s.jobs d).filter (fun x => x.id ≠ j.id)
        else (s.jobs d).map (fun x => if x.id = j.id then { x with busy := false, count := n } else x))
      let root := w64 (fromLe ((tree.headD []).take 8))
      .next (s.engineMsg ((s.tidCore j.owner).getD 0) j.owner j.owner mkNOTIFY (if ls.any Prod.snd then 0x10 else 0)
        (n % 65536) ⟨root, false⟩)

/-- HASH_PERIODIC_TIMER: an interval expires; a job starts unless the previous tree is still to be written. -/
def execHashPeriodicTimer (s : State) : Out :=
  let d := s.argN 0
  match (s.jobs d).find? (fun j => j.id = s.argN 1) with
  | none => .next s
  | some j =>
    match j.period with
    | none => .next s
    | some p =>
      if s.now < j.next then .next (s.again .hashPeriodicTimer)
      else
        let s := s.setJobs d ((s.jobs d).map (fun x =>
          if x.id = j.id then { x with busy := true, next := j.next + 2 ^ 24 * (p + 1) } else x))
        .next ((if j.busy then s else s.post [evt .hashJobComplete [d, j.id]]).again .hashPeriodicTimer)

/-! ### PGHASH (R307) -/

/-- Every page of the output area is ORDINARY device memory that can be written. -/
def State.hashOutOk (s : State) (tn va n : Nat) : Bool :=
  (List.range ((va % 4096 + n + 4095) / 4096)).all (fun i =>
    match s.translate tn (va / 4096 * 4096 + 4096 * i) 5 with
    | .ok tr => !Leaf.h tr.leaf && Leaf.cl tr.leaf = 0
    | .error _ => false)

/-- The die whose PV-M owns the jobs of an address: that of the first unit's frame, or of the issuing core where it has none. -/
def State.hashDie (s : State) (c tn va : Nat) : Nat :=
  match s.translate tn va 4 with
  | .ok tr => if hostBase ≤ tr.pa then dieOf (c / 8) else tr.pa / 2 ^ 38 % 4
  | .error _ => dieOf (c / 8)

def execPghash (f : Fields) (s : State) : Out :=
  issue (.pghash f) s (fun c k t s =>
    let w := (s.getG c t f.d).v
    let off := gOffset (s.getG c t f.a).v f.imm
    let out := (s.getG c t (f.d + 1)).v.toNat
    let g := t.seg f.hi
    let op := w.bits 63 62
    let n := w.bits 31 0
    let va := vaOf t f.hi off % 2 ^ 57
    let put := fun (s : State) (st : Nat) => (s.setG c t f.d ⟨w64 st, false⟩).finish c k
    let d := s.hashDie c t.tenant va
    if op = 3 || w.bits 61 40 ≠ 0 || va % 65536 ≠ 0 || (op ≠ 2 && (out % 64 ≠ 0 || n = 0 || 2 ^ 20 < n)) || (op = 2 && n ≠ 0)
    then put s 1
    else if op = 2 then
      let mine := fun (j : HashJob) => tidTenant j.owner = t.tenant && j.va = va && j.period.isSome
      if !s.hashes.any (fun p => p.2.any mine) then put s 3
      else
        put { s with hashes := s.hashes.map (fun p =>
          (p.1, (p.2.filter (fun j => !(mine j && !j.busy))).map (fun j => if mine j then { j with period := none } else j))) } 0
    else if off + 65536 * n > g.limit || out + treeBytes n > g.limit || !g.has 'R' || !g.has 'W'
        || !s.hashOutOk t.tenant (vaOf t f.hi out % 2 ^ 57) (treeBytes n) then put s 2
    else if op = 1 && 8 ≤ ((s.jobs d).filter (fun j => j.period.isSome)).length then put s 3
    else
      let (i, s) := s.fresh
      let j : HashJob :=
        { id := i, owner := s.tid c k t, va := va, out := vaOf t f.hi out % 2 ^ 57, n := n,
          period := if op = 1 then some (w.bits 39 32) else none, count := 0, busy := op = 0,
          next := s.now + 2 ^ 24 * (w.bits 39 32 + 1) }
      put ((s.setJobs d (s.jobs d ++ [j])).post
        [evt (if op = 1 then .hashPeriodicTimer else .hashJobComplete) [d, i]]) 0)

end Sys2Proof.Machine
end

