-- ==== Sys2Proof/Machine/Rings.lean ====
section
/-!
DEFINITION. Sys2Proof/Machine/Rings.lean: the doorbell pages (R315), submission (R316, R317), the record rings (R318) and host
access to device memory (R319).
-/
namespace Sys2Proof.Machine
open Sys2Proof

/-! ### Rings 0 to 3, the launch queues, and 4, the send ring -/

def Tenant.ring (t : Tenant) (q : Nat) : Ring := if q < 4 then nthD t.lq q Ring.reset else t.fs
def Tenant.setRing (t : Tenant) (q : Nat) (r : Ring) : Tenant :=
  if q < 4 then { t with lq := setNth t.lq q r } else { t with fs := r }
def State.modRing (s : State) (tn q : Nat) (g : Ring → Ring) : State := s.modTenant tn (fun t => t.setRing q (g (t.ring q)))

/-- The event in which an entry of a ring is taken. -/
def takeEvent (tn q : Nat) : Event := if q < 4 then evt .launchEntryTaken [tn, q] else evt .sendEntryTaken [tn]

/-- The dispatcher is prompted, once. -/
def State.prompt (s : State) (tn q : Nat) : State :=
  let e := takeEvent tn q
  let r := (s.tenant tn).ring q
  if r.acc = r.rp || s.due.any (fun x => x.ev = e.ev && x.arg.nums = e.arg.nums) then s else s.post [e]

/-- The doorbell page of a tenant is served: the device is ready (R336), and its TDI is not in ERROR (R334). -/
def State.doorOpen (s : State) (tn : Nat) : Bool := s.boot.rdy && (s.tenant tn).tdi ≠ 3

/-- A new write pointer of an enabled ring: one that overruns the ring or goes back is refused with a LAUNCH record that
names the ring and the value. -/
def State.submit (s : State) (tn q v : Nat) : State :=
  let r := (s.tenant tn).ring q
  if ctlSize r.ctl < (v + 2 ^ 32 - r.rp) % 2 ^ 32 || 2 ^ 31 < (v + 2 ^ 32 - r.acc) % 2 ^ 32 then
    s.launchRec tn 1 7 q (w64 v)
  else (s.modRing tn q (fun r => { r with wp := v, acc := v })).prompt tn q

/-- A write of a host write pointer. -/
def State.doorbell (s : State) (tn q v : Nat) : State :=
  let r := (s.tenant tn).ring q
  if !s.doorOpen tn || ctlSrc r.ctl then s
  else if ctlEn r.ctl then s.submit tn q (v % 2 ^ 32)
  else s.modRing tn q (fun r => { r with wp := v % 2 ^ 32 })

/-- LQWP: a doorbell write. -/
def execLqwp (s : State) : Out := .next (s.doorbell (s.argN 0) (s.argN 1) (s.argN 2))

/-- FSWP: the same for the send ring. -/
def execFswp (s : State) : Out := .next (s.doorbell (s.argN 0) 4 (s.argN 1))

/-- The dispatcher reads the device write-pointer word, after the adds that wait for it (R301). -/
def State.readWa (s : State) (tn q : Nat) : State :=
  let r := (s.tenant tn).ring q
  let adds := fun (s : State) => match s.translate tn r.wa 4 with
    | .ok tr => s.applyAdds (tr.pa / 8 * 8) 8
    | .error _ => s
  if s.doorOpen tn && ctlEn r.ctl && ctlSrc r.ctl then (adds s).submit tn q (((adds s).peekVa tn r.wa).v.toNat % 2 ^ 32) else s

/-- LQWA_WORD_UPDATE: a store to the word's line has been performed. -/
def execLqwaWordUpdate (s : State) : Out := .next (s.readWa (s.argN 0) (s.argN 1))

/-- A control word as it is written: the size and SRC change only while EN = 0. -/
def ctlWrite (old new : Word) : Word :=
  if ctlEn old then setBit old 63 (ctlEn new) else w64 (new.bits 63 62 * 2 ^ 62 + new.bits 4 0)

/-- A ring that becomes enabled is served up to the write pointer then current. -/
def State.enable (s : State) (tn q : Nat) : State :=
  if ctlSrc ((s.tenant tn).ring q).ctl then s.readWa tn q else s.submit tn q ((s.tenant tn).ring q).wp

/-- LQCTL: a control register of the doorbell page. -/
def execLqctl (s : State) : Out :=
  let tn := s.argN 0
  let q := s.argN 1
  let v := (s.argW 0).v
  if !s.doorOpen tn then .next s
  else if q < 5 then
    let was := ctlEn ((s.tenant tn).ring q).ctl
    let s := s.modRing tn q (fun r => { r with ctl := ctlWrite r.ctl v })
    .next (if !was && ctlEn v then s.enable tn q else s)
  else if q = 5 then .next (s.modTenant tn (fun t => { t with nq := { t.nq with ctl := ctlWrite t.nq.ctl (setBit v 62 false) } }))
  else if q = 6 then .next (s.modTenant tn (fun t => { t with fq := { t.fq with ctl := ctlWrite t.fq.ctl (setBit v 62 false) } }))
  else .next (s.modTenant tn (fun t => { t with fcctl := w64 (v.bits 63 63 * 2 ^ 63) }))

/-! ### Record rings -/

/-- Records that waited for room are written, oldest first. -/
def State.drainRecs (s : State) (tn : Nat) (fault : Bool) (l : List (List Word)) : State :=
  match l with
  | [] => s
  | w :: rest =>
    let t := s.tenant tn
    let r := if fault then t.fq else t.nq
    if (r.wp + 2 ^ 32 - r.rp) % 2 ^ 32 ≥ ctlSize r.ctl then s
    else
      let s := s.modTenant tn (fun t => if fault then { t with fq := { t.fq with waiting := rest } }
        else { t with nq := { t.nq with waiting := rest } })
      (s.putRec tn fault w).drainRecs tn fault rest

/-- RING_RP_WRITE: software has consumed records; the vector may fire again. -/
def execRingRpWrite (s : State) : Out :=
  let tn := s.argN 0
  let fault := s.argN 1 = 1
  let v := s.argN 2 % 2 ^ 32
  if !s.doorOpen tn then .next s
  else
    let s := s.modTenant tn (fun t => if fault then { t with fq := { t.fq with rp := v, fired := false } }
      else { t with nq := { t.nq with rp := v, fired := false } })
    let s := s.fireMsix tn fault
    .next (s.drainRecs tn fault (if fault then (s.tenant tn).fq.waiting else (s.tenant tn).nq.waiting))

/-- MSIX_VECTOR_UNMASK: a vector fires if its ring has records. -/
def execMsixVectorUnmask (s : State) : Out :=
  let tn := s.argN 0 / 8
  match s.argN 0 % 8 with
  | 0 => .next ((s.modTenant tn (fun t => { t with nq := { t.nq with mask := false } })).fireMsix tn false)
  | 1 => .next ((s.modTenant tn (fun t => { t with fq := { t.fq with mask := false } })).fireMsix tn true)
  | _ => .next s

/-! ### Other doorbell registers, and debug windows -/

/-- A base register changes only while its ring is disabled (R315). -/
def Tenant.setBase (t : Tenant) (off v : Nat) : Tenant :=
  let q := off / 0x40
  let ring := fun (q : Nat) =>
    if ctlEn (t.ring q).ctl then t else t.setRing q { t.ring q with base := v % 2 ^ 57 }
  if off < 0x100 then
    if off % 0x40 = 0 then ring q
    else if off % 0x40 = 0x20 then t.setRing q { t.ring q with wa := v % 2 ^ 57 / 8 * 8 } else t
  else if off = 0x100 then (if ctlEn t.nq.ctl then t else { t with nq := { t.nq with base := v % 2 ^ 57 } })
  else if off = 0x140 then (if ctlEn t.fq.ctl then t else { t with fq := { t.fq with base := v % 2 ^ 57 } })
  else if off = 0x180 then (if ctlEn t.fcctl then t else { t with fcbase := w64 (v % 2 ^ 57 / 4096 * 4096) })
  else if off = 0x1C0 then ring 4
  else if off = 0x1E0 then t.setRing 4 { t.fs with wa := v % 2 ^ 57 / 8 * 8 }
  else t

/-- A debug register of a core written (R308): reserved bits read 0; DSTOP is read only. -/
def Debug.write (d : Debug) (off : Nat) (v : Word) : Debug :=
  if off < 0x40 then { d with bp := setNth d.bp (off / 8) (w64 (v.bits 63 63 * 2 ^ 63 + v.bits 39 1 * 2)) }
  else if off < 0x80 then { d with bpm := setNth d.bpm ((off - 0x40) / 8) v }
  else if off < 0xA0 then { d with wp := setNth d.wp ((off - 0x80) / 8) v }
  else if off < 0xC0 then { d with wpm := setNth d.wpm ((off - 0xA0) / 8) v }
  else d

/-- DOORBELL_REG_WRITE: a register with no row of its own. An offset from 2^20 on lies in the tenant's debug window (R308,
R314): 512 bytes for each core, in the order of its logical coordinates (log entry 40), reachable while DBG = 1; one from 2^21 on
is Apex's way to the block of a core by its number, always open (R308). -/
def execDoorbellRegWrite (s : State) : Out :=
  let tn := s.argN 0
  let off := s.argN 1
  let v := (s.argW 0).v
  if off < 2 ^ 20 then
    if s.doorOpen tn then .next (s.modTenant tn (fun t => t.setBase off v.toNat)) else .next s
  else
    let n := off % 2 ^ 20 / 512
    let r := off % 512
    let core : Option Nat :=
      if 2 ^ 21 ≤ off then some n
      else if (s.tenant tn).tntctl.bits 1 1 = 0 then none
      else s.coreAt tn (n / 128) (n / 8 % 16) (n % 8)
    match core with
    | none => .next s
    | some c =>
      if r = 0xC8 then .next (s.post [⟨.dres, ⟨[c], [⟨v, false⟩]⟩⟩])
      else .next (s.modCore c (fun x => { x with dbg := x.dbg.write r v }))

/-! ### Host access to device memory (R319) -/

/-- The device address of an offset in the HDM range. -/
def State.hdmPa (s : State) (a : Nat) : Option Nat :=
  (SMap.get? s.boot.hdm (a / 2 ^ 28)).map (fun f => f * 2 ^ 28 + a % 2 ^ 28)

/-- The tenant whose window holds a device frame. -/
def State.windowOwner (s : State) (pa : Nat) : Option Nat :=
  (s.tenants.find? (fun p => p.2.window.any (fun e => e.2 = pa / 65536))).map Prod.fst

/-- HOST_MEM_ACCESS: an access at SYSTEM scope, at the home slice like any other; a read may leave the half in the host's caches; a
write changes one word of the home copy, which then is resident no longer (R338), and leaves a poisoned line as it is (R48). A
tenant in ERROR has its accesses fail (R334). -/
def execHostMemAccess (s : State) : Out :=
  match s.hdmPa (s.argN 0) with
  | none => .next s
  | some pa =>
    if !populated pa then .fault (.unpopulated pa)
    else
      let own := s.windowOwner pa
      let failed : Bool := match own with
        | some tn => (s.tenant tn).tdi = 3
        | none => false
      if failed then .next s
      else
        let line := pa / 128
        if s.lineBusy line || (s.argN 1 = 1 && s.pinned line) then .next (s.again .hostMemAccess)
        else
          let s := s.applyAdds (line * 128) 128
          if s.argN 1 = 1 then
            let s := if s.poisoned pa then s else s.writeHome false (pa / 8 * 8) 8 ⟨(s.argW 0).v, false⟩
            let s := s.unresident line
            .next (match own with
              | some tn => s.pokeRings tn line
              | none => s)
          else
            match s.needLine line with
            | some s => .next (s.again .hostMemAccess)
            | none =>
              let s := (s.gatherShared line).touchLine line
              .next { s with hostHeld := insSorted s.hostHeld (pa / 64) }

/-- BISNP: the host is asked to give up a half. -/
def execBisnp (s : State) : Out := .next (s.post [evt .birsp [s.argN 0]])

/-- BIRSP: the host has given it up; the writes that waited go on. -/
def execBirsp (s : State) : Out :=
  let h := s.argN 0
  let s := { s with hostHeld := s.hostHeld.filter (fun x => x ≠ h) }
  .next (((s.flights.filter (fun f => !f.entry.loc && f.stage ≠ 2 && f.entry.addr / 128 = h / 2)).map (fun f => f.id)).foldl
    (fun s r => s.retryStore r) s)

end Sys2Proof.Machine
end

