-- ==== Sys2Proof/Machine/Stexis.lean ====
section
/-!
DEFINITION. Sys2Proof/Machine/Stexis.lean: the Stexis protocol layer (R320 to R326): messages across die edges, the memory
hub, credits, training, topology, and the loss of a link.
-/
namespace Sys2Proof.Machine
open Sys2Proof

/-! ### Edges and links. Edge 4·d + m is UCIe module m of PV-C die d: 0 toward the die beside it in x, 1 toward the die beside it
in y, 2 toward its PV-M, 3 toward its PV-X (R1; the numbering is the model's, log entry 41). -/

def State.link (s : State) (e : Nat) : Link := SMap.get s.links e Link.reset
def State.setLink (s : State) (e : Nat) (l : Link) : State := { s with links := SMap.set s.links e l }

/-- The die kind that R1 attaches to an edge: 0 PV-C, 1 PV-M, 2 PV-X0, 3 PV-X1. -/
def edgeKind (e : Nat) : Nat :=
  match e % 4 with
  | 2 => 1
  | 3 => if e / 4 < 2 then 2 else 3
  | _ => 0

/-- The PV-C die beyond a mesh edge. -/
def meshBeyond (e : Nat) : Option Nat :=
  match e % 4 with
  | 0 => some (Nat.xor (e / 4 % 4) 1)
  | 1 => some (Nat.xor (e / 4 % 4) 2)
  | _ => none

/-- Credits for one message of a class at an edge: the link carries requests and the side holds a credit. -/
def State.takeCredit (s : State) (e cls : Nat) : Option State :=
  let l := s.link e
  let n := SMap.get l.credits cls 0
  if l.ok && l.up && 0 < n then some (s.setLink e { l with credits := SMap.set l.credits cls (n - 1) }) else none

/-- SPL_CREDIT_RETURN: credits of a class come back, up to the count declared. -/
def execSplCreditReturn (s : State) : Out :=
  let l := s.link (s.argN 0)
  let c := s.argN 1
  let n := min (SMap.get l.offered c 0) (SMap.get l.credits c 0 + s.argN 2)
  .next (s.setLink (s.argN 0) { l with credits := SMap.set l.credits c n })

/-! ### The mesh extension and IO traffic (R321) -/

/-- MXREQ: a request flit crosses an edge, for one credit; without one it waits. What it carries takes effect by the rules of
its own message. -/
def execMxreq (s : State) : Out :=
  match s.takeCredit (s.argN 0) 0 with
  | some s => .next s
  | none => .next (s.again .mxreq)

/-- MXRSP: responses are never credited; they wait while the link is down. -/
def execMxrsp (s : State) : Out :=
  if (s.link (s.argN 0)).up then .next s else .next (s.again .mxrsp)

/-- A response that is on its way. -/
def State.respond (s : State) (m : HubMsg) (e : Instr) : State :=
  ({ s with hub := s.hub ++ [m] } : State).post [evt e [m.tag]]

/-- IORD: a host word is read through the edge. -/
def execIord (s : State) : Out :=
  match s.takeCredit (s.argN 0) 3 with
  | none => .next (s.again .iord)
  | some s =>
    let a := hostBase + s.argN 1 / 8 * 8
    .next (s.respond ⟨s.argN 2, s.argN 0, 0x31, a, [s.curWord (a / 8)], s.poisoned a⟩ .iorsp)

/-- IOWR: a host word is written through the edge. -/
def execIowr (s : State) : Out :=
  match s.takeCredit (s.argN 0) 3 with
  | none => .next (s.again .iowr)
  | some s =>
    let a := hostBase + s.argN 1 / 8 * 8
    let s := if s.poisoned a then s else (s.writeHome false a 8 ⟨(s.argW 0).v, false⟩).dirtyHalf (halfOf a)
    .next (s.respond ⟨s.argN 2, s.argN 0, 0x32, a, [], false⟩ .iorsp)

/-- IOMSG: a message with no response. -/
def execIomsg (s : State) : Out :=
  match s.takeCredit (s.argN 0) 3 with
  | none => .next (s.again .iomsg)
  | some s => .next s

/-- A response reaches its requester. -/
def State.answered' (s : State) (p : HubMsg → Bool) : State :=
  { s with hub := s.hub.filter (fun m => !(m.tag = s.argN 0 && p m)) }

def execIorsp (s : State) : Out := .next (s.answered' (fun m => m.op = 0x31 || m.op = 0x32))

/-! ### The memory hub (R321, R322). A request names its die and the offset of R43. -/

/-- A request that the hub of a die performs: it waits for a credit of its memory edge, and an offset that holds no memory
cannot arise (R43). -/
def hubRequest (i : Instr) (s : State) (body : Nat → State → Out) : Out :=
  let d := s.argN 0 % 4
  let pa := d * 2 ^ 38 + s.argN 1 % 2 ^ 38
  if !populated pa then .fault (.unpopulated pa)
  else
    match s.takeCredit (4 * d + 2) 1 with
    | none => .next (s.again i)
    | some s => body pa s

/-- WRACK is on its way. -/
def State.ack (s : State) (pa : Nat) : State := s.respond ⟨s.argN 2, s.argN 0 % 4, 0x22, pa, [], false⟩ .wrack

/-- RD: a line with its metadata. -/
def execRd (s : State) : Out :=
  hubRequest .rd s (fun pa s =>
    .next (s.respond ⟨s.argN 2, s.argN 0 % 4, 0x21, pa / 128 * 128, s.homeWords (pa / 128), s.poisoned pa⟩ .rdrsp))

/-- WR: a whole line, with its taint bits and poison. -/
def execWr (s : State) : Out :=
  hubRequest .wr s (fun pa s =>
    let line := pa / 128
    let m := (List.range 16).foldl (fun (m : Mem) i => m.setWord (16 * line + i) (s.argW i)) s.mem
    .next (({ s with mem := m.setPoison line (s.argN 3 = 1) } : State).ack pa))

/-- WRM: the bytes that the mask selects; a poisoned line stays as it is. -/
def execWrm (s : State) : Out :=
  hubRequest .wrm s (fun pa s =>
    let line := pa / 128
    let m := (List.range 128).foldl (fun (m : Mem) i =>
      if s.argN 3 / 2 ^ i % 2 = 1 then
        let w := s.argW (i / 8)
        m.store (128 * line + i) 1 ⟨w64 (w.v.toNat / 2 ^ (8 * (i % 8)) % 256), w.t⟩
      else m) s.mem
    let m := if s.mem.poisoned line then s.mem
      else (List.range 16).foldl (fun (m : Mem) i =>
        if s.argN 3 / 2 ^ (8 * i) % 256 = 255 then m.setTaint (16 * line + i) (s.argW i).t else m) m
    .next (({ s with mem := m } : State).ack pa))

/-- ZERO: one line is written as zero, with a new check; it is resident in its slice no longer (R338). -/
def execZeroLine (s : State) : Out :=
  hubRequest .zeroLine s (fun pa s => .next ((({ s with mem := s.mem.zeroLine (pa / 128) } : State).unresident (pa / 128)).ack pa))

/-- SCRUB: the 32 lines of a 4 KiB frame, and one WRACK. -/
def execScrub (s : State) : Out :=
  hubRequest .scrub s (fun pa s =>
    let ls := (List.range 32).map (fun i => pa / 4096 * 32 + i)
    .next ((ls.foldl State.unresident { s with mem := ls.foldl Mem.zeroLine s.mem }).ack pa))

/-- RDRSP and WRACK reach the requester. -/
def execRdrsp (s : State) : Out := .next (s.answered' (fun m => m.op = 0x21))
def execWrack (s : State) : Out := .next (s.answered' (fun m => m.op = 0x22))

/-! ### Boot stages that concern the dies (R336) -/

def Boot.fail (b : Boot) (detail : Nat) : Boot := { b with err := b.stage, detail := detail % 2 ^ 32 }

/-- The boot stops at its stage; how a die kind and an edge stand in `detail` is not stated, so it is a free value. -/
def State.bootFails (s : State) (stage : Nat) : State :=
  if s.boot.stage = stage && s.boot.err = 0 && !s.boot.rdy then
    let (v, s) := s.freeVal
    { s with boot := s.boot.fail v.toNat }
  else s

/-- The stage after those whose conditions hold: both firmware images loaded, every edge trained, every PARAM accepted. -/
def State.advanceBoot (s : State) : State :=
  let b := s.boot
  if b.err ≠ 0 then s
  else
    let all := fun (p : Link → Bool) => (List.range 16).all (fun e => p (s.link e))
    let st := if b.stage = 3 && (SMap.get? b.images 2).isSome && (SMap.get? b.images 3).isSome then 4 else b.stage
    let st := if st = 4 && all (fun l => l.up) then 5 else st
    let st := if st = 5 && all (fun l => l.ok) then 6 else st
    { s with boot := { b with stage := st } }

/-- UCIE_LINK_UP: a link has trained, and SPL training starts; at run time a retraining has returned it. -/
def execUcieLinkUp (s : State) : Out :=
  let e := s.argN 0
  let l := s.link e
  if l.refused || l.up then .next s
  else .next (s.setLink e { l with up := true, retrain := 0, since := s.now }).advanceBoot

/-! ### SPL training (R324) -/

/-- The five counts of credits offered. -/
def paramCredits (n : Nat) : SMap Nat := (List.range 5).map (fun c => (c, bitsOf n (10 * c + 9) (10 * c)))

/-- A PARAM that is accepted: version 1, and at least 8 credits in each credited class (R323). -/
def paramOk (ver n : Nat) : Bool := ver = 1 && [0, 1, 3, 4].all (fun c => 8 ≤ bitsOf n (10 * c + 9) (10 * c))

/-- A refused link stays down, and the boot stops. -/
def State.refuseLink (s : State) (e : Nat) : State :=
  (s.setLink e { s.link e with up := false, ok := false, refused := true }).bootFails 5

/-- PARAM: the partner's parameters. -/
def execParam (s : State) : Out :=
  let e := s.argN 0
  let l := s.link e
  if !l.up || l.refused then .next s
  else if paramOk (s.argN 2) (s.argN 3) then
    .next (s.setLink e { l with ok := true, kind := s.argN 1, credits := paramCredits (s.argN 3),
                                offered := paramCredits (s.argN 3) }).advanceBoot
  else .next (s.refuseLink e)

/-- SPL_PARAM_TIMEOUT: no PARAM has come within 2^20 cycles of link-up. -/
def execSplParamTimeout (s : State) : Out :=
  let l := s.link (s.argN 0)
  if l.up && !l.ok && l.since + 2 ^ 20 ≤ s.now then .next (s.refuseLink (s.argN 0)) else .next s

/-! ### The loss of a link (R325) -/

/-- The requests outstanding at a die's hub (class 2) or across an edge to a PV-X (class 3): a line that one would have written is
poisoned, and its answer carries poison. -/
def State.failHub (s : State) (d cls : Nat) : State :=
  let ms := s.hub.filter (fun m => m.die = d && m.op / 16 = cls)
  let s := { s with hub := s.hub.map (fun m => if m.die = d && m.op / 16 = cls then { m with poison := true } else m) }
  ms.foldl (fun s m => if m.op = 0x22 || m.op = 0x32 then s.spoilLine (m.addr / 128) else s) s

/-- Stores on their way to a home on a die beyond the edge leave poison. -/
def State.failStores (s : State) (d : Nat) : State :=
  let beyond := fun (f : Flight) => f.stage ≠ 2 &&
    (if f.entry.loc then dieOf (f.entry.core / 8) = d && dieOf (f.core / 8) ≠ d
     else dieOf (s.homeOf (f.entry.addr / 128)) = d && dieOf (f.core / 8) ≠ d)
  let l := s.flights.filter beyond
  let s := { s with flights := s.flights.filter (fun f => !beyond f) }
  l.foldl (fun s f => s.poisonEntry f.core f.entry) s

/-- The cores of a die. -/
def coresOnDie (d : Nat) : List Nat := (List.range 2048).filter (fun c => dieOf (c / 8) = d)

/-- Every tenant is told of the cores of a die, with a CORE record for each, and Apex fences them. -/
def State.loseDie (s : State) (d : Nat) : State :=
  let s := (coresOnDie d).foldl (fun s c =>
    let n := (s.core c).lost.length
    s.tenants.foldl (fun s p => s.faultRec p.1 (recWord 8 (s.destWord p.1 c).toNat) (w64 n)) s) s
  let hit := fun (p : Nat × Tenant) => p.2.quads.any (fun q => dieOfQuad q = d) && (p.2.tdi = 1 || p.2.tdi = 2)
  let s := s.post ((s.tenants.filter hit).map (fun p => evt .tdiError [p.1]))
  let s := (coresOnDie d).foldl (fun s c => (s.stopCore c).modCore c (fun y => { y with fenced := true, pubWin := 0 })) s
  s.modDie d (fun x => { x with gone := true })

/-- A retraining that does not return the link. -/
def State.loseLink (s : State) (e : Nat) : State :=
  let s := s.setLink e { s.link e with up := false, ok := false, refused := true }
  match meshBeyond e with
  | some d => (s.failStores d).loseDie d
  | none => if e % 4 = 2 then s.failHub (e / 4) 2 else s.failHub e 3

/-- UCIE_REPLAY_FAIL: the link is retrained, up to three times; requests to it wait. -/
def execUcieReplayFail (s : State) : Out :=
  let e := s.argN 0
  let l := s.link e
  if !l.ok then .next s
  else if l.retrain < 3 then .next (s.setLink e { l with up := false, retrain := l.retrain + 1 })
  else .next (s.loseLink e)

/-- UCIE_TRAINING_FAIL: at boot stage 4 the boot stops; a retraining at run time that fails loses the link. -/
def execUcieTrainingFail (s : State) : Out :=
  let e := s.argN 0
  if s.boot.rdy then
    let l := s.link e
    if l.ok && !l.up then (if l.retrain < 3 then .next (s.setLink e { l with retrain := l.retrain + 1 }) else .next (s.loseLink e))
    else .next s
  else .next (s.bootFails 4)

/-! ### Topology (R326, R336) -/

/-- A little-endian field of a descriptor. -/
def descField (b : List Nat) (o n : Nat) : Nat := fromLe ((b.drop o).take n)

/-- A descriptor that is not refused. -/
def descGood (b : List Nat) : Bool :=
  b.length = 512 && descField b 0 4 = 0x53544458 && descField b 4 2 = 1 && descField b 0x024 4 = 0
    && ((b.drop 0x070).take 396).all (fun x => x = 0)
    && descField b 0x1FC 4 = crc32c ((b.take 0x1FC).map (fun x => BitVec.ofNat 8 x))

/-- The kind of die `i` of R1: PV-C 0 to 3, PV-M 4 to 7, PV-X0, PV-X1. -/
def dieKind (i : Nat) : Nat := if i < 4 then 0 else if i < 8 then 1 else i - 6

/-- TOPORD: a die is asked for its descriptor. -/
def execTopord (s : State) : Out :=
  .next { s with hub := s.hub ++ [⟨s.argN 1, s.argN 0, 0x42, 0, [], false⟩] }

/-- TOPRSP: the descriptor arrives; a bad one is refused and stops the boot. -/
def execToprsp (s : State) : Out :=
  let d := s.argN 0
  let b := s.arg.nums.drop 1
  let s := { s with hub := s.hub.filter (fun m => !(m.op = 0x42 && m.die = d)) }
  if descGood b then
    .next { s with boot := { s.boot with desc := SMap.set s.boot.desc d (b.map (fun x => BitVec.ofNat 8 x)) } }
  else .next (s.bootFails 6)

/-- The attachments are those of R1: the die kinds of descriptors and links, and the edges of each PV-C. -/
def State.attached (s : State) : Bool :=
  let f := fun i o => ((SMap.get s.boot.desc i []).drop o).headD 0
  (List.range 10).all (fun i => (f i 6).toNat = dieKind i)
    && (List.range 16).all (fun e => (s.link e).kind = edgeKind e)
    && (List.range 4).all (fun d => (f d 7).toNat = 4
      && [1, 2, 3].all (fun k => ((List.range 16).filter (fun j => (f d (0x18 + j)).toNat = k)).length = (if k = 1 then 2 else 1)))

/-- TOPOLOGY_WALK: once every descriptor is there, the attachments are checked. -/
def execTopologyWalk (s : State) : Out :=
  if s.boot.stage ≠ 6 || s.boot.err ≠ 0 || !(List.range 10).all (fun i => (SMap.get? s.boot.desc i).isSome) then .next s
  else if s.attached then .next { s with boot := { s.boot with stage := 7 } }
  else .next (s.bootFails 6)

/-- ERR: an error report arrives. Nothing else is stated of it: Apex learns of it. -/
def execSplErr (s : State) : Out := .next s

/-- RESET: a PV-C die is reset. Before it, every host half that its slices and pools hold is written back to the bridge, which keeps
the half's state (R99); the cores of the die come back with every slot vacant, and a launch whose threads they held does not end
(R223). -/
def execDieReset (s : State) : Out :=
  let d := s.argN 0 % 4
  let here := fun (h : Nat) => dieOf (if h < 256 then h else (h - 256) / 8) = d
  let lines := (s.copies.filter (fun p => here (p.1 % 4096))).map (fun p => p.1 / 4096)
  let s := lines.foldl (fun s l => s.gather l) s
  let ws := (s.regw.filter (fun p => dieOf (p.2.core / 8) = d)).map Prod.fst
  let s := ws.foldl (fun s w => s.unregister w) s
  let s := { s with flights := s.flights.filter (fun f => dieOf (f.core / 8) ≠ d) }
  let s := (coresOnDie d).foldl (fun s c => (s.core c).lost.foldl (fun s p =>
    s.modLaunch p.2.tenant (taskLaunch p.2.task) (fun la => { la with lost := true })) s) s
  .next { s with cores := s.cores.map (fun p =>
    if dieOf (p.1 / 8) = d then
      (p.1, { Core.reset with slots := p.2.slots.map (fun q => (q.1, { q.2 with occ := .vacant })), fenced := p.2.fenced,
                              dead := p.2.fenced, pubWin := if p.2.fenced then 0 else Core.reset.pubWin })
    else p) }

end Sys2Proof.Machine
end

