-- ==== Sys2Proof/Machine/Fabric.lean ====
section
/-!
DEFINITION. Sys2Proof/Machine/Fabric.lean: the Llynhan fabric transport of PV-X1 (R327 to R332): connections, frames, outbound
transfers and inbound writes.
-/
namespace Sys2Proof.Machine
open Sys2Proof

/-! ### The connection table (R328) -/

def Conn.reset : Conn := ⟨0, 0, 0, [], 0, 0, 0, 0, 0, []⟩
def State.conn (s : State) (tn n : Nat) : Conn := SMap.get (s.tenant tn).conns n Conn.reset
def State.setConn (s : State) (tn n : Nat) (c : Conn) : State := s.modTenant tn (fun t => { t with conns := SMap.set t.conns n c })
def State.modConn (s : State) (tn n : Nat) (g : Conn → Conn) : State := s.setConn tn n (g (s.conn tn n))

/-- The virtual address of an entry, and its first word as PV-X1 reads it. -/
def State.fabVa (s : State) (tn n : Nat) : Nat := (s.tenant tn).fcbase.toNat + 32 * n
def State.fabWord (s : State) (tn n : Nat) : Word := (s.peekVa tn (s.fabVa tn n)).v
/-- The adds that wait for an entry are applied before PV-X1 reads it (R301). -/
def State.fabAdds (s : State) (tn n : Nat) : State :=
  match s.translate tn (s.fabVa tn n) 4 with
  | .ok tr => s.applyAdds tr.pa 32
  | .error _ => s
def entV (w : Word) : Bool := w.bits 63 63 = 1
def entState (w : Word) : Nat := w.bits 62 61
def entPorts (w : Word) : Nat := w.bits 60 53
def entTen (w : Word) : Nat := w.bits 52 49
def entMod (w : Word) : Nat := w.bits 48 28
def entCon (w : Word) : Nat := w.bits 27 16

/-- An entry's word with another state. -/
def entWith (w : Word) (st : Nat) : Word := w64 (w.bits 63 63 * 2 ^ 63 + st * 2 ^ 61 + w.bits 60 0)

/-- PV-X1 writes an entry's state. -/
def State.setEntState (s : State) (tn n st : Nat) : State :=
  s.writeVa tn (s.fabVa tn n) [⟨entWith (s.fabWord tn n) st, false⟩]

/-- The connection is open. -/
def State.isOpen (s : State) (tn n : Nat) : Bool := entV (s.fabWord tn n) && entState (s.fabWord tn n) = 2

/-- The tenant's fabric connections are enabled. -/
def State.fabricOn (s : State) (tn : Nat) : Bool := ctlEn (s.tenant tn).fcctl

/-- Resent frames are counted in the entry. -/
def State.countResends (s : State) (tn n k : Nat) : State :=
  let va := s.fabVa tn n + 24
  let w := (s.peekVa tn va).v
  s.writeVa tn va [⟨w64 (w.toNat / 2 ^ 32 * 2 ^ 32 + (w.bits 31 0 + k) % 2 ^ 32), false⟩]

/-- A FABRIC record (R327). -/
def State.fabricRec (s : State) (tn n status tag bytes : Nat) : State :=
  s.notify tn (recWord 0x0A (status * 2 ^ 48 + tag % 65536 * 2 ^ 32 + n)) (w64 bytes)

/-- An event put among those that may take place, once. -/
def State.postOnce (s : State) (e : Event) : State :=
  if s.due.any (fun x => x.ev = e.ev && x.arg.nums = e.arg.nums) then s else s.post [e]

/-! ### Frames (R329) -/

/-- The lowest-numbered working port of a mask; 0 means every port. -/
def State.portOf (s : State) (mask : Nat) : Option Nat :=
  (List.range 8).find? (fun p => nthD s.boot.ports p false && (mask = 0 || mask / 2 ^ p % 2 = 1))

/-- A MAC address of the transport. -/
def fabMac (m port : Nat) : Nat := 0x024C * 2 ^ 32 + m % 2 ^ 24 * 2 ^ 8 + port

/-- The four words of a transport header. -/
def fabHeader (typ flags reason dst src dcon scon psn off len tag : Nat) : List Word :=
  [w64 (1 + typ * 2 ^ 8 + flags * 2 ^ 16 + reason * 2 ^ 24 + dst * 2 ^ 32), w64 (src + dcon * 2 ^ 32 + scon * 2 ^ 48),
   w64 (psn % 2 ^ 32 + off % 2 ^ 32 * 2 ^ 32), w64 (off / 2 ^ 32 % 2 ^ 32 + len * 2 ^ 32 + tag % 65536 * 2 ^ 48)]

/-- An endpoint as a header names it. -/
def endpoint (m tn : Nat) : Nat := m + tn * 2 ^ 24

/-- The bytes that a frame's CRC covers. -/
def frameBytes (len : Nat) (ws : List Word) : List Byte :=
  ((ws.flatMap (fun w => leBytes 8 w.toNat)).take (32 + len)).map (fun b => BitVec.ofNat 8 b)

/-- PV-X1 sends a frame of a connection: the addresses, the header with its payload, and the CRC. It sends none while FABID has
V = 0 (R328) or no port of the mask works. Which port of the destination the frame names is not stated: a free value. -/
def State.sendFrame (s : State) (mask dst len : Nat) (ws : List Word) : State :=
  match s.boot.fabid, s.portOf mask with
  | some m, some p =>
    let (v, s) := s.freeVal
    let f := w64 (fabMac dst (v.toNat % 8)) :: w64 (fabMac m p) :: ws ++ [w64 (crc32c (frameBytes len ws))]
    { s with boot := { s.boot with frames := s.boot.frames ++ [f] } }
  | _, _ => s

/-- A frame with no payload, from a tenant's connection to the endpoint that its entry names. -/
def State.sendShort (s : State) (tn n typ reason psn : Nat) : State :=
  let w := s.fabWord tn n
  s.sendFrame (entPorts w) (entMod w) 0
    (fabHeader typ 0 reason (endpoint (entMod w) (entTen w)) (endpoint (s.boot.fabid.getD 0) tn) (entCon w) n psn 0 0 0)

/-- A frame that PV-X1 discards: it has no number, or the tenant does not exist; the latter is counted. -/
def State.discards (s : State) (tn : Nat) : Option State :=
  if s.boot.fabid.isNone then some s
  else if (SMap.get? s.tenants tn).isNone then some { s with boot := { s.boot with badFrames := s.boot.badFrames + 1 } }
  else none

/-! ### Transfers -/

/-- A transfer has ended: every frame is acknowledged, or it has failed. -/
def Xfer.ended (x : Xfer) : Bool := x.acked = x.total || !(x.status = 0 || x.status = 0x10)
def Xfer.length (x : Xfer) : Nat := (nthD x.entry 3 0).bits 31 0
def Xfer.flagA (x : Xfer) : Bool := (nthD x.entry 0 0).bits 63 63 = 1
def Xfer.flagR (x : Xfer) : Bool := (nthD x.entry 0 0).bits 62 62 = 1
def Xfer.tag (x : Xfer) : Nat := (nthD x.entry 0 0).bits 47 32

/-- The record of a connection's first transfer is due when it has ended. -/
def State.promptSent (s : State) (tn n : Nat) : State :=
  match (s.conn tn n).xfers with
  | x :: _ => if x.ended then s.postOnce (evt .fsent [tn, n]) else s
  | [] => s

/-- FSENT: the completion record of the oldest transfer, in submission order, and then the next. -/
def execFsent (s : State) : Out :=
  let tn := s.argN 0
  let n := s.argN 1
  match (s.conn tn n).xfers with
  | [] => .next s
  | x :: r =>
    if !x.ended then .next s
    else
      let s := s.modConn tn n (fun c => { c with xfers := r })
      let s := if x.flagA then
          s.notify tn (recWord 0x0B (x.status * 2 ^ 48 + x.tag * 2 ^ 32 + n)) (w64 (min (4096 * x.acked) x.length))
        else s
      .next (s.promptSent tn n)

/-- Acknowledged frames are counted to the transfers in order. -/
def ackXfers (l : List Xfer) (k : Nat) : List Xfer :=
  match l with
  | [] => []
  | x :: r =>
    let d := min k (x.sent - x.acked)
    { x with acked := x.acked + d } :: ackXfers r (k - d)

/-- A cumulative acknowledgement: `psn` modulo 2^32 is the next PSN that the receiver expects. -/
def Conn.acknowledge (c : Conn) (psn now : Nat) : Conn :=
  let k := (psn + 2 ^ 32 - c.acked % 2 ^ 32) % 2 ^ 32
  if k = 0 || c.window.length < k then c
  else { c with acked := c.acked + k, window := c.window.drop k, xfers := ackXfers c.xfers k, prog := now, resent := 0 }

/-- The connection fails or is closed: state 3, its transfers end with status 3, and the record (R328, R331). -/
def State.failConn (s : State) (tn n : Nat) : State :=
  let s := s.modConn tn n (fun c => { c with
    window := [], acked := c.acked + c.window.length,
    xfers := c.xfers.map (fun x => if x.ended then x else { x with status := 3 }) })
  (((s.setEntState tn n 3).promptSent tn n).fabricRec tn n 3 0 0)

/-- The frames of the window are sent again. -/
def State.sendWindow (s : State) (tn n : Nat) : State :=
  let w := s.fabWord tn n
  let l := (s.conn tn n).window
  (l.foldl (fun s f => s.sendFrame (entPorts w) (entMod w) ((nthD f 3 0).bits 47 32) f) s).countResends tn n l.length

/-- Resending from the oldest unacknowledged frame: after eight in a row without progress the connection fails. -/
def State.resend (s : State) (tn n : Nat) : State :=
  let c := s.conn tn n
  if c.window.isEmpty then s
  else if 8 ≤ c.resent then s.failConn tn n
  else
    ((s.sendWindow tn n).modConn tn n (fun c => { c with resent := c.resent + 1, prog := s.now })).postOnce
      (evt .resendTimer [tn, n])

/-! ### Reading the source and sending (R330) -/

/-- A walk of PV-X1 is known by its tenant, connection and direction (0 sending, 1 receiving). -/
def fabSlot (tn n dir : Nat) : Nat := tn * 8192 + 2 * n + dir
def State.fabCore (s : State) (tn : Nat) : Nat := (s.coresOf tn).headD 0

/-- What reading a frame's payload gives: the bytes with taint, and whether a line was poisoned. -/
inductive SendTry where
  | data (bs : List (Nat × Bool)) (q : Bool) (s : State)
  | fail (status : Nat) (s : State)
  | wait (s : State)

def State.sendRead (s : State) (tn n va len fuel : Nat) : SendTry :=
  match fuel with
  | 0 => .data [] false s
  | f + 1 =>
    if len = 0 then .data [] false s
    else
      let k := min len (128 - va % 128)
      match s.enginePage tn 4 (s.fabCore tn) (fabSlot tn n 0) va 4 with
      | .wait s => .wait s
      | .declined s => .fail 0x06 s
      | .tr tr =>
        if Leaf.cl tr.leaf ≠ 0 then .fail 0x0D s
        else
          match s.homeGate tr.pa k false with
          | some s => .wait s
          | none =>
            let s := (s.applyAdds tr.pa k).touchLine (tr.pa / 128)
            match s.sendRead tn n (va + k) (len - k) f with
            | .data bs q s' => .data (s.homeBytes (Leaf.sw tr.leaf) tr.pa k false ++ bs) (q || s.poisoned tr.pa) s'
            | e => e

/-- Bytes as words, the last padded with zeros. -/
def packBytes (bs : List Nat) : List Word :=
  (List.range ((bs.length + 7) / 8)).map (fun i => w64 (fromLe ((bs.drop (8 * i)).take 8)))

/-- The first transfer that has frames to send. -/
def Conn.sending (c : Conn) : Option Nat :=
  (c.xfers.zipIdx.find? (fun p => !p.1.ended && p.1.sent < p.1.total)).map Prod.snd

/-- The connection's next frame is sent, when fewer than 256 are unacknowledged (R331). -/
def State.pump (s : State) (tn n : Nat) : State :=
  let c := s.conn tn n
  if !s.isOpen tn n || 256 ≤ c.window.length || s.boot.fabid.isNone then s
  else
    match c.sending with
    | none => s
    | some i =>
      let x := nthD c.xfers i ⟨[], 0, 0, 0, 0⟩
      let off := 4096 * x.sent
      let len := min 4096 (x.length - off)
      let later := evt .sendEntryTaken [tn]
      match s.sendRead tn n (((nthD x.entry 1 0).bits 56 0 + off) % 2 ^ 57) len 34 with
      | .wait s => s.postOnce later
      | .fail st s =>
        (((s.modConn tn n (fun c => { c with xfers := setNth c.xfers i { x with status := st } })).promptSent tn n).postOnce later)
      | .data bs q s =>
        let w := s.fabWord tn n
        let last := x.sent + 1 = x.total
        let flags := (if last then 1 else 0) + (if last && x.flagR then 2 else 0) + (if bs.any Prod.snd then 4 else 0)
          + (if q then 8 else 0)
        let f := fabHeader 1 flags 0 (endpoint (entMod w) (entTen w)) (endpoint (s.boot.fabid.getD 0) tn) (entCon w) n
          (c.acked + c.window.length) ((nthD x.entry 2 0).toNat + off) len x.tag ++ packBytes (bs.map Prod.fst)
        let s := s.modConn tn n (fun c => { c with
          window := c.window ++ [f], prog := if c.window.isEmpty then s.now else c.prog,
          xfers := setNth c.xfers i { x with sent := x.sent + 1, status := if q then 0x10 else x.status } })
        ((s.sendFrame (entPorts w) (entMod w) len f).postOnce (evt .resendTimer [tn, n])).postOnce later

/-- An entry of the send ring that is well formed. -/
def sendGood (e : List Word) : Bool :=
  let w := fun (i : Nat) => nthD e i 0
  (w 0).bits 61 48 = 0 && (w 0).bits 31 12 = 0 && (w 1).bits 63 57 = 0 && (w 3).bits 63 32 = 0 && (w 3).bits 31 0 ≠ 0
    && (w 4).toNat = 0 && (w 5).toNat = 0 && (w 6).toNat = 0 && (w 7).toNat = 0

/-- The next entry of the send ring is taken, once its words can be read: a transfer of its connection, or one that has already
failed; one whose page fault is declined is dropped (log entry 58). -/
def State.takeSend (s : State) (tn : Nat) : State :=
  let r := (s.tenant tn).fs
  if !ctlEn r.ctl || r.acc = r.rp || (s.tenant tn).tdi = 3 then s
  else
    let take := fun (s : State) => s.modRing tn 4 (fun r => { r with rp := (r.rp + 1) % 2 ^ 32 })
    match s.engineWords tn 4 (2 ^ 20 + tn) (r.base + 64 * (r.rp % ctlSize r.ctl)) 8 with
    | .wait s => s.postOnce (evt .sendEntryTaken [tn])
    | .unreadable s => (take s).prompt tn 4
    | .ok e s =>
      let n := (nthD e 0 0).bits 11 0
      let s := s.fabAdds tn n
      let ok := sendGood e && s.isOpen tn n
      let x : Xfer := ⟨e, 0, if ok then ((nthD e 3 0).bits 31 0 + 4095) / 4096 else 0, 0, if ok then 0 else 1⟩
      (((take s).modConn tn n (fun c => { c with xfers := c.xfers ++ [x] })).promptSent tn n).prompt tn 4

/-- SEND_ENTRY_TAKEN: PV-X1 sends the next frame of each connection, and takes the next entry. -/
def execSendEntryTaken (s : State) : Out :=
  let tn := s.argN 0
  .next (((s.tenant tn).conns.foldl (fun s p => s.pump tn p.1) s).takeSend tn)

/-! ### Acknowledgement and resending (R331) -/

/-- ACK: the frames before `psn` are acknowledged, and the connection sends on. -/
def execAckFrame (s : State) : Out :=
  let tn := s.argN 0
  let n := s.argN 1
  let s := s.fabAdds tn n
  match s.discards tn with
  | some s => .next s
  | none =>
    if !s.isOpen tn n then .next s
    else .next (((s.modConn tn n (fun c => c.acknowledge (s.argN 2) s.now)).promptSent tn n).pump tn n)

/-- The transfer whose frame is the oldest unacknowledged one is refused; those behind it start afresh from its PSN. -/
def refuseXfers (l : List Xfer) (seen : Bool) : List Xfer :=
  match l with
  | [] => []
  | x :: r =>
    if seen then (if x.ended then x else { x with sent := 0 }) :: refuseXfers r true
    else if !x.ended && x.acked < x.sent then { x with status := 2 } :: refuseXfers r true
    else x :: refuseXfers r false

/-- NACK: what came before is acknowledged; reason 1 resends, reasons 2 to 4 refuse the transfer. -/
def execNackFrame (s : State) : Out :=
  let tn := s.argN 0
  let n := s.argN 1
  let s := s.fabAdds tn n
  match s.discards tn with
  | some s => .next s
  | none =>
    if !s.isOpen tn n then .next s
    else
      let s := (s.modConn tn n (fun c => c.acknowledge (s.argN 3) s.now)).promptSent tn n
      if s.argN 2 = 1 then .next (s.resend tn n)
      else if 2 ≤ s.argN 2 && s.argN 2 ≤ 4 && !(s.conn tn n).window.isEmpty then
        .next (((s.modConn tn n (fun c => { c with window := [], xfers := refuseXfers c.xfers false })).promptSent tn n).pump tn n)
      else .next s

/-- RESEND_TIMER: 26,000 cycles without progress. -/
def execResendTimer (s : State) : Out :=
  let tn := s.argN 0
  let n := s.argN 1
  let c := s.conn tn n
  if !s.isOpen tn n || c.window.isEmpty then .next s
  else if s.now < c.prog + 26000 then .next (s.again .resendTimer)
  else .next (s.resend tn n)

/-- An ACK of all that has been performed. -/
def State.sendAck (s : State) (tn n : Nat) : State :=
  (s.sendShort tn n 2 0 (s.conn tn n).expect).modConn tn n (fun c => { c with unack := 0 })

/-- ACK_TIMER: the frames not yet acknowledged are. -/
def execAckTimer (s : State) : Out :=
  if (s.conn (s.argN 0) (s.argN 1)).unack = 0 then .next s else .next (s.sendAck (s.argN 0) (s.argN 1))

/-! ### Receiving (R332) -/

/-- What the pages of an inbound frame allow: the physical lines to write, a refusal, or waiting. -/
inductive RecvTry where
  | lines (l : List (Tr × Nat))
  | refuse (s : State)
  | wait (s : State)

/-- The pages of [va, va + len), line by line. -/
def State.recvPages (s : State) (tn n va len fuel : Nat) : RecvTry :=
  match fuel with
  | 0 => .lines []
  | f + 1 =>
    if len = 0 then .lines []
    else
      let k := min len (128 - va % 128)
      let bad : Bool := match s.translate tn va 4 with
        | .ok tr => Leaf.cl tr.leaf ≠ 0 || Leaf.h tr.leaf || !Leaf.w tr.leaf
        | .error _ => false
      if bad then .refuse s
      else
        match s.enginePage tn 4 (s.fabCore tn) (fabSlot tn n 1) va 5 with
        | .wait s => .wait s
        | .declined s => .refuse s
        | .tr tr =>
          match s.homeGate tr.pa k true with
          | some s => .wait s
          | none =>
            match s.recvPages tn n (va + k) (len - k) f with
            | .lines l => .lines ((tr, k) :: l)
            | e => e

/-- An engine write of PV-X1 for a tenant, at the home: a whole line clears the poison of the line it replaces, a poisoned payload
poisons the line, and any other write leaves a poisoned line as it is (R48). -/
def State.deviceWrite (s : State) (tn : Nat) (tr : Tr) (g : Gathered) (t : Bool) : State :=
  let line := tr.pa / 128
  let s := (s.applyAdds tr.pa g.got.length).touchLine line
  if g.poison then (if Leaf.sw tr.leaf then s else s.gather line).spoilLine line
  else
    let s : State := if g.whole then { s with mem := s.mem.setPoison line false } else s
    if s.mem.poisoned line then s
    else
      ((g.words tr.pa).foldl (fun (s : State) w =>
        if (g.bytesOf tr.pa w).isEmpty then s
        else
          let s := if Leaf.sw tr.leaf then s else s.settleWord w
          s.setHome w (s.entryStore tn (8 * w) (s.mem.word w) (g.word tr.pa t w (s.mem.word w)))) s).pokeRings tn line

/-- The payload is written at its home, line by line. -/
def State.recvWrite (s : State) (tn : Nat) (bs : List Nat) (t q : Bool) (l : List (Tr × Nat)) : State :=
  match l with
  | [] => s
  | (tr, k) :: r =>
    let g : Gathered := ⟨(bs.take k).map (fun b => some (b, t)), none, q⟩
    (s.deviceWrite tn tr g t).recvWrite tn (bs.drop k) t q r

/-- A frame has been performed: the next is expected, the record when the transfer asks for one, and an ACK every 16. -/
def State.received (s : State) (tn n flags tag len : Nat) : State :=
  let s := s.modConn tn n (fun c => { c with expect := c.expect + 1, unack := c.unack + 1, got := c.got + len })
  let s := if flags % 2 = 1 then
      let b := (s.conn tn n).got
      let s := if flags / 2 % 2 = 1 then s.fabricRec tn n 0 tag b else s
      s.modConn tn n (fun c => { c with got := 0 })
    else s
  if 16 ≤ (s.conn tn n).unack then s.sendAck tn n else s.postOnce (evt .ackTimer [tn, n])

/-- A NACK of the frame that is expected. -/
def State.sendNack (s : State) (tn n reason : Nat) : State := s.sendShort tn n 3 reason (s.conn tn n).expect

/-- DATA: the frame is checked, written and acknowledged, in PSN order. One that waits for a page holds back those after it. -/
def execDataFrame (s : State) : Out :=
  let tn := s.argN 0
  let n := s.argN 1
  let flags := s.argN 2
  let off := s.argN 4
  let len := s.argN 6
  let s := s.fabAdds tn n
  match s.discards tn with
  | some s => .next s
  | none =>
    if !s.isOpen tn n || !s.fabricOn tn then .next (s.sendNack tn n 4)
    else
      let e := (s.conn tn n).expect % 2 ^ 32
      let d := (s.argN 3 + 2 ^ 32 - e) % 2 ^ 32
      if 2 ^ 31 ≤ d then .next (s.sendAck tn n)
      else if d ≠ 0 then
        if s.due.any (fun x => x.ev = .dataFrame && nthD x.arg.nums 0 0 = tn && nthD x.arg.nums 1 0 = n && nthD x.arg.nums 3 0 = e)
        then .next (s.again .dataFrame) else .next (s.sendNack tn n 1)
      else
        let va := s.fabVa tn n
        let wlen := (s.peekVa tn (va + 16)).v.bits 39 0
        if wlen < off + len then .next (s.sendNack tn n 2)
        else
          let base := (s.peekVa tn (va + 8)).v.bits 56 0
          match s.recvPages tn n ((base + off) % 2 ^ 57) len 34 with
          | .refuse s => .next (s.sendNack tn n 3)
          | .wait s => .next (s.again .dataFrame)
          | .lines l =>
            let bs := (s.arg.vals.flatMap (fun w => leBytes 8 w.v.toNat)).take len
            .next ((s.recvWrite tn bs (flags / 4 % 2 = 1) (flags / 8 % 2 = 1) l).received tn n flags (s.argN 5) len)

/-! ### Opening and closing (R328) -/

/-- FCOPEN with O = 1: a closed entry starts to open. -/
def execFcopenOpen (s : State) : Out :=
  let tn := s.argN 0
  let n := s.argN 1
  let s := s.fabAdds tn n
  let w := s.fabWord tn n
  if !s.doorOpen tn || !s.fabricOn tn || !entV w || entState w ≠ 0 then .next s
  else
    let s := (s.setEntState tn n 1).modConn tn n (fun c => { Conn.reset with xfers := c.xfers, tries := 1, since := s.now })
    .next ((s.sendShort tn n 4 0 0).postOnce (evt .connectRetryTimer [tn, n]))

/-- FCOPEN with O = 0: once every transfer has completed, the connection is closed. -/
def execFcopenClose (s : State) : Out :=
  let tn := s.argN 0
  let n := s.argN 1
  let s := s.fabAdds tn n
  let w := s.fabWord tn n
  if !s.doorOpen tn || !entV w || entState w = 0 then .next s
  else if !(s.conn tn n).xfers.isEmpty then .next (s.again .fcopenClose)
  else .next ((s.sendShort tn n 7 0 0).setEntState tn n 0)

/-- The connection becomes open, with its record. -/
def State.opened (s : State) (tn n : Nat) : State :=
  if s.isOpen tn n then s
  else
    ((s.setEntState tn n 2).modConn tn n (fun c => { Conn.reset with xfers := c.xfers, prog := s.now })).fabricRec tn n 1 0 0

/-- CONNECT: answered ACCEPT when the entry names the opener back, else REFUSE. -/
def execConnect (s : State) : Out :=
  let tn := s.argN 0
  let n := s.argN 1
  let s := s.fabAdds tn n
  match s.discards tn with
  | some s => .next s
  | none =>
    let w := s.fabWord tn n
    if entV w && s.fabricOn tn && entMod w = s.argN 2 && entTen w = s.argN 3 && entCon w = s.argN 4 then
      .next ((s.opened tn n).sendShort tn n 5 0 0)
    else
      .next (s.sendFrame 0 (s.argN 2) 0 (fabHeader 6 0 0 (endpoint (s.argN 2) (s.argN 3))
        (endpoint (s.boot.fabid.getD 0) tn) (s.argN 4) n 0 0 0 0))

/-- ACCEPT: the opener's connection is open. -/
def execAccept (s : State) : Out :=
  let tn := s.argN 0
  let n := s.argN 1
  let s := s.fabAdds tn n
  match s.discards tn with
  | some s => .next s
  | none => if entV (s.fabWord tn n) && entState (s.fabWord tn n) = 1 then .next (s.opened tn n) else .next s

/-- The opener gives up. -/
def State.refused (s : State) (tn n : Nat) : State := (s.setEntState tn n 3).fabricRec tn n 2 0 0

/-- REFUSE. -/
def execRefuse (s : State) : Out :=
  let tn := s.argN 0
  let n := s.argN 1
  let s := s.fabAdds tn n
  match s.discards tn with
  | some s => .next s
  | none => if entV (s.fabWord tn n) && entState (s.fabWord tn n) = 1 then .next (s.refused tn n) else .next s

/-- CLOSE: the peer has closed. -/
def execCloseFrame (s : State) : Out :=
  let tn := s.argN 0
  let n := s.argN 1
  let s := s.fabAdds tn n
  match s.discards tn with
  | some s => .next s
  | none => if s.isOpen tn n then .next (s.failConn tn n) else .next s

/-- CONNECT_RETRY_TIMER: CONNECT frames go out 2^24 cycles apart, eight in all. -/
def execConnectRetryTimer (s : State) : Out :=
  let tn := s.argN 0
  let n := s.argN 1
  let c := s.conn tn n
  if !(entV (s.fabWord tn n) && entState (s.fabWord tn n) = 1) then .next s
  else if s.now < c.since + 2 ^ 24 then .next (s.again .connectRetryTimer)
  else if 8 ≤ c.tries then .next (s.refused tn n)
  else
    .next (((s.modConn tn n (fun c => { c with tries := c.tries + 1, since := s.now })).sendShort tn n 4 0 0).again
      .connectRetryTimer)

/-! ### Ports and the module's number -/

/-- PORT_LINK_DOWN: the connections that sent on the port move to another and send their unacknowledged frames again. -/
def execPortLinkDown (s : State) : Out :=
  let p := s.argN 0
  let moved := s.tenants.flatMap (fun t => (t.2.conns.filter (fun c =>
    s.isOpen t.1 c.1 && s.portOf (entPorts (s.fabWord t.1 c.1)) = some p)).map (fun c => (t.1, c.1)))
  let s := { s with boot := { s.boot with ports := setNth s.boot.ports p false } }
  .next (moved.foldl (fun s x => s.sendWindow x.1 x.2) s)

/-- PORT_LINK_UP: the port works again. -/
def execPortLinkUp (s : State) : Out := .next { s with boot := { s.boot with ports := setNth s.boot.ports (s.argN 0) true } }

/-- FABID_ASSIGN: Apex writes the module's number. -/
def execFabidAssign (s : State) : Out := .next { s with boot := { s.boot with fabid := some (s.argN 0 % 2 ^ 21) } }

end Sys2Proof.Machine
end

