-- ==== Sys2Proof/Machine/Boot.lean ====
section
/-!
DEFINITION. Sys2Proof/Machine/Boot.lean: attestation, the states of a tenant's device interface, and bring-up, reset and power
(R242, R333 to R337).
-/
namespace Sys2Proof.Machine
open Sys2Proof

/-! ### SPDM (R333). A response is a request number (in the order of R333) and a value; what the value is where the
specification states none is a free value. -/

def State.respondWith (s : State) (code v : Nat) : State :=
  { s with boot := { s.boot with responses := s.boot.responses ++ [(code, v)] } }

/-- A response whose contents the specification does not state. -/
def State.respondFree (s : State) (code : Nat) : State :=
  let (v, s) := s.freeVal
  s.respondWith code v.toNat

/-- A signed response: an Ed25519 signature and an ML-DSA-65 signature over the same transcript. -/
def State.respondSigned (s : State) (code : Nat) : State := (s.respondFree code).respondFree code

/-- GET_VERSION: SPDM 1.3. -/
def execGetVersion (s : State) : Out := .next (s.respondWith 0 0x13)
def execGetCapabilities (s : State) : Out := .next (s.respondFree 1)

/-- NEGOTIATE_ALGORITHMS: Ed25519 and SHA-384 are agreed. -/
def execNegotiateAlgorithms (s : State) : Out :=
  .next (({ s with boot := { s.boot with spdm := 1 } } : State).respondFree 2)
def execGetDigests (s : State) : Out := .next (s.respondFree 3)
def execGetCertificate (s : State) : Out := .next (s.respondFree 4)
def execChallenge (s : State) : Out := .next (s.respondSigned 5)

/-- The measurement blocks there are: 1 to 13, and 16 + t. -/
def measured (i : Nat) : Bool := (1 ≤ i && i ≤ 13) || (16 ≤ i && i ≤ 31)

/-- GET_MEASUREMENTS: the block asked for, in a signed response; an index with no block gets none. -/
def execGetMeasurements (s : State) : Out :=
  if measured (s.argN 0) then .next ((s.respondFree 6).respondSigned 6) else .next s

/-- KEY_EXCHANGE: a session begins its handshake. -/
def execKeyExchange (s : State) : Out :=
  .next (({ s with boot := { s.boot with session := 1 } } : State).respondSigned 7)

/-- FINISH: the handshake is complete. -/
def execSpdmFinish (s : State) : Out :=
  if s.boot.session = 1 then .next (({ s with boot := { s.boot with session := 2 } } : State).respondFree 8) else .next s

/-- END_SESSION. -/
def execEndSession (s : State) : Out :=
  if s.boot.session = 0 then .next s
  else .next (({ s with boot := { s.boot with session := 0 } } : State).respondFree 9)

/-! ### TDISP (R334): 0 CONFIG_UNLOCKED, 1 CONFIG_LOCKED, 2 RUN, 3 ERROR -/

/-- LOCK_INTERFACE_REQUEST. -/
def execLockInterfaceRequest (s : State) : Out :=
  if (s.tenant (s.argN 0)).tdi = 0 then .next (s.modTenant (s.argN 0) (fun t => { t with tdi := 1, locked := true })) else .next s

/-- START_INTERFACE_REQUEST. -/
def execStartInterfaceRequest (s : State) : Out :=
  if (s.tenant (s.argN 0)).tdi = 1 then .next (s.modTenant (s.argN 0) (fun t => { t with tdi := 2 })) else .next s

/-- The cores of a tenant's quadrants, the fenced ones too. -/
def State.allCoresOf (s : State) (tn : Nat) : List Nat :=
  (s.tenant tn).slices.flatMap (fun cl => (List.range 8).map (fun j => 8 * cl + j))

/-- TDI_ERROR: a locked interface enters ERROR, and its threads stop as Apex stops them (R243). -/
def execTdiError (s : State) : Out :=
  let tn := s.argN 0
  let t := s.tenant tn
  if t.tdi = 1 || t.tdi = 2 then
    let s := s.modTenant tn (fun t => { t with tdi := 3 })
    .next ((s.allCoresOf tn).foldl (fun s c => (s.core c).slots.foldl (fun s p => match s.thread? c p.1 with
      | some u => (match u.run with
        | .stopped _ => s
        | _ => s.askStop c p.1 u)
      | none => s) s) s)
  else .next s

/-- A core loses every thread and continuation; what its threads claimed is free again, and commands that wait for the Lattice's
queue go with them. -/
def Core.discarded (x : Core) : Core :=
  { x with
    slots := x.slots.map (fun p => (p.1, { p.2 with occ := .vacant })), rf := [], fifo := [], spawns := [], launch := none,
    lqWait := [], inp := x.inp.map (fun p => { p with owner := none }),
    outp := x.outp.map (fun p => { p with owner := none, bound := false, opened := false, abort := false }) }

/-- TDI_UNLOCK: the host returns the interface to CONFIG_UNLOCKED. Every thread, continuation and launch is discarded, the
tenant-scope registers are reset to 0, and launch and group ids start afresh (R219, R228, R242). -/
def execTdiUnlock (s : State) : Out :=
  let tn := s.argN 0
  if (s.tenant tn).tdi = 0 then .next s
  else
    let s := (s.addl.filter (fun p => p.2.tenant = tn)).foldl (fun s p => s.applyList p.1) s
    let s : State := { s with addl := s.addl.filter (fun p => p.2.tenant ≠ tn) }
    let s := (s.allCoresOf tn).foldl (fun s c =>
      let l := (s.core c).lost
      let s := s.modCore c Core.discarded
      l.foldl (fun s p => s.releaseTiles c (s.tid c p.1 p.2)) s) s
    .next (s.modTenant tn (fun t => { t with
      tdi := 0, locked := false, trapvec := 0, ttroot := 0, savebase := 0, savesize := 0, cvquota := 0, tntctl := 0,
      launches := [], nextLaunch := 0, groups := [], nextGroup := 1, pool := [] }))

/-! ### Bring-up (R335, R336) -/

/-- POWER_GOOD: stage 1 ends well, the boot ROM runs (stage 2), and the firmware checks begin (stage 3). -/
def execPowerGood (s : State) : Out :=
  if s.boot.stage = 0 && s.boot.err = 0 then .next { s with boot := { s.boot with stage := 3 } } else .next s

/-- RAIL_TIMEOUT: a rail fails in stage 1. -/
def execRailTimeout (s : State) : Out :=
  if s.boot.stage = 0 && s.boot.err = 0 then .next (({ s with boot := { s.boot with stage := 1 } } : State).bootFails 1)
  else .next s

/-- FIRMWARE_CHECK: an image is loaded only when both signatures verify under the fused keys, the digest matches the body, and
its version is at least the fused counter; a refused image stops the boot with its index in detail. -/
def execFirmwareCheck (s : State) : Out :=
  let b := s.boot
  if b.stage ≠ 3 || b.err ≠ 0 then .next s
  else if s.argN 1 = b.fuseEd && s.argN 2 = b.fuseMl && s.argN 3 = 1 && b.fuseVer ≤ s.argN 4 then
    .next ({ s with boot := { b with images := SMap.set b.images (s.argN 0) (s.argN 4) } } : State).advanceBoot
  else .next { s with boot := b.fail (s.argN 0) }

/-- HBM_TRAINING: every stack trains and holds at least 96 GB, or the boot stops. The HDM range (R319) is mapped to device
memory in granules of 256 MiB, as Apex chooses. -/
def execHbmTraining (s : State) : Out :=
  if s.boot.stage ≠ 7 || s.boot.err ≠ 0 then .next s
  else if s.argN 0 < 8 || s.argN 1 < 96000000000 then .next (s.bootFails 7)
  else
    let s := (List.range 4).foldl (fun s d => s.modDie d (fun x => { x with trained := true })) s
    let hdm := ((s.arg.vals.take 2048).zipIdx.map (fun p => (p.2, p.1.v.toNat % 2 ^ 12))).filter
      (fun p => populated (p.2 * 2 ^ 28 + 2 ^ 28 - 1))
    .next { s with boot := { s.boot with stage := 8, hdm := hdm } }

/-- CXL_LINK_UP: stage 8 ends, and the device is ready. -/
def execCxlLinkUp (s : State) : Out :=
  if s.boot.stage = 8 && s.boot.err = 0 then .next { s with boot := { s.boot with stage := 9, rdy := true } } else .next s

/-- CXL_LINK_TRAINING_FAIL. -/
def execCxlLinkTrainingFail (s : State) : Out := .next (s.bootFails 8)

/-- CXL_CONFIG_REQUEST: before stage 8 ends it is answered with Configuration Request Retry Status. -/
def execCxlConfigRequest (s : State) : Out :=
  if s.boot.stage < 9 then .next { s with boot := { s.boot with cfgRetry := s.boot.cfgRetry + 1 } } else .next s

/-! ### Reset, power and tenants -/

/-- A reset of the module (R99): the bridge first writes every M half to the host; host memory, the fuses and the counter that
free values are drawn with are what remains. -/
def State.moduleReset (s : State) : State :=
  let s := (s.halves.filter (fun p => p.2.st = 3)).foldl (fun s p => s.gather (hostBase / 128 + p.1 / 2)) s
  { State.reset with
    mem := { Mem.empty with bytes := s.mem.bytes.filter (fun b => hostBase ≤ b.1) }, tick := s.tick,
    boot := { Boot.reset with fuseVer := s.boot.fuseVer, fuseEd := s.boot.fuseEd, fuseMl := s.boot.fuseMl } }

/-- A reset of PV-X0 alone (R99): the bridge writes every M half to the host, and every half becomes I. What else such a reset does
is not stated, and nothing else changes (DESIGN CHOICE, log entry 82). It waits for a line in transition. -/
def State.bridgeReset (s : State) : Out :=
  if s.halves.any (fun p => s.lineBusy (lineOfHalf p.1)) then .next (s.again .moduleReset)
  else .next { s.halves.foldl (fun (s : State) p => s.gather (lineOfHalf p.1)) s with halves := [] }

/-- MODULE_RESET: of the whole module (0), or of PV-X0 alone (1). -/
def execModuleReset (s : State) : Out := if s.argN 0 = 1 then s.bridgeReset else .next s.moduleReset

/-- POWER_OVERLOAD: Apex resets the module, and every TDI enters ERROR (R337). -/
def execPowerOverload (s : State) : Out :=
  .next { s.moduleReset with tenants := s.tenants.map (fun p => (p.1, { Tenant.reset with quads := p.2.quads, tdi := 3 })) }

/-- A cluster holds no thread and no continuation. -/
def State.clusterIdle (s : State) (cl : Nat) : Bool :=
  (List.range 8).all (fun j =>
    let x := s.core (8 * cl + j)
    x.lost.isEmpty && x.fifo.isEmpty && x.spawns.isEmpty)

/-- CLUSTER_POWER_GATE: Apex gates a cluster that no tenant's quadrant includes and that is idle; the rows of a STREAM region
lie in slices of its tenant's quadrants (R195). What the cluster holds of host lines is written back first (R99). -/
def execClusterPowerGate (s : State) : Out :=
  let cl := s.argN 0
  if (s.ownerOf cl).isSome || !s.clusterIdle cl then .next s
  else
    let held := (s.copies.filter (fun p =>
      hostBase / 128 ≤ p.1 / 4096 && (p.1 % 4096 = cl || (256 ≤ p.1 % 4096 && (p.1 % 4096 - 256) / 8 = cl)))).map
        (fun p => p.1 / 4096)
    let s := held.foldl (fun s l => s.gather l) s
    let ws := (s.regw.filter (fun p => hostBase / 8 ≤ p.1 && p.2.core / 8 = cl)).map Prod.fst
    let s := ws.foldl (fun s w => s.unregister w) s
    .next (s.modCluster cl (fun x => { x with gated := true }))

/-- TENANT_CREATED: Apex creates a tenant with its quadrants and its second-stage table: each word gives the IA of a 64 KiB
frame, divided by 64 KiB, in [63:32] and the frame's device address, divided alike, in [31:0]. A frame must be populated, lie on
a die of the tenant, in no other window and not among those that Chord has drawn (R43, R45, R71). Its frames enter it zeroed, its
registers are 0 and its launch and group ids start afresh (R45, R219, R228, R242, R263). -/
def execTenantCreated (s : State) : Out :=
  let tn := s.argN 0
  let qs := s.arg.nums.drop 1
  let taken : Bool := s.tenants.any (fun p => p.1 = tn || p.2.quads.any (fun q => qs.contains q))
  if taken || 16 ≤ tn || qs.isEmpty || qs.any (fun q => 16 ≤ q) then .next s
  else
    let ok := fun (f : Nat) => populated (65536 * f + 65535) && qs.any (fun q => dieOfQuad q = f / 2 ^ 22)
      && !s.tenants.any (fun p => p.2.window.any (fun e => e.2 = f)) && !(s.die (f / 2 ^ 22)).frames.contains f
    let win : SMap Nat := (s.arg.vals.filter (fun w => ok (w.v.bits 31 0))).foldl
      (fun m w => SMap.set m (w.v.bits 63 32) (w.v.bits 31 0)) []
    let fresh := fun (a : Nat) => !win.any (fun p => p.2 = a)
    let mem : Mem := { bytes := s.mem.bytes.filter (fun b => fresh (b.1 / 65536)),
                       taint := s.mem.taint.filter (fun w => fresh (w / 8192)),
                       poison := s.mem.poison.filter (fun l => fresh (l / 512)) }
    let s : State := { s with mem := mem, addl := s.addl.filter (fun p => fresh (p.1 / 8192)) }
    let s := (qs.flatMap quadClusters).foldl (fun s cl => s.modCluster cl (fun x => { x with gated := false })) s
    .next (s.setTenant tn { Tenant.reset with quads := qs, window := win })

end Sys2Proof.Machine
end

