-- ==== Sys2Proof/Machine/Branch.lean ====
section
/-!
DEFINITION. Sys2Proof/Machine/Branch.lean: branches, calls and jumps (R14, R153).
-/
namespace Sys2Proof.Machine
open Sys2Proof

/-- A branch target: pc + 2·imm, as an offset of 64 bits in s0. -/
def branchTarget (t : Thread) (f : Fields) : Nat := (w64 t.pc + w64i (2 * f.imm)).toNat

/-- A conditional branch on g[d]. -/
def branchIf (i : Instr) (f : Fields) (s : State) (p : Word → Bool) : Out :=
  issue i s (fun c k t s =>
    let (v, s) := s.readVals i c k t f
    (s.settle c k).goto c k (if p v.d.v then branchTarget t f else s.next))

def execBr (f : Fields) (s : State) : Out :=
  issue (.br f) s (fun c k t s => (s.settle c k).goto c k (branchTarget t f))

/-- CALL: g1 takes the return address, untainted. -/
def execCall (f : Fields) (s : State) : Out :=
  issue (.call f) s (fun c k t s => ((s.setG c t 1 ⟨w64 s.next, false⟩).settle c k).goto c k (branchTarget t f))

/-- JR: the target is read before the link is written; an odd target raises ALIGN with nothing written. A popped operand
keeps its word when the trap is taken, since nothing has changed (R38). -/
def execJr (f : Fields) (s : State) : Out :=
  issue (.jr f) s (fun c k t s =>
    let (v, s') := s.readVals (.jr f) c k t f
    if v.a.v.toNat % 2 = 1 then s.raise c k tALIGN v.a.v 0
    else
      let s' := if f.d ≠ 0 || f.sd then s'.writeD c k t f ⟨w64 s.next, false⟩ else s'
      (s'.settle c k).goto c k v.a.v.toNat)

def execBz (f : Fields) (s : State) : Out := branchIf (.bz f) f s (fun d => d = 0)
def execBnz (f : Fields) (s : State) : Out := branchIf (.bnz f) f s (fun d => d ≠ 0)
def execBltz (f : Fields) (s : State) : Out := branchIf (.bltz f) f s (fun d => d.msb)
def execBgez (f : Fields) (s : State) : Out := branchIf (.bgez f) f s (fun d => !d.msb)

end Sys2Proof.Machine
end

