-- ==== Sys2Proof/Machine/Dispatch.lean ====
section
/-!
DEFINITION. Sys2Proof/Machine/Dispatch.lean: one arm for each constructor of Instr.
-/
namespace Sys2Proof.Machine
open Sys2Proof

def exec (i : Instr) (s : State) : Host.Outcome State Fault Refusal :=
  match i with
  | .nop f => Sys2Proof.Machine.execNop f s
  | .mov f => Sys2Proof.Machine.execMov f s
  | .movk f => Sys2Proof.Machine.execMovk f s
  | .movkh f => Sys2Proof.Machine.execMovkh f s
  | .add f => Sys2Proof.Machine.execAdd f s
  | .sub f => Sys2Proof.Machine.execSub f s
  | .addk f => Sys2Proof.Machine.execAddk f s
  | .neg f => Sys2Proof.Machine.execNeg f s
  | .mul f => Sys2Proof.Machine.execMul f s
  | .mulh f => Sys2Proof.Machine.execMulh f s
  | .div f => Sys2Proof.Machine.execDiv f s
  | .rem f => Sys2Proof.Machine.execRem f s
  | .andOp f => Sys2Proof.Machine.execAndOp f s
  | .orOp f => Sys2Proof.Machine.execOrOp f s
  | .xor f => Sys2Proof.Machine.execXor f s
  | .andn f => Sys2Proof.Machine.execAndn f s
  | .notOp f => Sys2Proof.Machine.execNotOp f s
  | .shl f => Sys2Proof.Machine.execShl f s
  | .shr f => Sys2Proof.Machine.execShr f s
  | .sar f => Sys2Proof.Machine.execSar f s
  | .shlk f => Sys2Proof.Machine.execShlk f s
  | .shrk f => Sys2Proof.Machine.execShrk f s
  | .sark f => Sys2Proof.Machine.execSark f s
  | .minOp f => Sys2Proof.Machine.execMinOp f s
  | .maxOp f => Sys2Proof.Machine.execMaxOp f s
  | .cmpeq f => Sys2Proof.Machine.execCmpeq f s
  | .cmpne f => Sys2Proof.Machine.execCmpne f s
  | .cmplt f => Sys2Proof.Machine.execCmplt f s
  | .cmple f => Sys2Proof.Machine.execCmple f s
  | .sel f => Sys2Proof.Machine.execSel f s
  | .clz f => Sys2Proof.Machine.execClz f s
  | .popc f => Sys2Proof.Machine.execPopc f s
  | .bfx f => Sys2Proof.Machine.execBfx f s
  | .bfi f => Sys2Proof.Machine.execBfi f s
  | .sext f => Sys2Proof.Machine.execSext f s
  | .br f => Sys2Proof.Machine.execBr f s
  | .call f => Sys2Proof.Machine.execCall f s
  | .jr f => Sys2Proof.Machine.execJr f s
  | .bz f => Sys2Proof.Machine.execBz f s
  | .bnz f => Sys2Proof.Machine.execBnz f s
  | .bltz f => Sys2Proof.Machine.execBltz f s
  | .bgez f => Sys2Proof.Machine.execBgez f s
  | .ldg f => Sys2Proof.Machine.execLdg f s
  | .stg f => Sys2Proof.Machine.execStg f s
  | .ldl f => Sys2Proof.Machine.execLdl f s
  | .stl f => Sys2Proof.Machine.execStl f s
  | .ldlp f => Sys2Proof.Machine.execLdlp f s
  | .stlp f => Sys2Proof.Machine.execStlp f s
  | .ldacq f => Sys2Proof.Machine.execLdacq f s
  | .strel f => Sys2Proof.Machine.execStrel f s
  | .fence f => Sys2Proof.Machine.execFence f s
  | .fenceX f => Sys2Proof.Machine.execFenceX f s
  | .fenceA f => Sys2Proof.Machine.execFenceA f s
  | .fenceS f => Sys2Proof.Machine.execFenceS f s
  | .pref f => Sys2Proof.Machine.execPref f s
  | .scopeo f => Sys2Proof.Machine.execScopeo f s
  | .scopec f => Sys2Proof.Machine.execScopec f s
  | .pset f => Sys2Proof.Machine.execPset f s
  | .pget f => Sys2Proof.Machine.execPget f s
  | .padd f => Sys2Proof.Machine.execPadd f s
  | .vadd f => Sys2Proof.Machine.execVadd f s
  | .vsub f => Sys2Proof.Machine.execVsub f s
  | .vmul f => Sys2Proof.Machine.execVmul f s
  | .vfma f => Sys2Proof.Machine.execVfma f s
  | .vmin f => Sys2Proof.Machine.execVmin f s
  | .vmax f => Sys2Proof.Machine.execVmax f s
  | .vabs f => Sys2Proof.Machine.execVabs f s
  | .vneg f => Sys2Proof.Machine.execVneg f s
  | .vrcp f => Sys2Proof.Machine.execVrcp f s
  | .vrsq f => Sys2Proof.Machine.execVrsq f s
  | .vexp2 f => Sys2Proof.Machine.execVexp2 f s
  | .vlog2 f => Sys2Proof.Machine.execVlog2 f s
  | .vcvt f => Sys2Proof.Machine.execVcvt f s
  | .vcmp f => Sys2Proof.Machine.execVcmp f s
  | .vsel f => Sys2Proof.Machine.execVsel f s
  | .vradd f => Sys2Proof.Machine.execVradd f s
  | .vrmax f => Sys2Proof.Machine.execVrmax f s
  | .vbcst f => Sys2Proof.Machine.execVbcst f s
  | .vlane f => Sys2Proof.Machine.execVlane f s
  | .vperm f => Sys2Proof.Machine.execVperm f s
  | .vand f => Sys2Proof.Machine.execVand f s
  | .vor f => Sys2Proof.Machine.execVor f s
  | .vxor f => Sys2Proof.Machine.execVxor f s
  | .vshl f => Sys2Proof.Machine.execVshl f s
  | .vshr f => Sys2Proof.Machine.execVshr f s
  | .vldl f => Sys2Proof.Machine.execVldl f s
  | .vstl f => Sys2Proof.Machine.execVstl f s
  | .vldg f => Sys2Proof.Machine.execVldg f s
  | .vstg f => Sys2Proof.Machine.execVstg f s
  | .vgath f => Sys2Proof.Machine.execVgath f s
  | .vscat f => Sys2Proof.Machine.execVscat f s
  | .vscale f => Sys2Proof.Machine.execVscale f s
  | .vclamp f => Sys2Proof.Machine.execVclamp f s
  | .fadd f => Sys2Proof.Machine.execFadd f s
  | .fsub f => Sys2Proof.Machine.execFsub f s
  | .fmul f => Sys2Proof.Machine.execFmul f s
  | .ffma f => Sys2Proof.Machine.execFfma f s
  | .fmin f => Sys2Proof.Machine.execFmin f s
  | .fmax f => Sys2Proof.Machine.execFmax f s
  | .fcmp f => Sys2Proof.Machine.execFcmp f s
  | .fcvt f => Sys2Proof.Machine.execFcvt f s
  | .frcp f => Sys2Proof.Machine.execFrcp f s
  | .frsq f => Sys2Proof.Machine.execFrsq f s
  | .bpack f => Sys2Proof.Machine.execBpack f s
  | .bunpk f => Sys2Proof.Machine.execBunpk f s
  | .plxp f => Sys2Proof.Machine.execPlxp f s
  | .pldot f => Sys2Proof.Machine.execPldot f s
  | .mfmt f => Sys2Proof.Machine.execMfmt f s
  | .mzero f => Sys2Proof.Machine.execMzero f s
  | .mma f => Sys2Proof.Machine.execMma f s
  | .mstore f => Sys2Proof.Machine.execMstore f s
  | .mstat f => Sys2Proof.Machine.execMstat f s
  | .mtest f => Sys2Proof.Machine.execMtest f s
  | .mfree f => Sys2Proof.Machine.execMfree f s
  | .vwnew f => Sys2Proof.Machine.execVwnew f s
  | .vwdup f => Sys2Proof.Machine.execVwdup f s
  | .vwsplit f => Sys2Proof.Machine.execVwsplit f s
  | .vwnarrow f => Sys2Proof.Machine.execVwnarrow f s
  | .vwdrop f => Sys2Proof.Machine.execVwdrop f s
  | .vwinfo f => Sys2Proof.Machine.execVwinfo f s
  | .ldv f => Sys2Proof.Machine.execLdv f s
  | .stv f => Sys2Proof.Machine.execStv f s
  | .sanew f => Sys2Proof.Machine.execSanew f s
  | .saadd f => Sys2Proof.Machine.execSaadd f s
  | .saread f => Sys2Proof.Machine.execSaread f s
  | .sainfo f => Sys2Proof.Machine.execSainfo f s
  | .saevict f => Sys2Proof.Machine.execSaevict f s
  | .safree f => Sys2Proof.Machine.execSafree f s
  | .amoadd f => Sys2Proof.Machine.execAmoadd f s
  | .amoand f => Sys2Proof.Machine.execAmoand f s
  | .amoor f => Sys2Proof.Machine.execAmoor f s
  | .amoxor f => Sys2Proof.Machine.execAmoxor f s
  | .amomin f => Sys2Proof.Machine.execAmomin f s
  | .amomax f => Sys2Proof.Machine.execAmomax f s
  | .amoswap f => Sys2Proof.Machine.execAmoswap f s
  | .amocas f => Sys2Proof.Machine.execAmocas f s
  | .amofadd f => Sys2Proof.Machine.execAmofadd f s
  | .cflush f => Sys2Proof.Machine.execCflush f s
  | .cinv f => Sys2Proof.Machine.execCinv f s
  | .pghot f => Sys2Proof.Machine.execPghot f s
  | .pgmig f => Sys2Proof.Machine.execPgmig f s
  | .xlate f => Sys2Proof.Machine.execXlate f s
  | .setcoh f => Sys2Proof.Machine.execSetcoh f s
  | .spawn f => Sys2Proof.Machine.execSpawn f s
  | .yield f => Sys2Proof.Machine.execYield f s
  | .exit f => Sys2Proof.Machine.execExit f s
  | .tid f => Sys2Proof.Machine.execTid f s
  | .join f => Sys2Proof.Machine.execJoin f s
  | .leave f => Sys2Proof.Machine.execLeave f s
  | .grpinfo f => Sys2Proof.Machine.execGrpinfo f s
  | .syinit f => Sys2Proof.Machine.execSyinit f s
  | .syacq f => Sys2Proof.Machine.execSyacq f s
  | .sytry f => Sys2Proof.Machine.execSytry f s
  | .syrel f => Sys2Proof.Machine.execSyrel f s
  | .sydlg f => Sys2Proof.Machine.execSydlg f s
  | .syarv f => Sys2Proof.Machine.execSyarv f s
  | .sywait f => Sys2Proof.Machine.execSywait f s
  | .symode f => Sys2Proof.Machine.execSymode f s
  | .hbarv f => Sys2Proof.Machine.execHbarv f s
  | .hbwait f => Sys2Proof.Machine.execHbwait f s
  | .hbcfg f => Sys2Proof.Machine.execHbcfg f s
  | .cpy f => Sys2Proof.Machine.execCpy f s
  | .cpy2d f => Sys2Proof.Machine.execCpy2d f s
  | .cpyq f => Sys2Proof.Machine.execCpyq f s
  | .sdesc f => Sys2Proof.Machine.execSdesc f s
  | .sdstop f => Sys2Proof.Machine.execSdstop f s
  | .swinit f => Sys2Proof.Machine.execSwinit f s
  | .swwait f => Sys2Proof.Machine.execSwwait f s
  | .qcfg f => Sys2Proof.Machine.execQcfg f s
  | .qstat f => Sys2Proof.Machine.execQstat f s
  | .nopen f => Sys2Proof.Machine.execNopen f s
  | .nsende f => Sys2Proof.Machine.execNsende f s
  | .nstat f => Sys2Proof.Machine.execNstat f s
  | .waitm f => Sys2Proof.Machine.execWaitm f s
  | .msgrd f => Sys2Proof.Machine.execMsgrd f s
  | .msgsend f => Sys2Proof.Machine.execMsgsend f s
  | .msgcnt f => Sys2Proof.Machine.execMsgcnt f s
  | .bkmode f => Sys2Proof.Machine.execBkmode f s
  | .bkinfo f => Sys2Proof.Machine.execBkinfo f s
  | .trap f => Sys2Proof.Machine.execTrap f s
  | .rett f => Sys2Proof.Machine.execRett f s
  | .rdsr f => Sys2Proof.Machine.execRdsr f s
  | .wrsr f => Sys2Proof.Machine.execWrsr f s
  | .segld f => Sys2Proof.Machine.execSegld f s
  | .segrd f => Sys2Proof.Machine.execSegrd f s
  | .ctxsv f => Sys2Proof.Machine.execCtxsv f s
  | .ctxld f => Sys2Proof.Machine.execCtxld f s
  | .brk f => Sys2Proof.Machine.execBrk f s
  | .tntrd f => Sys2Proof.Machine.execTntrd f s
  | .tntclr f => Sys2Proof.Machine.execTntclr f s
  | .perfrd f => Sys2Proof.Machine.execPerfrd f s
  | .svcall f => Sys2Proof.Machine.execSvcall f s
  | .pghash f => Sys2Proof.Machine.execPghash f s
  | .longLatencyComplete => Sys2Proof.Machine.execLongLatencyComplete s
  | .instructionWake => Sys2Proof.Machine.execInstructionWake s
  | .trapDelivery => Sys2Proof.Machine.execTrapDelivery s
  | .deferredTrap => Sys2Proof.Machine.execDeferredTrap s
  | .storeBufferDrain => Sys2Proof.Machine.execStoreBufferDrain s
  | .storeRegistration => Sys2Proof.Machine.execStoreRegistration s
  | .registrationAck => Sys2Proof.Machine.execRegistrationAck s
  | .recallWord => Sys2Proof.Machine.execRecallWord s
  | .recallAnswer => Sys2Proof.Machine.execRecallAnswer s
  | .registrantWriteBack => Sys2Proof.Machine.execRegistrantWriteBack s
  | .forwardedLoad => Sys2Proof.Machine.execForwardedLoad s
  | .l2Request => Sys2Proof.Machine.execL2Request s
  | .hbmFill => Sys2Proof.Machine.execHbmFill s
  | .gets => Sys2Proof.Machine.execGets s
  | .getm => Sys2Proof.Machine.execGetm s
  | .evictionNotice => Sys2Proof.Machine.execEvictionNotice s
  | .inv => Sys2Proof.Machine.execInv s
  | .invAck => Sys2Proof.Machine.execInvAck s
  | .evack => Sys2Proof.Machine.execEvack s
  | .ownerRecall => Sys2Proof.Machine.execOwnerRecall s
  | .ownerRecallAnswer => Sys2Proof.Machine.execOwnerRecallAnswer s
  | .ownershipGrant => Sys2Proof.Machine.execOwnershipGrant s
  | .leaseHeartbeat => Sys2Proof.Machine.execLeaseHeartbeat s
  | .leaseExpiry => Sys2Proof.Machine.execLeaseExpiry s
  | .leasecheck => Sys2Proof.Machine.execLeasecheck s
  | .leasecheckTimeout => Sys2Proof.Machine.execLeasecheckTimeout s
  | .hostHalfRequest => Sys2Proof.Machine.execHostHalfRequest s
  | .hostHalfResponse => Sys2Proof.Machine.execHostHalfResponse s
  | .bridgeEntryFreed => Sys2Proof.Machine.execBridgeEntryFreed s
  | .hostSnoop => Sys2Proof.Machine.execHostSnoop s
  | .wcDrainTimeout => Sys2Proof.Machine.execWcDrainTimeout s
  | .wcDrain => Sys2Proof.Machine.execWcDrain s
  | .walkStart => Sys2Proof.Machine.execWalkStart s
  | .pageWalkDone => Sys2Proof.Machine.execPageWalkDone s
  | .pfrespWrite => Sys2Proof.Machine.execPfrespWrite s
  | .xinvWrite => Sys2Proof.Machine.execXinvWrite s
  | .atsInvalidation => Sys2Proof.Machine.execAtsInvalidation s
  | .migrationCopy => Sys2Proof.Machine.execMigrationCopy s
  | .migrationDrainDone => Sys2Proof.Machine.execMigrationDrainDone s
  | .poisonDetected => Sys2Proof.Machine.execPoisonDetected s
  | .softErrorCorrected => Sys2Proof.Machine.execSoftErrorCorrected s
  | .apexWindowShrink => Sys2Proof.Machine.execApexWindowShrink s
  | .viewOpRequest => Sys2Proof.Machine.execViewOpRequest s
  | .viewCacheFetch => Sys2Proof.Machine.execViewCacheFetch s
  | .viewInvalidate => Sys2Proof.Machine.execViewInvalidate s
  | .granuleFreeStart => Sys2Proof.Machine.execGranuleFreeStart s
  | .granuleDrainDone => Sys2Proof.Machine.execGranuleDrainDone s
  | .tuCommandAccept => Sys2Proof.Machine.execTuCommandAccept s
  | .tuLineTransfer => Sys2Proof.Machine.execTuLineTransfer s
  | .syncWordCount => Sys2Proof.Machine.execSyncWordCount s
  | .cpyqPush => Sys2Proof.Machine.execCpyqPush s
  | .copydone => Sys2Proof.Machine.execCopydone s
  | .prefetchIssue => Sys2Proof.Machine.execPrefetchIssue s
  | .messageDepart => Sys2Proof.Machine.execMessageDepart s
  | .messageArrival => Sys2Proof.Machine.execMessageArrival s
  | .mxWriteWait => Sys2Proof.Machine.execMxWriteWait s
  | .creditRequest => Sys2Proof.Machine.execCreditRequest s
  | .creditGrant => Sys2Proof.Machine.execCreditGrant s
  | .queueWordArrival => Sys2Proof.Machine.execQueueWordArrival s
  | .streamWordArrival => Sys2Proof.Machine.execStreamWordArrival s
  | .streamForceClose => Sys2Proof.Machine.execStreamForceClose s
  | .scopeSpaceGrant => Sys2Proof.Machine.execScopeSpaceGrant s
  | .latticeCommandStart => Sys2Proof.Machine.execLatticeCommandStart s
  | .tileFetchLine => Sys2Proof.Machine.execTileFetchLine s
  | .planePairExecute => Sys2Proof.Machine.execPlanePairExecute s
  | .mxdone => Sys2Proof.Machine.execMxdone s
  | .tileEccError => Sys2Proof.Machine.execTileEccError s
  | .latticeSelfTest => Sys2Proof.Machine.execLatticeSelfTest s
  | .streamAddApply => Sys2Proof.Machine.execStreamAddApply s
  | .saovf => Sys2Proof.Machine.execSaovf s
  | .radiusSnapshot => Sys2Proof.Machine.execRadiusSnapshot s
  | .rowEviction => Sys2Proof.Machine.execRowEviction s
  | .rowReload => Sys2Proof.Machine.execRowReload s
  | .sadone => Sys2Proof.Machine.execSadone s
  | .admission => Sys2Proof.Machine.execAdmission s
  | .spawnRequestArrival => Sys2Proof.Machine.execSpawnRequestArrival s
  | .spawnAdmitTimeout => Sys2Proof.Machine.execSpawnAdmitTimeout s
  | .spawnAnswer => Sys2Proof.Machine.execSpawnAnswer s
  | .launchEntryTaken => Sys2Proof.Machine.execLaunchEntryTaken s
  | .poolPlanReady => Sys2Proof.Machine.execPoolPlanReady s
  | .launchCreate => Sys2Proof.Machine.execLaunchCreate s
  | .launchDone => Sys2Proof.Machine.execLaunchDone s
  | .fpWindowEnd => Sys2Proof.Machine.execFpWindowEnd s
  | .stopRequest => Sys2Proof.Machine.execStopRequest s
  | .stopTakesEffect => Sys2Proof.Machine.execStopTakesEffect s
  | .contextSaveComplete => Sys2Proof.Machine.execContextSaveComplete s
  | .coreFatalError => Sys2Proof.Machine.execCoreFatalError s
  | .apexCoreRepair => Sys2Proof.Machine.execApexCoreRepair s
  | .apexCoreFence => Sys2Proof.Machine.execApexCoreFence s
  | .ltholdSet => Sys2Proof.Machine.execLtholdSet s
  | .ltholdClear => Sys2Proof.Machine.execLtholdClear s
  | .lockAttempt => Sys2Proof.Machine.execLockAttempt s
  | .flagRetry => Sys2Proof.Machine.execFlagRetry s
  | .lockRelease => Sys2Proof.Machine.execLockRelease s
  | .lockWithdrawal => Sys2Proof.Machine.execLockWithdrawal s
  | .grant => Sys2Proof.Machine.execGrant s
  | .grantAck => Sys2Proof.Machine.execGrantAck s
  | .grantReturned => Sys2Proof.Machine.execGrantReturned s
  | .timeout => Sys2Proof.Machine.execTimeout s
  | .locusWindowEnd => Sys2Proof.Machine.execLocusWindowEnd s
  | .delegateAdmitted => Sys2Proof.Machine.execDelegateAdmitted s
  | .delegateBodyExit => Sys2Proof.Machine.execDelegateBodyExit s
  | .phaseArrival => Sys2Proof.Machine.execPhaseArrival s
  | .phaseWaitRequest => Sys2Proof.Machine.execPhaseWaitRequest s
  | .phaseLeave => Sys2Proof.Machine.execPhaseLeave s
  | .combinerForward => Sys2Proof.Machine.execCombinerForward s
  | .syncTimeoutExpiry => Sys2Proof.Machine.execSyncTimeoutExpiry s
  | .axisEpisodeComplete => Sys2Proof.Machine.execAxisEpisodeComplete s
  | .axisEpisodeTimeout => Sys2Proof.Machine.execAxisEpisodeTimeout s
  | .hashJobComplete => Sys2Proof.Machine.execHashJobComplete s
  | .hashPeriodicTimer => Sys2Proof.Machine.execHashPeriodicTimer s
  | .breakpointHit => Sys2Proof.Machine.execBreakpointHit s
  | .watchpointHit => Sys2Proof.Machine.execWatchpointHit s
  | .dres => Sys2Proof.Machine.execDres s
  | .lqwp => Sys2Proof.Machine.execLqwp s
  | .lqwaWordUpdate => Sys2Proof.Machine.execLqwaWordUpdate s
  | .lqctl => Sys2Proof.Machine.execLqctl s
  | .ringRpWrite => Sys2Proof.Machine.execRingRpWrite s
  | .fcopenOpen => Sys2Proof.Machine.execFcopenOpen s
  | .fcopenClose => Sys2Proof.Machine.execFcopenClose s
  | .fswp => Sys2Proof.Machine.execFswp s
  | .doorbellRegWrite => Sys2Proof.Machine.execDoorbellRegWrite s
  | .hostMemAccess => Sys2Proof.Machine.execHostMemAccess s
  | .bisnp => Sys2Proof.Machine.execBisnp s
  | .birsp => Sys2Proof.Machine.execBirsp s
  | .mxreq => Sys2Proof.Machine.execMxreq s
  | .mxrsp => Sys2Proof.Machine.execMxrsp s
  | .rd => Sys2Proof.Machine.execRd s
  | .wr => Sys2Proof.Machine.execWr s
  | .wrm => Sys2Proof.Machine.execWrm s
  | .zeroLine => Sys2Proof.Machine.execZeroLine s
  | .scrub => Sys2Proof.Machine.execScrub s
  | .rdrsp => Sys2Proof.Machine.execRdrsp s
  | .wrack => Sys2Proof.Machine.execWrack s
  | .iord => Sys2Proof.Machine.execIord s
  | .iowr => Sys2Proof.Machine.execIowr s
  | .iorsp => Sys2Proof.Machine.execIorsp s
  | .iomsg => Sys2Proof.Machine.execIomsg s
  | .param => Sys2Proof.Machine.execParam s
  | .topord => Sys2Proof.Machine.execTopord s
  | .toprsp => Sys2Proof.Machine.execToprsp s
  | .splErr => Sys2Proof.Machine.execSplErr s
  | .dieReset => Sys2Proof.Machine.execDieReset s
  | .splCreditReturn => Sys2Proof.Machine.execSplCreditReturn s
  | .ucieLinkUp => Sys2Proof.Machine.execUcieLinkUp s
  | .splParamTimeout => Sys2Proof.Machine.execSplParamTimeout s
  | .ucieReplayFail => Sys2Proof.Machine.execUcieReplayFail s
  | .dataFrame => Sys2Proof.Machine.execDataFrame s
  | .ackFrame => Sys2Proof.Machine.execAckFrame s
  | .nackFrame => Sys2Proof.Machine.execNackFrame s
  | .connect => Sys2Proof.Machine.execConnect s
  | .accept => Sys2Proof.Machine.execAccept s
  | .refuse => Sys2Proof.Machine.execRefuse s
  | .closeFrame => Sys2Proof.Machine.execCloseFrame s
  | .connectRetryTimer => Sys2Proof.Machine.execConnectRetryTimer s
  | .ackTimer => Sys2Proof.Machine.execAckTimer s
  | .resendTimer => Sys2Proof.Machine.execResendTimer s
  | .portLinkDown => Sys2Proof.Machine.execPortLinkDown s
  | .sendEntryTaken => Sys2Proof.Machine.execSendEntryTaken s
  | .fsent => Sys2Proof.Machine.execFsent s
  | .fabidAssign => Sys2Proof.Machine.execFabidAssign s
  | .getVersion => Sys2Proof.Machine.execGetVersion s
  | .getCapabilities => Sys2Proof.Machine.execGetCapabilities s
  | .negotiateAlgorithms => Sys2Proof.Machine.execNegotiateAlgorithms s
  | .getDigests => Sys2Proof.Machine.execGetDigests s
  | .getCertificate => Sys2Proof.Machine.execGetCertificate s
  | .challenge => Sys2Proof.Machine.execChallenge s
  | .getMeasurements => Sys2Proof.Machine.execGetMeasurements s
  | .keyExchange => Sys2Proof.Machine.execKeyExchange s
  | .spdmFinish => Sys2Proof.Machine.execSpdmFinish s
  | .endSession => Sys2Proof.Machine.execEndSession s
  | .lockInterfaceRequest => Sys2Proof.Machine.execLockInterfaceRequest s
  | .startInterfaceRequest => Sys2Proof.Machine.execStartInterfaceRequest s
  | .tdiUnlock => Sys2Proof.Machine.execTdiUnlock s
  | .tdiError => Sys2Proof.Machine.execTdiError s
  | .powerGood => Sys2Proof.Machine.execPowerGood s
  | .railTimeout => Sys2Proof.Machine.execRailTimeout s
  | .firmwareCheck => Sys2Proof.Machine.execFirmwareCheck s
  | .topologyWalk => Sys2Proof.Machine.execTopologyWalk s
  | .hbmTraining => Sys2Proof.Machine.execHbmTraining s
  | .cxlLinkUp => Sys2Proof.Machine.execCxlLinkUp s
  | .cxlConfigRequest => Sys2Proof.Machine.execCxlConfigRequest s
  | .moduleReset => Sys2Proof.Machine.execModuleReset s
  | .clusterPowerGate => Sys2Proof.Machine.execClusterPowerGate s
  | .powerOverload => Sys2Proof.Machine.execPowerOverload s
  | .ucieTrainingFail => Sys2Proof.Machine.execUcieTrainingFail s
  | .cxlLinkTrainingFail => Sys2Proof.Machine.execCxlLinkTrainingFail s
  | .portLinkUp => Sys2Proof.Machine.execPortLinkUp s
  | .msixVectorUnmask => Sys2Proof.Machine.execMsixVectorUnmask s
  | .tenantCreated => Sys2Proof.Machine.execTenantCreated s
  | .creditReturn => Sys2Proof.Machine.execCreditReturn s
  | .locusAnswer => Sys2Proof.Machine.execLocusAnswer s
  | .apexLatticeRepair => Sys2Proof.Machine.execApexLatticeRepair s

end Sys2Proof.Machine
end

