-- ==== Sys2Proof/Machine/Step.lean ====
section
/-!
DEFINITION. Sys2Proof/Machine/Step.lean: one step of the machine.
-/
namespace Sys2Proof.Machine
open Sys2Proof

/-- One step. Where a core and slot have been chosen (`cur`), that core passes its boundary, fetches, decodes and executes
one instruction; otherwise something is chosen: an event takes place at once, a core's turn becomes `cur`, and where
nothing can happen the machine idles for a cycle. -/
def step (s : State) : Host.Outcome State Fault Refusal :=
  match s.cur with
  | some (c, k) =>
    match s.front c k with
    | .run i s' => endOut (exec i s')
    | .done s' => .next s'.endStep
  | none =>
    match s.choice with
    | .event e s' => endOut (exec e.ev s')
    | .issue c k => .next { s with cur := some (c, k), tick := s.tick + 1 }
    | .idle => .next s.endStep

/-- The thread that runs a placed instruction: K privilege, 128 registers, s0 with every right over 1 TiB from address 0. -/
def fetchThread (now : Nat) : Thread :=
  Thread.new 0 1 ⟨0, [], mkTask 0 0 false 15 0 0 0, 0, 0, 0, true, 0⟩ (List.range 16)
    [⟨0, 2 ^ 40, 31⟩, Seg.zero, Seg.zero, Seg.zero, Seg.zero, Seg.zero, Seg.zero, Seg.zero] now

/-- A page of 64 KiB at frame 0 that may be fetched, read and written. -/
def fetchLeaf : Word := w64 (2 ^ 63 + 2 ^ 61 + 2 ^ 50 + 2 ^ 49)

/-- The state with an instruction placed where the next step fetches. What the launch of a one-thread program by the host and
its dispatcher does in many steps is set at once (log entry 8): tenant 0 holds quadrant 0 and frame 0, core 0 holds a live
thread in slot 0 with its pc at 0, the port of cluster 0 has the page of address 0, and the core's turn has come. -/
def State.withFetchWord (s : State) (nbits w : Nat) : State :=
  let ps := (tableParcels nbits w ++ [0, 0, 0, 0]).take 5
  let m := ps.zipIdx.foldl (fun (m : Mem) p => m.writeN (2 * p.2) 2 p.1) s.mem
  let t := s.tenant 0
  let s := s.setTenant 0 { t with quads := insSorted t.quads 0, window := SMap.set t.window 0 0 }
  let x := s.core 0
  let s := s.setCore 0 { x with slots := SMap.set x.slots 0 ⟨1, .live (fetchThread s.now)⟩ }
  { s.fillTlb 0 0 4 fetchLeaf 0 with mem := m, cur := some (0, 0) }

end Sys2Proof.Machine
end

