-- ==== Sys2Proof/Safety.lean ====
section
/-!
DEFINITION. Sys2Proof/Safety.lean: the terms claims are stated in: when an instruction goes on, what a completed instruction
leaves, what stays as it was, and the states every step leaves.
-/
namespace Sys2Proof.Machine
open Sys2Proof

/-- Core `c` has the turn for slot `k`, which holds thread `t`, and every check before the instruction passes: its
windows, privilege, slot, registers, pending destinations and special operands (R23, R24, R27, R138). -/
def Goes (i : Instr) (s : State) (c k : Nat) (t : Thread) : Prop :=
  s.current = some (c, k, t) ∧ s.precheck i c k t = .go

/-- No field of the instruction names a special operand (R19). -/
def plainFields (f : Fields) : Prop := f.sd = false ∧ f.sa = false ∧ f.sb = false

/-- The windows of the operations from before are one instruction shorter (R23); `n` bounds their identities. -/
def shortOps (ops : List Op) (n : Nat) : List Op :=
  ops.map (fun o => if o.id < n then { o with left := o.left - 1 } else o)

/-- A thread whose instruction has completed and which goes on at `pc`. -/
def Thread.done (t : Thread) (pc n : Nat) : Thread :=
  { t with pc := pc, since := 0, want := none, answer := none, declined := none, part := [], ops := shortOps t.ops n }

/-- The register file after register `n` of the thread is written: a write of g0 is discarded (R129). -/
def Thread.putG (t : Thread) (rf : SMap TWord) (n : Nat) (v : TWord) : SMap TWord :=
  if n = 0 then rf else SMap.set rf (t.entry n) v

/-- The state in which nothing has changed but the register file of core `c` and the thread in its slot `k`. -/
def State.withThread (s : State) (c k : Nat) (t : Thread) (rf : SMap TWord) : State :=
  s.setCore c { s.core c with rf := rf, slots := SMap.set (s.core c).slots k ⟨((s.core c).slot k).inc, .live t⟩ }

/-- The state after an instruction that writes `v` to register `n` and goes on at `pc`; nothing else has changed. -/
def State.wrote (s : State) (c k : Nat) (t : Thread) (n : Nat) (v : TWord) (pc : Nat) : State :=
  s.withThread c k (t.done pc s.nextId) (t.putG (s.core c).rf n v)

/-- The state after an instruction that writes no register and goes on at `pc`; nothing else has changed. -/
def State.moved (s : State) (c k : Nat) (t : Thread) (pc : Nat) : State :=
  s.withThread c k (t.done pc s.nextId) (s.core c).rf

/-- The instruction of slot `k` has completed in the state and its thread goes on at `pc`. -/
def State.completed (s : State) (c k pc n : Nat) : State := s.modThread c k (fun t => t.done pc n)

/-- Every step leaves this: the core that has the turn is not dead, the slot is the one that the core issues from in this cycle, and
it holds a ready thread, unless the core turns over the bound slots of a deterministic launch (R225, R226, R248). -/
def State.TurnOk (s : State) : Prop :=
  ∀ c k, s.cur = some (c, k) →
    (s.core c).dead = false ∧ (s.boundSlots c = none → ∃ t, s.thread? c k = some t ∧ t.run = .ready) ∧ s.issueSlot c = some k

/-- What a run must not do unnoticed: memory, registers, local windows, tiles and every tenant's registers are as before. -/
def State.SameStores (s t : State) : Prop :=
  t.mem = s.mem ∧ t.tenants = s.tenants ∧ t.clusters = s.clusters ∧
    ∀ c, (t.core c).rf = (s.core c).rf ∧ (t.core c).win = (s.core c).win ∧ (t.core c).tiles = (s.core c).tiles ∧
      (t.core c).fmt = (s.core c).fmt ∧ (t.core c).mx = (s.core c).mx ∧ (t.core c).banks = (s.core c).banks

/-- The registers of a thread other than its window: pointers, segments, status, trap registers, privilege, task. -/
def Thread.SameRegs (t u : Thread) : Prop :=
  u.ptrs = t.ptrs ∧ u.segs = t.segs ∧ u.fpstat = t.fpstat ∧ u.trap = t.trap ∧ u.priv = t.priv ∧ u.task = t.task ∧
    u.window = t.window ∧ u.scopes = t.scopes ∧ u.hbmiss = t.hbmiss ∧ u.reply = t.reply

/-! ### What the statements say of whole families -/

/-- The first operand of a two- or three-address instruction (R149). -/
def State.opX (s : State) (c : Nat) (t : Thread) (f : Fields) : TWord :=
  if f.three then s.getG c t f.a else s.getG c t f.d

/-- Its second operand (R149). -/
def State.opY (s : State) (c : Nat) (t : Thread) (f : Fields) : TWord :=
  if f.three then s.getG c t f.b else s.getG c t f.a

/-- Wherever its checks pass and it names no special operand, the instruction completes: gd takes `g` of the registers d, a
and b (b zero where it has none), and nothing else changes. -/
def Computes (mk : Fields → Instr) (g : Fields → TWord → TWord → TWord → TWord) : Prop :=
  ∀ f s c k t, plainFields f → Goes (mk f) s c k t →
    exec (mk f) s = .next (s.wrote c k t f.d
      (g f (s.getG c t f.d) (s.getG c t f.a) (if f.three then s.getG c t f.b else TWord.zero)) s.next)

/-- The same for an instruction of two operands x and y: the result carries both taints. -/
def Computes2 (mk : Fields → Instr) (g : Fields → Word → Word → Word) : Prop :=
  ∀ f s c k t, plainFields f → Goes (mk f) s c k t →
    exec (mk f) s = .next (s.wrote c k t f.d
      ⟨g f (s.opX c t f).v (s.opY c t f).v, (s.opX c t f).t || (s.opY c t f).t⟩ s.next)

/-- Wherever its checks pass, the instruction completes with the effect `body`, and its thread's windows are one shorter. -/
def Completes (i : Instr) (body : Nat → Nat → Thread → State → State) : Prop :=
  ∀ s c k t, Goes i s c k t → exec i s = .next ((body c k t s).shortened c k t.pc s.nextId)

/-- The low 32 bits of a word, sign- or zero-extended. -/
def low32 (signed : Bool) (x : Word) : Word :=
  if signed then (x.setWidth 32).signExtend 64 else (x.setWidth 32).setWidth 64

/-- An operand as .w and .u make it (R149). -/
def red149 (f : Fields) (x : Word) : Word := if modW f then low32 (!modU f) x else x

/-- A result as .w writes it (R149). -/
def res149 (f : Fields) (x : Word) : Word := if modW f then low32 true x else x

/-! ### Floating point and vector groups -/

/-- The state after an instruction that writes `vs` to registers `n`, `n + 1`, …, raises the flags `fl` and goes on. -/
def State.flagged (s : State) (c k : Nat) (t : Thread) (n : Nat) (vs : List TWord) (fl : Nat) : State :=
  ((s.setGs c t n vs).raiseFlags c k t.pc 0 fl).completed c k s.next s.nextId

/-- Wherever its checks pass and it names no special operand, the scalar form writes to gd the element `g` of the registers d,
a and b, sign- or zero-extended, with the taints of the registers it reads, and raises the flags of `g` (R168). -/
def ScalarForm (mk : Fields → Instr) (useD useB : Fields → Bool) (g : Fields → Nat → Nat → Nat → FRes) : Prop :=
  ∀ f s c k t, plainFields f → Goes (mk f) s c k t →
    let x := s.getG c t f.d
    let y := s.getG c t f.a
    let z := if f.three then s.getG c t f.b else TWord.zero
    let r := g f x.v.toNat y.v.toNat z.v.toNat
    exec (mk f) s = .next (s.flagged c k t f.d
      [⟨elemWord f.hi r.1, y.t || (useD f && x.t) || (useB f && z.t)⟩] r.2)

/-- A result `ws` with the flags `fl` is lane by lane what `g` makes of the lanes, of `w` bits, of three groups (R158). -/
def LaneResult (w : Nat) (g : Nat → Nat → Nat → FRes) (d a b ws : List TWord) (fl : Nat) : Prop :=
  ws.length = 8 ∧
  (∀ i, i < 512 / w → groupLane w ws i = (g (groupLane w d i) (groupLane w a i) (groupLane w b i)).1 % 2 ^ w) ∧
  (∀ n, fl.testBit n = true ↔
    ∃ i, i < 512 / w ∧ ((g (groupLane w d i) (groupLane w a i) (groupLane w b i)).2).testBit n = true)

/-- Wherever its checks pass, the lane-wise form writes a group that is lane by lane what `g` makes of the groups d, a and
b, register by register with the taints of those it reads, raises the flags of all lanes, and changes nothing else. -/
def LaneWise (mk : Fields → Instr) (w : Fields → Nat) (useD : Fields → Bool)
    (g : Fields → Nat → Nat → Nat → FRes) : Prop :=
  ∀ f s c k t, Goes (mk f) s c k t →
    let x := s.getGs c t f.d 8
    let y := s.getGs c t f.a 8
    let z := if f.three then s.getGs c t f.b 8 else List.replicate 8 TWord.zero
    ∃ ws fl, exec (mk f) s = .next (s.flagged c k t f.d ws fl) ∧
      LaneResult (w f) (g f) x y z ws fl ∧
      ∀ j, j < 8 → (nthD ws j TWord.zero).t =
        ((nthD y j TWord.zero).t || (useD f && (nthD x j TWord.zero).t) || (f.three && (nthD z j TWord.zero).t))

/-! ### Memory instructions -/

/-- The state after an instruction that begins the operation `o` and goes on: the thread holds the operation as its youngest,
with a new identity, and its first request `ev` has been posted; nothing else has changed. -/
def State.started (s : State) (c k : Nat) (t : Thread) (o : Op) (ev : Instr) : State :=
  ({ s.withThread c k { t.done s.next s.nextId with ops := shortOps t.ops s.nextId ++ [{ o with id := s.nextId, born := s.now }] }
      (s.core c).rf with nextId := s.nextId + 1 } : State).post [evt ev [c, k, s.nextId]]

/-- The state after an instruction, its operands read in `s'`, goes on and tries to perform the store operation `o`. -/
def State.begun (s' : State) (c k : Nat) (t : Thread) (n : Nat) (o : Op) : State :=
  ((s'.finish c k).startOp c k o).shortened c k t.pc n

/-- The state after an instruction that raises a trap at its own address; its windows are one shorter. -/
def State.trapped (s : State) (c k : Nat) (t : Thread) (code : Nat) (addr aux : Word) : State :=
  (s.raise c k code addr aux).shortened c k t.pc s.nextId

/-- The offset an instruction with one global operand names, and the access it makes there (R50). -/
def State.gOff (s : State) (c : Nat) (t : Thread) (f : Fields) : Nat := gOffset (s.getG c t f.a).v f.imm
def gAccess (t : Thread) (f : Fields) (off size : Nat) (v : TWord) : Access := Access.at (vaOf t f.hi off) size v

/-- With a global operand (R37, R50): the first check that fails traps and nothing else happens; otherwise `post`. -/
def GlobalForm (mk : Fields → Instr) (size : Fields → Nat) (right : Char)
    (post : Fields → State → Nat → Nat → Thread → Nat → State) : Prop :=
  ∀ f s c k t, Goes (mk f) s c k t →
    (memG t f.hi (s.gOff c t f) (size f) right = none →
      exec (mk f) s = .next (post f s c k t (s.gOff c t f))) ∧
    (∀ code addr aux, memG t f.hi (s.gOff c t f) (size f) right = some (code, addr, aux) →
      exec (mk f) s = .next (s.trapped c k t code addr aux))

/-- An atomic (R65): the operation holds b and gd as they are at issue; gd is pending until it completes. -/
def AtomicForm (mk : Fields → Instr) : Prop :=
  ∀ f s c k t, plainFields f → Goes (mk f) s c k t →
    (memG t f.hi (s.gOff c t f) (sizeBytes f.lo) 'A' = none →
      exec (mk f) s = .next (s.started c k t
        { Op.new (mk f) t .amo .glob f.la with
          seg := f.hi, off := s.gOff c t f, acc := [gAccess t f (s.gOff c t f) (sizeBytes f.lo) TWord.zero], pend := [f.d],
          ataint := (s.getG c t f.a).t, data := [if f.three then s.getG c t f.b else TWord.zero, s.getG c t f.d],
          acq := f.fx % 2 = 1, rel := f.fx / 2 % 2 = 1, lane := taskLane t.task, seq := t.amoSeq } .l2Request)) ∧
    (∀ code addr aux, memG t f.hi (s.gOff c t f) (sizeBytes f.lo) 'A' = some (code, addr, aux) →
      exec (mk f) s = .next (s.trapped c k t code addr aux))

/-- With a local operand (R37, R136): the first check that fails traps and nothing else happens; while the target's window
changes the thread waits (R111); otherwise `post`. -/
def LocalForm (mk : Fields → Instr) (size : Fields → Nat)
    (post : Fields → State → Nat → Nat → Thread → Nat → Nat → State) : Prop :=
  ∀ f s c k t, Goes (mk f) s c k t →
    (∀ tc off, s.memLAt t (t.ptr f.a).v (size f) = .ok (tc, off) → (s.core tc).shut = false →
      exec (mk f) s = .next (post f s c k t tc off)) ∧
    (∀ tc off, s.memLAt t (t.ptr f.a).v (size f) = .ok (tc, off) → (s.core tc).shut = true →
      exec (mk f) s = .next ((s.park c k (.pool tc)).shortened c k t.pc s.nextId)) ∧
    (∀ code addr aux, s.memLAt t (t.ptr f.a).v (size f) = .error (code, addr, aux) →
      exec (mk f) s = .next (s.trapped c k t code addr aux))

/-- The thread with its pointer register moved on by `n` bytes (R134, R136). -/
def Thread.moved (t : Thread) (p : Nat) (n : Int) : Thread :=
  { t with ptrs := setNth t.ptrs p { t.ptr p with v := advancePtr (t.ptr p).v n } }

/-! ### Instructions that answer with a value -/

/-- The state after an instruction whose other effects have led to `u` writes `v` to the register d names, or pushes it to
the special operand it names, and goes on. -/
def State.answers (u s : State) (c k : Nat) (t : Thread) (f : Fields) (v : TWord) : State :=
  (u.writeReg c k t f.d f.sd v).completed c k s.next s.nextId

/-- The instruction waits, and will run afresh: its thread is parked for `w` in the state `u`. -/
def State.waits (u s : State) (c k : Nat) (t : Thread) (w : Wait) : State :=
  (u.park c k w).shortened c k t.pc s.nextId

/-- The state after view instruction `i` has sent its request to Chord: the request is queued with the address to go on at
and the operands `v`, and the thread waits for the answer, with its place at the special operands the instruction names (R75, R82). -/
def State.chordAsked (s : State) (i : Instr) (c k : Nat) (t : Thread) (v : Vals) : State :=
  let l := i.specialReads ++ i.specialWrites
  ({ s.withThread c k { t with
      run := .wait (.chord s.nextId), want := some (if l = [] then .chord s.nextId else .operands l), since := s.tick + 1 }
      (s.core c).rf with
      nextId := s.nextId + 1, tick := s.tick + 1,
      vreqs := s.vreqs ++ [⟨s.nextId, c, k, i, s.next, false, [], 0, 0, [v.d, v.a, v.b]⟩] } : State).post
    [evt .viewOpRequest [s.nextId]]

/-- View instruction `i` asks Chord, or first waits for its thread's accesses through the same handle (R80). -/
def ViewAsks (mk : Fields → Instr) : Prop :=
  ∀ f s c k t, Goes (mk f) s c k t →
    let v := (s.readVals (mk f) c k t f).1
    let busy := (match viewHandle (mk f) v with
      | some h => s.viewPending c k t h
      | none => false)
    (busy = false → exec (mk f) s = .next (s.chordAsked (mk f) c k t (s.readVals (mk f) c k t f).1)) ∧
    (busy = true → exec (mk f) s = .next (s.waits s c k t .steps))

/-- A handle as LDV and STV need it: of the thread's tenant, with its check and within the tables; its entry in the port's view
cache spans the whole access, which is aligned, and has the sharing `sh`; the port's translation cache holds the granule's entry of
that region's map, whose frame begins at `fr` (R71, R73, R78, R89). -/
def State.ViewHit (s : State) (c : Nat) (t : Thread) (f : Fields) (fr sh : Nat) : Prop :=
  let h := (s.getG c t f.a).v
  let off := (s.getG c t f.b).v.toNat
  hTenant h = t.tenant ∧ h.bits 3 0 = handleCheck h ∧ hRegion h ≤ 4095 ∧ hView h ≤ 4095 ∧ off % sizeBytes f.lo = 0 ∧
    ∃ e, s.viewEntry (c / 8) h = some e ∧ 4096 * e.start ≤ off ∧ off + sizeBytes f.lo ≤ 4096 * (e.start + e.len) ∧
      s.lookupMap (c / 8) e.region e.epoch (off / 4096) = some fr ∧ e.sh = sh

/-! ### Threads and sync objects -/

/-- Core `c` has the turn for slot `k`, whose thread waited for an answer to its instruction and has it, and the special
operands the instruction writes are ready. -/
def Answered (i : Instr) (s : State) (c k : Nat) (t : Thread) (a : Answer) : Prop :=
  s.current = some (c, k, t) ∧ t.answer = some a ∧
    joinReady (i.specialWrites.map (fun n => s.writeReady t.tenant c k t.since n)) = .yes

/-- The object operand of a sync instruction names line `l` of a translated SYNC page, and passes the checks of R282. -/
def State.ObjectAt (s : State) (c : Nat) (t : Thread) (f : Fields) (right : Char) (l : Nat) : Prop :=
  ∃ tr, memG t f.hi (s.gOff c t f) 128 right = none ∧
    s.lookup (c / 8) (vaOf t f.hi (s.gOff c t f)) 2 = some tr ∧ Leaf.cl tr.leaf = 3 ∧ Leaf.h tr.leaf = false ∧
    s.poisoned tr.pa = false ∧ l = tr.pa / 128

/-- The state in which the thread has sent the home of the object on line `l` a request of kind `kind` and waits for the
answer: on the object where `ev`, otherwise for the home (R276, R284). -/
def State.objectAsked (s : State) (c k : Nat) (t : Thread) (kind l : Nat) (ev : Bool) (g : SyncReq → SyncReq)
    (n : Nat) : State :=
  (s.request c k t kind l ev g).2.shortened c k t.pc n

/-- An object instruction passes its checks with line `l`, its thread having no answer and no earlier request to the object
under way. -/
def ObjectGoes (i : Instr) (f : Fields) (s : State) (c k : Nat) (t : Thread) (right : Char) (l : Nat) : Prop :=
  Goes i s c k t ∧ t.answer = none ∧ s.ObjectAt c t f right l ∧ s.asking (s.tid c k t) l = false

/-- A transfer-unit instruction (R117, R120): with a full unit it waits; otherwise, with the views it needs in the port's cache,
its command enters the unit with the status of the checks of acceptance, and the thread goes on. -/
def CopyForm (mk : Fields → Instr) (op : Nat) : Prop :=
  ∀ f s c k t, Goes (mk f) s c k t →
    let r := s.readVals (mk f) c k t f
    let m := r.2.copyCmd op f c k t r.1.d
    let ctl := (s.getG c t (f.a + 2)).v
    let code := s.acceptCode c t.tenant m (copyBad op ctl (s.getG c t (f.a + 5)).v m.sync)
      ((m.skind ≠ 2 || ctl.bits 59 53 < t.top) && (m.dkind ≠ 2 || ctl.bits 52 46 < t.top))
    (32 ≤ (s.core c).tu.length → exec (mk f) s = .next (s.waits s c k t .tuRoom)) ∧
    ((s.core c).tu.length < 32 → (m.skind = 2 → s.viewMissing c t.tenant m.hsrc = false) →
      (m.dkind = 2 → s.viewMissing c t.tenant m.hdst = false) →
      exec (mk f) s = .next (((({ r.2 with nextId := r.2.nextId + 1 } : State).modCore c (fun x =>
        { x with tu := x.tu ++ [{ m with id := r.2.nextId, status := code, checked := decide (code = 0) }] })).post
        [evt .tuCommandAccept [c, r.2.nextId]]).completed c k s.next s.nextId))

end Sys2Proof.Machine
end

