-- ==== Sys2Proof/Certificates/Slice0/Obligations.lean ====
section
/-!
DEFINITION. Sys2Proof/Certificates/Slice0/Obligations.lean: the statements for the provers. Each docstring names the rules of
spec/ that the statement formalises.
-/
open Sys2Proof Sys2Proof.Machine

/-! ### Integer arithmetic and control flow -/

/-- R151, R149, R38: every integer instruction writes its function of its operands to gd, with the taints of the
operands it reads, and changes nothing else; NOP writes nothing. -/
def Obligations.IntegerForms : Prop :=
  Computes2 .add addW ∧ Computes2 .sub subW ∧ Computes2 .mul mulW ∧ Computes2 .mulh mulhW ∧ Computes2 .div divW ∧
  Computes2 .rem remW ∧ Computes2 .andOp andW ∧ Computes2 .orOp orW ∧ Computes2 .xor xorW ∧ Computes2 .andn andnW ∧
  Computes2 .shl shlW ∧ Computes2 .shr shrW ∧ Computes2 .sar sarW ∧ Computes2 .minOp minW ∧ Computes2 .maxOp maxW ∧
  Computes2 .cmpeq cmpeqW ∧ Computes2 .cmpne cmpneW ∧ Computes2 .cmplt cmpltW ∧ Computes2 .cmple cmpleW ∧
  (∀ f s c k t, Goes (.nop f) s c k t → exec (.nop f) s = .next (s.moved c k t s.next)) ∧
  Computes .mov (fun _ _ a _ => a) ∧
  Computes .movk (fun f _ _ _ => ⟨w64i f.imm, false⟩) ∧
  Computes .movkh (fun f d _ _ => ⟨w64 ((w64i f.imm).toNat % 2 ^ 32 * 2 ^ 32 + d.v.toNat % 2 ^ 32), d.t⟩) ∧
  Computes .addk (fun f d _ _ => ⟨addW f d.v (w64i f.imm), d.t⟩) ∧
  Computes .neg (fun f _ a _ => ⟨negW f a.v, a.t⟩) ∧
  Computes .notOp (fun _ _ a _ => ⟨~~~a.v, a.t⟩) ∧
  Computes .shlk (fun f d _ _ => ⟨shlW f d.v (w64i f.imm), d.t⟩) ∧
  Computes .shrk (fun f d _ _ => ⟨shrW f d.v (w64i f.imm), d.t⟩) ∧
  Computes .sark (fun f d _ _ => ⟨sarW f d.v (w64i f.imm), d.t⟩) ∧
  Computes .clz (fun f _ a _ => ⟨clzW f a.v, a.t⟩) ∧
  Computes .popc (fun f _ a _ => ⟨popcW f a.v, a.t⟩) ∧
  Computes .bfx (fun f _ a _ => ⟨bfxW f a.v, a.t⟩) ∧
  Computes .bfi (fun f d a _ => ⟨bfiW f d.v a.v, d.t || a.t⟩) ∧
  Computes .sext (fun f d _ _ => ⟨sextW f d.v, d.t⟩) ∧
  (∀ f s c k t, plainFields f → f.three = true → Goes (.sel f) s c k t →
    exec (.sel f) s = .next (s.wrote c k t f.d
      ⟨if (s.getG c t f.d).v ≠ 0 then (s.getG c t f.a).v else (s.getG c t f.b).v,
       (s.getG c t f.d).t || (s.getG c t f.a).t || (s.getG c t f.b).t⟩ s.next))

/-- R149, R151, R152: the functions of the integer instructions, said as operations on bit vectors: .w reduces the operands to
their low 32 bits, the operation is performed, and the low 32 bits of its result are written sign-extended; division and
remainder by zero, the overflowing signed quotient, and the quotient and remainder otherwise. -/
def Obligations.IntegerMeaning : Prop :=
  (∀ (f : Fields) (x y : Word),
     addW f x y = res149 f (red149 f x + red149 f y) ∧
     subW f x y = res149 f (red149 f x - red149 f y) ∧
     mulW f x y = res149 f (red149 f x * red149 f y) ∧
     mulhW f x y = (if modU f then (x.setWidth 128 * y.setWidth 128).extractLsb' 64 64
                    else (x.signExtend 128 * y.signExtend 128).extractLsb' 64 64) ∧
     negW f y = res149 f (-red149 f y) ∧
     shlW f x y = res149 f (x <<< (y.toNat % (if modW f then 32 else 64))) ∧
     shrW f x y = res149 f ((if modW f then low32 false x else x) >>> (y.toNat % (if modW f then 32 else 64))) ∧
     sarW f x y = res149 f ((if modW f then low32 true x else x).sshiftRight (y.toNat % (if modW f then 32 else 64))) ∧
     (cmpeqW f x y = if red149 f x = red149 f y then 1 else 0) ∧
     (cmpltW f x y = if (if modU f then (red149 f x).ult (red149 f y) else (red149 f x).slt (red149 f y)) then 1 else 0) ∧
     (cmpleW f x y = if (if modU f then (red149 f x).ule (red149 f y) else (red149 f x).sle (red149 f y)) then 1 else 0)) ∧
  (∀ (f : Fields) (x y : Word),
     (red149 f y = 0 → divW f x y = allOnes ∧ remW f x y = res149 f (red149 f x)) ∧
     (modU f = true → red149 f y ≠ 0 →
       divW f x y = res149 f (red149 f x / red149 f y) ∧ remW f x y = res149 f (red149 f x % red149 f y)) ∧
     (modU f = false → red149 f y ≠ 0 →
       divW f x y = res149 f ((red149 f x).sdiv (red149 f y)) ∧ remW f x y = res149 f ((red149 f x).srem (red149 f y))))

/-- R153: branches, calls and jumps. -/
def Obligations.ControlFlow : Prop :=
  (∀ f s c k t, Goes (.br f) s c k t → exec (.br f) s = .next (s.moved c k t (branchTarget t f))) ∧
  (∀ f s c k t, Goes (.call f) s c k t →
    exec (.call f) s = .next (s.wrote c k t 1 ⟨w64 s.next, false⟩ (branchTarget t f))) ∧
  (∀ f s c k t, plainFields f → Goes (.jr f) s c k t → (s.getG c t f.a).v.toNat % 2 = 0 →
    exec (.jr f) s = .next (s.wrote c k t f.d ⟨w64 s.next, false⟩ (s.getG c t f.a).v.toNat)) ∧
  (∀ f s c k t, plainFields f → Goes (.jr f) s c k t → (s.getG c t f.a).v.toNat % 2 = 1 →
    exec (.jr f) s = .next ((s.raise c k tALIGN (s.getG c t f.a).v 0).shortened c k t.pc s.nextId)) ∧
  (∀ f s c k t, plainFields f → Goes (.bz f) s c k t →
    exec (.bz f) s = .next (s.moved c k t (if (s.getG c t f.d).v = 0 then branchTarget t f else s.next))) ∧
  (∀ f s c k t, plainFields f → Goes (.bnz f) s c k t →
    exec (.bnz f) s = .next (s.moved c k t (if (s.getG c t f.d).v ≠ 0 then branchTarget t f else s.next))) ∧
  (∀ f s c k t, plainFields f → Goes (.bltz f) s c k t →
    exec (.bltz f) s = .next (s.moved c k t (if (s.getG c t f.d).v.toInt < 0 then branchTarget t f else s.next))) ∧
  (∀ f s c k t, plainFields f → Goes (.bgez f) s c k t →
    exec (.bgez f) s = .next (s.moved c k t (if 0 ≤ (s.getG c t f.d).v.toInt then branchTarget t f else s.next)))

/-! ### Registers, floating point and vectors -/

/-- R129, R130, R149: what an instruction that writes one register leaves: g0 reads zero, the register reads the value, every
other register of the thread and of every other thread that shares no granule with it is as before, and so is memory. -/
def Obligations.RegisterWrite : Prop :=
  ∀ (s : State) (c k : Nat) (t : Thread) (n : Nat) (v : TWord) (pc : Nat), t.window.Nodup → n < t.top →
    let u := s.wrote c k t n v pc
    let t' := t.done pc s.nextId
    u.thread? c k = some t' ∧ t'.pc = pc ∧ t.SameRegs t' ∧
    u.getG c t' 0 = TWord.zero ∧
    (n ≠ 0 → u.getG c t' n = v) ∧
    (∀ m, m < t.top → m ≠ n → u.getG c t' m = s.getG c t m) ∧
    (∀ d j q m, (d, j) ≠ (c, k) → s.thread? d j = some q →
      (d = c → ∀ g ∈ q.window, g ∉ t.window) → m < q.top → u.thread? d j = some q ∧ u.getG d q m = s.getG d q m) ∧
    u.mem = s.mem ∧ u.tenants = s.tenants ∧ u.clusters = s.clusters

/-- R168, R162 to R165, R157, R240: the scalar F forms; and raising flags: they become sticky in FPSTAT, an instruction with an
enabled one enters the collection window of its core, and nothing else changes. -/
def Obligations.ScalarFloat : Prop :=
  ScalarForm .fadd (fun f => !f.three) (fun f => f.three)
    (fun f d a b => if f.three then addE f.hi f.lo (lowE f.hi a) (lowE f.hi b) else addE f.hi f.lo (lowE f.hi d) (lowE f.hi a)) ∧
  ScalarForm .fsub (fun f => !f.three) (fun f => f.three)
    (fun f d a b => if f.three then subE f.hi f.lo (lowE f.hi a) (lowE f.hi b) else subE f.hi f.lo (lowE f.hi d) (lowE f.hi a)) ∧
  ScalarForm .fmul (fun f => !f.three) (fun f => f.three)
    (fun f d a b => if f.three then mulE f.hi f.lo (lowE f.hi a) (lowE f.hi b) else mulE f.hi f.lo (lowE f.hi d) (lowE f.hi a)) ∧
  ScalarForm .ffma (fun _ => true) (fun _ => true)
    (fun f d a b => fmaE f.hi f.lo (lowE f.hi a) (lowE f.hi b) (lowE f.hi d)) ∧
  ScalarForm .fmin (fun f => !f.three) (fun f => f.three)
    (fun f d a b => if f.three then minE f.hi (lowE f.hi a) (lowE f.hi b) else minE f.hi (lowE f.hi d) (lowE f.hi a)) ∧
  ScalarForm .fmax (fun f => !f.three) (fun f => f.three)
    (fun f d a b => if f.three then maxE f.hi (lowE f.hi a) (lowE f.hi b) else maxE f.hi (lowE f.hi d) (lowE f.hi a)) ∧
  ScalarForm .frcp (fun _ => false) (fun _ => false) (fun f _ a _ => rcpF (tyFmt f.hi) f.lo (lowE f.hi a)) ∧
  ScalarForm .frsq (fun _ => false) (fun _ => false) (fun f _ a _ => rsqF (tyFmt f.hi) f.lo (lowE f.hi a)) ∧
  ScalarForm .fcvt (fun _ => false) (fun _ => false) (fun f _ a _ => convE f.hi f.lo f.fx (lowE f.fx a)) ∧
  (∀ f s c k t, plainFields f → f.three = true → Goes (.fcmp f) s c k t →
    let r := cmpE f.hi f.fx (lowE f.hi (s.getG c t f.a).v.toNat) (lowE f.hi (s.getG c t f.b).v.toNat)
    exec (.fcmp f) s = .next (s.flagged c k t f.d [⟨if r.1 then 1 else 0, (s.getG c t f.a).t || (s.getG c t f.b).t⟩] r.2)) ∧
  (∀ (s : State) (c k : Nat) (t : Thread) (pc : Nat) (addr : Word) (fl : Nat), s.thread? c k = some t →
     let u := s.raiseFlags c k pc addr fl
     u.thread? c k = some { t with fpstat := t.fpstat ||| w64 fl } ∧
     ((u.core c).fpwin = (s.core c).fpwin ++
       (if Nat.land fl (t.fpstat.bits 9 5) = 0 then [] else [⟨k, t.inc, s.now, addr, Nat.land fl (t.fpstat.bits 9 5), pc⟩])) ∧
     (∀ d j, (d, j) ≠ (c, k) → u.thread? d j = s.thread? d j) ∧ s.SameStores u)

/-- R158, R162, R163, R164: the lane-wise vector forms. -/
def Obligations.VectorLanes : Prop :=
  LaneWise .vadd (fun f => tyBits f.hi) (fun f => !f.three) (fun f d a b => if f.three then addE f.hi f.lo a b else addE f.hi f.lo d a) ∧
  LaneWise .vsub (fun f => tyBits f.hi) (fun f => !f.three) (fun f d a b => if f.three then subE f.hi f.lo a b else subE f.hi f.lo d a) ∧
  LaneWise .vmul (fun f => tyBits f.hi) (fun f => !f.three) (fun f d a b => if f.three then mulE f.hi f.lo a b else mulE f.hi f.lo d a) ∧
  LaneWise .vfma (fun f => tyBits f.hi) (fun _ => true) (fun f d a b => fmaE f.hi f.lo a b d) ∧
  LaneWise .vmin (fun f => tyBits f.hi) (fun f => !f.three) (fun f d a b => if f.three then minE f.hi a b else minE f.hi d a) ∧
  LaneWise .vmax (fun f => tyBits f.hi) (fun f => !f.three) (fun f d a b => if f.three then maxE f.hi a b else maxE f.hi d a) ∧
  LaneWise .vabs (fun f => tyBits f.hi) (fun _ => false) (fun f _ a _ => absE f.hi a) ∧
  LaneWise .vneg (fun f => tyBits f.hi) (fun _ => false) (fun f _ a _ => negE f.hi a) ∧
  LaneWise .vrcp (fun f => tyBits f.hi) (fun _ => false) (fun f _ a _ => rcpF (tyFmt f.hi) f.lo a) ∧
  LaneWise .vrsq (fun f => tyBits f.hi) (fun _ => false) (fun f _ a _ => rsqF (tyFmt f.hi) f.lo a) ∧
  LaneWise .vexp2 (fun f => tyBits f.hi) (fun _ => false) (fun f _ a _ => exp2F (tyFmt f.hi) f.lo a) ∧
  LaneWise .vlog2 (fun f => tyBits f.hi) (fun _ => false) (fun f _ a _ => logF (tyFmt f.hi) f.lo a) ∧
  LaneWise .vscale (fun f => tyBits f.hi) (fun f => !f.three) (fun f d a b => if f.three then scaleE f.hi f.lo a b else scaleE f.hi f.lo d a) ∧
  LaneWise .vclamp (fun f => tyBits f.hi) (fun _ => true) (fun f d a b => clampE f.hi d a b) ∧
  LaneWise .vshl (fun f => tyBits f.hi) (fun f => !f.three) (fun f d a b => if f.three then shlE f.hi a b else shlE f.hi d a) ∧
  LaneWise .vshr (fun f => tyBits f.hi) (fun f => !f.three) (fun f d a b => if f.three then sarE f.hi a b else sarE f.hi d a) ∧
  LaneWise .vand (fun _ => 64) (fun f => !f.three) (fun f d a b => (if f.three then Nat.land a b else Nat.land d a, 0)) ∧
  LaneWise .vor (fun _ => 64) (fun f => !f.three) (fun f d a b => (if f.three then Nat.lor a b else Nat.lor d a, 0)) ∧
  LaneWise .vxor (fun _ => 64) (fun f => !f.three) (fun f d a b => (if f.three then Nat.xor a b else Nat.xor d a, 0)) ∧
  LaneWise .vcmp (fun f => tyBits f.hi) (fun _ => false) (fun f _ a b =>
    (if (cmpE f.hi f.fx a b).1 then 2 ^ tyBits f.hi - 1 else 0, (cmpE f.hi f.fx a b).2)) ∧
  LaneWise .vsel (fun f => tyBits f.hi) (fun _ => true) (fun _ d a b => (if d ≠ 0 then a else b, 0))

/-- R165, R166, R167: conversion, reduction, permutation, broadcast and lane extraction. -/
def Obligations.VectorMoves : Prop :=
  (∀ f s c k t, Goes (.vcvt f) s c k t →
    let w := tyBits f.hi
    let m := min (512 / w) (512 / tyBits f.fx)
    let a := s.getGs c t f.a 8
    ∃ ws fl, exec (.vcvt f) s = .next (s.flagged c k t f.d ws fl) ∧ ws.length = 8 ∧
      (∀ i, i < 512 / w → groupLane w ws i =
        if i < m then (convE f.hi f.lo f.fx (groupLane (tyBits f.fx) a i)).1 % 2 ^ w else 0) ∧
      (∀ n, fl.testBit n = true ↔
        ∃ i, i < m ∧ ((convE f.hi f.lo f.fx (groupLane (tyBits f.fx) a i)).2).testBit n = true)) ∧
  (∀ f s c k t, f.sd = false → tyInt f.hi = true → Goes (.vradd f) s c k t →
    let a := s.getGs c t f.a 8
    exec (.vradd f) s = .next (s.flagged c k t f.d [⟨w64i (((allLanes (tyBits f.hi) a).map (sgn (tyBits f.hi))).sum), anyTaint a⟩] 0)) ∧
  (∀ f s c k t, f.sd = false → tyInt f.hi = false → Goes (.vradd f) s c k t →
    let a := s.getGs c t f.a 8
    let r := treeReduce (addF (tyFmt f.hi) f.lo) 6 (allLanes (tyBits f.hi) a)
    exec (.vradd f) s = .next (s.flagged c k t f.d [⟨w64 r.1, anyTaint a⟩] r.2)) ∧
  (∀ f s c k t, f.sd = false → Goes (.vrmax f) s c k t →
    let a := s.getGs c t f.a 8
    let r := treeReduce (maxE f.hi) 6 (allLanes (tyBits f.hi) a)
    exec (.vrmax f) s = .next (s.flagged c k t f.d [⟨elemWord f.hi r.1, anyTaint a⟩] r.2)) ∧
  (∀ f s c k t, Goes (.vperm f) s c k t →
    let w := tyBits f.hi
    let a := s.getGs c t f.a 8
    let b := s.getGs c t f.b 8
    ∃ ws, exec (.vperm f) s = .next (s.flagged c k t f.d ws 0) ∧ ws.length = 8 ∧
      (∀ i, i < 512 / w → groupLane w ws i = groupLane w a (groupLane w b i % (512 / w))) ∧
      (∀ j, j < 8 → (nthD ws j TWord.zero).t = (anyTaint a || anyTaint b))) ∧
  (∀ f s c k t, plainFields f → Goes (.vbcst f) s c k t →
    let w := tyBits f.hi
    ∃ ws, exec (.vbcst f) s = .next (s.flagged c k t f.d ws 0) ∧ ws.length = 8 ∧
      (∀ i, i < 512 / w → groupLane w ws i = (s.getG c t f.a).v.toNat % 2 ^ w) ∧
      (∀ j, j < 8 → (nthD ws j TWord.zero).t = (s.getG c t f.a).t)) ∧
  (∀ f s c k t, f.sd = false → Goes (.vlane f) s c k t →
    let a := s.getGs c t f.a 8
    exec (.vlane f) s = .next (s.wrote c k t f.d ⟨elemWord f.hi (groupLane (tyBits f.hi) a f.imm.toNat), anyTaint a⟩ s.next))

/-- R168: each scalar form computes what its vector counterpart computes for lane 0: on a state from which both go on, with
the vector groups' first registers as the scalar registers, the element FADD writes is lane 0 of the group VADD writes, and so
on for the other forms. -/
def Obligations.ScalarIsLaneZero : Prop :=
  ∀ f s c k t, plainFields f → ∀ p ∈ ([(.fadd f, .vadd f), (.fsub f, .vsub f), (.fmul f, .vmul f), (.ffma f, .vfma f),
      (.fmin f, .vmin f), (.fmax f, .vmax f), (.frcp f, .vrcp f), (.frsq f, .vrsq f)] : List (Instr × Instr)),
    t.window.Nodup → f.d + 8 ≤ t.top → Goes p.1 s c k t → Goes p.2 s c k t →
    ∃ u v, exec p.1 s = .next u ∧ exec p.2 s = .next v ∧
      (u.getG c t f.d).v.toNat % 2 ^ tyBits f.hi = (v.getG c t f.d).v.toNat % 2 ^ tyBits f.hi

/-! ### Special operands -/

/-- R19, R38: value instructions with special operands: the operands are read (with their pops) in the order a, b, d, the result
goes to gd or to the special operand, and the thread goes on. R138, R143: a read of a special operand pops the oldest word of
its buffer or queue; R139: where requests for credits wait, the freed space is offered. -/
def Obligations.SpecialOperands : Prop :=
  (∀ f s c k t, ∀ p ∈ ([
       (.add f, fun v => ⟨addW f (v.x f).v (v.y f).v, (v.x f).t || (v.y f).t⟩),
       (.sub f, fun v => ⟨subW f (v.x f).v (v.y f).v, (v.x f).t || (v.y f).t⟩),
       (.mov f, fun v => v.a), (.notOp f, fun v => ⟨~~~v.a.v, v.a.t⟩),
       (.cmpeq f, fun v => ⟨cmpeqW f (v.x f).v (v.y f).v, (v.x f).t || (v.y f).t⟩)] : List (Instr × (Vals → TWord))),
     Goes p.1 s c k t →
     exec p.1 s = .next (((s.readVals p.1 c k t f).2.writeD c k t f (p.2 (s.readVals p.1 c k t f).1)).completed c k
       s.next s.nextId)) ∧
  (∀ (s : State) c k n w r, n < 114 → (nthD (s.core c).inp (n - 112) InPort.reset).buf = w :: r →
    ∃ u, s.popSpecial c k n = (w.w, u) ∧
      (n - 112 < (s.core c).inp.length → (nthD (u.core c).inp (n - 112) InPort.reset).buf = r) ∧ s.SameStores u) ∧
  (∀ (s : State) c k n w r, 116 ≤ n → n < 120 → (nthD (s.core c).inq (n - 116) InQ.reset).held = w :: r →
    ∃ u, s.popSpecial c k n = (w.w, u) ∧
      (n - 116 < (s.core c).inq.length → (nthD (u.core c).inq (n - 116) InQ.reset).held = r) ∧ s.SameStores u ∧
      (u.due = s.due ∨ ((nthD (s.core c).inq (n - 116) InQ.reset).reqs ≠ [] ∧
        u.due = s.due ++ [evt .creditReturn [c, n - 116, 0]])))

/-! ### Memory instructions -/

/-- R50: the virtual address of a global access is the base of its segment plus the offset g[a] + imm mod 2^64, a negative sum
fails the limit, and an aligned access of up to 128 bytes does not cross a line. R37: a global access passes exactly when it lies within the segment, the right is held and it is aligned; otherwise the
limit, then the right, then the alignment decides the trap, with the offset and the segment number. R134, R136: the checks of
a local operand: a target in the partition, a width of 6 to 21, the public window, alignment; R248: an access that
waited for a core which Apex has brought back after an error fails as one outside the window. -/
def Obligations.AccessChecks : Prop :=
  (∀ (t : Thread) (x : Word) (imm : Int) (sn size n : Nat) (r : Char),
    (gOffset x imm : Int) = ((x.toNat : Int) + imm) % 2 ^ 64 ∧
    vaOf t sn (gOffset x imm) = (t.seg sn).base + gOffset x imm ∧
    ((x.toNat : Int) + imm < 0 → -(2 ^ 40) ≤ imm → (t.seg sn).limit ≤ 2 ^ 57 →
      memG t sn (gOffset x imm) size r = some (0x04, w64 (gOffset x imm), w64 sn)) ∧
    ((t.seg sn).base % 128 = 0 → n ≤ 7 → size = 2 ^ n → gOffset x imm % size = 0 →
      vaOf t sn (gOffset x imm) / 128 = (vaOf t sn (gOffset x imm) + size - 1) / 128)) ∧
  (∀ (t : Thread) (sn off size : Nat) (r : Char),
    (memG t sn off size r = none ↔
      off + size ≤ (t.seg sn).limit ∧ (t.seg sn).has r = true ∧ off % size = 0) ∧
    (∀ code addr aux, memG t sn off size r = some (code, addr, aux) →
      addr = w64 off ∧ aux = w64 sn ∧
      ((code = 0x04 ∧ (t.seg sn).limit < off + size) ∨
       (code = 0x05 ∧ off + size ≤ (t.seg sn).limit ∧ (t.seg sn).has r = false) ∨
       (code = 0x13 ∧ off + size ≤ (t.seg sn).limit ∧ (t.seg sn).has r = true ∧ off % size ≠ 0)))) ∧
  (∀ (s : State) (tn : Nat) (p : Word) (size tc off : Nat), s.memL tn p size = .ok (tc, off) ↔
    s.coreAt tn (ptrY p) (ptrX p) (ptrC p) = some tc ∧ off = ptrOff p ∧ 6 ≤ ptrW p ∧ ptrW p ≤ 21 ∧
    ptrOff p + size ≤ (s.core tc).pubWin ∧ ptrOff p % size = 0) ∧
  (∀ (s : State) (tn : Nat) (p : Word) (size code : Nat) (addr aux : Word), s.memL tn p size = .error (code, addr, aux) →
    addr = w64 (ptrOff p) ∧ aux = 0 ∧
    ((code = 0x14 ∧ (s.coreAt tn (ptrY p) (ptrX p) (ptrC p) = none ∨ ∃ tc, s.coreAt tn (ptrY p) (ptrX p) (ptrC p) = some tc ∧
        (ptrW p < 6 ∨ 21 < ptrW p ∨ (s.core tc).pubWin < ptrOff p + size))) ∨
     (code = 0x13 ∧ ptrOff p % size ≠ 0 ∧ ∃ tc, s.coreAt tn (ptrY p) (ptrX p) (ptrC p) = some tc ∧ 6 ≤ ptrW p ∧
        ptrW p ≤ 21 ∧ ptrOff p + size ≤ (s.core tc).pubWin))) ∧
  (∀ (s : State) (t : Thread) (p : Word) (size tc off : Nat), s.memLAt t p size = .ok (tc, off) ↔
    s.memL t.tenant p size = .ok (tc, off) ∧ t.want ≠ some (.lost tc)) ∧
  (∀ (s : State) (t : Thread) (p : Word) (size code : Nat) (addr aux : Word),
    s.memLAt t p size = .error (code, addr, aux) ↔ s.memL t.tenant p size = .error (code, addr, aux) ∨
      ∃ tc off, s.memL t.tenant p size = .ok (tc, off) ∧ t.want = some (.lost tc) ∧ code = 0x14 ∧ addr = w64 off ∧ aux = 0)

/-- R61, R62, R169: global loads begin an operation of their accesses, with their destinations pending; global stores read their
value at issue, taint it with the address register's taint, and begin a store operation, which enters the store buffer as
soon as it can. -/
def Obligations.GlobalAccesses : Prop :=
  GlobalForm .ldg (fun f => sizeBytes f.lo) 'R' (fun f s c k t off => s.started c k t
    { Op.new (.ldg f) t .load .glob f.la with
      seg := f.hi, off := off, acc := [gAccess t f off (sizeBytes f.lo) TWord.zero],
      pend := if f.sd then [] else [f.d], ataint := (s.getG c t f.a).t } .l2Request) ∧
  GlobalForm .ldacq (fun f => sizeBytes f.lo) 'R' (fun f s c k t off => s.started c k t
    { Op.new (.ldacq f) t .loadAcq .glob f.la with
      seg := f.hi, off := off, acc := [gAccess t f off (sizeBytes f.lo) TWord.zero],
      pend := if f.sd then [] else [f.d], ataint := (s.getG c t f.a).t, acq := true } .l2Request) ∧
  GlobalForm .vldg (fun _ => 64) 'R' (fun f s c k t off => s.started c k t
    { Op.new (.vldg f) t .load .glob f.la with
      seg := f.hi, off := off,
      acc := (List.range 8).map (fun j => Access.at (vaOf t f.hi off + 8 * j) 8 TWord.zero),
      pend := (List.range 8).map (fun j => f.d + j), ataint := (s.getG c t f.a).t } .l2Request) ∧
  GlobalForm .stg (fun f => sizeBytes f.lo) 'W' (fun f s c k t off =>
    let r := s.readVals (.stg f) c k t f
    r.2.begun c k t s.nextId { Op.new (.stg f) t .store .glob f.la with
      seg := f.hi, off := off,
      acc := [gAccess t f off (sizeBytes f.lo) ⟨r.1.d.v, r.1.d.t || (s.getG c t f.a).t⟩], ataint := (s.getG c t f.a).t }) ∧
  GlobalForm .strel (fun f => sizeBytes f.lo) 'W' (fun f s c k t off =>
    let r := s.readVals (.strel f) c k t f
    r.2.begun c k t s.nextId { Op.new (.strel f) t .store .glob f.la with
      seg := f.hi, off := off,
      acc := [gAccess t f off (sizeBytes f.lo) ⟨r.1.d.v, r.1.d.t || (s.getG c t f.a).t⟩], ataint := (s.getG c t f.a).t,
      rel := true }) ∧
  GlobalForm .vstg (fun _ => 64) 'W' (fun f s c k t off =>
    s.begun c k t s.nextId { Op.new (.vstg f) t .store .glob f.la with
      seg := f.hi, off := off, acc := [gAccess t f off 64 TWord.zero],
      data := (s.getGs c t f.d 8).map (fun w => { w with t := w.t || (s.getG c t f.a).t }), ataint := (s.getG c t f.a).t })

/-- R61, R96, R254: a plain store of a thread with no older store outstanding, to a translated ORDINARY page, with room in the
buffer: the buffer has the entry as its youngest, memory and all registers are as before, and the thread goes on, unless the
page's scope and coherence ask for ownership of the line, which its cluster has not: then it waits for that. -/
def Obligations.StoreEntersBuffer : Prop :=
  ∀ f s c k t tr, plainFields f → Goes (.stg f) s c k t →
    memG t f.hi (s.gOff c t f) (sizeBytes f.lo) 'W' = none → t.ops = [] → t.run = .ready →
    s.lookup (c / 8) (vaOf t f.hi (s.gOff c t f)) 1 = some tr → Leaf.cl tr.leaf = 0 → Leaf.wb tr.leaf = false →
    s.sbRoom c = true → (s.core c).watchHit k (vaOf t f.hi (s.gOff c t f)) (sizeBytes f.lo) false true = none →
    ∃ u, exec (.stg f) s = .next u ∧
      u.thread? c k = some { t.done s.next s.nextId with
        run := if 3 ≤ Leaf.sh tr.leaf ∧ Leaf.h tr.leaf = false ∧ Leaf.sw tr.leaf = false ∧
            s.ownsLine (c / 8) (tr.pa / 128) = false then .wait (.own (tr.pa / 128)) else .ready } ∧
      (u.core c).sb = (s.core c).sb ++ [
        { id := s.nextId, slot := k, inc := t.inc, loc := false, core := 0, addr := tr.pa,
          va := vaOf t f.hi (s.gOff c t f), size := sizeBytes f.lo,
          data := [⟨(s.getG c t f.d).v, (s.getG c t f.d).t || (s.getG c t f.a).t⟩], kind := .plain, sh := Leaf.sh tr.leaf,
          host := Leaf.h tr.leaf, sw := Leaf.sw tr.leaf, wide := false, leaf := tr.leaf, handle := 0, pc := t.pc,
          dadd := false }] ∧
      s.SameStores u

/-- R65: the atomics.
R170: gathers and scatters check every lane at issue; the first that fails traps. -/
def Obligations.AtomicsAndGroups : Prop :=
  AtomicForm .amoadd ∧ AtomicForm .amoand ∧ AtomicForm .amoor ∧ AtomicForm .amoxor ∧ AtomicForm .amomin ∧
  AtomicForm .amomax ∧ AtomicForm .amoswap ∧ AtomicForm .amocas ∧
  (∀ f s c k t, plainFields f → Goes (.amofadd f) s c k t →
    (memG t f.hi (s.gOff c t f) (sizeBytes f.lo) 'A' = none →
      exec (.amofadd f) s = .next (s.started c k (if taskDet t.task then { t with amoSeq := t.amoSeq + 1 } else t)
        { Op.new (.amofadd f) t .amo .glob f.la with
          seg := f.hi, off := s.gOff c t f, acc := [gAccess t f (s.gOff c t f) (sizeBytes f.lo) TWord.zero], pend := [f.d],
          ataint := (s.getG c t f.a).t, data := [if f.three then s.getG c t f.b else TWord.zero, s.getG c t f.d],
          acq := f.fx % 2 = 1, rel := f.fx / 2 % 2 = 1, lane := taskLane t.task, seq := t.amoSeq } .l2Request)) ∧
    (∀ code addr aux, memG t f.hi (s.gOff c t f) (sizeBytes f.lo) 'A' = some (code, addr, aux) →
      exec (.amofadd f) s = .next (s.trapped c k t code addr aux))) ∧
  (∀ f s c k t, Goes (.vgath f) s c k t →
    let offs := laneOffs f (s.getG c t f.a).v (s.getGs c t f.b 8)
    (firstFail t f.hi (sizeBytes f.lo) 'R' offs = none →
      exec (.vgath f) s = .next (s.started c k t { Op.new (.vgath f) t .load .glob f.la with
        seg := f.hi, off := nthD offs 0 0, acc := offs.map (fun o => gAccess t f o (sizeBytes f.lo) TWord.zero),
        pend := (List.range 8).map (fun j => f.d + j), ataint := (s.getG c t f.a).t, data := s.getGs c t f.b 8 } .l2Request)) ∧
    (∀ code addr aux, firstFail t f.hi (sizeBytes f.lo) 'R' offs = some (code, addr, aux) →
      exec (.vgath f) s = .next (s.trapped c k t code addr aux))) ∧
  (∀ f s c k t, Goes (.vscat f) s c k t →
    let offs := laneOffs f (s.getG c t f.a).v (s.getGs c t f.b 8)
    let w := 8 * sizeBytes f.lo
    (firstFail t f.hi (sizeBytes f.lo) 'W' offs = none → ∃ o,
      exec (.vscat f) s = .next (s.begun c k t s.nextId o) ∧ o.kind = .store ∧ o.space = .glob ∧ o.ins = .vscat f ∧
      o.acc.length = offs.length ∧
      ∀ j, j < offs.length → nthD o.acc j (Access.at 0 0 TWord.zero) = gAccess t f (nthD offs j 0) (sizeBytes f.lo)
        ⟨w64 (groupLane w (s.getGs c t f.d 8) j),
         (nthD (s.getGs c t f.d 8) (j / (64 / w)) TWord.zero).t || (nthD (s.getGs c t f.b 8) (j / (64 / w)) TWord.zero).t
           || (s.getG c t f.a).t⟩) ∧
    (∀ code addr aux, firstFail t f.hi (sizeBytes f.lo) 'W' offs = some (code, addr, aux) →
      exec (.vscat f) s = .next (s.trapped c k t code addr aux)))

/-- R109, R136, R169: local loads and stores; LDLP and STLP move their pointer on at issue.
R63, R64: fences wait for the thread's operations and stores, prefetches do nothing where a load might not go. -/
def Obligations.LocalAccesses : Prop :=
  LocalForm .ldl (fun f => sizeBytes f.lo) (fun f s c k t tc off => s.started c k t
    { Op.new (.ldl f) t .load .loc f.la with
      off := off, acc := [{ Access.at off (sizeBytes f.lo) TWord.zero with core := tc }],
      pend := if f.sd then [] else [f.d], ataint := (t.ptr f.a).t } .longLatencyComplete) ∧
  LocalForm .ldlp (fun f => sizeBytes f.lo) (fun f s c k t tc off => s.started c k (t.moved f.a (sizeBytes f.lo))
    { Op.new (.ldlp f) t .load .loc f.la with
      off := off, acc := [{ Access.at off (sizeBytes f.lo) TWord.zero with core := tc }],
      pend := if f.sd then [] else [f.d], ataint := (t.ptr f.a).t } .longLatencyComplete) ∧
  LocalForm .vldl (fun _ => 64) (fun f s c k t tc off => s.started c k t
    { Op.new (.vldl f) t .load .loc f.la with
      off := off, acc := (List.range 8).map (fun j => { Access.at (off + 8 * j) 8 TWord.zero with core := tc }),
      pend := (List.range 8).map (fun j => f.d + j), ataint := (t.ptr f.a).t } .longLatencyComplete) ∧
  LocalForm .stl (fun f => sizeBytes f.lo) (fun f s c k t tc off =>
    let r := s.readVals (.stl f) c k t f
    r.2.begun c k t s.nextId { Op.new (.stl f) t .store .loc f.la with
      off := off, acc := [{ Access.at off (sizeBytes f.lo) ⟨r.1.d.v, r.1.d.t || (t.ptr f.a).t⟩ with core := tc }],
      ataint := (t.ptr f.a).t }) ∧
  LocalForm .stlp (fun f => sizeBytes f.lo) (fun f s c k t tc off =>
    let r := s.readVals (.stlp f) c k t f
    (((r.2.finish c k).modThread c k (fun q => q.moved f.a (sizeBytes f.lo))).startOp c k
      { Op.new (.stlp f) t .store .loc f.la with
        off := off, acc := [{ Access.at off (sizeBytes f.lo) ⟨r.1.d.v, r.1.d.t || (t.ptr f.a).t⟩ with core := tc }],
        ataint := (t.ptr f.a).t }).shortened c k t.pc s.nextId) ∧
  LocalForm .vstl (fun _ => 64) (fun f s c k t tc off =>
    s.begun c k t s.nextId { Op.new (.vstl f) t .store .loc f.la with
      off := off, acc := [{ Access.at off 64 TWord.zero with core := tc }],
      data := (s.getGs c t f.d 8).map (fun w => { w with t := w.t || (t.ptr f.a).t }), ataint := (t.ptr f.a).t }) ∧
  (∀ f s c k t, ∀ i ∈ ([.fence f, .fenceS f] : List Instr), Goes i s c k t →
    let u := s.drainWC c
    (t.ops = [] → s.storesOf c k = [] → u.wcEmpty c = true → exec i s = .next (u.completed c k u.next s.nextId)) ∧
    (t.ops = [] → s.storesOf c k = [] → u.wcEmpty c = false → exec i s = .next (u.waits s c k t .combined)) ∧
    (t.ops ≠ [] → exec i s = .next (s.waits s c k t .fenced)) ∧
    (t.ops = [] → s.storesOf c k ≠ [] → exec i s = .next (s.waits s c k t .drained))) ∧
  (∀ f s c k t, Goes (.fenceX f) s c k t →
    (t.ops = [] → s.storesOf c k = [] → exec (.fenceX f) s = .next (s.moved c k t s.next)) ∧
    (t.ops ≠ [] → exec (.fenceX f) s = .next (s.waits s c k t .fenced)) ∧
    (t.ops = [] → s.storesOf c k ≠ [] → exec (.fenceX f) s = .next (s.waits s c k t .drained))) ∧
  (∀ f s c k t tr, plainFields f → Goes (.fenceA f) s c k t → t.ops = [] → s.storesOf c k = [] →
    s.lookup (c / 8) ((s.getG c t f.a).v.toNat % 2 ^ 57) 0 = some tr → (s.drainWC c).wcEmpty c = true →
    exec (.fenceA f) s = .next ((s.drainWC c).completed c k (s.drainWC c).next s.nextId)) ∧
  (∀ f s c k t, Goes (.pref f) s c k t →
    (s.gOff c t f < (t.seg f.hi).limit → (t.seg f.hi).has 'R' = true →
      exec (.pref f) s = .next (s.started c k t { Op.new (.pref f) t .pref .glob f.la with
        seg := f.hi, off := s.gOff c t f, acc := [gAccess t f (s.gOff c t f) 1 TWord.zero] } .l2Request)) ∧
    ((t.seg f.hi).limit ≤ s.gOff c t f ∨ (t.seg f.hi).has 'R' = false →
      exec (.pref f) s = .next (s.moved c k t s.next)))

/-! ### Pointers and scopes -/

/-- R133, R134, R135: PSET, PGET and PADD; advancing a pointer within its window, and by 0; a width outside 6 to 21 leaves it as
it is. R130, R131, R132: opening a scope takes free granules, cleared, onto the top of the window; closing one gives them
back.
Readings and choices of the model it rests on: log entry 80. -/
def Obligations.PointersAndScopes : Prop :=
  (∀ f s c k t, plainFields f → Goes (.pset f) s c k t →
    let p := (s.getG c t f.a).v
    ∃ w, w.bits 63 41 = p.bits 63 41 ∧ w.bits 40 21 = 0 ∧ w.bits 20 0 = p.bits 20 0 ∧
      exec (.pset f) s = .next (s.moved c k { t with ptrs := setNth t.ptrs f.d ⟨w, (s.getG c t f.a).t⟩ } s.next)) ∧
  (∀ f s c k t, plainFields f → Goes (.pget f) s c k t →
    exec (.pget f) s = .next (s.wrote c k t f.d (t.ptr f.a) s.next)) ∧
  (∀ f s c k t, Goes (.padd f) s c k t → exec (.padd f) s = .next (s.moved c k (t.moved f.d f.imm) s.next)) ∧
  (∀ p n, ptrW p < 6 ∨ 21 < ptrW p → advancePtr p n = p) ∧
  (∀ p (n : Int), 6 ≤ ptrW p → ptrW p ≤ 21 → 0 ≤ (ptrOff p : Int) + n → (ptrOff p : Int) + n < 2 ^ ptrW p →
    let q := advancePtr p n
    (ptrOff q : Int) = ptrOff p + n ∧ q.bits 63 41 = p.bits 63 41) ∧
  (∀ f s c k t, Goes (.scopeo f) s c k t → t.scopes.length < 4 → t.window.length + f.imm.toNat ≤ 16 →
    k ≠ 63 → f.imm.toNat ≤ (s.core c).freeGran.length → (s.core c).scopeAhead k t.since = false →
    ∃ u g, exec (.scopeo f) s = .next u ∧ g.length = f.imm.toNat ∧ (∀ x ∈ g, x < 252 ∧ x ∉ (s.core c).usedGran) ∧
      u.thread? c k = some { t.done s.next s.nextId with window := t.window ++ g, scopes := f.imm.toNat :: t.scopes } ∧
      (∀ x ∈ g, ∀ j, j < 8 → SMap.get (u.core c).rf (8 * x + j) TWord.zero = TWord.zero) ∧
      (∀ e, e / 8 ∉ g → SMap.get (u.core c).rf e TWord.zero = SMap.get (s.core c).rf e TWord.zero) ∧
      u.mem = s.mem ∧ u.tenants = s.tenants) ∧
  (∀ f s c k t, Goes (.scopeo f) s c k t → 4 ≤ t.scopes.length →
    exec (.scopeo f) s = .next (s.trapped c k t 0x03 0 0x200)) ∧
  (∀ f s c k t, Goes (.scopeo f) s c k t → t.scopes.length < 4 → (16 < t.window.length + f.imm.toNat ∨ k = 63) →
    exec (.scopeo f) s = .next (s.trapped c k t 0x03 0 0x201)) ∧
  (∀ f s c k t n r, Goes (.scopec f) s c k t → t.scopes = n :: r →
    ∃ u t', exec (.scopec f) s = .next u ∧ u.thread? c k = some t' ∧ t'.scopes = r ∧
      t'.window = t.window.take (t.window.length - n) ∧ t'.pc = s.next ∧ (u.core c).rf = (s.core c).rf ∧ s.SameStores u) ∧
  (∀ f s c k t, Goes (.scopec f) s c k t → t.scopes = [] →
    exec (.scopec f) s = .next (s.trapped c k t 0x03 0 0x202))

/-! ### Messages -/

/-- R125, R128: MSGSEND puts a USER message, keyed where the thread is deterministic, last into the outbound buffer; MSGRD takes
the next message; MSGCNT counts; WAITM goes on when there is one. R128, R299: the message a thread reads next is the oldest
one; for a deterministic thread that holds messages of its own launch, it is one of those, the next of its sender, and no
presentable one has a smaller lane.
Readings and choices of the model it rests on: log entry 17. -/
def Obligations.Messages : Prop :=
  (∀ f s c k t, plainFields f → f.three = true → Goes (.msgsend f) s c k t → (s.core c).outbox.length < 16 →
    let d := (s.getG c t f.d).v
    let a := (s.getG c t f.a).v
    ∃ u m, exec (.msgsend f) s = .next u ∧ (u.core c).outbox = (s.core c).outbox ++ [m] ∧
      m.msg.dst = d ∧ m.msg.src = s.tid c k t ∧ m.msg.w1 = s.getG c t f.b ∧ m.after = s.storesOf c k ∧
      m.msg.w0 = msgWord 0x02 (a.bits 23 16) (a.bits 15 0) 0 (slotId (s.tid c k t)) ∧
      (m.msg.keyed = if taskDet t.task then some (taskLaunch t.task) else none) ∧
      u.due = s.due ++ [evt .messageDepart [c]] ∧ u.mem = s.mem ∧ (u.core c).rf = (s.core c).rf) ∧
  (∀ f s c k t, Goes (.msgsend f) s c k t → 16 ≤ (s.core c).outbox.length →
    exec (.msgsend f) s = .next (s.waits s c k t .outbox)) ∧
  (∀ f s c k t, f.sd = false → f.sa = false → Goes (.msgrd f) s c k t → t.nextMsg = none →
    exec (.msgrd f) s = .next (((s.setG c t f.d ⟨0, !taskDet t.task⟩).setG c t f.a ⟨0, !taskDet t.task⟩).completed c k
      s.next s.nextId)) ∧
  (∀ f s c k t m, f.sd = false → f.sa = false → Goes (.msgrd f) s c k t → t.nextMsg = some m →
    let tn := !taskDet t.task || !t.keyedFor m
    exec (.msgrd f) s = .next ((((s.modThread c k (fun t => t.dequeue m)).setG c t f.d ⟨m.w0, tn⟩).setG c t f.a
      ⟨m.w1.v, m.w1.t || tn⟩).completed c k s.next s.nextId)) ∧
  (∀ f s c k t, Goes (.msgcnt f) s c k t →
    exec (.msgcnt f) s = .next (s.answers s c k t f ⟨w64 t.mail.length, true⟩)) ∧
  (∀ f s c k t, Goes (.waitm f) s c k t → t.nextMsg.isSome = true → exec (.waitm f) s = .next (s.moved c k t s.next)) ∧
  (∀ f s c k t, Goes (.waitm f) s c k t → t.nextMsg = none → exec (.waitm f) s = .next (s.waits s c k t .mail)) ∧
  (∀ (t : Thread),
     (taskDet t.task = false → t.nextMsg = t.mail.head?) ∧
     (taskDet t.task = true → (∀ m ∈ t.mail, t.keyedFor m = false) → t.nextMsg = t.mail.head?) ∧
     (∀ m, taskDet t.task = true → (∃ q ∈ t.mail, t.keyedFor q = true) → t.nextMsg = some m →
       m ∈ t.mail ∧ t.keyedFor m = true ∧ m.seq = SMap.get t.got m.src.toNat 0 ∧
       ∀ q ∈ t.mail, t.keyedFor q = true → q.seq = SMap.get t.got q.src.toNat 0 → m.lane ≤ q.lane))

/-! ### Queues and streams -/

/-- R141, R142: QCFG and QSTAT. R146, R147, R148: NOPEN, NSENDE and NSTAT. R111, R112: BKMODE and BKINFO; the count of valid
lines of a CACHE bank is a free value of at most 1,024 (log entries 2 and 14).
Readings and choices of the model it rests on: log entries 2, 12, 13, 14, 16. -/
def Obligations.QueuesPortsBanks : Prop :=
  (∀ f s c k t, Goes (.qcfg f) s c k t →
    let r := s.readVals (.qcfg f) c k t f
    let g := r.1.a.v
    let q := g.bits 1 0
    let on := r.1.d.v.bits 0 0 = 1
    (qcfgBad g r.1.d.v = true → exec (.qcfg f) s = .next (r.2.answers s c k t f ⟨1, false⟩)) ∧
    (qcfgBad g r.1.d.v = false → g.bits 2 2 = 0 →
      exec (.qcfg f) s = .next ((r.2.qcfgIn c k q (g.bits 7 4) on).2.answers s c k t f
        ⟨w64 (r.2.qcfgIn c k q (g.bits 7 4) on).1, false⟩)) ∧
    (qcfgBad g r.1.d.v = false → g.bits 2 2 = 1 → ((s.core c).waits k (120 + q) = true ∨ (s.core c).reserved (120 + q) ≠ 0) →
      exec (.qcfg f) s = .next (r.2.answers s c k t f ⟨2, false⟩)) ∧
    (qcfgBad g r.1.d.v = false → g.bits 2 2 = 1 → (s.core c).waits k (120 + q) = false → (s.core c).reserved (120 + q) = 0 →
      (nthD (s.core c).outq q OutQ.reset).conf = false → on →
      s.coreAt t.tenant (g.bits 63 60) (g.bits 59 56) (g.bits 55 53) = none →
      exec (.qcfg f) s = .next (r.2.answers s c k t f ⟨4, false⟩)) ∧
    (∀ tc, qcfgBad g r.1.d.v = false → g.bits 2 2 = 1 → (s.core c).waits k (120 + q) = false → (s.core c).reserved (120 + q) = 0 →
      (nthD (s.core c).outq q OutQ.reset).conf = false → on →
      s.coreAt t.tenant (g.bits 63 60) (g.bits 59 56) (g.bits 55 53) = some tc →
      exec (.qcfg f) s = .next ((r.2.modCore c (fun x =>
        { x with outq := setNth x.outq q ⟨true, tc, g.bits 52 51, 0, false, false⟩ })).answers s c k t f ⟨0, false⟩))) ∧
  (∀ f s c k t, Goes (.qstat f) s c k t →
    let r := s.readVals (.qstat f) c k t f
    let g := r.1.a.v
    let x := r.2.core c
    let q := nthD x.inq (g.bits 1 0) InQ.reset
    let o := nthD x.outq (g.bits 1 0) OutQ.reset
    (g.bits 63 3 ≠ 0 → exec (.qstat f) s = .next (r.2.answers s c k t f ⟨allOnes, true⟩)) ∧
    (g.bits 63 3 = 0 → g.bits 2 2 = 0 → q.conf = true → exec (.qstat f) s = .next (r.2.answers s c k t f
      ⟨w64 (2 ^ 63 + q.n * 2 ^ 32 + q.cred % 65536 * 2 ^ 16 + q.held.length % 65536), true⟩)) ∧
    (g.bits 63 3 = 0 → g.bits 2 2 = 1 → o.conf = true → exec (.qstat f) s = .next (r.2.answers s c k t f
      ⟨w64 (2 ^ 63 + o.cred * 2 ^ 16 + o.tq), true⟩)) ∧
    (g.bits 63 3 = 0 → (g.bits 2 2 = 0 → q.conf = false) → (g.bits 2 2 ≠ 0 → g.bits 2 2 = 1 ∧ o.conf = false) →
      exec (.qstat f) s = .next (r.2.answers s c k t f ⟨0, true⟩))) ∧
  (∀ f s c k t, Goes (.nopen f) s c k t →
    let r := s.readVals (.nopen f) c k t f
    let g := r.1.d.v
    let p := f.imm.toNat
    let x := r.2.core c
    let d := nthD x.inp p InPort.reset
    let o := nthD x.outp p OutPort.reset
    let on := g.bits 0 0 = 1
    let was := nthD (s.core c).outp p OutPort.reset
    (g.bits 1 1 = 1 → was.owner = some k → was.abort = true → exec (.nopen f) s = .next (((s.modCore c (fun x =>
      { x with outp := setNth x.outp p { was with abort := false } })).raise c k 0x0C 0 (w64 p)).shortened c k t.pc s.nextId)) ∧
    (nopenBad g = true → (g.bits 1 1 ≠ 1 ∨ was.owner ≠ some k ∨ was.abort = false) →
      exec (.nopen f) s = .next (r.2.answers s c k t f ⟨1, false⟩)) ∧
    (nopenBad g = false → g.bits 1 1 = 0 → d.owner ≠ none → d.owner ≠ some k →
      exec (.nopen f) s = .next (r.2.answers s c k t f ⟨2, false⟩)) ∧
    (nopenBad g = false → g.bits 1 1 = 0 → (d.owner = none ∨ d.owner = some k) →
      exec (.nopen f) s = .next ((r.2.setCore c
        { x with inp := setNth x.inp p { d with owner := if on then some k else none } }).answers s c k t f ⟨0, false⟩)) ∧
    (∀ tc, nopenBad g = false → g.bits 1 1 = 1 → on →
      r.2.coreAt t.tenant (g.bits 63 60) (g.bits 59 56) (g.bits 55 53) = some tc →
      (was.owner ≠ some k ∨ was.abort = false) → ((o.owner = none ∨ o.owner = some k) → o.opened = false →
        exec (.nopen f) s = .next ((r.2.setCore c
          { x with outp := setNth x.outp p ⟨some k, true, tc, g.bits 2 2, false, 0, false⟩ }).answers s c k t f
            ⟨0, false⟩)))) ∧
  (∀ f s c k t, Goes (.nsende f) s c k t → s.portReady t.tenant c k f.imm.toNat = .yes →
    let r := s.readVals (.nsende f) c k t f
    exec (.nsende f) s = .next ((r.2.sendStream t.tenant c k f.imm.toNat r.1.d true (r.2.storesOf c k)).completed c k
      s.next s.nextId)) ∧
  (∀ f s c k t, Goes (.nsende f) s c k t → s.portReady t.tenant c k f.imm.toNat = .no →
    exec (.nsende f) s = .next (s.waits s c k t (.operands ((Instr.nsende f).specialReads ++ [114 + f.imm.toNat])))) ∧
  (∀ f s c k t code aux, Goes (.nsende f) s c k t → s.portReady t.tenant c k f.imm.toNat = .trap code aux →
    exec (.nsende f) s = .next (((if code = 0x0C then s.consumeTrap (.nsende f) c (114 + f.imm.toNat) else s).raise c k code 0
      aux).shortened c k t.pc s.nextId)) ∧
  (∀ f s c k t, Goes (.nstat f) s c k t →
    let o := nthD (s.core c).outp f.imm.toNat OutPort.reset
    let d := nthD (s.core c).inp f.imm.toNat InPort.reset
    let src := (match d.buf with
      | w :: _ => w.src
      | [] => 0)
    exec (.nstat f) s = .next (s.answers s c k t f ⟨w64 ((if o.owner = some k then 2 ^ 63 else 0)
      + (if o.opened then 2 ^ 62 else 0) + (if o.abort then 2 ^ 61 else 0) + (if d.owner = some k then 2 ^ 60 else 0)
      + (if nthD t.inEnd f.imm.toNat false then 2 ^ 59 else 0) + min d.buf.length 64 * 2 ^ 17 + src), true⟩)) ∧
  (∀ f s c k t, Goes (.bkmode f) s c k t →
    let r := s.readVals (.bkmode f) c k t f
    let g := r.1.a.v
    let b := g.bits 3 0
    let old := nthD (s.core c).banks b .cache
    let new := modeOf (g.bits 5 4)
    (g.bits 63 6 ≠ 0 ∨ 11 < b ∨ g.bits 5 4 = 3 → exec (.bkmode f) s = .next (r.2.answers s c k t f ⟨1, false⟩)) ∧
    (g.bits 63 6 = 0 → b ≤ 11 → g.bits 5 4 ≠ 3 → old = new →
      exec (.bkmode f) s = .next (r.2.answers s c k t f ⟨0, false⟩)) ∧
    (g.bits 63 6 = 0 → b = 11 → g.bits 5 4 ≠ 3 → old ≠ new →
      exec (.bkmode f) s = .next (r.2.answers s c k t f ⟨3, false⟩)) ∧
    (g.bits 63 6 = 0 → b < 11 → g.bits 5 4 ≠ 3 → old ≠ new → old = .fifo → (s.core c).bankBusy b = true →
      exec (.bkmode f) s = .next (r.2.answers s c k t f ⟨2, false⟩)) ∧
    (g.bits 63 6 = 0 → b < 11 → g.bits 5 4 ≠ 3 → old ≠ new → (old = .fifo → (s.core c).bankBusy b = false) →
      (old = .scratch ∨ new = .scratch → s.windowBusy c = false) →
      exec (.bkmode f) s = .next (((if old = .cache then r.2.flushBanks c else r.2).modCore c
        (fun x => x.setBank b new)).answers s c k t f ⟨0, false⟩))) ∧
  (∀ f s c k t, Goes (.bkinfo f) s c k t →
    let r := s.readVals (.bkinfo f) c k t f
    let n := r.1.a.v.toNat
    let x := r.2.core c
    (n = 12 → exec (.bkinfo f) s = .next (r.2.answers s c k t f ⟨w64 ((banksIn x.banks .cache).length * 2 ^ 44
      + (banksIn x.banks .scratch).length * 2 ^ 40 + (banksIn x.banks .fifo).length * 2 ^ 36 + x.pubWin), r.1.a.t⟩)) ∧
    (12 < n → exec (.bkinfo f) s = .next (r.2.answers s c k t f ⟨allOnes, r.1.a.t⟩)) ∧
    (n < 12 → nthD x.banks n .cache = .scratch → exec (.bkinfo f) s = .next (r.2.answers s c k t f
      ⟨w64 (2 ^ 62 + (if n = 11 then 2 ^ 61 else 0)
        + 131072 * ((banksIn x.banks .scratch).filter (fun j => j < n)).length), r.1.a.t⟩)) ∧
    (n < 12 → nthD x.banks n .cache = .fifo → exec (.bkinfo f) s = .next (r.2.answers s c k t f
      ⟨w64 (2 * 2 ^ 62 + (if n = 11 then 2 ^ 61 else 0) + x.occupied n), true⟩)) ∧
    (n < 12 → nthD x.banks n .cache = .cache → ∃ v, v ≤ 1024 ∧
      exec (.bkinfo f) s = .next (r.2.freeVal.2.answers s c k t f ⟨w64 ((if n = 11 then 2 ^ 61 else 0) + v), true⟩)))

/-! ### Banks, views and groups -/

/-- R72, R73: the check of a handle: a handle of another tenant is foreign; otherwise it is stale unless its check nibble is
right and its region and view are live with its generation; the handle made for a view slot names that slot, and its check
nibble is right. R83 to R88: what VWNEW, VWDUP,
VWSPLIT, VWNARROW, VWDROP and VWINFO do to the region and its views, with their statuses.
Readings and choices of the model it rests on: log entry 23. -/
def Obligations.Handles : Prop :=
  (∀ (tn : Nat) (x : Tenant) (h : Word),
     (hTenant h ≠ tn → x.checkHandle tn h = .bad 0x09 1) ∧
     (hTenant h = tn → h.bits 3 0 ≠ handleCheck h → x.checkHandle tn h = .bad 0x08 2) ∧
     (∀ v, x.checkHandle tn h = .ok v ↔
       hTenant h = tn ∧ h.bits 3 0 = handleCheck h ∧ hRegion h ≤ 4095 ∧ hView h ≤ 4095 ∧
         (x.region (hRegion h)).live = true ∧ v = (x.region (hRegion h)).view (hView h) ∧ v.live = true ∧ v.gen = hGen h)) ∧
  (∀ tn r v g : Nat, tn < 16 → r < 2 ^ 24 → v < 65536 → g < 65536 →
     let h := mkHandle tn r v g
     hTenant h = tn ∧ hRegion h = r ∧ hView h = v ∧ hGen h = g ∧ h.bits 3 0 = handleCheck h) ∧
  (∀ (s : State) (tn die0 : Nat) (a : TWord),
    let w := a.v
    let len := w.bits 24 0
    let d := if w.bits 30 28 = 4 then die0 else w.bits 30 28
    let t := s.tenant tn
    ((w.bits 63 32 ≠ 0 ∨ len = 0 ∨ 2 ^ 24 < len ∨ 4 < w.bits 30 28 ∨ (w.bits 27 25 ≠ 2 ∧ w.bits 27 25 ≠ 3)) →
      s.viewNew tn die0 a = .ok [⟨1, a.t⟩] none s) ∧
    (w.bits 63 32 = 0 → len ≠ 0 → len ≤ 2 ^ 24 → w.bits 30 28 ≤ 4 → (w.bits 27 25 = 2 ∨ w.bits 27 25 = 3) →
      ((∀ q ∈ t.quads, dieOfQuad q ≠ d) → s.viewNew tn die0 a = .ok [⟨4, a.t⟩] none s) ∧
      ((∃ q ∈ t.quads, dieOfQuad q = d) →
        (t.cvquota.toNat < t.coveredGranules + len → s.viewNew tn die0 a = .ok [⟨2, a.t⟩] none s) ∧
        (t.coveredGranules + len ≤ t.cvquota.toNat → s.takeGranules d len = none →
          s.viewNew tn die0 a = .ok [⟨2, a.t⟩] none s) ∧
        (∀ gs s', t.coveredGranules + len ≤ t.cvquota.toNat → s.takeGranules d len = some (gs, s') →
          ((∀ r, r < 4096 → (t.region r).live = true) → s.viewNew tn die0 a = .ok [⟨3, a.t⟩] none s) ∧
          (∀ r, r < 4096 → (t.region r).live = false → (∀ q, q < r → (t.region q).live = true) →
            ∃ u, s.viewNew tn die0 a = .ok [⟨mkHandle tn r 0 ((t.region r).view 0).gen, a.t⟩] none u ∧
              (u.tenant tn).region r = ⟨true, (t.region r).epoch + 1, d, w.bits 27 25, w.getLsbD 31, len,
                SMap.set (t.region r).views 0 ⟨((t.region r).view 0).gen, true, 0, len⟩, 1, gs.zipIdx.map (fun p => (p.2, p.1))⟩ ∧
              ∀ q, q ≠ r → (u.tenant tn).region q = (s'.tenant tn).region q))))) ∧
  (∀ (s : State) (d n : Nat), n ≤ (s.die d).granules.length → s.takeGranules d n = some ((s.die d).granules.take n,
    s.setDie d { s.die d with granules := (s.die d).granules.drop n })) ∧
  (∀ (s : State) (tn : Nat) (h : TWord) (vw : View) (n : Nat) (rest : List Nat), (s.tenant tn).checkHandle tn h.v = .ok vw →
    let r := (s.tenant tn).region (hRegion h.v)
    (r.nextSlots 1 = [] → s.viewDup tn h = .ok [⟨3, h.t⟩] none s) ∧
    (r.nextSlots 1 = n :: rest → ∃ u, s.viewDup tn h = .ok [⟨mkHandle tn (hRegion h.v) n (r.view n).gen, h.t⟩] none u ∧
      ((u.tenant tn).region (hRegion h.v)).view n = ⟨(r.view n).gen, true, vw.start, vw.len⟩)) ∧
  (∀ (s : State) (tn : Nat) (h m : TWord) (r v w : Nat) (vw : View) (rest : List Nat),
    (s.tenant tn).checkHandle tn h.v = .ok vw → m.v.toNat % 4096 = 0 → 4096 * vw.start < m.v.toNat →
    m.v.toNat < 4096 * (vw.start + vw.len) → r = hRegion h.v → ((s.tenant tn).region r).nextSlots 2 = v :: w :: rest →
    v < w → w ≠ hView h.v → v ≠ hView h.v →
    ∃ u, s.viewSplit tn h m = .ok [⟨mkHandle tn r v (((s.tenant tn).region r).view v).gen, h.t || m.t⟩,
        ⟨mkHandle tn r w (((s.tenant tn).region r).view w).gen, h.t || m.t⟩] (some (r, hView h.v)) u ∧
      (((u.tenant tn).region r).view (hView h.v)).live = false ∧
      ((u.tenant tn).region r).view v = ⟨(((s.tenant tn).region r).view v).gen, true, vw.start, m.v.toNat / 4096 - vw.start⟩ ∧
      ((u.tenant tn).region r).view w =
        ⟨(((s.tenant tn).region r).view w).gen, true, m.v.toNat / 4096, vw.start + vw.len - m.v.toNat / 4096⟩) ∧
  (∀ (s : State) (op tn : Nat) (h : Word) (ns nl code info : Nat), (s.tenant tn).checkHandle tn h = .bad code info →
    s.viewNarrow op tn h ns nl = .trap code ns h ∧ s.viewDrop op tn h ns = .trap code ns h ∧
    (∀ t, s.viewDup tn ⟨h, t⟩ = .trap code 0 h ∧ s.viewInfo tn ⟨h, t⟩ = .ok [⟨0, t⟩, ⟨w64 info, true⟩] none s) ∧
    ∀ t m, s.viewSplit tn ⟨h, t⟩ m = .trap code m.v.toNat h) ∧
  (∀ (s : State) (op tn : Nat) (h : Word) (ns nl : Nat) (vw : View), (s.tenant tn).checkHandle tn h = .ok vw →
    let r := hRegion h
    (nl = 0 → s.viewNarrow op tn h ns nl = s.viewDrop op tn h ns) ∧
    (nl ≠ 0 → (ns % 4096 ≠ 0 ∨ nl % 4096 ≠ 0) → s.viewNarrow op tn h ns nl = .trap 0x13 ns h) ∧
    (nl ≠ 0 → ns % 4096 = 0 → nl % 4096 = 0 → (ns < 4096 * vw.start ∨ 4096 * (vw.start + vw.len) < ns + nl) →
      s.viewNarrow op tn h ns nl = .trap 0x07 ns h) ∧
    (nl ≠ 0 → ns % 4096 = 0 → nl % 4096 = 0 → 4096 * vw.start ≤ ns → ns + nl ≤ 4096 * (vw.start + vw.len) →
      ∃ u gone, s.viewNarrow op tn h ns nl = .ok [] gone u ∧
        ((u.tenant tn).region r).view (hView h) = { vw with start := ns / 4096, len := nl / 4096 } ∧
        (∀ v, v ≠ hView h → ((u.tenant tn).region r).view v = ((s.tenant tn).region r).view v) ∧
        (∀ p, p ∈ ((u.tenant tn).region r).frames ↔
          p ∈ ((s.tenant tn).region r).frames ∧ ((u.tenant tn).region r).covered p.1 = true) ∧ u.mem = s.mem) ∧
    (∃ u, s.viewDrop op tn h ns = .ok [] (some (r, hView h)) u ∧
      ((u.tenant tn).region r).view (hView h) = ⟨if vw.gen = 65535 then 1 else vw.gen + 1, false, 0, 0⟩ ∧
      (∀ v, v ≠ hView h → ((u.tenant tn).region r).view v = ((s.tenant tn).region r).view v) ∧
      (((u.tenant tn).region r).live = decide (0 < ((u.tenant tn).region r).liveViews)) ∧ u.mem = s.mem) ∧
    ∀ t, s.viewInfo tn ⟨h, t⟩ = .ok [⟨w64 (vw.len * 2 ^ 32 + vw.start), t⟩, ⟨w64 (vw.gen * 2 ^ 48
      + ((s.tenant tn).region r).liveViews * 2 ^ 32 + ((s.tenant tn).region r).frames.length), true⟩] none s)

/-- R80, R82: the view instructions ask the region's Chord and wait for its answer. R89: LDV and STV through a handle that
passes its checks; a foreign handle traps.
Readings and choices of the model it rests on: log entry 23. -/
def Obligations.ViewInstructions : Prop :=
  ViewAsks .vwnew ∧ ViewAsks .vwdup ∧ ViewAsks .vwsplit ∧ ViewAsks .vwnarrow ∧ ViewAsks .vwdrop ∧ ViewAsks .vwinfo ∧
  (∀ f s c k t fr sh, Goes (.ldv f) s c k t → s.ViewHit c t f fr sh →
    let h := s.getG c t f.a
    let b := s.getG c t f.b
    exec (.ldv f) s = .next (s.started c k t { Op.new (.ldv f) t .load .view f.la with
      seg := sh, off := b.v.toNat,
      acc := [Access.at (fr + b.v.toNat % 4096) (sizeBytes f.lo) TWord.zero],
      pend := if f.sd then [] else [f.d], ataint := h.t || b.t, data := [⟨h.v, false⟩] } .l2Request)) ∧
  (∀ f s c k t fr sh, Goes (.stv f) s c k t → s.ViewHit c t f fr sh →
    let h := s.getG c t f.a
    let b := s.getG c t f.b
    let r := s.readVals (.stv f) c k t f
    exec (.stv f) s = .next (r.2.begun c k t s.nextId { Op.new (.stv f) t .store .view f.la with
      seg := sh, off := b.v.toNat,
      acc := [Access.at (fr + b.v.toNat % 4096) (sizeBytes f.lo) ⟨r.1.d.v, r.1.d.t || h.t || b.t⟩],
      ataint := h.t || b.t, data := [⟨h.v, false⟩] })) ∧
  (∀ f s c k t, Goes (.ldv f) s c k t → hTenant (s.getG c t f.a).v ≠ t.tenant →
    exec (.ldv f) s = .next (s.trapped c k t 0x09 (w64 (s.getG c t f.b).v.toNat) (s.getG c t f.a).v)) ∧
  (∀ f s c k t, Goes (.stv f) s c k t → hTenant (s.getG c t f.a).v ≠ t.tenant →
    exec (.stv f) s = .next (s.trapped c k t 0x09 (w64 (s.getG c t f.b).v.toNat) (s.getG c t f.a).v))

/-- R233, R216, R234, R235: TID writes the thread id, untainted, the caller's inside an inline body; the layout of thread ids; JOIN,
LEAVE and GRPINFO.
Readings and choices of the model it rests on: log entry 31. -/
def Obligations.Groups : Prop :=
  (∀ f s c k t, Goes (.tid f) s c k t → exec (.tid f) s = .next (s.answers s c k t f ⟨s.tid c k t, false⟩)) ∧
  (∀ (s : State) (c k : Nat) (t : Thread) (y x : Nat), (s.tenant t.tenant).logical (c / 8) = (y, x) → t.tenant < 16 →
    y < 16 → x < 16 → k < 64 → t.inc < 2 ^ 32 →
    let w := s.tid c k t
    w.bits 63 60 = t.tenant ∧ w.bits 59 56 = y ∧ w.bits 55 52 = x ∧ w.bits 51 49 = c % 8 ∧ w.bits 48 43 = k ∧
      w.bits 42 32 = 0 ∧ w.bits 31 0 = t.inc ∧ ∀ g : List InlineFrame, s.tid c k { t with frames := g } = w) ∧
  (∀ f s c k t, Goes (.join f) s c k t →
    let r := s.readVals (.join f) c k t f
    let g := r.1.a.v.toNat
    let live := (SMap.get? (r.2.tenant t.tenant).groups g).isSome
    (65535 < g ∨ (g ≠ 0 ∧ live = false) → exec (.join f) s = .next (r.2.answers s c k t f ⟨w64 (2 ^ 63 + 2), false⟩)) ∧
    (g ≤ 65535 → (g = 0 ∨ live = true) → taskGroup t.task ≠ 0 →
      exec (.join f) s = .next (r.2.answers s c k t f ⟨w64 (2 ^ 63 + 1), false⟩)) ∧
    (g = 0 → taskGroup t.task = 0 → r.2.newGroup t.tenant 1 = none →
      exec (.join f) s = .next (r.2.answers s c k t f ⟨w64 (2 ^ 63 + 3), false⟩)) ∧
    (∀ n u, g = 0 → taskGroup t.task = 0 → r.2.newGroup t.tenant 1 = some (n, u) →
      exec (.join f) s = .next ((u.modThread c k (fun t => { t with task := taskSetGroup t.task n })).answers s c k t f
        ⟨w64 n, false⟩)) ∧
    (g ≠ 0 → g ≤ 65535 → live = true → taskGroup t.task = 0 →
      ∃ u : State, exec (.join f) s = .next (u.answers s c k t f ⟨w64 g, false⟩) ∧
        SMap.get (u.tenant t.tenant).groups g 0 = SMap.get (r.2.tenant t.tenant).groups g 0 + 1)) ∧
  (∀ f s c k t, Goes (.leave f) s c k t →
    let r := s.readVals (.leave f) c k t f
    let g := r.1.a.v.toNat
    let live := (SMap.get? (r.2.tenant t.tenant).groups g).isSome
    (65535 < g ∨ live = false → exec (.leave f) s = .next (r.2.answers s c k t f ⟨w64 (2 ^ 63 + 2), false⟩)) ∧
    (g ≤ 65535 → live = true → g ≠ taskGroup t.task →
      exec (.leave f) s = .next (r.2.answers s c k t f ⟨w64 (2 ^ 63 + 1), false⟩)) ∧
    (g ≤ 65535 → live = true → g = taskGroup t.task →
      exec (.leave f) s = .next ((r.2.leaveGroup c k).answers s c k t f TWord.zero))) ∧
  (∀ f s c k t, Goes (.grpinfo f) s c k t →
    let r := s.readVals (.grpinfo f) c k t f
    let g := if r.1.a.v = 0 then taskGroup t.task else r.1.a.v.toNat
    (∀ n, SMap.get? (r.2.tenant t.tenant).groups g = some n →
      exec (.grpinfo f) s = .next (r.2.answers s c k t f ⟨w64 (2 ^ 63 + g * 2 ^ 32 + n), true⟩)) ∧
    (SMap.get? (r.2.tenant t.tenant).groups g = none →
      exec (.grpinfo f) s = .next (r.2.answers s c k t f ⟨w64 (g % 65536 * 2 ^ 32), true⟩)))

/-! ### Threads -/

/-- R230: SPAWN: an odd pc traps; a deterministic thread runs the body inline while it has a frame left; otherwise a request
with the child's continuation goes to the target core and the thread waits; a placed child answers 0, and a child that is not
placed runs inline. A target that is no core of the tenant is answered at once: the body runs inline with status 2, or the
thread has status 3 where it has four frames.
R230: running a body inline: the thread goes on at the body with one frame more, which says where and how it returns.
Readings and choices of the model it rests on: log entry 29. -/
def Obligations.Spawn : Prop :=
  (∀ f s c k t, Goes (.spawn f) s c k t → t.answer = none →
    let r := s.readVals (.spawn f) c k t f
    let pc := r.1.b.v
    (pc.toNat % 2 = 1 → exec (.spawn f) s = .next (s.trapped c k t 0x13 pc 0)) ∧
    (pc.toNat % 2 = 0 → taskDet t.task = true → 4 ≤ t.frames.length →
      exec (.spawn f) s = .next (s.trapped c k t 0x03 0 0x204)) ∧
    (pc.toNat % 2 = 0 → taskDet t.task = true → t.frames.length < 4 →
      exec (.spawn f) s = .next ((r.2.runInline c k f pc 1).shortened c k t.pc s.nextId)) ∧
    (∀ to', pc.toNat % 2 = 0 → taskDet t.task = false →
      s.coreAt t.tenant (r.1.a.v.bits 59 56) (r.1.a.v.bits 55 52) (r.1.a.v.bits 51 49) = some to' →
      ∃ u q, exec (.spawn f) s = .next u ∧ (u.core to').spawns = (r.2.core to').spawns ++ [q] ∧
        q.cont = r.2.childCont c k t pc ∧ q.src = c ∧ q.slot = k ∧ q.full = decide (4 ≤ t.frames.length) ∧
        q.arrived = false ∧ u.mem = r.2.mem) ∧
    (pc.toNat % 2 = 0 → taskDet t.task = false →
      s.coreAt t.tenant (r.1.a.v.bits 59 56) (r.1.a.v.bits 55 52) (r.1.a.v.bits 51 49) = none →
      (4 ≤ t.frames.length → exec (.spawn f) s = .next (r.2.answers s c k t f ⟨3, true⟩)) ∧
      (t.frames.length < 4 → exec (.spawn f) s = .next ((r.2.runInline c k f pc 2).shortened c k t.pc s.nextId)))) ∧
  (∀ f s c k t a, Answered (.spawn f) s c k t a → a.code = 1 →
    exec (.spawn f) s = .next (s.answers s c k t f ⟨0, !taskDet t.task⟩)) ∧
  (∀ f s c k t a, Answered (.spawn f) s c k t a → a.code ≠ 1 →
    exec (.spawn f) s = .next ((s.runInline c k f a.val.v 1).shortened c k t.pc s.nextId)) ∧
  (∀ (s : State) (c k : Nat) (t : Thread) (f : Fields) (pc : Word) (status : Nat), s.thread? c k = some t →
     ∃ u, s.runInline c k f pc status = u ∧
       u.thread? c k = some { t with
         pc := pc.toNat, frames := ⟨s.next, t.scopes.length, f.d, f.sd, status⟩ :: t.frames, since := 0, want := none,
         answer := none, declined := none, part := [] } ∧ s.SameStores u ∧ ∀ d j, (d, j) ≠ (c, k) → u.thread? d j = s.thread? d j)

/-- R231: YIELD: the thread ends and its continuation, of the next address, g2 to g5 and its task word, joins the run FIFO.
R232, R230: EXIT: it sends the exit value to the thread that is to have it and vacates the slot; inside an inline SPAWN it
returns with g2 and the status register written; it waits for its operations and for room in the outbound buffer. R285, R270:
the EXIT that ends a body under a lock answers the requester (a delegate) or asks the object's home to release it (the own
slot), and the home's answer lets the thread go on after its SYDLG.
Readings and choices of the model it rests on: log entry 29. -/
def Obligations.YieldAndExit : Prop :=
  (∀ f s c k t, Goes (.yield f) s c k t → t.frames = [] → t.locks = 0 → t.deleg = none → t.ops = [] →
    s.fifoRoom c t.tenant = true → (s.core c).fifo.length < 1024 →
    ∃ u q, exec (.yield f) s = .next u ∧ ((u.core c).slot k).occ = .vacant ∧
      (u.core c).fifo = (s.core c).fifo ++ [(q, 0)] ∧ q.pc = s.next ∧ q.args = s.getGs c t 2 4 ∧ q.task = taskSetGran t.task (t.base - 1) ∧
      q.reply = t.reply ∧ q.was = s.tid c k t) ∧
  (∀ f s c k t, Goes (.yield f) s c k t → t.frames ≠ [] → exec (.yield f) s = .next (s.trapped c k t 0x03 0 0x203)) ∧
  (∀ f s c k t, Goes (.yield f) s c k t → t.frames = [] → t.locks ≠ 0 →
    exec (.yield f) s = .next (s.trapped c k t 0x0D 0 (w64 (4 * 2 ^ 56 + 8)))) ∧
  (∀ f s c k t, Goes (.yield f) s c k t → t.frames = [] → t.locks = 0 → t.deleg = none → t.ops ≠ [] →
    exec (.yield f) s = .next (s.waits s c k t .opsDone)) ∧
  (∀ f s c k t, plainFields f → Goes (.exit f) s c k t → t.answer = none → t.deleg = none → t.frames = [] → t.locks = 0 →
    t.ops = [] → (t.reply = 0 ∨ (s.core c).outbox.length < 16) →
    ∃ u, exec (.exit f) s = .next u ∧ ((u.core c).slot k).occ = .vacant ∧
      (t.reply = 0 → (u.core c).outbox = (s.core c).outbox) ∧
      (t.reply ≠ 0 → ∃ m, (u.core c).outbox = (s.core c).outbox ++ [m] ∧ m.msg.dst = t.reply ∧
        m.msg.w0 = msgWord 0x05 0 0 0 (slotId (s.tid c k t)) ∧ m.msg.w1 = s.getG c t f.d)) ∧
  (∀ f s c k t fr r, plainFields f → Goes (.exit f) s c k t → t.answer = none → t.deleg = none → t.frames = fr :: r →
    t.scopes.length = fr.depth → fr.sp = false →
    exec (.exit f) s = .next (((s.setG c t 2 (s.getG c t f.d)).setG c t fr.d ⟨w64 fr.status, !taskDet t.task⟩).modThread c k
      (fun q => { q.done fr.ret s.nextId with frames := r }))) ∧
  (∀ f s c k t fr r, Goes (.exit f) s c k t → t.answer = none → t.deleg = none → t.frames = fr :: r →
    t.scopes.length ≠ fr.depth → exec (.exit f) s = .next (s.trapped c k t 0x03 0 0x203)) ∧
  (∀ f s c k t, Goes (.exit f) s c k t → t.answer = none → t.deleg = none → t.frames = [] → t.locks ≠ 0 →
    exec (.exit f) s = .next (s.trapped c k t 0x0D 0 (w64 (4 * 2 ^ 56 + 8)))) ∧
  (∀ f s c k t, Goes (.exit f) s c k t → t.answer = none → t.deleg = none → t.frames = [] → t.locks = 0 →
    (t.ops ≠ [] → exec (.exit f) s = .next (s.waits s c k t .opsDone)) ∧
    (t.ops = [] → t.reply ≠ 0 → 16 ≤ (s.core c).outbox.length → exec (.exit f) s = .next (s.waits s c k t .outbox))) ∧
  (∀ f s c k t d, plainFields f → Goes (.exit f) s c k t → t.answer = none → t.deleg = some d → t.frames.length = d.inl →
    (t.scopes.length ≠ d.depth → exec (.exit f) s = .next (s.trapped c k t 0x03 0 0x203)) ∧
    (t.scopes.length = d.depth → d.remote = true → d.req = 0 → exec (.exit f) s = .next (s.waits s c k t .body)) ∧
    (t.scopes.length = d.depth → d.remote = true → d.req ≠ 0 → t.ops ≠ [] → exec (.exit f) s = .next (s.waits s c k t .opsDone)) ∧
    (t.scopes.length = d.depth → d.remote = true → d.req ≠ 0 → t.ops = [] → exec (.exit f) s =
      .next (((s.modThread c k (fun t => { t with deleg := some { d with req := 0 } })).post
        [⟨.delegateBodyExit, ⟨[d.obj, d.req], [s.getG c t f.d]⟩⟩]).waits s c k t .body)) ∧
    (t.scopes.length = d.depth → d.remote = false → s.asking (s.tid c k t) d.obj = true →
      exec (.exit f) s = .next (s.waits s c k t .storeSpace)) ∧
    (t.scopes.length = d.depth → d.remote = false → s.asking (s.tid c k t) d.obj = false →
      let r := s.sendReq { SyncReq.new 4 d.obj (s.tid c k t) c k with args := [s.getG c t f.d], after := s.storesOf c k }
      exec (.exit f) s = .next (r.2.waits s c k t (.home r.1)))) ∧
  (∀ f s c k t a d, Answered (.exit f) s c k t a → t.deleg = some d →
    (a.code < 16 → exec (.exit f) s = .next (((s.setG c t 2 a.val).modThread c k
      (fun q => { q.done d.ret s.nextId with deleg := none })))) ∧
    (16 ≤ a.code → exec (.exit f) s = .next (s.trapped c k t 0x0D (w64 d.va) (w64 (4 * 2 ^ 56 + (a.code - 16))))))

/-! ### Sync objects -/

/-- R282, R284 to R287: an object instruction whose checks pass sends its request to the object's home and waits; SYMODE reads
the object at once.
R283, R276: SYINIT: it waits for the thread's stores and its earlier request to the object, answers 1 for a malformed control word or thresholds, 2 for an object in use,
3 for a group that is not live, and otherwise makes the object and answers 0.
Readings and choices of the model it rests on: log entries 28, 31, 86. -/
def Obligations.SyncRequests : Prop :=
  (∀ f s c k t l, ObjectGoes (.syacq f) f s c k t 'A' l → t.locks ≠ 255 → f.d = 0 → f.sd = false →
    exec (.syacq f) s = .next (s.objectAsked c k t 0 l true id s.nextId)) ∧
  (∀ f s c k t l, ObjectGoes (.sytry f) f s c k t 'A' l → t.locks ≠ 255 →
    exec (.sytry f) s = .next (s.objectAsked c k t 1 l false id s.nextId)) ∧
  (∀ f s c k t l, ObjectGoes (.syrel f) f s c k t 'A' l →
    exec (.syrel f) s = .next (s.objectAsked c k t 4 l false (fun q => { q with after := s.storesOf c k }) s.nextId)) ∧
  (∀ f s c k t l, plainFields f → ObjectGoes (.sydlg f) f s c k t 'A' l → (s.getG c t f.d).v.toNat % 2 = 0 →
    t.deleg = none → t.locks ≠ 255 →
    exec (.sydlg f) s = .next (s.objectAsked c k t 2 l true (fun q =>
      { q with body := (s.getG c t f.d).v.toNat, args := s.getGs c t 2 4, after := s.storesOf c k }) s.nextId)) ∧
  (∀ f s c k t, f.sd = false → Goes (.sydlg f) s c k t → t.answer = none → (s.getG c t f.d).v.toNat % 2 = 1 →
    exec (.sydlg f) s = .next (s.trapped c k t 0x13 (s.getG c t f.d).v 0)) ∧
  (∀ f s c k t l, ObjectGoes (.syarv f) f s c k t 'A' l →
    exec (.syarv f) s = .next (s.objectAsked c k t 8 l false (fun q => { q with after := s.storesOf c k }) s.nextId)) ∧
  (∀ f s c k t l, ObjectGoes (.sywait f) f s c k t 'A' l → f.d = 0 → f.sd = false →
    exec (.sywait f) s = .next (s.objectAsked c k t 9 l true (fun q => { q with ref :=
      (match t.arrival with
        | some (o, n) => if o = l then n + 1 else 0
        | none => 0) }) s.nextId)) ∧
  (∀ f s c k t l, Goes (.symode f) s c k t → t.answer = none → s.ObjectAt c t f 'R' l → s.homeWaits c k t l = false →
    exec (.symode f) s = .next (s.answers s c k t f ⟨if s.oKind l = 0 then 0
      else w64 ((s.objW l 0).bits 63 48 * 2 ^ 48 + (s.objW l 1).bits 63 48 * 2 ^ 32 + (s.obj l).changes * 2 ^ 16
        + (s.objW l 1).bits 47 32), true⟩)) ∧
  (∀ f s c k t l, Goes (.syinit f) s c k t → t.answer = none → s.ObjectAt c t f 'A' l →
     let g := (s.getG c t f.d).v
     let thr := (s.getG c t (f.d + 1)).v
     let bad := syinitBad g (taskDet t.task) || (decide (thr ≠ 0) && thresholdsBad thr)
     let noGroup := decide (g.bits 63 60 = 2) && !(SMap.get? (s.tenant t.tenant).groups (g.bits 15 0)).isSome
     (s.storesOf c k ≠ [] → exec (.syinit f) s = .next (s.waits s c k t .drained)) ∧
     (s.storesOf c k = [] → s.homeWaits c k t l = true → exec (.syinit f) s = .next (s.waits s c k t .storeSpace)) ∧
     (s.storesOf c k = [] → s.homeWaits c k t l = false → bad = true → exec (.syinit f) s = .next (s.wrote c k t f.d ⟨1, false⟩ s.next)) ∧
     (s.storesOf c k = [] → s.homeWaits c k t l = false → bad = false → s.objBusy l = true →
       exec (.syinit f) s = .next (s.wrote c k t f.d ⟨2, false⟩ s.next)) ∧
     (s.storesOf c k = [] → s.homeWaits c k t l = false → bad = false → s.objBusy l = false → noGroup = true →
       exec (.syinit f) s = .next (s.wrote c k t f.d ⟨3, false⟩ s.next)) ∧
     (s.storesOf c k = [] → s.homeWaits c k t l = false → bad = false → s.objBusy l = false → noGroup = false →
       exec (.syinit f) s = .next (((s.initObj l t g thr).setG c t f.d ⟨0, false⟩).completed c k
         (s.initObj l t g thr).next s.nextId)))

/-- R284 to R286: the answers: a lock taken, a try that succeeded or failed, a release done, a timed wait that ended, an
arrival counted, a body to run, the value of a body that a delegate ran; a refusal by the home is SYNCMISUSE of class 4.
R282: an operand that is not on a SYNC page of the module is misuse of class 4, subcause 1.
Readings and choices of the model it rests on: log entry 31. -/
def Obligations.SyncAnswers : Prop :=
  (∀ f s c k t a, Answered (.syacq f) s c k t a → a.code < 16 →
    (f.d = 0 → f.sd = false → exec (.syacq f) s = .next (s.moved c k t s.next)) ∧
    (f.d ≠ 0 → exec (.syacq f) s = .next (s.answers s c k t f ⟨if a.code = 5 then 1 else 0, true⟩))) ∧
  (∀ f s c k t a, Answered (.sytry f) s c k t a → a.code < 16 →
    exec (.sytry f) s = .next (s.answers s c k t f ⟨if a.code = 1 then 0 else 1, true⟩)) ∧
  (∀ f s c k t a, Answered (.syrel f) s c k t a → a.code < 16 → exec (.syrel f) s = .next (s.moved c k t s.next)) ∧
  (∀ f s c k t a, Answered (.syarv f) s c k t a → a.code < 16 → exec (.syarv f) s = .next (s.moved c k t s.next)) ∧
  (∀ f s c k t a, Answered (.sywait f) s c k t a → a.code < 16 →
    (f.d = 0 → f.sd = false → exec (.sywait f) s = .next (s.moved c k t s.next)) ∧
    (f.d ≠ 0 → exec (.sywait f) s = .next (s.answers s c k t f ⟨if a.code = 5 then 1 else 0, true⟩))) ∧
  (∀ f s c k t a, Answered (.sydlg f) s c k t a → a.code = 6 →
    exec (.sydlg f) s = .next (s.withThread c k { t.done a.val.v.toNat s.nextId with
      deleg := some ⟨a.ref, s.syncVa c t f, s.next, t.frames.length, t.scopes.length, false, 0⟩ } (s.core c).rf)) ∧
  (∀ f s c k t a, Answered (.sydlg f) s c k t a → a.code < 16 → a.code ≠ 6 →
    exec (.sydlg f) s = .next (s.wrote c k t 2 a.val s.next)) ∧
  (∀ f s c k t a, Answered (.syrel f) s c k t a → 16 ≤ a.code →
    exec (.syrel f) s = .next (s.trapped c k t 0x0D (w64 (s.syncVa c t f)) (w64 (4 * 2 ^ 56 + (a.code - 16))))) ∧
  (∀ f s c k t tr, ∀ i ∈ ([.syacq f, .sytry f, .syrel f, .sydlg f, .syarv f, .sywait f] : List Instr),
     Goes i s c k t → t.answer = none → (i = .sydlg f → (s.readVals i c k t f).1.d.v.toNat % 2 = 0) →
     memG t f.hi (s.gOff c t f) 128 'A' = none →
     s.lookup (c / 8) (vaOf t f.hi (s.gOff c t f)) 2 = some tr → (Leaf.cl tr.leaf ≠ 3 ∨ Leaf.h tr.leaf = true) →
     exec i s = .next (s.trapped c k t 0x0D (w64 (vaOf t f.hi (s.gOff c t f))) (w64 (4 * 2 ^ 56 + 1))))

/-- R288 to R291, R293: the Axis wires: first every episode whose time has passed has failed; then HBARV counts an arrival of its
cluster, HBWAIT answers once the episode has ended, HBCFG takes, changes or gives back a context.
Readings and choices of the model it rests on: log entry 38. -/
def Obligations.AxisWires : Prop :=
  (∀ (s : State) (n : Nat), (∀ b, s.axisEnds n = some b → s.now < b) → s.axisDue n = s) ∧
  (∀ (s : State) (n b : Nat), s.axisEnds n = some b ↔ (s.axisCtx n).held = true ∧
    (∃ cl ∈ s.axisRect (s.axisCtx n), s.axisCount n cl < (s.axisCtx n).p) ∧
    ∃ a, (s.axisCtx n).start = some a ∧ b = a + 2 ^ (12 + (s.axisCtx n).tmo)) ∧
  (∀ f s c k t, Goes (.hbarv f) s c k t → s.axisValid f.imm.toNat t.tenant (c / 8) = true →
    let n := f.imm.toNat
    let u := s.axisDue n
    let a := u.axisCtx n
    let v := u.axisCount n (c / 8) + 1
    let w := (u.setAxisCount n (c / 8) v).modThread c k (fun t =>
      { t with axis := setNth t.axis n (some (a.ep + (v - 1) / max 1 a.p)) })
    exec (.hbarv f) s = .next (if v = a.p then (w.axisWire n s.now).completed c k (w.axisWire n s.now).next s.nextId
      else w.completed c k w.next s.nextId)) ∧
  (∀ f s c k t, Goes (.hbarv f) s c k t → s.axisValid f.imm.toNat t.tenant (c / 8) = true →
    (∀ b, s.axisEnds f.imm.toNat = some b → s.now < b) →
    s.axisCount f.imm.toNat (c / 8) + 1 ≠ (s.axisCtx f.imm.toNat).p →
    ∃ u, exec (.hbarv f) s = .next u ∧
      (∃ t', u.thread? c k = some t' ∧ t'.pc = s.next ∧ t'.axis = setNth t.axis f.imm.toNat
        (some ((s.axisCtx f.imm.toNat).ep + s.axisCount f.imm.toNat (c / 8) / max 1 (s.axisCtx f.imm.toNat).p))) ∧
      (f.imm.toNat < (s.cluster (c / 8)).axis.length →
        u.axisCount f.imm.toNat (c / 8) = s.axisCount f.imm.toNat (c / 8) + 1) ∧ u.mem = s.mem) ∧
  (∀ f s c k t, Goes (.hbarv f) s c k t → s.axisValid f.imm.toNat t.tenant (c / 8) = false →
    exec (.hbarv f) s = .next (s.trapped c k t 0x0D 0 (w64 (4 * 2 ^ 56 + 7)))) ∧
  (∀ f s c k t, Goes (.hbwait f) s c k t → t.answer = none → s.axisValid f.imm.toNat t.tenant (c / 8) = false →
    exec (.hbwait f) s = .next (s.answers s c k t f ⟨2, true⟩)) ∧
  (∀ f s c k t, Goes (.hbwait f) s c k t → t.answer = none → s.axisValid f.imm.toNat t.tenant (c / 8) = true →
    let n := f.imm.toNat
    let u := s.axisDue n
    let ep := (nthD t.axis n none).getD (u.axisCtx n).ep
    ((u.axisCtx n).ep ≤ ep → exec (.hbwait f) s = .next (u.waits s c k t (.axis n ep))) ∧
    (ep < (u.axisCtx n).ep → exec (.hbwait f) s =
      .next (let w := (u.modThread c k (fun t => { t with hbmiss := SMap.get (u.axisCtx n).ended ep (List.replicate 4 0) }))
             let v := w.writeReg c k t f.d f.sd (if (SMap.get? (u.axisCtx n).ended ep).isSome then ⟨1, true⟩ else ⟨0, false⟩)
             v.completed c k v.next s.nextId))) ∧
  (∀ f s c k t a, Answered (.hbwait f) s c k t a → a.code ≠ 1 →
    exec (.hbwait f) s = .next ((s.modThread c k (fun t => { t with hbmiss := List.replicate 4 0 })).answers s c k t f
      ⟨0, false⟩)) ∧
  (∀ f s c k t a, Answered (.hbwait f) s c k t a → a.code = 1 →
    exec (.hbwait f) s = .next ((s.modThread c k (fun t =>
      { t with hbmiss := SMap.get (s.axisCtx f.imm.toNat).ended a.ref (List.replicate 4 0) })).answers s c k t f
      ⟨1, true⟩)) ∧
  (∀ f s c k t, plainFields f → Goes (.hbcfg f) s c k t →
    let w := (s.getG c t f.d).v
    let n := f.imm.toNat
    let u := s.axisDue n
    let a := u.axisCtx n
    let b : Axis := { a with held := true, tenant := t.tenant, y0 := w.bits 63 60, x0 := w.bits 59 56, y1 := w.bits 55 52,
                             x1 := w.bits 51 48, tmo := w.bits 43 40, p := w.bits 39 31, start := none }
    let ends := fun (u : State) (n : Word) => exec (.hbcfg f) s = .next ((u.setG c t f.d ⟨n, false⟩).completed c k u.next s.nextId)
    (hbcfgBad w = true → ends u 1) ∧
    (hbcfgBad w = false → a.held = true → a.tenant ≠ t.tenant → ends u 2) ∧
    (hbcfgBad w = false → a.held = true → a.tenant = t.tenant → (u.axisRect a).any (fun cl => u.axisCount n cl ≠ 0) = true →
      ends u 3) ∧
    (hbcfgBad w = false → a.held = false → w ≠ 0 → (u.axisRect b).length ≠ (b.y1 - b.y0 + 1) * (b.x1 - b.x0 + 1) → ends u 4) ∧
    (hbcfgBad w = false → (a.held = true → a.tenant = t.tenant ∧ (u.axisRect a).any (fun cl => u.axisCount n cl ≠ 0) = false) →
      w ≠ 0 → (u.axisRect b).length = (b.y1 - b.y0 + 1) * (b.x1 - b.x0 + 1) → ends (u.setAxis n b) 0) ∧
    ((a.held = true → a.tenant = t.tenant ∧ (u.axisRect a).any (fun cl => u.axisCount n cl ≠ 0) = false) → w = 0 →
      ends (u.setAxis n { Axis.reset with ep := a.ep, ended := a.ended }) 0))

/-! ### Planes, block floating point and the Lattice -/

/-- R186, R187, R188, R189: PLXP, PLDOT, BPACK, BUNPK and MFMT. -/
def Obligations.PlanesAndBlocks : Prop :=
  (∀ f s c k t, Goes (.plxp f) s c k t →
    let vs := s.getGs c t f.a 8
    ∃ ws, exec (.plxp f) s = .next ((s.setGs c t f.d ws).completed c k s.next s.nextId) ∧ ws.length = 8 ∧
      (∀ w ∈ ws, w.t = vs.any (fun w => w.t)) ∧
      (f.lo % 2 = 0 → ∀ i j, i < 64 → j < 8 →
        (nthD ws j TWord.zero).v.toNat.testBit i = (groupLane 8 vs i).testBit j) ∧
      (f.lo % 2 = 1 → ∀ i j, i < 64 → j < 8 →
        (groupLane 8 ws i).testBit j = (nthD vs j TWord.zero).v.toNat.testBit i)) ∧
  (∀ f s c k t, plainFields f → f.three = true → Goes (.pldot f) s c k t →
    let d := s.getG c t f.d
    let a := s.getG c t f.a
    let b := s.getG c t f.b
    exec (.pldot f) s = .next (s.wrote c k t f.d
      ⟨d.v + w64 (((List.range 64).filter (fun i => (a.v &&& b.v).toNat.testBit i)).length * 2 ^ f.fx), d.t || a.t || b.t⟩
      s.next)) ∧
  (∀ f s c k t ls ld, Goes (.bpack f) s c k t →
    blocksAt (s.memLAt t) (t.ptr f.a).v (4096 * packSize f.hi) = .ok ls →
    blocksAt (s.memLAt t) (t.ptr f.d).v (panelBytes (f.lo + 1)) = .ok ld → (∀ p ∈ ls ++ ld, (s.core p.1).shut = false) →
    exec (.bpack f) s = .next (s.started c k t { Op.new (.bpack f) t .bpack .loc f.la with
      off := ptrOff (t.ptr f.a).v, acc := (ls ++ ld).map (fun p => { Access.at p.2 64 TWord.zero with core := p.1 }),
      ataint := (t.ptr f.a).t || (t.ptr f.d).t, data := [t.ptr f.d, t.ptr f.a] } .l2Request)) ∧
  (∀ f s c k t ls ld, Goes (.bunpk f) s c k t →
    blocksAt (s.memLAt t) (t.ptr f.a).v (panelBytes (f.lo + 1)) = .ok ls →
    blocksAt (s.memLAt t) (t.ptr f.d).v (4096 * packSize f.hi) = .ok ld → (∀ p ∈ ls ++ ld, (s.core p.1).shut = false) →
    exec (.bunpk f) s = .next (s.started c k t { Op.new (.bunpk f) t .bpack .loc f.la with
      off := ptrOff (t.ptr f.a).v, acc := (ls ++ ld).map (fun p => { Access.at p.2 64 TWord.zero with core := p.1 }),
      ataint := (t.ptr f.a).t || (t.ptr f.d).t, data := [t.ptr f.d, t.ptr f.a] } .l2Request)) ∧
  (∀ f s c k t, plainFields f → Goes (.mfmt f) s c k t →
    (fmtOk (s.getG c t f.d).v = true → exec (.mfmt f) s = .next
      ((s.modCore c (fun x => { x with fmt := (s.getG c t f.d).v })).answers s c k t f ⟨(s.core c).fmt, false⟩)) ∧
    (fmtOk (s.getG c t f.d).v = false → exec (.mfmt f) s = .next (s.wrote c k t f.d ⟨allOnes, false⟩ s.next)))

/-- R181, R185, R190 to R193, R24: the Lattice instructions: MZERO takes a tile that is free or the thread's own, MMA and MSTORE need
it, MFREE gives it back; each queues its command, at once where the queue has room; an MMA or MSTORE that has captured what it
needs is outstanding, with its window, until the queue accepts it; MSTAT reads and MTEST waits for a self-test.
Readings and choices of the model it rests on: log entries 26, 42, 75. -/
def Obligations.LatticeInstructions : Prop :=
  (∀ f s c k t, Goes (.mzero f) s c k t → (s.core c).lqWait = [] → (s.core c).lq.length < 8 → t.run = .ready →
    (((s.core c).tile f.d).owner = some (s.tid c k t) ∨ (((s.core c).tile f.d).owner = none ∧
      ((s.core c).tile f.d).rel = none ∧ (s.core c).tileEarlier k f.d t.since = false)) →
    ∃ u, exec (.mzero f) s = .next u ∧ u.mem = s.mem ∧
      (u.core c).lq = (s.core c).lq ++ [{ LCmd.new 2 (s.tid c k t) k f.d (s.core c).fmt (taskDet t.task) with id := s.nextId }] ∧
      (f.d < (s.core c).tiles.length → (u.core c).tile f.d =
        { (s.core c).tile f.d with owner := some (s.tid c k t), poisonI := false }) ∧
      u.thread? c k = some { t.done s.next s.nextId with run := .ready }) ∧
  (∀ f s c k t, Goes (.mzero f) s c k t → ((s.core c).tile f.d).owner ≠ some (s.tid c k t) →
    (((s.core c).tile f.d).owner ≠ none ∨ ((s.core c).tile f.d).rel ≠ none ∨ (s.core c).tileEarlier k f.d t.since = true) →
    exec (.mzero f) s = .next (s.waits s c k t (.tile f.d))) ∧
  (∀ f s c k t, Goes (.mfree f) s c k t →
    (((s.core c).tile f.d).owner = none → ((s.core c).tile f.d).rel = none →
      exec (.mfree f) s = .next (s.moved c k t s.next)) ∧
    (((s.core c).tile f.d).owner = some (s.tid c k t) → (s.core c).lqWait = [] → (s.core c).lq.length < 8 → t.run = .ready →
      ∃ u, exec (.mfree f) s = .next u ∧ u.mem = s.mem ∧
        (u.core c).lq = (s.core c).lq ++ [{ LCmd.new 3 (s.tid c k t) k f.d (s.core c).fmt (taskDet t.task) with id := s.nextId }] ∧
        (f.d < (s.core c).tiles.length → (u.core c).tile f.d =
          { (s.core c).tile f.d with owner := none, rel := some s.nextId }) ∧
        u.thread? c k = some { t.done s.next s.nextId with run := .ready }) ∧
    (((s.core c).tile f.d).owner ≠ some (s.tid c k t) → (((s.core c).tile f.d).owner ≠ none ∨ ((s.core c).tile f.d).rel ≠ none) →
      exec (.mfree f) s = .next (s.trapped c k t 0x0F 0 (w64 (f.d * 256 + 1))))) ∧
  (∀ f s c k t, plainFields f → f.three = true → Goes (.mma f) s c k t →
    (∀ cause, s.tileCheck c (f.d % 2) (s.tid c k t) = some cause →
      exec (.mma f) s = .next (s.trapped c k t 0x0F 0 (w64 (f.d % 2 * 256 + cause)))) ∧
    (s.tileCheck c (f.d % 2) (s.tid c k t) = none → kBad (s.getG c t f.b).v.toNat = true →
      exec (.mma f) s = .next (s.trapped c k t 0x0F 0 (w64 (f.d % 2 * 256 + 3)))) ∧
    (s.tileCheck c (f.d % 2) (s.tid c k t) = none → kBad (s.getG c t f.b).v.toNat = false →
      let m : LCmd := { LCmd.new 0 (s.tid c k t) k (f.d % 2) (s.core c).fmt (taskDet t.task) with
        id := s.nextId, kreg := (s.getG c t f.b).v.toNat, seg := t.seg f.hi, segN := f.hi,
        aform := if f.lo / 2 = 0 then 1 else if f.lo / 2 = 1 then 0 else 2, aOff := (if f.lo / 2 = 0 then t.ptr f.a else s.getG c t f.a).v.toNat,
        aPtr := (t.ptr f.a).v, bGlob := decide (f.d / 2 % 2 = 1), bOff := (s.getG c t (f.b + 1)).v.toNat, bPtr := (t.ptr f.fx).v,
        ord := decide (f.lo % 2 = 1) }
      ((s.core c).lqWait = [] → (s.core c).lq.length < 8 → ∃ u, exec (.mma f) s = .next u ∧ u.mem = s.mem ∧
        (u.core c).lq = (s.core c).lq ++ [{ m with status := s.mmaCodes (tidTenant (s.tid c k t)) m }] ∧
        ∃ t', u.thread? c k = some t' ∧ t'.pc = s.next ∧ ∀ o ∈ t'.ops, o.id ≠ s.nextId) ∧
      (8 ≤ (s.core c).lq.length → ∃ u, exec (.mma f) s = .next u ∧ u.mem = s.mem ∧
        (u.core c).lq = (s.core c).lq ∧ (u.core c).lqWait = (s.core c).lqWait ++ [m] ∧
        ∃ t' o, u.thread? c k = some t' ∧ t'.pc = s.next ∧ o ∈ t'.ops ∧ o.id = s.nextId ∧ o.left = f.la))) ∧
  (∀ f s c k t, Goes (.mstore f) s c k t →
    (∀ cause, s.tileCheck c (f.d % 2) (s.tid c k t) = some cause →
      exec (.mstore f) s = .next (s.trapped c k t 0x0F 0 (w64 (f.d % 2 * 256 + cause)))) ∧
    (s.tileCheck c (f.d % 2) (s.tid c k t) = none →
      let loc := decide (f.d / 2 % 2 = 1)
      let m : LCmd := { LCmd.new 1 (s.tid c k t) k (f.d % 2) (s.core c).fmt (taskDet t.task) with
        id := s.nextId, seg := t.seg f.hi, segN := f.hi, aform := if loc then 1 else 0, aOff := s.gOff c t f,
        aPtr := (t.ptr f.a).v, fmt := f.lo / 2, ord := decide (f.lo % 2 = 1),
        addrT := if loc then (t.ptr f.a).t else (s.getG c t f.a).t }
      ((s.core c).lqWait = [] → (s.core c).lq.length < 8 → ∃ u, exec (.mstore f) s = .next u ∧ u.mem = s.mem ∧
        (u.core c).lq = (s.core c).lq ++ [{ m with status := s.mstoreCodes (tidTenant (s.tid c k t)) m }] ∧
        ∃ t', u.thread? c k = some t' ∧ t'.pc = s.next ∧ ∀ o ∈ t'.ops, o.id ≠ s.nextId) ∧
      (8 ≤ (s.core c).lq.length → ∃ u, exec (.mstore f) s = .next u ∧ u.mem = s.mem ∧
        (u.core c).lq = (s.core c).lq ∧ (u.core c).lqWait = (s.core c).lqWait ++ [m] ∧
        ∃ t' o, u.thread? c k = some t' ∧ t'.pc = s.next ∧ o ∈ t'.ops ∧ o.id = s.nextId ∧ o.left = f.la))) ∧
  (∀ f s c k t, Goes (.mstat f) s c k t →
    exec (.mstat f) s = .next (s.answers s c k t f ⟨w64 ((s.cluster (c / 8)).fence % 256 * 2 ^ 56
      + min 8 (s.core c).lq.length * 2 ^ 48
      + (s.cluster (c / 8)).mxwgt.bits (4 * (c % 8) + 3) (4 * (c % 8)) * 2 ^ 44
      + ((s.core c).tile 1).code (s.tid c k t) * 2 ^ 38 + ((s.core c).tile 0).code (s.tid c k t) * 2 ^ 36
      + (s.cluster (c / 8)).tests), true⟩)) ∧
  (∀ f s c k t n, Goes (.mtest f) s c k t → t.want = some (.selftest n) → n < (s.cluster (c / 8)).ran →
    exec (.mtest f) s = .next (s.moved c k t s.next)) ∧
  (∀ f s c k t, Goes (.mtest f) s c k t → t.want = none →
    exec (.mtest f) s = .next ((s.scheduleTest (c / 8)).waits s c k t (.selftest (s.cluster (c / 8)).ran)))

/-- R177, R178, R179, R181, R182, R184: the work of the Lattice: a command starts, a line arrives, a pair executes, a command
reports, a tile or a sub-array fails and is repaired.
Readings and choices of the model it rests on: log entries 1, 2, 26, 74. -/
def Obligations.LatticeWork : Prop :=
  (∀ s j aged m, s.nextQueue (s.argN 0) = some (j, aged) → (s.core (8 * s.argN 0 + j)).startable = some m →
    exec .latticeCommandStart s = .next ((s.countStart (s.argN 0) j aged).startCmd (s.argN 0) j m)) ∧
  (∀ s, s.nextQueue (s.argN 0) = none → exec .latticeCommandStart s = .next s) ∧
  (∀ s c m u m' s', s.lcmd? (s.argN 0) (s.argN 1) = some (c, m) → m.began ≠ 0 → m.fin = false → m.kind = 0 →
    (m.units.filter (fun u => !m.got.contains u))[Config.choose s.tick %
      max 1 (m.units.filter (fun u => !m.got.contains u)).length]? = some u → s.fetchUnit c m u = .got m' s' →
    ∃ w, exec .tileFetchLine s = .next w ∧
      (w.core c) = (s'.core c).setLCmd { m' with got := u :: m'.got, parked := false } ∧ w.mem = s'.mem) ∧
  (∀ s c m status s' u, s.lcmd? (s.argN 0) (s.argN 1) = some (c, m) → m.began ≠ 0 → m.fin = false → m.kind = 0 →
    (m.units.filter (fun u => !m.got.contains u))[Config.choose s.tick %
      max 1 (m.units.filter (fun u => !m.got.contains u)).length]? = some u → s.fetchUnit c m u = .fail status s' →
    exec .tileFetchLine s = .next (s'.failCmd c m status)) ∧
  (∀ s c m, s.lcmd? (s.argN 0) (s.argN 1) = some (c, m) → m.began ≠ 0 → m.fin = false → m.kind = 0 →
    (s.core c).blocked m = false → m.parked = false → s.isFirst (s.argN 0) Core.readyMma m.began = true →
    (((s.core c).tile m.tile).poison = true ∨ (s.cluster (s.argN 0)).fence % 256 = 255) →
    exec .planePairExecute s = .next (s.finishCmd c { m with status := 0x0F })) ∧
  (∀ (s : State) (c : Nat) (m : LCmd), s.lcmd? (s.argN 0) (s.argN 1) = some (c, m) → m.began ≠ 0 → m.fin = false → m.kind = 0 →
    (s.core c).blocked m = false → m.parked = false → s.isFirst (s.argN 0) Core.readyMma m.began = true →
    ((s.core c).tile m.tile).poison = false → (s.cluster (s.argN 0)).fence % 256 ≠ 255 → m.blockReady m.kdone = true →
    let p := m.skipPairs (m.ta * m.tb) (m.exec + m.skip - m.kdone * (m.ta * m.tb))
    let q := if p.2 < m.ta * m.tb then (({ p.1 with exec := p.1.exec + 1 } : LCmd), p.2 + 1) else p
    let r := q.1.skipPairs (m.ta * m.tb) q.2
    (r.2 < m.ta * m.tb → exec .planePairExecute s =
      .next ((s.modCore c (fun x => x.setLCmd r.1)).again .planePairExecute)) ∧
    (m.ta * m.tb ≤ r.2 → r.1.kdone + 1 < r.1.nk → r.1.tile < (s.core c).tiles.length →
      ∃ u, exec .planePairExecute s = .next u ∧ u.mem = s.mem ∧
        ((u.core c).tile r.1.tile).el = r.1.accumulate r.1.kdone ((s.core c).tile r.1.tile).el) ∧
    (m.ta * m.tb ≤ r.2 → r.1.nk ≤ r.1.kdone + 1 →
      ∃ (u : State) (n : LCmd), exec .planePairExecute s = .next (u.finishCmd c n) ∧ u.mem = s.mem ∧ n.exec = r.1.exec ∧ n.skip = r.1.skip ∧
        (r.1.tile < (s.core c).tiles.length →
          ((u.core c).tile r.1.tile).el = r.1.accumulate r.1.kdone ((s.core c).tile r.1.tile).el))) ∧
  (∀ s c m, s.lcmd? (s.argN 0) (s.argN 1) = some (c, m) → m.fin = true →
    (m.ord = true → ((s.core c).lqBefore m.id).any (fun y => y.owner = m.owner) = false) →
    exec .mxdone s = .next ((((s.setCore c { s.core c with lq := (s.core c).lq.filter (fun y => y.id ≠ m.id) }).acceptCmds
      c).engineMsg c m.owner m.owner 0x06 m.status (if m.kind = 0 then kTag m.kreg else 0)
      ⟨w64 (if m.kind = 0 then (if m.status = 0 then m.skip * 2 ^ 32 + m.exec else 0) else m.count), false⟩))) ∧
  (∀ s, ∃ u, exec .tileEccError s = .next u ∧
    (s.argN 1 < (s.core (s.argN 0)).tiles.length →
      ((u.core (s.argN 0)).tile (s.argN 1)).poison = true ∧
      ((u.core (s.argN 0)).tile (s.argN 1)).el = ((s.core (s.argN 0)).tile (s.argN 1)).el) ∧ u.mem = s.mem) ∧
  (∀ s, s.inCommand (s.argN 0) = false → ∃ u, exec .latticeSelfTest s = .next u ∧
    (u.cluster (s.argN 0)).ran = (s.cluster (s.argN 0)).ran + 1 ∧
    (∀ n, n < 8 → (u.cluster (s.argN 0)).fence.testBit n =
      ((s.cluster (s.argN 0)).fence.testBit n || (s.argN 1).testBit n))) ∧
  (∀ s, s.inCommand (s.argN 0) = true → exec .latticeSelfTest s = .next (s.again .latticeSelfTest)) ∧
  (∀ s, ∃ u, exec .apexLatticeRepair s = .next u ∧ (u.cluster (s.argN 0)).fence.testBit (s.argN 1) = false ∧
    u.mem = s.mem ∧ u.cores = s.cores)

/-! ### The stream accumulator -/

/-- R207: SANEW completes: with a status where a check of the parameter block, of the gains, of the span or of the backing area
fails, and with 0 where none does, the region taking the lowest free entry of the table. R212: SAFREE completes: the region and its
rows are gone. Each waits for pages, SAFREE for the thread's adds and the evictions, and traps where its operand fails its checks.
R208, R209, R210, R211: SAADD, SAREAD, SAINFO and SAEVICT complete: SAADD and SAREAD begin their operation and the thread goes
on; SAINFO writes the item of the region or of its row that gd names; SAEVICT schedules the resident rows and writes their number. The
number of rows and a row's items are tainted, every other result as the operands are.
Readings and choices of the model it rests on: log entry 27. -/
def Obligations.StreamInstructions : Prop :=
  (∀ f s c k t, plainFields f → Goes (.sanew f) s c k t →
    let blk := (s.getG c t f.d).v.toNat
    (∀ code addr aux, memG t f.hi (s.gOff c t f) 1 'R' = some (code, addr, aux) →
      exec (.sanew f) s = .next (s.trapped c k t code addr aux)) ∧
    (memG t f.hi (s.gOff c t f) 1 'R' = none → blk % 64 ≠ 0 → exec (.sanew f) s = .next (s.wrote c k t f.d ⟨5, false⟩ s.next)) ∧
    (∀ ws, memG t f.hi (s.gOff c t f) 1 'R' = none → blk % 64 = 0 → s.sanewRead c k t f.hi blk 8 = .words ws →
      paramOf (ws.map (fun w => w.v)) = none → exec (.sanew f) s = .next (s.wrote c k t f.d ⟨1, false⟩ s.next)) ∧
    (∀ ws p gw n, memG t f.hi (s.gOff c t f) 1 'R' = none → blk % 64 = 0 → s.sanewRead c k t f.hi blk 8 = .words ws →
      paramOf (ws.map (fun w => w.v)) = some p → s.sanewRead c k t f.hi p.gam (p.len / 4) = .words gw →
      (∀ b ∈ gainsOf gw, (bf16.val b).finite = true) → s.sanewStatus c k t f.hi (s.gOff c t f) p = .status n →
      (n ≠ 0 → exec (.sanew f) s = .next (s.wrote c k t f.d ⟨w64 n, false⟩ s.next)) ∧
      (n = 0 → ∃ u, exec (.sanew f) s = .next (u.answers s c k t f ⟨0, false⟩) ∧
        u = s.sanewMake t f.hi (s.gOff c t f) p (gainsOf gw) ∧ u.mem = s.mem ∧ u.cores = s.cores ∧
        ∀ i, (s.tenant t.tenant).freeStream = some i → ∃ g, SMap.get? (u.tenant t.tenant).streams i = some g ∧
          g.base = vaOf t f.hi (s.gOff c t f) % 2 ^ 57 ∧ g.rows = p.rows ∧ g.len = p.len ∧ g.f = p.f ∧ g.die = p.die ∧
          g.row = []))) ∧
  (∀ f s c k t, Goes (.safree f) s c k t → memG t f.hi (s.gOff c t f) 1 'R' = none →
    let find := (s.tenant t.tenant).streams.find? (fun p => p.2.base = vaOf t f.hi (s.gOff c t f) % 2 ^ 57)
    (find = none → exec (.safree f) s = .next (s.trapped c k t 0x0D (w64 (vaOf t f.hi (s.gOff c t f) % 2 ^ 57))
      (w64 (4 * 2 ^ 56 + 3)))) ∧
    (∀ i g, find = some (i, g) → s.addsPending c k s.nextId g = false → (∀ p ∈ g.row, p.2.fmt = none) →
      exec (.safree f) s = .next ((s.modTenant t.tenant (fun tn => { tn with streams := SMap.del tn.streams i })).completed c k
        s.next s.nextId)) ∧
    (∀ i g, find = some (i, g) → (s.addsPending c k s.nextId g = true ∨ ∃ p ∈ g.row, p.2.fmt ≠ none) →
      exec (.safree f) s = .next (s.waits s c k t .storeSpace))) ∧
  GlobalForm .saadd (fun f => 4 * saaddCount f.lo) 'W' (fun f s c k t off =>
    s.begun c k t s.nextId { Op.new (.saadd f) t .store .glob f.la with
      seg := f.hi, off := off, acc := [gAccess t f off 64 TWord.zero],
      data := (s.getGs c t f.d 8).map (fun w => { w with t := w.t || (s.getG c t f.a).t }), ataint := (s.getG c t f.a).t }) ∧
  (∀ f s c k t, Goes (.saread f) s c k t → f.lo ≠ 2 →
    memG t f.hi (s.gOff c t f) (sareadAlign f.lo) 'R' = none →
    exec (.saread f) s = .next (s.started c k t { Op.new (.saread f) t .saread .glob f.la with
      seg := f.hi, off := vaOf t f.hi (s.gOff c t f) % 2 ^ 57,
      acc := [Access.at (vaOf t f.hi (s.gOff c t f) % 2 ^ 57) (sareadAlign f.lo) TWord.zero],
      pend := (List.range 8).map (fun j => f.d + j), ataint := (s.getG c t f.a).t, lane := fmtAw (s.core c).fmt + 1 }
      .l2Request)) ∧
  (∀ f s c k t ls, Goes (.saread f) s c k t → f.lo = 2 → memG t f.hi (s.gOff c t f) (sareadAlign f.lo) 'R' = none →
    blocksAt (s.memLAt t) (t.ptr f.d).v (panelBytes (fmtAw (s.core c).fmt + 1)) = .ok ls →
    (∀ p ∈ ls, (s.core p.1).shut = false) →
    exec (.saread f) s = .next (s.started c k t { Op.new (.saread f) t .saread .glob f.la with
      seg := f.hi, off := vaOf t f.hi (s.gOff c t f) % 2 ^ 57,
      acc := [Access.at (vaOf t f.hi (s.gOff c t f) % 2 ^ 57) (sareadAlign f.lo) TWord.zero], ataint := (s.getG c t f.a).t,
      lane := fmtAw (s.core c).fmt + 1, data := [t.ptr f.d] } .l2Request)) ∧
  (∀ f s c k t, plainFields f → ∀ i ∈ ([(.sainfo f, 4), (.saevict f, 1)] : List (Instr × Nat)), Goes i.1 s c k t →
    memG t f.hi (s.gOff c t f) i.2 'R' = none →
    (s.tenant t.tenant).streamAt (vaOf t f.hi (s.gOff c t f) % 2 ^ 57) = none →
    exec i.1 s = .next (s.trapped c k t 0x0D (w64 (vaOf t f.hi (s.gOff c t f) % 2 ^ 57)) (w64 (4 * 2 ^ 56 + 2)))) ∧
  (∀ f s c k t i g, plainFields f → Goes (.sainfo f) s c k t → memG t f.hi (s.gOff c t f) 4 'R' = none →
    let va := vaOf t f.hi (s.gOff c t f) % 2 ^ 57
    (s.tenant t.tenant).streamAt va = some (i, g) →
    let n := (s.getG c t f.d).v.toNat
    let r := s.infoRow t.tenant i (g.row? va) g
    (s.addsPending c k s.nextId g = true → exec (.sainfo f) s = .next (s.waits s c k t .storeSpace)) ∧
    (s.addsPending c k s.nextId g = false →
      (n = 0 → exec (.sainfo f) s = .next (s.wrote c k t f.d ⟨w64 ((g.rows - 1) * 2 ^ 40 + (g.len / 64 - 1) * 2 ^ 29
        + g.f * 2 ^ 23 + g.die * 2 ^ 21 + (if g.ot then 2 ^ 20 else 0) + (if g.z then 2 ^ 19 else 0) + i),
        (s.getG c t f.a).t⟩ s.next)) ∧
      (1 ≤ n → n ≤ 5 → exec (.sainfo f) s = .next (r.2.answers s c k t f ⟨w64 (nthD r.1.header (n - 1) 0), true⟩)) ∧
      (n = 6 → exec (.sainfo f) s = .next (r.2.answers s c k t f ⟨w64 (g.rms r.1.ss), true⟩)) ∧
      (6 < n → exec (.sainfo f) s = .next (r.2.answers s c k t f
        ⟨allOnes, (s.getG c t f.a).t || (s.getG c t f.d).t⟩)))) ∧
  (∀ f s c k t i g, plainFields f → Goes (.saevict f) s c k t → memG t f.hi (s.gOff c t f) 1 'R' = none →
    let va := vaOf t f.hi (s.gOff c t f) % 2 ^ 57
    (s.tenant t.tenant).streamAt va = some (i, g) →
    let n := (s.getG c t f.d).v.toNat
    let rows := (g.row.filter (fun p => g.row? va ≤ p.1 && p.1 < min (g.row? va + n) g.rows && p.2.res && p.2.fmt.isNone)).map
      Prod.fst
    ((va - g.base) % (4 * g.len) ≠ 0 →
      exec (.saevict f) s = .next (s.trapped c k t 0x13 (w64 (s.gOff c t f)) (w64 f.hi))) ∧
    ((va - g.base) % (4 * g.len) = 0 → (n = 0 ∨ 65536 < n) → exec (.saevict f) s =
      .next (s.wrote c k t f.d ⟨allOnes, (s.getG c t f.a).t || (s.getG c t f.d).t⟩ s.next)) ∧
    ((va - g.base) % (4 * g.len) = 0 → n ≠ 0 → n ≤ 65536 →
      ∃ u : State, exec (.saevict f) s = .next (u.answers s c k t f ⟨w64 rows.length, true⟩) ∧ u.mem = s.mem ∧ u.cores = s.cores ∧
        (∃ id, (u.tenant t.tenant).evicts = (s.tenant t.tenant).evicts ++ [⟨id, s.tid c k t, i, rows, 0, 0⟩] ∧
          (rows = [] → evt .sadone [t.tenant, id] ∈ u.due)) ∧
        ∀ e ∈ s.due, e ∈ u.due))

/-- R197, R199, R206, R211: the work of the accumulator: an add is applied to its row, a saturation is reported, a row leaves to
its slot and comes back, an eviction reports; adds and snapshots that wait for a row are served in the order of their arrival.
Readings and choices of the model it rests on: log entries 27, 83. -/
def Obligations.StreamWork : Prop :=
  (∀ s f src rel s' ot, s.flights.find? (fun f => f.id = s.argN 0) = some f → f.entry.kind = .streamAdd src rel →
    s.sameThread f.core f.entry.slot f.entry.inc = none →
    s.streamAdd (s.tenantOn f.core) f.entry.va src (f.entry.deltas src) (f.entry.data.any (fun d => d.t)) false f.id =
      .applied s' none ot →
    exec .streamAddApply s = .next ((({ s' with flights := s'.flights.filter (fun g => g.id ≠ f.id) } : State).countHot
      (f.core / 8) (s.tenantOn f.core) f.entry.leaf).demand (f.core / 8) f.entry.va)) ∧
  (∀ s, s.flights.find? (fun f => f.id = s.argN 0) = none → exec .streamAddApply s = .next s) ∧
  (∀ (s : State) (tn i r : Nat) (g : SRegion) (key : Nat),
    (∀ w, ((g.rowAt r).wait.filter s.awaits).head? = some w → w ≠ key →
      ∀ b, ∃ u, s.rowReady tn i r g b key = .later u ∧ u.mem = s.mem) ∧
    ((∀ w, ((g.rowAt r).wait.filter s.awaits).head? = some w → w = key) → ((g.rowAt r).p = true ∨ (g.rowAt r).res = true) →
      ∀ b, s.rowReady tn i r g b key = .ready (s.setRow tn i r { g.rowAt r with
        wait := ((g.rowAt r).wait.filter s.awaits).filter (fun w => w ≠ key) }))) ∧
  (∀ s t, s.sameThread (s.argN 0) (s.argN 1) (s.argN 2) = some t → t.saovf = none →
    exec .saovf s = .next (s.setThread (s.argN 0) (s.argN 1)
      { t with saovf := some ⟨0x0E, (s.argW 0).v, (s.argW 1).v, t.trap.tip⟩ })) ∧
  (∀ s, s.sameThread (s.argN 0) (s.argN 1) (s.argN 2) = none → exec .saovf s = .next s) ∧
  (∀ s t o f j a i g s', s.opOf (s.argN 0) (s.argN 1) (s.argN 2) = some (t, o) → o.ins = .saread f → f.lo = 0 →
    o.pendingAcc = some (j, a) → (s.tenant t.tenant).streamAt a.addr = some (i, g) →
    s.rowReady t.tenant i (g.row? a.addr) g false o.id = .ready s' →
    let s1 := (s'.countHot (s.argN 0 / 8) t.tenant (s'.argW 0).v).demand (s.argN 0 / 8) a.addr
    let x := s'.rowOf t.tenant i (g.row? a.addr)
    let r := portLanes fp32 (g.port x.snap (g.col? a.addr) 16) 16
    x.p = false → x.res = true → orFlags (r.map Prod.snd) = 0 →
    exec .radiusSnapshot s = .next ((s1.setRow t.tenant i (g.row? a.addr) { x with used := s1.now }).opNext (s.argN 0)
      (s.argN 1) (({ o with data := (packElems 32 (r.map Prod.fst)).map (fun v => (⟨w64 v, x.t || o.ataint⟩ : TWord)) } : Op).perform j
        TWord.zero))) ∧
  (∀ s g fmt ls, SMap.get? (s.tenant (s.argN 0)).streams (s.argN 1) = some g → (g.rowAt (s.argN 2)).fmt = some fmt →
    s.engineLines (s.argN 0) 3 (8 * (s.tenant (s.argN 0)).rowHome (s.argN 1) (s.argN 2) g)
      (rowSlot (s.argN 0) (s.argN 1) (s.argN 2)) (g.slotVa (s.argN 2)) 5 (slotBytes g.len / 128) = .ok ls →
    (∀ l ∈ ls, s.homeGate (128 * l) 128 true = none) →
    let x := { g.rowAt (s.argN 2) with
      version := ((g.rowAt (s.argN 2)).version + 1) % 2 ^ 64, res := false, img := true, fmt := none }
    let ws := (wordsOfBytes (slotBytes g.len) (x.image g.len fmt)).map (fun v => (⟨w64 v, x.t⟩ : TWord))
    exec .rowEviction s = .next (((ls.zipIdx.foldl (fun (s : State) p =>
      s.putLine p.1 ((ws.drop (16 * p.2)).take 16)) s).setRow (s.argN 0) (s.argN 1) (s.argN 2)
        { Row.new with img := true, wait := (g.rowAt (s.argN 2)).wait }).evicted (s.argN 0) (s.argN 1) (s.argN 2) true)) ∧
  (∀ s g ls, SMap.get? (s.tenant (s.argN 0)).streams (s.argN 1) = some g → (g.rowAt (s.argN 2)).res = false →
    (g.rowAt (s.argN 2)).p = false → (g.rowAt (s.argN 2)).img = true →
    (s.tenant (s.argN 0)).roomFor (s.argN 1) (s.argN 2) g = true →
    s.engineLines (s.argN 0) 3 (8 * (s.tenant (s.argN 0)).rowHome (s.argN 1) (s.argN 2) g)
      (rowSlot (s.argN 0) (s.argN 1) (s.argN 2)) (g.slotVa (s.argN 2)) 4 (slotBytes g.len / 128) = .ok ls →
    (∀ l ∈ ls, s.homeGate (128 * l) 128 false = none) → (∀ l ∈ ls, s.mem.poisoned l = false) →
    let s1 := ls.foldl (fun (s : State) l => s.applyAdds (128 * l) 128) s
    exec .rowReload s = .next (s1.setRow (s.argN 0) (s.argN 1) (s.argN 2)
      { rowOfImage g.len (ls.flatMap s1.lineBytes) (ls.any s1.lineTaint) with
        used := s1.now, wait := (g.rowAt (s.argN 2)).wait })) ∧
  (∀ s e, (s.tenant (s.argN 0)).evicts.find? (fun e => e.id = s.argN 1) = some e →
    exec .sadone s = .next ((s.setTenant (s.argN 0)
      { s.tenant (s.argN 0) with evicts := (s.tenant (s.argN 0)).evicts.filter (fun x => x.id ≠ e.id) }).engineMsg
        (((s.setTenant (s.argN 0) { s.tenant (s.argN 0) with
            evicts := (s.tenant (s.argN 0)).evicts.filter (fun x => x.id ≠ e.id) }).tidCore e.owner).getD 0)
        e.owner e.owner 0x07 e.status 0 ⟨w64 e.count, false⟩))

/-! ### Traps, system registers, saving a thread -/

/-- R238, R242: the delivery of a trap: a double trap, or one with no handler, stops the thread with its trap registers kept and
posts a record; otherwise the four trap registers, PK and TIP are loaded, the privilege becomes K and the pc is TRAPVEC. No
register, pointer or segment changes. A thread that waited for granules lets those behind it be served (R131).
R238, R247: TRAP and SVCALL raise SOFTTRAP with the next address in TRAPPC; RETT goes to TRAPPC at the privilege PK with TIP
clear, and to an odd address raises ALIGN.
Readings and choices of the model it rests on: log entries 10, 43. -/
def Obligations.Traps : Prop :=
  (∀ (s : State) (c k : Nat) (t : Thread) (tr : Trap), s.thread? c k = some t →
     ((t.trap.tip = true ∨ (s.tenant t.tenant).trapvec = 0) →
       s.deliver c k tr = ((s.leaveLine c t).setThread c k { t with run := .stopped false }).faultRec t.tenant
         (w64 (7 * 2 ^ 56 + tr.code * 2 ^ 48)) (s.tid c k t)) ∧
     (t.trap.tip = false → (s.tenant t.tenant).trapvec ≠ 0 →
       s.deliver c k tr = (s.leaveLine c t).withThread c k { t with
         trap := { t.trap with pc := w64 t.pc, code := w64 tr.code, addr := tr.addr, aux := tr.aux, pk := t.priv, tip := true }
         priv := true, pc := (s.tenant t.tenant).trapvec.toNat / 2 * 2, run := .ready, since := 0, want := none, answer := none,
         declined := none, part := [] } (s.core c).rf) ∧
     (s.leaveLine c t).mem = s.mem ∧ (∀ d, (s.leaveLine c t).core d = s.core d)) ∧
  (∀ f s c k t, Goes (.trap f) s c k t →
    exec (.trap f) s = .next ((s.raiseAt c k 0x18 0 (w64 f.imm.toNat) s.next).shortened c k t.pc s.nextId)) ∧
  (∀ f s c k t, Goes (.svcall f) s c k t →
    exec (.svcall f) s = .next ((s.raiseAt c k 0x18 0 (w64 (2 ^ 62 + f.imm.toNat)) s.next).shortened c k t.pc s.nextId)) ∧
  (∀ (s : State) (c k : Nat) (t : Thread) (code : Nat) (addr aux : Word) (resume : Nat), s.thread? c k = some t → t.ops = [] →
    s.raiseAt c k code addr aux resume = ((s.settle c k).goto c k resume).deliver c k ⟨code, addr, aux, t.trap.tip⟩) ∧
  (∀ (s : State) (c k : Nat) (t : Thread) (code : Nat) (addr aux : Word) (resume : Nat), s.thread? c k = some t → t.ops ≠ [] →
    ∃ u : State, s.raiseAt c k code addr aux resume = u.post [evt .trapDelivery [c, k]] ∧ s.SameStores u ∧
      ∃ v, u.thread? c k = some v ∧ v.pc = resume ∧ v.run = .wait .opsDone ∧
        v.pend = some ⟨code, addr, aux, t.trap.tip⟩ ∧ t.SameRegs v) ∧
  (∀ f s c k t, Goes (.rett f) s c k t →
    (t.trap.pc.toNat % 2 = 1 → exec (.rett f) s = .next (s.trapped c k t 0x13 t.trap.pc 0)) ∧
    (t.trap.pc.toNat % 2 = 0 → exec (.rett f) s = .next (s.withThread c k { t.done t.trap.pc.toNat s.nextId with
      priv := t.trap.pk, trap := { t.trap with tip := false } } (s.core c).rf)))

/-- R241, R247: RDSR of each register, R157, R242: and WRSR of each.
Readings and choices of the model it rests on: log entries 39, 42, 47. -/
def Obligations.SystemRegisters : Prop :=
  (∀ f s c k t, Goes (.rdsr f) s c k t →
    ∃ v, exec (.rdsr f) s = .next (s.answers s c k t f v) ∧
      (f.imm = 0 → v = ⟨t.fpstat, false⟩) ∧
      (f.imm = 1 → v = ⟨w64 ((if t.trap.pk then 2 else 0) + (if t.trap.tip then 1 else 0)), false⟩) ∧
      (f.imm = 2 → v = ⟨t.trap.pc, false⟩) ∧ (f.imm = 3 → v = ⟨t.trap.code, false⟩) ∧
      (f.imm = 4 → v = ⟨t.trap.addr, false⟩) ∧ (f.imm = 5 → v = ⟨t.trap.aux, false⟩) ∧
      (f.imm = 6 → v = ⟨t.trap.scr0, false⟩) ∧ (f.imm = 7 → v = ⟨t.trap.scr1, false⟩) ∧
      (f.imm = 8 → v = ⟨(s.tenant t.tenant).trapvec, false⟩) ∧ (f.imm = 9 → v = ⟨(s.tenant t.tenant).ttroot, false⟩) ∧
      (f.imm = 10 ∨ f.imm = 11 → v = TWord.zero) ∧
      (f.imm = 12 → v = ⟨(s.tenant t.tenant).savebase, false⟩) ∧ (f.imm = 13 → v = ⟨(s.tenant t.tenant).savesize, false⟩) ∧
      (f.imm = 14 → v = ⟨(s.tenant t.tenant).cvquota, false⟩) ∧ (f.imm = 15 → v = ⟨(s.cluster (c / 8)).mxwgt, false⟩) ∧
      (f.imm = 16 → v = ⟨if (s.core c).lthold then 1 else 0, false⟩) ∧
      (f.imm = 17 → v = ⟨(s.tenant t.tenant).tntctl, false⟩) ∧
      (∀ n : Nat, n < 4 → f.imm = 21 + (n : Int) → v = ⟨nthD t.hbmiss n 0, true⟩) ∧ (f.imm = 25 → v = ⟨w64 s.now, true⟩)) ∧
  (∀ f s c k t, plainFields f → Goes (.wrsr f) s c k t → f.imm ≠ 10 → f.imm ≠ 11 → f.imm ≠ 16 →
    ∃ u v, exec (.wrsr f) s = .next u ∧ u.thread? c k = some v ∧ u.mem = s.mem ∧ (∀ d, (u.core d).rf = (s.core d).rf) ∧
      v = (t.sysWrite f.imm.toNat (s.getG c t f.d).v).done s.next s.nextId ∧
      (∀ tn, u.tenant tn = if tn = t.tenant then (s.tenant tn).sysWrite f.imm.toNat (s.getG c t f.d).v else s.tenant tn) ∧
      (∀ cl, (u.cluster cl).mxwgt = if cl = c / 8 ∧ f.imm = 15 then w64 ((s.getG c t f.d).v.toNat % 2 ^ 32)
        else (s.cluster cl).mxwgt)) ∧
  (∀ (t : Thread) (x : Tenant) (v : Word),
    t.sysWrite 0 v = { t with fpstat := fpstatWrite t.fpstat v } ∧
    t.sysWrite 1 v = { t with trap := { t.trap with pk := v.getLsbD 1, tip := v.getLsbD 0 } } ∧
    t.sysWrite 2 v = { t with trap := { t.trap with pc := v } } ∧
    t.sysWrite 4 v = { t with trap := { t.trap with addr := v } } ∧ t.sysWrite 5 v = { t with trap := { t.trap with aux := v } } ∧
    t.sysWrite 6 v = { t with trap := { t.trap with scr0 := v } } ∧ t.sysWrite 7 v = { t with trap := { t.trap with scr1 := v } } ∧
    (∀ n, 7 < n → t.sysWrite n v = t) ∧ (∀ n, n < 8 → x.sysWrite n v = x) ∧
    x.sysWrite 8 v = { x with trapvec := w64 (v.toNat / 2 * 2) } ∧ x.sysWrite 9 v = { x with ttroot := v } ∧
    x.sysWrite 12 v = { x with savebase := w64 (v.toNat / 4096 * 4096) } ∧
    (v = 0 ∨ (v.toNat % 4096 = 0 ∧ 0x11000 ≤ v.toNat) → x.sysWrite 13 v = { x with savesize := v }) ∧
    (v ≠ 0 → v.toNat % 4096 ≠ 0 ∨ v.toNat < 0x11000 → x.sysWrite 13 v = x) ∧
    x.sysWrite 14 v = { x with cvquota := v } ∧ (∀ n, 20 < n → x.sysWrite n v = x) ∧
    (∀ n, (fpstatWrite t.fpstat v).getLsbD n =
      if n < 5 then t.fpstat.getLsbD n && !v.getLsbD n else decide (n < 10) && v.getLsbD n)) ∧
  (∀ f s c k t, plainFields f → Goes (.wrsr f) s c k t → f.imm = 10 →
    exec (.wrsr f) s = .next (((s.answerFault t.tenant (s.getG c t f.d).v).finish c k).shortened c k t.pc s.nextId)) ∧
  (∀ f s c k t, plainFields f → Goes (.wrsr f) s c k t → f.imm = 16 → (s.getG c t f.d).v.getLsbD 0 = false →
    ∃ u, exec (.wrsr f) s = .next u ∧ (u.core c).lthold = false ∧ u.mem = s.mem ∧
      ∃ v, u.thread? c k = some v ∧ v.pc = s.next)

/-- R245, R246: CTXSV: a thread that cannot be saved answers 1; otherwise the thread to be saved is asked to stop and the issuer
waits for its answer. CTXLD: a malformed operand answers 1 and a slot with another thread 2; a discarded thread ends.
R245, R248, R334: the end of a save: a thread that has stopped with nothing outstanding is saved, or the save fails; a core that fails
loses its threads; Apex repairs or fences a dead core.
Readings and choices of the model it rests on: log entries 44, 45. -/
def Obligations.ThreadImages : Prop :=
  (∀ f s c k t, plainFields f → Goes (.ctxsv f) s c k t → t.answer = none →
    (s.saveSlot c k t.tenant (s.getG c t f.d).v = none → exec (.ctxsv f) s = .next (s.wrote c k t f.d ⟨1, false⟩ s.next)) ∧
    (∀ j u, s.saveSlot c k t.tenant (s.getG c t f.d).v = some (j, u) →
      ∃ w v x, exec (.ctxsv f) s = .next w ∧ w.thread? c j = some v ∧ w.thread? c k = some x ∧ v.beingSaved = true ∧
        v = { u with stopReq := v.stopReq } ∧ x.run = .wait (.save j) ∧ x.pc = t.pc ∧ w.mem = s.mem ∧
        evt .contextSaveComplete [c, j] ∈ w.due)) ∧
  (∀ f s c k t a, Answered (.ctxsv f) s c k t a →
    exec (.ctxsv f) s = .next (s.answers s c k t f ⟨w64 a.code, false⟩)) ∧
  (∀ f s c k t, plainFields f → Goes (.ctxld f) s c k t →
    let w := (s.getG c t f.d).v
    let occ := ((s.core c).slot (w.bits 11 6)).occ
    (w.bits 63 57 ≠ 0 ∨ w.bits 5 1 ≠ 0 → exec (.ctxld f) s = .next (s.wrote c k t f.d ⟨1, false⟩ s.next)) ∧
    (w.bits 63 57 = 0 → w.bits 5 1 = 0 → (∃ v, occ = .live v) → exec (.ctxld f) s = .next (s.wrote c k t f.d ⟨2, false⟩ s.next)) ∧
    (∀ u n, w.bits 63 57 = 0 → w.bits 5 1 = 0 → w.bits 0 0 = 1 → occ = .reserved u (w.bits 56 12 * 4096) n →
      exec (.ctxld f) s = .next ((s.discardThread c (w.bits 11 6) u).answers s c k t f TWord.zero)) ∧
    (w.bits 63 57 = 0 → w.bits 5 1 = 0 → w.bits 0 0 = 0 → (s.core c).sb = [] → (s.core c).parked = [] →
      (∀ y ∈ s.flights, y.core ≠ c) → s.imageTry c k t (w.bits 56 12 * 4096) [0] = .ready →
      ownedTiles (s.imageN t.tenant (w.bits 56 12 * 4096) 0x20) = [] →
      w.bits 11 6 ≠ 63 → bitsOf (s.imageN t.tenant (w.bits 56 12 * 4096) 0x20) 47 40 ≤ (s.core c).freeGran.length →
      (s.core c).scopeAhead k t.since = false →
      (∀ u n, occ = .reserved u (w.bits 56 12 * 4096) n →
        s.imageOk t.tenant (w.bits 56 12 * 4096) (w.bits 11 6) false = true →
        exec (.ctxld f) s = .next ((s.install c (w.bits 11 6) u u.inc u.tenant (w.bits 56 12 * 4096) false).answers s c k t f
          TWord.zero)) ∧
      (occ = .vacant → s.imageOk t.tenant (w.bits 56 12 * 4096) (w.bits 11 6) true = true →
        s.imageN t.tenant (w.bits 56 12 * 4096) 0 = 0 →
        exec (.ctxld f) s = .next ((s.install c (w.bits 11 6)
          (Thread.new t.tenant 0 ⟨0, [], 0, 0, 0, 0, false, 0⟩ [] [] s.now) (nextInc ((s.core c).slot (w.bits 11 6)).inc) t.tenant
          (w.bits 56 12 * 4096) true).answers s c k t f TWord.zero)))) ∧
  (∀ s u b, s.thread? (s.argN 0) (s.argN 1) = some u → u.beingSaved = true → u.run = .stopped b →
    s.saveQuiet (s.argN 0) (s.argN 1) u = true →
    let base := (u.seg 7).base
    ((u.seg 7).limit < 0x10800 ∨ (u.seg 7).has 'W' = false ∨ base % 4096 ≠ 0 →
      exec .contextSaveComplete s = .next (s.saveFails (s.argN 0) (s.argN 1) 2)) ∧
    (0x10800 ≤ (u.seg 7).limit → (u.seg 7).has 'W' = true → base % 4096 = 0 → 16 < (u.mail ++ u.held).length →
      exec .contextSaveComplete s = .next (s.saveFails (s.argN 0) (s.argN 1) 3)) ∧
    (∀ tr, 0x10800 ≤ (u.seg 7).limit → (u.seg 7).has 'W' = true → base % 4096 = 0 → (u.mail ++ u.held).length ≤ 16 →
      s.savePages u.tenant (s.argN 0) (s.argN 1) base (imagePages ((s.core (s.argN 0)).owns 0 (s.tid (s.argN 0) (s.argN 1) u))
        ((s.core (s.argN 0)).owns 1 (s.tid (s.argN 0) (s.argN 1) u))) = .tr tr →
      exec .contextSaveComplete s = .next ((s.reserve (s.argN 0) (s.argN 1) u (u.mail ++ u.held)).saved
        (s.argN 0) (s.argN 1) 0))) ∧
  (∀ s u, s.thread? (s.argN 0) (s.argN 1) = some u → u.beingSaved = true → (∀ b, u.run ≠ .stopped b) →
    exec .contextSaveComplete s = .next (s.again .contextSaveComplete)) ∧
  (∀ s, (s.core (s.argN 0)).dead = false → ∃ u, exec .coreFatalError s = .next u ∧ (u.core (s.argN 0)).dead = true ∧
    (u.core (s.argN 0)).sb = [] ∧ (u.core (s.argN 0)).tu = [] ∧ (∀ k, u.thread? (s.argN 0) k = none) ∧
    ∀ f ∈ u.flights, f.core ≠ s.argN 0) ∧
  (∀ s, (s.core (s.argN 0)).dead = true → (s.core (s.argN 0)).fenced = false →
    ∃ u, exec .apexCoreRepair s = .next u ∧ (u.core (s.argN 0)).dead = false ∧
      (u.core (s.argN 0)).banks = (s.core (s.argN 0)).plan ∧ (u.core (s.argN 0)).plan = (s.core (s.argN 0)).plan ∧
      (u.core (s.argN 0)).late = s.waitingFor (s.argN 0) ∧ (u.core (s.argN 0)).rf = Core.reset.rf ∧
      (u.core (s.argN 0)).win = Core.reset.win ∧ (u.core (s.argN 0)).perf = Core.reset.perf) ∧
  (∀ s, (s.core (s.argN 0)).dead = true → ∃ u, exec .apexCoreFence s = .next u ∧ (u.core (s.argN 0)).fenced = true ∧
    (u.core (s.argN 0)).pubWin = 0 ∧ u.mem = s.mem)

/-- R305, R306, R307, R311, R313: TNTRD, TNTCLR, BRK, PERFRD and PGHASH; a hash job writes its tree and tells its thread, once no
line that it reads or writes is in a transition.
Readings and choices of the model it rests on: log entry 49. -/
def Obligations.TaintAndDebug : Prop :=
  (∀ f s c k t, plainFields f → Goes (.tntrd f) s c k t →
    exec (.tntrd f) s = .next (s.wrote c k t f.d ⟨if (s.getG c t f.a).t then 1 else 0, false⟩ s.next)) ∧
  (∀ f s c k t, Goes (.tntclr f) s c k t →
    exec (.tntclr f) s = .next (s.wrote c k t f.d ⟨(s.getG c t f.d).v, false⟩ s.next)) ∧
  (∀ f s c k t, Goes (.brk f) s c k t →
    ((s.tenant t.tenant).tntctl.getLsbD 1 = false → exec (.brk f) s = .next (s.moved c k t s.next)) ∧
    ((s.tenant t.tenant).tntctl.getLsbD 1 = true → exec (.brk f) s = .next
      (s.withThread c k { t.done s.next s.nextId with brk := some f.imm.toNat } (s.core c).rf))) ∧
  (∀ f s c k t, Goes (.perfrd f) s c k t →
    exec (.perfrd f) s = .next (s.answers s c k t f ⟨w64 (SMap.get (s.core c).perf f.imm.toNat 0), true⟩)) ∧
  (∀ f s c k t, Goes (.pghash f) s c k t →
    let w := (s.getG c t f.d).v
    let va := vaOf t f.hi (s.gOff c t f) % 2 ^ 57
    let out := (s.getG c t (f.d + 1)).v.toNat
    let d := s.hashDie c t.tenant va
    (w.bits 63 62 = 3 ∨ w.bits 61 40 ≠ 0 ∨ va % 65536 ≠ 0 →
      exec (.pghash f) s = .next (s.wrote c k t f.d ⟨1, false⟩ s.next)) ∧
    (w.bits 63 62 = 0 → w.bits 61 40 = 0 → va % 65536 = 0 → out % 64 = 0 → w.bits 31 0 ≠ 0 → w.bits 31 0 ≤ 2 ^ 20 →
      s.gOff c t f + 65536 * w.bits 31 0 ≤ (t.seg f.hi).limit → out + treeBytes (w.bits 31 0) ≤ (t.seg f.hi).limit →
      (t.seg f.hi).has 'R' = true → (t.seg f.hi).has 'W' = true →
      s.hashOutOk t.tenant (vaOf t f.hi out % 2 ^ 57) (treeBytes (w.bits 31 0)) = true →
      ∃ u j v, exec (.pghash f) s = .next u ∧ u.jobs d = s.jobs d ++ [j] ∧ j.va = va ∧ j.n = w.bits 31 0 ∧ j.busy = true ∧
        j.owner = s.tid c k t ∧ j.period = none ∧ evt .hashJobComplete [d, j.id] ∈ u.due ∧ u.mem = s.mem ∧
        u.thread? c k = some v ∧ v.pc = s.next ∧ (f.d ≠ 0 → u.getG c v f.d = ⟨0, false⟩))) ∧
  (∀ s j, (s.jobs (s.argN 0)).find? (fun j => j.id = s.argN 1) = some j → j.busy = true →
    s.hashWaits (tidTenant j.owner) j = true → exec .hashJobComplete s = .next (s.again .hashJobComplete)) ∧
  (∀ s j, (s.jobs (s.argN 0)).find? (fun j => j.id = s.argN 1) = some j → j.busy = true → j.period = none →
    s.hashWaits (tidTenant j.owner) j = false →
    let tn := tidTenant j.owner
    let s0 := s.hashAdds tn j.va j.n
    let ls := (List.range j.n).map (fun i => s0.hashLeaf tn (j.va + 65536 * i))
    let tree := hashTree (ls.map Prod.fst ++ List.replicate (treeLeaves j.n - j.n) (List.replicate 32 0))
    let s1 := s0.putBytesVa tn j.out tree.flatten
    let s2 := s1.setJobs (s.argN 0) ((s1.jobs (s.argN 0)).filter (fun x => x.id ≠ j.id))
    exec .hashJobComplete s = .next (s2.engineMsg ((s2.tidCore j.owner).getD 0) j.owner j.owner 0x08
      (if ls.any Prod.snd then 0x10 else 0) ((j.count + 1) % 65536) ⟨w64 (fromLe ((tree.headD []).take 8)), false⟩)) ∧
  (∀ s j p, (s.jobs (s.argN 0)).find? (fun j => j.id = s.argN 1) = some j → j.period = some p →
    (s.now < j.next → exec .hashPeriodicTimer s = .next (s.again .hashPeriodicTimer)) ∧
    (j.next ≤ s.now → ∃ u, exec .hashPeriodicTimer s = .next u ∧ u.mem = s.mem ∧
      (j.busy = false → evt .hashJobComplete [s.argN 0, j.id] ∈ u.due) ∧
      ∀ x ∈ u.jobs (s.argN 0), x.id = j.id → x.busy = true))

/-! ### Pages -/

/-- R66 to R69: SEGLD, SEGRD, XLATE, PGHOT and PGMIG: an instruction whose page the port's cache holds runs; one whose page it does
not hold waits for the walk, and finds the page mapped or not (R54, R55). PGMIG completes once the accesses that used the old
translation have been performed (R56).
R103, R104: CFLUSH, CINV and SETCOH: the lines of a range are flushed in ascending order, each once its page is known, its
bytes have left the core's write-combine buffer and no transition of it is under way; a range whose pages pass the checks has each
page parked (WB), waited for and switched in turn, and the last one completes the instruction with the counts.
Readings and choices of the model it rests on: log entries 18, 19, 20, 21, 22, 73. -/
def Obligations.PageInstructions : Prop :=
  (∀ f s c k t w0 w1, Goes (.segld f) s c k t → t.ops = [] → s.gOff c t f % 16 = 0 →
    memG t f.hi (s.gOff c t f) 8 'R' = none → memG t f.hi (s.gOff c t f + 8) 8 'R' = none →
    s.readWord c k t (vaOf t f.hi (s.gOff c t f)) = .val w0 → s.readWord c k t (vaOf t f.hi (s.gOff c t f + 8)) = .val w1 →
    (w0.v.bits 6 0 = 0 → w0.v.bits 56 0 + w1.v.bits 39 0 ≤ 2 ^ 57 → exec (.segld f) s = .next (s.withThread c k
      { t.done s.next s.nextId with
        segs := setNth t.segs f.d ⟨w0.v.bits 56 0, w1.v.bits 39 0, w1.v.bits 44 40⟩ } (s.core c).rf)) ∧
    (w0.v.bits 6 0 ≠ 0 → exec (.segld f) s = .next (s.trapped c k t 0x13 (w64 (w0.v.bits 56 0)) (w64 f.d))) ∧
    (w0.v.bits 6 0 = 0 → 2 ^ 57 < w0.v.bits 56 0 + w1.v.bits 39 0 →
      exec (.segld f) s = .next (s.trapped c k t 0x04 (w64 (w0.v.bits 56 0)) (w64 f.d)))) ∧
  (∀ (s : State) (c k : Nat) (t : Thread) (va : Nat) (tr : Tr), s.lookup (c / 8) va 0 = some tr → Leaf.cl tr.leaf = 0 →
    s.poisoned tr.pa = false → s.readWord c k t va = .val ((s.applyAdds tr.pa 8).loadItem c k s.nextId tr 8)) ∧
  (∀ f s c k t, Goes (.segrd f) s c k t → exec (.segrd f) s = .next (s.answers s c k t f
    ⟨w64 (if f.fx = 0 then (t.seg f.a).base else if f.fx = 1 then (t.seg f.a).limit else (t.seg f.a).rights), false⟩)) ∧
  (∀ f s c k t, Goes (.xlate f) s c k t →
    let va := vaOf t f.hi (s.gOff c t f)
    ((t.seg f.hi).limit < s.gOff c t f + 1 →
      exec (.xlate f) s = .next (s.trapped c k t 0x04 (w64 (s.gOff c t f)) (w64 f.hi))) ∧
    (s.gOff c t f + 1 ≤ (t.seg f.hi).limit →
      (∀ tr, s.lookup (c / 8) va 6 = some tr →
        exec (.xlate f) s = .next (s.answers s c k t f ⟨w64 (2 ^ 63 + tr.leaf.bits 60 58 * 2 ^ 60 + tr.leaf.bits 57 56 * 2 ^ 58
          + tr.leaf.bits 55 49 * 2 ^ 51 + (5 - tr.level) * 2 ^ 48 + (Leaf.frame tr.leaf + va % pageSize tr.level) % 2 ^ 48),
          (s.getG c t f.a).t⟩)) ∧
      (∀ cause, s.lookup (c / 8) va 6 = none → t.declined = some (pageOf va, cause) →
        exec (.xlate f) s = .next (s.answers s c k t f ⟨w64 cause, (s.getG c t f.a).t⟩)) ∧
      (s.lookup (c / 8) va 6 = none → t.declined = none →
        exec (.xlate f) s = .next ((s.startWalk t.tenant 0 c k va 6).waits s c k t (.page va))))) ∧
  (∀ f s c k t, plainFields f → Goes (.pghot f) s c k t →
    let va := vaOf t f.hi (s.gOff c t f)
    let g := (s.getG c t f.d).v
    (g.toNat / 2 ≠ 0 → exec (.pghot f) s = .next (s.wrote c k t f.d ⟨allOnes, true⟩ s.next)) ∧
    (g.toNat / 2 = 0 → s.gOff c t f + 1 ≤ (t.seg f.hi).limit →
      (∀ tr, s.lookup (c / 8) va 6 = some tr → Leaf.h tr.leaf = false → Leaf.ht tr.leaf = true →
        exec (.pghot f) s = .next ((if g = 1
          then { s with hot := SMap.set s.hot (hotKey t.tenant tr.leaf) (mkHot 0 0 0 0 1) } else s).answers s c k t f
          ⟨SMap.get s.hot (hotKey t.tenant tr.leaf) (mkHot 0 0 0 0 1), true⟩)) ∧
      (∀ tr, s.lookup (c / 8) va 6 = some tr → (Leaf.h tr.leaf = true ∨ Leaf.ht tr.leaf = false) →
        exec (.pghot f) s = .next (s.wrote c k t f.d ⟨32, true⟩ s.next)) ∧
      (∀ cause, s.lookup (c / 8) va 6 = none → t.declined = some (pageOf va, cause) →
        exec (.pghot f) s = .next (s.wrote c k t f.d ⟨0, true⟩ s.next)))) ∧
  (∀ f s c k t, plainFields f → Goes (.pgmig f) s c k t → t.part = [] → s.gOff c t f + 1 ≤ (t.seg f.hi).limit →
    let va := vaOf t f.hi (s.gOff c t f) % 2 ^ 57
    let dst := (s.getG c t f.d).v.toNat
    let tt := (s.getG c t f.a).t || (s.getG c t f.d).t
    (∀ cause, s.lookup (c / 8) va 6 = none → t.declined = some (pageOf va, cause) →
      exec (.pgmig f) s = .next (s.wrote c k t f.d ⟨1, tt⟩ s.next)) ∧
    (∀ tr, s.lookup (c / 8) va 6 = some tr →
      (s.pgmigStatus t.tenant tr dst ≠ 0 →
        exec (.pgmig f) s = .next (s.wrote c k t f.d ⟨w64 (s.pgmigStatus t.tenant tr dst), tt⟩ s.next)) ∧
      (∀ l en e, s.pgmigStatus t.tenant tr dst = 0 → s.walk t.tenant va 6 = .leaf l en e →
        let s2 := s.beginMig t.tenant (s.tid c k t) va l en e dst
        (s2.pageBusy t.tenant (va / pageSize l * pageSize l) (pageSize l) = false →
          exec (.pgmig f) s = .next (s2.answers s c k t f ⟨0, tt⟩)) ∧
        (s2.pageBusy t.tenant (va / pageSize l * pageSize l) (pageSize l) = true → exec (.pgmig f) s =
          .next ((s2.continue c k [1, va / pageSize l * pageSize l, pageSize l]).shortened c k t.pc s.nextId))))) ∧
  (∀ (s : State) (tn va l en dst : Nat) (e owner : Word),
    let s1 := (s.setEntry tn en (setBit e 53 true)).invalidatePage tn va
    s.beginMig tn owner va l en e dst = ({ s1 with nextId := s1.nextId + 1, migs := s1.migs ++ [⟨s1.nextId, tn, owner,
      va / pageSize l * pageSize l, l, en, Leaf.frame e, dst, 0, false⟩] } : State).post [evt .migrationCopy [s1.nextId]]) ∧
  (∀ f s c k t lo n, plainFields f → Goes (.pgmig f) s c k t → t.part = [1, lo, n] → s.pageBusy t.tenant lo n = false →
    exec (.pgmig f) s = .next (s.wrote c k t f.d ⟨0, (s.getG c t f.a).t || (s.getG c t f.d).t⟩ s.next)) ∧
  (∀ i : Bool, ∀ f s c k t, plainFields f → Goes (if i then .cinv f else .cflush f) s c k t →
    let e := exec (if i then .cinv f else .cflush f) s
    let va := vaOf t f.hi (s.gOff c t f)
    let len := (s.getG c t f.d).v.toNat
    let n := (va + len + 127) / 128 - va / 128
    (len = 0 → e = .next (s.wrote c k t f.d ⟨0, true⟩ s.next)) ∧
    (2 ^ 24 < len → e = .next (s.wrote c k t f.d ⟨allOnes, true⟩ s.next)) ∧
    (len ≠ 0 → len ≤ 2 ^ 24 → (t.seg f.hi).limit < s.gOff c t f + len →
      e = .next (s.trapped c k t 0x04 (w64 (s.gOff c t f)) (w64 f.hi))) ∧
    (len ≠ 0 → len ≤ 2 ^ 24 → s.gOff c t f + len ≤ (t.seg f.hi).limit →
      ((t.seg f.hi).has 'R' = true ∨ (t.seg f.hi).has 'W' = true) →
      (t.ops ≠ [] → e = .next (s.waits s c k t .opsDone)) ∧
      (t.ops = [] → s.storesOf c k ≠ [] → e = .next (s.waits s c k t .stores)) ∧
      (t.ops = [] → s.storesOf c k = [] → t.part = [] →
        (∀ q u, s.flushFrom c k t (va / 128 * 128) i n 0 0 = .done q u → e = .next (u.answers s c k t f ⟨w64 q, true⟩)) ∧
        (∀ u, s.flushFrom c k t (va / 128 * 128) i n 0 0 = .parked u → e = .next (u.shortened c k t.pc s.nextId)) ∧
        (∀ tr, n = 1 → s.lookup (c / 8) (va / 128 * 128) 0 = some tr → Leaf.cl tr.leaf < 2 →
          (s.flushGate c (tr.pa / 128)).1 = true →
          e = .next ((((s.flushGate c (tr.pa / 128)).2.flushLine c tr i).2).answers s c k t f
            ⟨if ((s.flushGate c (tr.pa / 128)).2.flushLine c tr i).1 then 1 else 0, true⟩))))) ∧
  (∀ f s c k t, plainFields f → Goes (.setcoh f) s c k t → (∀ va rem q n ws, t.part ≠ [1, va, rem, q, n, ws]) →
    let g := (s.getG c t f.d).v
    let len := g.bits 39 0
    let va := vaOf t f.hi (s.gOff c t f) % 2 ^ 57
    let tt := (s.getG c t f.a).t || (s.getG c t f.d).t
    ((t.seg f.hi).limit < s.gOff c t f + len →
      exec (.setcoh f) s = .next (s.trapped c k t 0x04 (w64 (s.gOff c t f)) (w64 f.hi))) ∧
    (s.gOff c t f + len ≤ (t.seg f.hi).limit →
      ((t.seg f.hi).has 'W' = false →
        exec (.setcoh f) s = .next (s.trapped c k t 0x05 (w64 (s.gOff c t f)) (w64 f.hi))) ∧
      ((t.seg f.hi).has 'W' = true →
        ((g.bits 62 40 ≠ 0 ∨ len = 0) → exec (.setcoh f) s = .next (s.wrote c k t f.d ⟨w64 (2 ^ 56), tt⟩ s.next)) ∧
        (∀ st, g.bits 62 40 = 0 → len ≠ 0 → t.part = [] → s.pagesOf c k t (len / 4096 + 1) va len = .bad st →
          exec (.setcoh f) s = .next (s.wrote c k t f.d ⟨w64 (st * 2 ^ 56), tt⟩ s.next)) ∧
        (∀ l en e, g.bits 62 40 = 0 → len ≠ 0 → t.part = [] → s.pagesOf c k t (len / 4096 + 1) va len = .ok →
          s.walk t.tenant va 6 = .leaf l en e → Leaf.wb e = false →
          exec (.setcoh f) s = .next ((((s.setEntry t.tenant en (setBit e 53 true)).invalidatePage t.tenant va).continue c k
            [1, va, len, 0, 0, 1]).shortened c k t.pc s.nextId))))) ∧
  (∀ f s c k t va rem q n l en e, plainFields f → Goes (.setcoh f) s c k t → t.part = [1, va, rem, q, n, 1] → rem ≠ 0 →
    s.walk t.tenant va 6 = .leaf l en e →
    let w := s.pageBusy t.tenant va (pageSize l) || ((s.tenant t.tenant).linesOf e (Leaf.frame e) (pageSize l)).any s.lineBusy
    let r := s.switchPage t.tenant va l en e ((s.getG c t f.d).v.getLsbD 63)
    (w = true → exec (.setcoh f) s = .next ((s.continue c k [1, va, rem, q, n, 1]).shortened c k t.pc s.nextId)) ∧
    (w = false → pageSize l < rem → exec (.setcoh f) s =
      .next ((r.2.continue c k [1, va + pageSize l, rem - pageSize l, q + 1, n + r.1, 0]).shortened c k t.pc s.nextId)) ∧
    (w = false → rem ≤ pageSize l → exec (.setcoh f) s = .next (r.2.answers s c k t f
      ⟨w64 ((q + 1) % 2 ^ 24 * 2 ^ 32 + min (n + r.1) (2 ^ 32 - 1)),
        (s.getG c t f.a).t || (s.getG c t f.d).t || decide (n + r.1 ≠ 0)⟩)))

/-- R45, R47, R48, R54 to R56, R60: a walk starts at one of the die's walkers and ends in the translation cache or in a fault record;
the runtime's answer; invalidations, complete when the accesses that used the old translation have been performed; the steps of a
migration; poison, soft errors and a window that shrinks.
Readings and choices of the model it rests on: log entries 18, 36, 48, 66, 72. -/
def Obligations.PageWork : Prop :=
  (∀ s w, s.walk? (s.argN 0) = some w → (s.die w.die).walks < 128 →
    exec .walkStart s = .next (((s.setWalk { w with busy := true }).setDie w.die
      { s.die w.die with walks := (s.die w.die).walks + 1 }).post [evt .pageWalkDone [w.id]])) ∧
  (∀ s w, s.walk? (s.argN 0) = some w → 128 ≤ (s.die w.die).walks → exec .walkStart s = .next (s.again .walkStart)) ∧
  (∀ s w l en e pa, s.walk? (s.argN 0) = some w → w.busy = true → w.who < 7 → s.walk w.tenant w.va w.acc = .leaf l en e →
    (s.tenant w.tenant).physical e (Leaf.frame e + w.va % pageSize l) = some pa →
    exec .pageWalkDone s = .next (((s.setDie w.die { s.die w.die with walks := (s.die w.die).walks - 1 }).dropWalk
      w.id).fillTlb (w.core / 8) w.va l e pa)) ∧
  (∀ s w cause level ia, s.walk? (s.argN 0) = some w → w.busy = true → w.who < 7 → w.acc ≠ 6 →
    s.walk w.tenant w.va w.acc = .fault cause level ia →
    exec .pageWalkDone s = .next ((s.setDie w.die { s.die w.die with walks := (s.die w.die).walks - 1 }).postFault w cause
      level ia)) ∧
  (∀ s w cause level ia, s.walk? (s.argN 0) = some w → w.busy = true → w.who < 7 → w.acc = 6 →
    s.walk w.tenant w.va w.acc = .fault cause level ia →
    exec .pageWalkDone s = .next ((s.setDie w.die { s.die w.die with walks := (s.die w.die).walks - 1 }).declineWalk
      { w with cause := cause })) ∧
  (∀ s w, s.walks.find? (fun w => w.tenant = s.argN 0 && w.record = some ((s.argW 0).v.bits 31 0)) = some w →
    ((s.argW 0).v.getLsbD 63 = false →
      exec .pfrespWrite s = .next ((s.setWalk { w with record := none }).post [evt .walkStart [w.id]])) ∧
    ((s.argW 0).v.getLsbD 63 = true → exec .pfrespWrite s = .next (s.declineWalk w))) ∧
  (∀ s, s.walks.find? (fun w => w.tenant = s.argN 0 && w.record = some ((s.argW 0).v.bits 31 0)) = none →
    exec .pfrespWrite s = .next s) ∧
  (∀ s, exec .xinvWrite s = .next (s.invalidatePage (s.argN 0) (s.argN 1))) ∧
  (∀ s, s.argN 3 = 0 → ∃ u, exec .atsInvalidation s = .next u ∧ u.mem = s.mem ∧ u.cores = s.cores ∧
    (∀ cl ∈ (s.tenant (s.argN 0)).slices, ∀ e ∈ (u.cluster cl).tlb, Leaf.h e.leaf = true →
      Leaf.frame e.leaf / 4096 ≠ s.argN 1 / 4096) ∧
    SMap.get? (u.tenant (s.argN 0)).hostMap (s.argN 1 / 4096) = (if s.argN 2 = 0 then none else some (s.argN 2 - 1)) ∧
    ∀ p, SMap.get? (s.tenant (s.argN 0)).hostMap (s.argN 1 / 4096) = some p →
      evt .atsInvalidation [s.argN 0, s.argN 1, s.argN 2, p + 1] ∈ u.due) ∧
  (∀ s, s.argN 3 ≠ 0 → exec .atsInvalidation s =
    .next (if s.hostPageBusy (s.argN 3 - 1) then s.again .atsInvalidation else s)) ∧
  (∀ s m, s.migs.find? (fun m => m.id = s.argN 0) = some m → m.copied = false →
    (s.pageBusy m.tenant m.va (pageSize m.level) = true → exec .migrationCopy s = .next (s.again .migrationCopy)) ∧
    (∀ a b, s.pageBusy m.tenant m.va (pageSize m.level) = false → m.next * 128 < pageSize m.level →
      (s.tenant m.tenant).second (m.oldIA + 128 * m.next) = some a →
      (s.tenant m.tenant).second (m.newIA + 128 * m.next) = some b →
      (s.lineBusy (a / 128) = true → exec .migrationCopy s = .next (s.again .migrationCopy)) ∧
      (s.lineBusy (a / 128) = false → exec .migrationCopy s =
        .next (((s.copyLine m.tenant (a / 128) (b / 128)).setMig { m with next := m.next + 1 }).again .migrationCopy))) ∧
    (s.pageBusy m.tenant m.va (pageSize m.level) = false → pageSize m.level ≤ m.next * 128 →
      let e := s.entryWord m.tenant m.entry
      exec .migrationCopy s = .next ((((s.setEntry m.tenant m.entry (w64 (e.bits 63 48 * 2 ^ 48
        + m.newIA % 2 ^ 48 / 4096 * 4096 + e.bits 11 0))).invalidatePage m.tenant m.va).setMig { m with copied := true }).post
        [evt .migrationDrainDone [m.id]]))) ∧
  (∀ s m, s.migs.find? (fun m => m.id = s.argN 0) = some m → m.copied = true →
    ∃ u, exec .migrationDrainDone s = .next u ∧ (∀ x ∈ u.migs, x.id ≠ m.id) ∧
      u.mem = ((s.setEntry m.tenant m.entry (setBit (s.entryWord m.tenant m.entry) 53 false)).invalidatePage m.tenant
        m.va).mem ∧ ∀ c, (u.core c).rf = (s.core c).rf) ∧
  (∀ s, s.argN 0 < 2 ^ 34 →
    let line := if s.argN 0 < 2 ^ 33 then s.argN 0 else hostBase / 128 + (s.argN 0 - 2 ^ 33)
    exec .poisonDetected s = .next (({ s with mem := s.mem.setPoison line true } : State).poisonRec
      (s.tenantOf (128 * line)) (s.vaOfLine (s.tenantOf (128 * line)) line) (s.argN 1))) ∧
  (∀ s tn, 2 ^ 34 ≤ s.argN 0 → s.ownerOf ((poolLine (s.argN 0)).1 / 8) = some tn →
    exec .poisonDetected s = .next ((s.modCore (poolLine (s.argN 0)).1 (fun x =>
      { x with win := x.win.setPoison (poolLine (s.argN 0)).2 true })).poisonRec tn 0 (s.argN 1))) ∧
  (∀ s, exec .softErrorCorrected s = .next { s with boot := { s.boot with corrected := s.boot.corrected + 1 } }) ∧
  (∀ s frame, SMap.get? (s.tenant (s.argN 0)).window (s.argN 1 / 65536) = some frame →
    let s0 := s.forgetPhysical (s.argN 0) (65536 * frame) (65536 * frame + 65536)
    (s0.frameBusy frame = true → exec .apexWindowShrink s = .next (s0.again .apexWindowShrink)) ∧
    (s0.frameBusy frame = false → s0.mem.wf = true → ∃ u, exec .apexWindowShrink s = .next u ∧
      SMap.get? (u.tenant (s.argN 0)).window (s.argN 1 / 65536) = none ∧
      (∀ i, i < 512 → ∀ j, j < 16 → (u.mem.word (16 * (512 * frame + i) + j)).v = 0) ∧
      (∀ p ∈ u.addl, p.1 / 8192 ≠ frame) ∧
      ∀ p, p ≠ s.argN 1 / 65536 → SMap.get? (u.tenant (s.argN 0)).window p = SMap.get? (s.tenant (s.argN 0)).window p))

/-! ### The transfer unit, sync words and prefetch -/

/-- R117, R120 to R124: CPY, CPY2D, CPYQ, SWINIT, SWWAIT, SDESC and SDSTOP.
Readings and choices of the model it rests on: log entries 34, 37, 79. -/
def Obligations.CopyInstructions : Prop :=
  CopyForm .cpy 1 ∧ CopyForm .cpy2d 2 ∧ CopyForm .cpyq 3 ∧
  (∀ f s c k t tc off, Goes (.swinit f) s c k t → s.memLAt t (t.ptr f.d).v 16 = .ok (tc, off) → (s.core tc).shut = false →
    (s.initFollows c k t tc off = true → exec (.swinit f) s = .next (s.waits s c k t .storeSpace)) ∧
    (s.initFollows c k t tc off = false →
      let r := s.readVals (.swinit f) c k t f
      let put := fun (m : Mem) => (m.store off 8 ⟨w64 (r.1.a.v.toNat % 2 ^ 32), false⟩).store (off + 8) 8 TWord.zero
      let u := if (r.2.core tc).win.poisoned (off / 128) then r.2 else r.2.modCore tc (fun x => { x with win := put x.win })
      exec (.swinit f) s = .next ((u.wakeGen tc off 0).completed c k s.next s.nextId))) ∧
  (∀ f s c k t code addr aux, Goes (.swinit f) s c k t → s.memLAt t (t.ptr f.d).v 16 = .error (code, addr, aux) →
    exec (.swinit f) s = .next (s.trapped c k t code addr aux)) ∧
  (∀ f s c k t off, plainFields f → Goes (.swwait f) s c k t → s.memLAt t (t.ptr f.a).v 16 = .ok (c, off) →
    (s.core c).shut = false →
    let gen := (s.core c).win.readN (off + 8) 4
    ((s.getG c t f.d).v.toNat % 2 ^ 32 = gen → exec (.swwait f) s = .next (s.waits s c k t (.syncWord off gen))) ∧
    ((s.getG c t f.d).v.toNat % 2 ^ 32 ≠ gen → exec (.swwait f) s = .next (s.wrote c k t f.d ⟨w64 gen, false⟩ s.next))) ∧
  (∀ f s c k t tc off, Goes (.swwait f) s c k t → s.memLAt t (t.ptr f.a).v 16 = .ok (tc, off) → tc ≠ c →
    exec (.swwait f) s = .next (s.trapped c k t 0x14 (w64 off) 0)) ∧
  (∀ f s c k t, Goes (.sdesc f) s c k t →
    let r := fun (i : Nat) => s.getG c t (f.a + i)
    let ctl := (r 3).v
    let g := t.seg (ctl.bits 63 61)
    let x := s.cluster (c / 8)
    let free := (List.range 16).find? (fun n => (SMap.get? x.pdesc n).isNone)
    let tt := (r 0).t || (r 1).t || (r 2).t || (r 3).t
    (∀ e, sdescFail g (r 0).v.toNat (r 1).v.toInt (r 2).v.toNat ctl free = some e →
      exec (.sdesc f) s = .next (s.answers s c k t f ⟨w64 (2 ^ 63 + e), tt⟩)) ∧
    (∀ n, sdescFail g (r 0).v.toNat (r 1).v.toInt (r 2).v.toNat ctl free = none → free = some n →
      let d : PDesc := ⟨c, g, (g.base + (r 0).v.toNat) / 128 * 128, (r 1).v.toInt, (r 2).v.toNat, ctl.getLsbD 60,
        ctl.bits 59 57, ctl.bits 15 0, 0, 0⟩
      exec (.sdesc f) s = .next (((s.setCluster (c / 8) { x with pdesc := SMap.set x.pdesc n d }).post [evt .prefetchIssue [c / 8, n]]).answers s c k t f ⟨w64 n, tt⟩))) ∧
  (∀ f s c k t, Goes (.sdstop f) s c k t →
    let r := s.readVals (.sdstop f) c k t f
    (∀ d, SMap.get? (r.2.cluster (c / 8)).pdesc r.1.a.v.toNat = some d → d.core = c →
      exec (.sdstop f) s = .next ((r.2.setCluster (c / 8) { r.2.cluster (c / 8) with
        pdesc := SMap.del (r.2.cluster (c / 8)).pdesc r.1.a.v.toNat }).completed c k s.next s.nextId)) ∧
    (SMap.get? (r.2.cluster (c / 8)).pdesc r.1.a.v.toNat = none →
      exec (.sdstop f) s = .next (r.2.completed c k s.next s.nextId)))

/-- R115, R117 to R119, R121, R123: the work of the unit: a command is accepted, a piece moves, a handle is pushed, a command completes;
bytes are counted into a sync word; a descriptor prefetches its next line.
Readings and choices of the model it rests on: log entries 15, 34, 71, 77, 78. -/
def Obligations.CopyWork : Prop :=
  (∀ s m, (s.core (s.argN 0)).tuCmd? (s.argN 1) = some m →
    (m.checked = true → exec .tuCommandAccept s = .next ((s.setTu (s.argN 0) { m with accepted := true, left := m.pieces }).post
      (m.pieces.map (fun n => evt .tuLineTransfer [s.argN 0, m.id, n])))) ∧
    (m.checked = false → exec .tuCommandAccept s = .next ((s.setTu (s.argN 0) { m with accepted := true, left := [] }).post
      [evt .copydone [s.argN 0, m.id]]))) ∧
  (∀ s m o len g s' k st s'', (s.core (s.argN 0)).tuCmd? (s.argN 1) = some m → m.left.contains (s.argN 2) = true →
    (m.rowPieces (s.argN 2 / m.perRow))[s.argN 2 % m.perRow]? = some (o, len) →
    s.gatherParts (s.argN 0) m (s.argN 2 / m.perRow)
      (cuts (cutOf m.skind m.src) (cutStart m.skind m.srcBase m.src m.sstride (s.argN 2 / m.perRow)) o (o + len))
      ⟨[], none, false⟩ = .got g s' →
    s'.putPiece (s.argN 0) m (s.argN 2 / m.perRow) o g = .done k st s'' →
    let m' := (m.note g.fail).note st
    let held := (s''.core (s.argN 0)).tuHeld m
    let m'' := { m' with left := m'.left.filter (fun x => x ≠ s.argN 2), moved := m'.moved + k,
                         counted := if held then m'.counted + k else m'.counted }
    exec .tuLineTransfer s = .next (((if held then s'' else s''.countSync m'' k).setTu (s.argN 0) m'').post
      (if m''.left = [] then [m''.after (s.argN 0)] else []))) ∧
  (∀ s m, (s.core (s.argN 0)).tuCmd? (s.argN 1) = some m → (s.core (s.argN 0)).tuHeld m = false →
    let s1 := (s.modCore (s.argN 0) (fun x => { x with tu := x.tu.filter (fun y => y.id ≠ m.id) })).releaseHeld (s.argN 0)
    (m.target = 0 → exec .copydone s = .next s1) ∧
    (m.target ≠ 0 → exec .copydone s = .next (s1.engineMsg (s.argN 0) m.owner m.target 0x01 m.status m.tag
      ⟨w64 m.moved, false⟩))) ∧
  (∀ s m, (s.core (s.argN 0)).tuCmd? (s.argN 1) = some m → (s.core (s.argN 0)).tuHeld m = true →
    exec .copydone s = .next (s.again .copydone)) ∧
  (∀ s m qc x, (s.core (s.argN 0)).tuCmd? (s.argN 1) = some m →
    s.memL (tidTenant m.owner) (rowPtr m.dst 0 0 0) 1 = .ok (qc, x) → m.credit = true →
    let w : Flit := ⟨s.nextId, 0, qc, m.q, ⟨m.handle, false, false, slotId m.owner⟩, true, s.argN 0, 4, []⟩
    let s1 := ({ s with nextId := s.nextId + 1 } : State).setTu (s.argN 0) { m with pushed := true, asked := false }
    exec .cpyqPush s = .next (({ s1 with flits := s.flits ++ [w] } : State).post
      [evt .queueWordArrival [s.nextId], evt .copydone [s.argN 0, m.id]])) ∧
  (∀ s, let w := (s.core (s.argN 0)).win
    let r := syncStep (w.readN (s.argN 1) 4) (w.readN (s.argN 1 + 4) 4) (w.readN (s.argN 1 + 8) 4) (s.argN 2)
    let w' := (w.store (s.argN 1 + 4) 4 ⟨w64 r.1, false⟩).store (s.argN 1 + 8) 4 ⟨w64 r.2, false⟩
    exec .syncWordCount s = .next ((s.modCore (s.argN 0) (fun x => { x with win := w' })).wakeGen (s.argN 0) (s.argN 1) r.2)) ∧
  (∀ target count gen n, 0 < target → count + n < 2 ^ 32 → gen < 2 ^ 32 →
    (syncStep target count gen n).1 < target ∧
    ((syncStep target count gen n).2 + 2 ^ 32 - gen) % 2 ^ 32 * target + (syncStep target count gen n).1 = count + n) ∧
  (∀ s d, SMap.get? (s.cluster (s.argN 0)).pdesc (s.argN 1) = some d → d.issued < d.extent → d.issued < d.ic + d.lead →
    let va : Int := (d.base : Int) + d.stride * (d.issued : Int)
    ((va < (d.seg.base : Int) ∨ ((d.seg.base + d.seg.limit : Nat) : Int) ≤ va) → exec .prefetchIssue s =
      .next (s.setCluster (s.argN 0) { s.cluster (s.argN 0) with
        pdesc := SMap.del (s.cluster (s.argN 0)).pdesc (s.argN 1) })) ∧
    ((d.seg.base : Int) ≤ va → va < ((d.seg.base + d.seg.limit : Nat) : Int) →
      let on := fun (u : State) => (u.modCluster (s.argN 0) (fun x =>
        { x with pdesc := SMap.set x.pdesc (s.argN 1) { d with issued := d.issued + 1 } })).again .prefetchIssue
      (∀ tr, s.lookup (s.argN 0) (va.toNat % 2 ^ 57) 6 = some tr →
        ((loadRefusal tr 1 ≠ 0 ∨ s.poisoned tr.pa = true ∨ s.portFull (s.argN 0) = true) →
          exec .prefetchIssue s = .next (on s)) ∧
        (loadRefusal tr 1 = 0 → s.poisoned tr.pa = false → s.portFull (s.argN 0) = false → s.descLoad (s.argN 0) < 1024 →
          exec .prefetchIssue s = .next (on (s.post [⟨.l2Request, ⟨[if d.c then 8 * s.argN 0 + d.named else d.core, 64, tr.pa,
            d.c.toNat, s.argN 1], [⟨tr.leaf, false⟩]⟩⟩])))) ∧
      (s.lookup (s.argN 0) (va.toNat % 2 ^ 57) 6 = none →
        s.walks.find? (fun w => w.who = 9 && w.core / 8 = s.argN 0 && w.slot = s.argN 1
          && pageOf w.va = pageOf (va.toNat % 2 ^ 57)) = none →
        exec .prefetchIssue s = .next ((s.startWalk ((s.ownerOf (s.argN 0)).getD 0) 9 d.core (s.argN 1) (va.toNat % 2 ^ 57)
          6).again .prefetchIssue))))

/-! ### What Chord, the queues, the mailboxes, the cores and the host's rings do -/

/-- R75 to R78, R80, R82: Chord performs a request on the values the instruction has read; it completes, with its pops and its results,
once the ports it invalidates have answered, and a trap leaves its special operands unread; a port fetches and drops entries; a
freed granule is scrubbed and comes back.
Readings and choices of the model it rests on: log entries 23, 76. -/
def Obligations.ViewWork : Prop :=
  (∀ s r t f out u, s.vreqs.find? (fun r => r.id = s.argN 0) = some r → s.thread? r.core r.slot = some t →
    r.ins.fields = some f → r.done = false → s.viewOp r.id r.ins r.core t.tenant r.read = .ok out none u →
    exec .viewOpRequest s = .next ((u.completeView r t f out).endView r)) ∧
  (∀ s r t f code addr h, s.vreqs.find? (fun r => r.id = s.argN 0) = some r → s.thread? r.core r.slot = some t →
    r.ins.fields = some f → r.done = false → s.viewOp r.id r.ins r.core t.tenant r.read = .trap code addr h →
    exec .viewOpRequest s = .next (((s.endView r).wake r.core r.slot).raise r.core r.slot code (w64 addr) h)) ∧
  (∀ s r t f out ri vi u, s.vreqs.find? (fun r => r.id = s.argN 0) = some r → s.thread? r.core r.slot = some t →
    r.ins.fields = some f → r.done = false → s.viewOp r.id r.ins r.core t.tenant r.read = .ok out (some (ri, vi)) u →
    ∃ w, exec .viewOpRequest s = .next w ∧ w.mem = u.mem ∧ ⟨.viewOpRequest, u.arg⟩ ∈ w.due ∧
      ∀ cl ∈ (u.tenant t.tenant).slices, (u.cluster cl).vcache.any (fun e => e.region = ri && e.view = vi) = true →
        evt .viewInvalidate [cl, ri, vi] ∈ w.due) ∧
  (∀ s r t f, s.vreqs.find? (fun r => r.id = s.argN 0) = some r → s.thread? r.core r.slot = some t →
    r.ins.fields = some f → r.done = true →
    (s.invalidating t.tenant r.region r.view = true → exec .viewOpRequest s = .next (s.again .viewOpRequest)) ∧
    (s.invalidating t.tenant r.region r.view = false →
      exec .viewOpRequest s = .next ((s.completeView r t f r.out).endView r))) ∧
  (∀ s tn v, s.ownerOf (s.argN 0) = some tn → (s.tenant tn).checkHandle tn (s.argW 0).v = .ok v →
    s.viewEntry (s.argN 0) (s.argW 0).v = none →
    let r := (s.tenant tn).region (hRegion (s.argW 0).v)
    exec .viewCacheFetch s = .next (s.modCluster (s.argN 0) (fun x => { x with vcache :=
      (⟨hRegion (s.argW 0).v, hView (s.argW 0).v, hGen (s.argW 0).v, v.start, v.len, r.epoch, r.sh⟩ :: x.vcache).take 256 }))) ∧
  (∀ s, ∃ u, exec .viewInvalidate s = .next u ∧ u.mem = s.mem ∧ u.cores = s.cores ∧
    ∀ e, e ∈ (u.cluster (s.argN 0)).vcache ↔
      e ∈ (s.cluster (s.argN 0)).vcache ∧ ¬ (e.region = s.argN 1 ∧ e.view = s.argN 2)) ∧
  (∀ s y, (s.die (s.argN 0)).frees.find? (fun x => x.frame = s.argN 1 && !x.retired) = some y →
    ((s.die (s.argN 0)).frees.any (fun x => x.op = y.op && x.granule < y.granule && !x.retired) = true →
      exec .granuleFreeStart s = .next (s.again .granuleFreeStart)) ∧
    ((s.die (s.argN 0)).frees.any (fun x => x.op = y.op && x.granule < y.granule && !x.retired) = false → s.mem.wf = true →
      ∃ u, exec .granuleFreeStart s = .next u ∧
        (∀ i, i < 32 → ∀ j, j < 16 → (u.mem.word (16 * (32 * s.argN 1 + i) + j)).v = 0) ∧
        (∀ x ∈ (u.die (s.argN 0)).frees, x.frame = s.argN 1 → x.retired = true) ∧
        evt .granuleDrainDone [s.argN 0, s.argN 1] ∈ u.due)) ∧
  (∀ s x, (s.die (s.argN 0)).frees.find? (fun x => x.frame = s.argN 1 && x.retired && !x.done) = some x →
    (s.granuleBusy (s.argN 1) = true → exec .granuleDrainDone s = .next (s.again .granuleDrainDone)) ∧
    (s.granuleBusy (s.argN 1) = false → ∃ u, exec .granuleDrainDone s = .next u ∧ s.argN 1 ∈ (u.die (s.argN 0)).granules)) ∧
  (∀ s t n, s.thread? (s.argN 0) (s.argN 1) = some t → t.run = .wait (.granules n) →
    (n ≤ (s.core (s.argN 0)).freeGran.length ∧ (s.core (s.argN 0)).scopeAhead (s.argN 1) t.since = false →
      exec .scopeSpaceGrant s = .next (s.withThread (s.argN 0) (s.argN 1) { t with run := .ready } (s.core (s.argN 0)).rf)) ∧
    ((s.core (s.argN 0)).freeGran.length < n → exec .scopeSpaceGrant s = .next s))

/-- R139 to R147, R125, R126: a producer asks a queue for credits and is granted them; a word arrives in its queue or port in order; a
message leaves, and arrives once what it follows has been performed.
Readings and choices of the model it rests on: log entries 12, 15, 16, 17, 71. -/
def Obligations.QueueWork : Prop :=
  (∀ s, let q := nthD (s.core (s.argN 0)).inq (s.argN 1) InQ.reset
    (s.core (s.argN 0)).dead = false → q.conf = true →
    exec .creditRequest s = .next ((s.setCore (s.argN 0) { s.core (s.argN 0) with
      inq := setNth (s.core (s.argN 0)).inq (s.argN 1) { q with reqs := q.reqs ++ [(s.argN 2, s.argN 3)] } }).serveQueue
      (s.argN 0) (s.argN 1))) ∧
  (∀ s, (s.core (s.argN 0)).dead = true → exec .creditRequest s = .next (s.again .creditRequest)) ∧
  (∀ (s : State) (c i p o : Nat) (r : List (Nat × Nat)) (q : InQ), q = nthD (s.core c).inq i InQ.reset → q.reqs = (p, o) :: r →
    (q.free = 0 → (s.serveQueue c i).due = s.due) ∧
    (q.free ≠ 0 → evt .creditGrant [p, o, min 8 q.free, 4 * c + i] ∈ (s.serveQueue c i).due)) ∧
  (∀ s, let z := nthD (s.core (s.argN 0)).outq (s.argN 1) OutQ.reset
    s.argN 1 ≠ 4 →
    (z.conf = true ∧ z.core = s.argN 3 / 4 ∧ z.tq = s.argN 3 % 4 ∧ z.asked = true → z.cred + s.argN 2 ≤ 8 →
      exec .creditGrant s = .next (s.modCore (s.argN 0) (fun y =>
        { y with outq := setNth y.outq (s.argN 1) { z with asked := false, cred := min 8 (z.cred + s.argN 2) } }))) ∧
    (z.asked = false → exec .creditGrant s = .next (s.post [evt .creditReturn [s.argN 3 / 4, s.argN 3 % 4, s.argN 2]]))) ∧
  (∀ s, let q := nthD (s.core (s.argN 0)).inq (s.argN 1) InQ.reset
    let s1 := s.setCore (s.argN 0) { s.core (s.argN 0) with
      inq := setNth (s.core (s.argN 0)).inq (s.argN 1) { q with cred := q.cred - s.argN 2 } }
    exec .creditReturn s = .next (if (s.core (s.argN 0)).dead then s1 else s1.serveQueue (s.argN 0) (s.argN 1))) ∧
  (∀ s f s', s.flits.find? (fun f => f.id = s.argN 0 && f.kind = 0) = some f → s.flitAhead f = false →
    s.flitReady f = (true, s') →
    exec .queueWordArrival s = .next ((s'.dropFlit f.id).modCore f.core (fun x =>
      let q := nthD x.inq f.port InQ.reset
      { x with inq := setNth x.inq f.port { q with held := q.held ++ [⟨f.word.w, f.cpy⟩], cred := q.cred - 1 } }))) ∧
  (∀ s f, s.flits.find? (fun f => f.id = s.argN 0 && f.kind = 0) = some f → s.flitAhead f = true →
    exec .queueWordArrival s = .next (s.again .queueWordArrival)) ∧
  (∀ s f s', s.flits.find? (fun f => f.id = s.argN 0 && f.kind = 0) = some f → s.flitAhead f = false →
    s.flitReady f = (false, s') → exec .queueWordArrival s = .next (s'.again .queueWordArrival)) ∧
  (∀ (s : State) (f : Flit), (f.release = false → s.flitReady f = (true, s)) ∧
    (f.release = true → s.performed f.srcC f.after = false → s.flitReady f = (false, s)) ∧
    (f.release = true → s.performed f.srcC f.after = true →
      s.flitReady f = ((s.drainWC f.srcC).wcEmpty f.srcC, s.drainWC f.srcC))) ∧
  (∀ s f s', s.flits.find? (fun f => f.id = s.argN 0 && f.kind = 1) = some f → s.flitAhead f = false →
    let d := nthD (s.core f.core).inp f.port InPort.reset
    d.rx = some (f.srcC, f.srcP) → d.buf.length < 64 → s.flitReady f = (true, s') →
    exec .streamWordArrival s = .next ((s'.dropFlit f.id).modCore f.core (fun x => { x with
      inp := setNth x.inp f.port { d with rx := if f.word.last then none else some (f.srcC, f.srcP),
                                          heads := d.heads.filter (fun h => h ≠ (f.srcC, f.srcP)),
                                          buf := d.buf ++ [f.word] } }))) ∧
  (∀ s, let o := nthD (s.core (s.argN 0)).outp (s.argN 1) OutPort.reset
    (o.opened = true → s.now < o.since + 2 ^ 16 → exec .streamForceClose s = .next (s.again .streamForceClose)) ∧
    (o.opened = false → exec .streamForceClose s = .next s) ∧
    (o.opened = true → o.since + 2 ^ 16 ≤ s.now → exec .streamForceClose s =
      .next (s.abortPacket (s.argN 0) (s.argN 1) true))) ∧
  (∀ s t l, s.thread? (s.argN 0) (s.argN 1) = some t → t.run = .wait (.operands l) → l.contains (124 + s.argN 2) = true →
    s.writeReady t.tenant (s.argN 0) (s.argN 1) t.since (124 + s.argN 2) = .yes →
    exec .mxWriteWait s = .next (s.withThread (s.argN 0) (s.argN 1) { t with run := .ready } (s.core (s.argN 0)).rf)) ∧
  (∀ s n, s.net.find? (fun m => m.id = s.argN 0) = some n → s.msgAhead n = false → n.after = [] → exec .messageArrival s =
      .next (({ s with net := s.net.filter (fun m => m.id ≠ n.id) } : State).deliverMsg n.core n.msg)) ∧
  (∀ s n, s.net.find? (fun m => m.id = s.argN 0) = some n →
    (s.msgAhead n = true ∨ (n.after ≠ [] ∧ s.performed n.core n.after = false)) →
    exec .messageArrival s = .next (s.again .messageArrival)) ∧
  (∀ s n, (s.core (s.argN 0)).outbox.find? (fun n => s.performed (s.argN 0) n.after &&
      !(s.core (s.argN 0)).outbox.any (fun m => m.id < n.id && m.msg.src = n.msg.src)) = some n →
    (s.drainWC (s.argN 0)).wcEmpty (s.argN 0) = true → ∃ u, exec .messageDepart s = .next u ∧ u.net = (s.drainWC (s.argN 0)).net ++ [{ n with after := [] }] ∧
      (∀ m ∈ (u.core (s.argN 0)).outbox, m.id ≠ n.id) ∧ evt .messageArrival [n.id] ∈ u.due)

/-- R224, R226, R230: a core admits the continuation that is next into a vacant slot; a spawn request arrives, is answered, and is not
placed where its core has not been able to admit it in 64 cycles; R290: an axis episode ends when every arrival is in, or when its
time is up.
Readings and choices of the model it rests on: log entries 29, 38. -/
def Obligations.AdmissionWork : Prop :=
  (∀ s j q n k, let s1 := s.refill (s.argN 0)
    let x := s1.core (s.argN 0)
    s1.serves (s.argN 0) = true → x.scopeWaiter = none →
    x.spawns.find? (fun q => q.arrived) = none → s1.pickFifo (s.argN 0) = some j → x.fifo[j]? = some (q, n) →
    s1.slotFor (s.argN 0) q = some k →
    let s2 := s1.modCore (s.argN 0) (fun y =>
      { y with fifo := (y.fifo.take j).map (fun p => (p.1, p.2 + 1)) ++ y.fifo.drop (j + 1) })
    exec .admission s = .next ((({ s2 with tick := s2.tick + 1 } : State).enrol (s.argN 0) k q).post
      [evt .admission [s.argN 0]])) ∧
  (∀ s q k, let s1 := s.refill (s.argN 0)
    let x := s1.core (s.argN 0)
    s1.serves (s.argN 0) = true → x.scopeWaiter = none → x.launch = none →
    x.spawns.find? (fun q => q.arrived) = some q → s1.spawnSlot (s.argN 0) q = some k →
    let s2 := s1.modCore (s.argN 0) (fun y => { y with spawns := y.spawns.filter (fun r => r.id ≠ q.id) })
    exec .admission s = .next ((({ s2 with tick := s2.tick + 1 } : State).enrol (s.argN 0) k q.cont).post
      [evt .spawnAnswer [q.src, q.slot, q.id, 1], evt .admission [s.argN 0]])) ∧
  (∀ s k, let s1 := s.refill (s.argN 0)
    s1.serves (s.argN 0) = true → (s1.core (s.argN 0)).scopeWaiter = some k →
    exec .admission s = .next (s1.post [evt .scopeSpaceGrant [s.argN 0, k]])) ∧
  (∀ (s : State) (c k : Nat) (x : Cont), x.origin ≠ 2 → x.origin ≠ 3 → ∃ t : Thread,
    (s.enrol c k x).thread? c k = some t ∧ t.pc = x.pc ∧ t.task = x.task ∧ t.run = .ready ∧ t.ops = [] ∧ t.mail = [] ∧
      t.window = ((s.core c).takeGran (taskGran x.task + 1)).1 ∧ (s.enrol c k x).mem = s.mem) ∧
  (∀ s q, (s.core (s.argN 0)).spawns.find? (fun q => q.id = s.argN 1) = some q →
    (s.performed q.src q.after = false → exec .spawnRequestArrival s = .next (s.again .spawnRequestArrival)) ∧
    (s.performed q.src q.after = true → (s.drainWC q.src).wcEmpty q.src = true →
      ∃ u, exec .spawnRequestArrival s = .next u ∧
      { q with arrived := true, since := (s.drainWC q.src).now } ∈ (u.core (s.argN 0)).spawns ∧ evt .admission [s.argN 0] ∈ u.due ∧
      (q.full = false → evt .spawnAdmitTimeout [s.argN 0, q.id] ∈ u.due)) ∧
    ((s.now < q.since + 64 ∨ s.couldAdmit (s.argN 0) q = true) →
      exec .spawnAdmitTimeout s = .next (s.again .spawnAdmitTimeout)) ∧
    (q.since + 64 ≤ s.now → s.couldAdmit (s.argN 0) q = false →
      exec .spawnAdmitTimeout s = .next ((s.modCore (s.argN 0) (fun y =>
        { y with spawns := y.spawns.filter (fun r => r.id ≠ q.id) })).post
          [⟨.spawnAnswer, ⟨[q.src, q.slot, q.id, 0], [⟨w64 q.cont.pc, false⟩]⟩⟩, evt .admission [s.argN 0],
            evt .launchDone [q.cont.task.bits 63 60, taskLaunch q.cont.task]]))) ∧
  (∀ s t, s.thread? (s.argN 0) (s.argN 1) = some t → t.run = .wait (.spawn (s.argN 2)) →
    exec .spawnAnswer s = .next (s.withThread (s.argN 0) (s.argN 1) { t with
      run := .ready, answer := some ⟨if s.argN 3 = 1 then 1 else 2, s.argW 0, 0⟩ } (s.core (s.argN 0)).rf)) ∧
  (∀ s, (s.axisCtx (s.argN 0)).held = true →
    ((∀ cl ∈ s.axisRect (s.axisCtx (s.argN 0)), (s.axisCtx (s.argN 0)).p ≤ s.axisCount (s.argN 0) cl) →
      exec .axisEpisodeComplete s = .next (s.axisNext (s.argN 0) s.now none)) ∧
    (∀ cl ∈ s.axisRect (s.axisCtx (s.argN 0)), s.axisCount (s.argN 0) cl < (s.axisCtx (s.argN 0)).p →
      exec .axisEpisodeComplete s = .next s ∧
      (∀ b, (s.axisCtx (s.argN 0)).ep = s.argN 1 → (s.axisCtx (s.argN 0)).start = some b →
        (s.now < b + 2 ^ (12 + (s.axisCtx (s.argN 0)).tmo) →
          exec .axisEpisodeTimeout s = .next (s.again .axisEpisodeTimeout)) ∧
        (b + 2 ^ (12 + (s.axisCtx (s.argN 0)).tmo) ≤ s.now → exec .axisEpisodeTimeout s =
          .next (s.axisNext (s.argN 0) (b + 2 ^ (12 + (s.axisCtx (s.argN 0)).tmo)) (some (s.axisMissing (s.argN 0))))))))

/-- R315 to R319: the doorbell page: write pointers, control words and base registers; record rings; host access to memory.
Readings and choices of the model it rests on: log entries 33, 40, 50. -/
def Obligations.HostRings : Prop :=
  (∀ s, exec .lqwp s = .next (s.doorbell (s.argN 0) (s.argN 1) (s.argN 2)) ∧
    exec .fswp s = .next (s.doorbell (s.argN 0) 4 (s.argN 1)) ∧
    exec .lqwaWordUpdate s = .next (s.readWa (s.argN 0) (s.argN 1))) ∧
  (∀ (s : State) (tn q v : Nat), let r := (s.tenant tn).ring q
    ((s.doorOpen tn = false ∨ ctlSrc r.ctl = true) → s.doorbell tn q v = s) ∧
    (s.doorOpen tn = true → ctlSrc r.ctl = false → ctlEn r.ctl = false →
      s.doorbell tn q v = s.modRing tn q (fun r => { r with wp := v % 2 ^ 32 })) ∧
    (s.doorOpen tn = true → ctlSrc r.ctl = false → ctlEn r.ctl = true →
      (v % 2 ^ 32 + 2 ^ 32 - r.rp) % 2 ^ 32 ≤ ctlSize r.ctl → (v % 2 ^ 32 + 2 ^ 32 - r.acc) % 2 ^ 32 ≤ 2 ^ 31 →
      s.doorbell tn q v = (s.modRing tn q (fun r => { r with wp := v % 2 ^ 32, acc := v % 2 ^ 32 })).prompt tn q)) ∧
  (∀ s, s.doorOpen (s.argN 0) = true → s.argN 1 < 5 →
    let s1 := s.modRing (s.argN 0) (s.argN 1) (fun r => { r with ctl := ctlWrite r.ctl (s.argW 0).v })
    exec .lqctl s = .next (if !ctlEn ((s.tenant (s.argN 0)).ring (s.argN 1)).ctl && ctlEn (s.argW 0).v
      then s1.enable (s.argN 0) (s.argN 1) else s1)) ∧
  (∀ (old new : Word), (ctlEn old = true → ctlSize (ctlWrite old new) = ctlSize old ∧ ctlSrc (ctlWrite old new) = ctlSrc old) ∧
    ctlEn (ctlWrite old new) = ctlEn new) ∧
  (∀ s, s.doorOpen (s.argN 0) = true → s.argN 1 ≠ 1 → (s.tenant (s.argN 0)).nq.waiting = [] →
    exec .ringRpWrite s = .next ((s.modTenant (s.argN 0) (fun t =>
      { t with nq := { t.nq with rp := s.argN 2 % 2 ^ 32, fired := false } })).fireMsix (s.argN 0) false)) ∧
  (∀ s, (s.argN 0 % 8 = 0 → exec .msixVectorUnmask s = .next ((s.modTenant (s.argN 0 / 8) (fun t =>
      { t with nq := { t.nq with mask := false } })).fireMsix (s.argN 0 / 8) false)) ∧
    (s.argN 0 % 8 = 1 → exec .msixVectorUnmask s = .next ((s.modTenant (s.argN 0 / 8) (fun t =>
      { t with fq := { t.fq with mask := false } })).fireMsix (s.argN 0 / 8) true))) ∧
  (∀ s, s.argN 1 < 2 ^ 20 → s.doorOpen (s.argN 0) = true →
    exec .doorbellRegWrite s = .next (s.modTenant (s.argN 0) (fun t => t.setBase (s.argN 1) (s.argW 0).v.toNat))) ∧
  (∀ s pa, s.hdmPa (s.argN 0) = some pa → populated pa = true → s.windowOwner pa = none →
    (s.lineBusy (pa / 128) = true ∨ (s.argN 1 = 1 ∧ s.pinned (pa / 128) = true) →
      exec .hostMemAccess s = .next (s.again .hostMemAccess)) ∧
    (s.lineBusy (pa / 128) = false →
      let s1 := s.applyAdds (pa / 128 * 128) 128
      (s.argN 1 = 1 → s.pinned (pa / 128) = false → s1.poisoned pa = false → exec .hostMemAccess s =
        .next ((s1.writeHome false (pa / 8 * 8) 8 ⟨(s.argW 0).v, false⟩).unresident (pa / 128))) ∧
      (s.argN 1 ≠ 1 → s1.needLine (pa / 128) = none → ∃ u, exec .hostMemAccess s = .next u ∧
        u.mem = (s1.gatherShared (pa / 128)).mem ∧ pa / 64 ∈ u.hostHeld))) ∧
  (∀ s pa tn, s.hdmPa (s.argN 0) = some pa → populated pa = true → s.windowOwner pa = some tn → (s.tenant tn).tdi = 3 →
    exec .hostMemAccess s = .next s) ∧
  (∀ s, exec .bisnp s = .next (s.post [evt .birsp [s.argN 0]])) ∧
  (∀ s, s.flights = [] → exec .birsp s = .next { s with hostHeld := s.hostHeld.filter (fun x => x ≠ s.argN 0) })

/-! ### The memory system -/

/-- R25, R52, R54, R61, R92, R120, R338: the requests of an operation: a request follows its kind; a load is served within its cluster,
or goes to the home slice and, where a word is registered elsewhere, to the registrant; a line is filled; an operation all of
whose accesses are performed writes its results and ends; a refused one ends with its trap pending.
Readings and choices of the model it rests on: log entries 10, 46. -/
def Obligations.OperationWork : Prop :=
  (∀ s t o, s.argN 1 ≠ 64 → s.opOf (s.argN 0) (s.argN 1) (s.argN 2) = some (t, o) → o.refusal = none →
    ((o.kind = .load ∨ o.kind = .loadAcq) → exec .l2Request s = .next (s.loadProgress (s.argN 0) (s.argN 1) t o false)) ∧
    (o.kind = .amo → exec .l2Request s = .next (s.amoProgress (s.argN 0) (s.argN 1) t o)) ∧
    (o.kind = .bpack → exec .l2Request s = .next (s.packProgress (s.argN 0) (s.argN 1) t o)) ∧
    (o.kind = .saread → exec .l2Request s = .next (s.sareadProgress (s.argN 0) (s.argN 1) t o)) ∧
    (o.kind = .pref → exec .l2Request s = .next (s.prefetch (s.argN 0) (s.argN 1) t o))) ∧
  (∀ s, s.argN 1 = 64 →
    exec .l2Request s = .next (s.prefetchLine (s.argN 0) (s.argN 2) (s.argN 3 = 1) (s.argW 0).v)) ∧
  (∀ (s : State) (c k j : Nat) (t : Thread) (o : Op) (a : Access) (tr : Tr) (fwd : Bool), o.pendingAcc = some (j, a) →
    s.mustFollow c t o a = false → s.placeOf c o a 0 = some tr →
    (o.space = .view → s.retired tr.pa = true → s.loadProgress c k t o fwd = s.opNext c k (o.refuse j 0x07 0)) ∧
    ((o.space = .view → s.retired tr.pa = false) → (∀ n, loadRefusal tr n = 0) →
      (s.poisoned tr.pa = true → s.loadProgress c k t o fwd = s.opNext c k (o.refuse j 0x10 0)) ∧
      (s.poisoned tr.pa = false →
        (s.servedHere c k o tr a.size = true → s.addsDue tr.pa a.size = false →
          s.loadProgress c k t o fwd = s.loadNow c k j o a tr) ∧
        (s.servedHere c k o tr a.size = false → o.sent = false → s.portFull (c / 8) = true →
          s.loadProgress c k t o fwd = s.post [evt .l2Request [c, k, o.id]]) ∧
        (s.servedHere c k o tr a.size = false → (o.sent = true ∨ s.portFull (c / 8) = false) →
          s.loadProgress c k t o fwd = s.loadAtHome c k j t o a tr fwd)))) ∧
  (∀ (s u : State) (c k j : Nat) (t : Thread) (o : Op) (a : Access) (tr : Tr) (fwd : Bool),
    (s.modThread c k (fun t => t.setOp { o with sent := true })).reach c tr a.size = .now u →
    u.recalling (tr.pa / 8) = false → u.addsDue tr.pa a.size = false →
    (fwd = false → u.elsewhere c (tr.pa / 8) = true →
      s.loadAtHome c k j t o a tr fwd = u.post [evt .forwardedLoad [c, k, o.id]]) ∧
    (u.elsewhere c (tr.pa / 8) = false → s.loadAtHome c k j t o a tr fwd = (((((u.applyAdds tr.pa a.size).countHot (c / 8) t.tenant
      tr.leaf).touchLine (tr.pa / 128)).cacheLine c tr).loadNow c k j { o with sent := true } a tr))) ∧
  (∀ s t o j a tr, s.opOf (s.argN 0) (s.argN 1) (s.argN 2) = some (t, o) → o.refusal = none →
    (o.kind = .load ∨ o.kind = .loadAcq) → o.pendingAcc = some (j, a) → s.placeOf (s.argN 0) o a 0 = some tr →
    (s.recalling (tr.pa / 8) = true →
      exec .forwardedLoad s = .next (s.post [evt .l2Request [s.argN 0, s.argN 1, o.id]])) ∧
    (s.recalling (tr.pa / 8) = false →
      exec .forwardedLoad s = .next (s.loadProgress (s.argN 0) (s.argN 1) t o true))) ∧
  (∀ s, (s.makeRoom (s.homeOf (s.argN 0)) (s.argN 0) = none → exec .hbmFill s = .next (s.again .hbmFill)) ∧
    (∀ u, s.makeRoom (s.homeOf (s.argN 0)) (s.argN 0) = some u →
      exec .hbmFill s = .next { u with resident := SMap.set u.resident (s.argN 0) u.now }) ∧
    ∀ cl line, (s.inSet cl line).length < 16 → s.makeRoom cl line = some s) ∧
  (∀ s t o u, s.opOf (s.argN 0) (s.argN 1) (s.argN 2) = some (t, o) → o.ended = true → o.refusal = none →
    s.writeResults (s.argN 0) (s.argN 1) t o = .done u →
    exec .longLatencyComplete s = .next ((u.watchOp (s.argN 0) (s.argN 1) o).modThread (s.argN 0) (s.argN 1)
      (fun t => t.dropOp o.id))) ∧
  (∀ s t o a, s.opOf (s.argN 0) (s.argN 1) (s.argN 2) = some (t, o) → o.refusal = some a → (o.kind = .store → o.ended = true) →
    exec .deferredTrap s = .next ((s.modThread (s.argN 0) (s.argN 1) (fun t => t.dropOp o.id)).addDefer (s.argN 0) (s.argN 1)
      a.refuse (o.trapAddr a) a.cause o.pc o.id o.tip) ∧
    (∀ v, s.thread? (s.argN 0) (s.argN 1) = some v → ∃ u w, exec .deferredTrap s = .next u ∧
      (∀ d, (u.core d).rf = (s.core d).rf) ∧ u.thread? (s.argN 0) (s.argN 1) = some w ∧
      ∃ d ∈ w.defers, d.trap.code = a.refuse ∧ d.ord = o.id))

/-- R60, R91, R92, R99, R254, R256, R261: a store leaves the buffer unless the litmus hold, a migration or a full port stops it, is performed
at its home in order, word by word where words are registered elsewhere, and retires when that is acknowledged; a half of the
write-combine buffer drains.
Readings and choices of the model it rests on: log entries 6, 51, 65, 68, 83, 84. -/
def Obligations.StoreWork : Prop :=
  (∀ s e r, (s.core (s.argN 0)).dead = false → (s.core (s.argN 0)).parked = [] → (s.core (s.argN 0)).sb = e :: r →
    let s1 := s.modCore (s.argN 0) (fun x => { x with parked := [] })
    let stop := ((s.core (s.argN 0)).lthold && !s1.holdLifted (s.argN 0)) || (!e.loc && s1.portFull (s.argN 0 / 8))
    (stop = true → exec .storeBufferDrain s = .next (s1.again .storeBufferDrain)) ∧
    (stop = false →
      let s2 := s1.modCore (s.argN 0) (fun x => { x with sb := r })
      (s2.migrating (s.tenantOn (s.argN 0)) e = false → ∃ u, exec .storeBufferDrain s = .next u ∧ u.mem = s.mem ∧
        (u.core (s.argN 0)).sb = r ∧ u.flights = s.flights ++ [⟨s.nextId, s.argN 0, e, 0, []⟩] ∧
        evt .storeRegistration [s.nextId] ∈ u.due) ∧
      (s2.migrating (s.tenantOn (s.argN 0)) e = true → ∃ u, exec .storeBufferDrain s = .next u ∧ u.mem = s.mem ∧
        (u.core (s.argN 0)).sb = r ∧ (u.core (s.argN 0)).parked = [e] ∧ u.flights = s.flights))) ∧
  (∀ s f, s.flights.find? (fun f => f.id = s.argN 0) = some f → f.stage ≠ 2 → f.stage ≠ 1 →
    (s.storeMustFollow f = true → exec .storeRegistration s = .next (s.retryStore f.id)) ∧
    (s.storeMustFollow f = false → f.entry.kind = .release → s.olderOf f.core f.entry ≠ [] →
      exec .storeRegistration s = .next (s.retryStore f.id)) ∧
    (s.storeMustFollow f = false → (f.entry.kind = .plain ∨ f.entry.kind = .nonTemporal) → f.entry.loc = false →
      f.entry.wide = false → s.sameThread f.core f.entry.slot f.entry.inc = none →
      exec .storeRegistration s = .next (s.storeAtHome f)) ∧
    (s.storeMustFollow f = false → f.entry.kind = .plain → f.entry.loc = true →
      s.sameThread f.core f.entry.slot f.entry.inc = none →
      ((s.barred f.entry.core f.id = true ∨ (s.core f.entry.core).pubWin < f.entry.addr + f.entry.size) →
        exec .storeRegistration s = .next (s.refuseStore f 0x14 (w64 f.entry.addr))) ∧
      (s.barred f.entry.core f.id = false → f.entry.addr + f.entry.size ≤ (s.core f.entry.core).pubWin →
        (s.core f.entry.core).dead = false →
        exec .storeRegistration s = .next ((s.storeLocal f.entry.core f.entry).performed' f)))) ∧
  (∀ s f, s.flights.find? (fun f => f.id = s.argN 0) = some f → f.stage = 1 →
    exec .storeRegistration s = .next (s.storeDie f f.left)) ∧
  (∀ s f, s.flights.find? (fun f => f.id = s.argN 0) = some f → f.stage = 2 → exec .storeRegistration s = .next s) ∧
  (∀ (s : State) (f : Flight), f.entry.host = false → f.entry.sw = false → f.entry.sh ≤ 2 →
    (∀ u, s.homeGate f.entry.addr f.entry.size true = some u → s.storeAtHome f = u.retryStore f.id) ∧
    (s.homeGate f.entry.addr f.entry.size true = none → s.storeAtHome f = (((s.applyAdds f.entry.addr f.entry.size).countHot
      (f.core / 8) (s.tenantOn f.core) f.entry.leaf).touchLine (f.entry.addr / 128)).storeDie f f.entry.words)) ∧
  (∀ (s : State) (f : Flight) (w : Nat), (s.recalling w = true → s.registerWord f w = ([w], s)) ∧
    (s.recalling w = false → s.elsewhere f.core w = true → s.registerWord f w = ([w], s.askRecall w f.id)) ∧
    (s.recalling w = false → s.elsewhere f.core w = false → s.registerWord f w = ([], s.storeWordDie f.core f.entry w))) ∧
  (∀ s, ∃ u, exec .registrationAck s = .next u ∧ u.mem = s.mem ∧ u.cores = s.cores ∧
    ∀ f, f ∈ u.flights ↔ f ∈ s.flights ∧ ¬ (f.id = s.argN 0 ∧ f.stage = 2)) ∧
  (∀ s, exec .wcDrain s = .next (s.drainHalf (s.argN 0) (s.argN 1)) ∧
    ((s.core (s.argN 0)).wc.find? (fun e => e.half = hostBase / 64 + s.argN 1) = none → exec .wcDrainTimeout s = .next s) ∧
    ∀ e, (s.core (s.argN 0)).wc.find? (fun e => e.half = hostBase / 64 + s.argN 1) = some e →
      (s.now < e.born + 1024 → exec .wcDrainTimeout s = .next (s.again .wcDrainTimeout)) ∧
      (e.born + 1024 ≤ s.now → exec .wcDrainTimeout s = .next (s.drainHalf (s.argN 0) (s.argN 1)))) ∧
  (∀ s, let held := fun (f : Flight) => f.core = s.argN 0 && f.stage ≠ 2
      && !(f.stage = 1 && f.left.length < f.entry.words.length)
    ∃ u, exec .ltholdSet s = .next u ∧ (u.core (s.argN 0)).lthold = true ∧ u.mem = s.mem ∧
    (u.core (s.argN 0)).sb = (s.flights.filter held).map (fun f => f.entry) ++ (s.core (s.argN 0)).sb ∧
    u.flights = s.flights.filter (fun f => !held f)) ∧
  (∀ s, ((s.core (s.argN 0)).lthold = true → exec .ltholdClear s = .next s) ∧
    ((s.core (s.argN 0)).lthold = false → exec .ltholdClear s =
      .next (s.post ((s.core (s.argN 0)).sb.map (fun _ => evt .storeBufferDrain [s.argN 0])))))

/-- R26, R38, R238 to R240, R243, R308 to R310: a parked instruction goes on once its condition holds; a trap that waits is delivered; a stop, a
breakpoint and a watchpoint take effect; DRES lets stopped threads go on; a collection window reports its earliest entry.
Readings and choices of the model it rests on: log entries 5, 6, 45. -/
def Obligations.ThreadWork : Prop :=
  (∀ s t, s.thread? (s.argN 0) (s.argN 1) = some t → t.run = .wait .opsDone →
    (t.ops = [] → exec .instructionWake s =
      .next (s.withThread (s.argN 0) (s.argN 1) { t with run := .ready } (s.core (s.argN 0)).rf)) ∧
    (t.ops ≠ [] → exec .instructionWake s = .next (s.again .instructionWake))) ∧
  (∀ s t, s.thread? (s.argN 0) (s.argN 1) = some t → t.run = .ready → exec .instructionWake s = .next s) ∧
  (∀ s t p, s.thread? (s.argN 0) (s.argN 1) = some t → t.pend = some p →
    (t.ops ≠ [] → exec .trapDelivery s = .next (s.again .trapDelivery)) ∧
    (∀ q v, t.ops = [] → (∀ b, t.run ≠ .stopped b) → t.dueTrap = some (q, v) →
      exec .trapDelivery s = .next ((s.setThread (s.argN 0) (s.argN 1) v).deliver (s.argN 0) (s.argN 1) q))) ∧
  (∀ (t : Thread) (d : Deferred) (r : List Deferred), t.trap.tip = false → t.defers = d :: r →
    t.dueTrap = some (d.trap, { t with defers := r })) ∧
  (∀ t : Thread, t.trap.tip = false → t.defers = [] →
    (∀ p, t.saovf = some p → t.dueTrap = some (p, { t with saovf := none })) ∧
    (∀ p, t.saovf = none → t.fpx = some p → t.dueTrap = some (p, { t with fpx := none })) ∧
    (∀ p, t.saovf = none → t.fpx = none → t.pend = some p → t.dueTrap = some (p, { t with pend := none }))) ∧
  (∀ s t, s.thread? (s.argN 0) (s.argN 1) = some t → (∀ b, t.run ≠ .stopped b) →
    exec .stopRequest s = .next ((s.withThread (s.argN 0) (s.argN 1)
      { t with stopReq := if t.stopReq = 0 ∨ t.stopReq = 2 then 2 else 3 } (s.core (s.argN 0)).rf).post
      [evt .stopTakesEffect [s.argN 0, s.argN 1]])) ∧
  (∀ s t, s.thread? (s.argN 0) (s.argN 1) = some t → (∀ b, t.run ≠ .stopped b) → t.stopReq ≠ 0 →
    ((s.core (s.argN 0)).mayStop (s.argN 1) t = true →
      exec .stopTakesEffect s = .next (s.takeStop (s.argN 0) (s.argN 1) t)) ∧
    ((s.core (s.argN 0)).mayStop (s.argN 1) t = false → (t.run = .ready ∨ t.atBoundary = false ∨ t.ops ≠ [] ∨ t.defers = []) →
      exec .stopTakesEffect s = .next (s.again .stopTakesEffect)) ∧
    (∀ tr v, (s.core (s.argN 0)).mayStop (s.argN 1) t = false → t.run ≠ .ready → t.atBoundary = true → t.ops = [] →
      t.defers ≠ [] → t.dueTrap = some (tr, v) → exec .stopTakesEffect s = .next ((((s.abandon (s.argN 0) t).setThread (s.argN 0)
        (s.argN 1) v).deliver (s.argN 0) (s.argN 1) tr).again .stopTakesEffect))) ∧
  (∀ s t, s.thread? (s.argN 0) (s.argN 1) = some t → (∀ b, t.run ≠ .stopped b) → t.stopReq = 0 →
    (s.core (s.argN 0)).mayStop (s.argN 1) t = true →
    let bp := if t.resumed then none else (s.core (s.argN 0)).breakHit (s.argN 1) t.pc
    (bp ≠ none ∨ t.watch ≠ none ∨ t.brk ≠ none →
      exec .breakpointHit s = .next (s.debugStop (s.argN 0) (s.argN 1) t bp) ∧
      exec .watchpointHit s = .next (s.debugStop (s.argN 0) (s.argN 1) t bp))) ∧
  (∀ s k t, s.thread? (s.argN 0) k = some t → k < 64 → t.run = .stopped true → t.deleg = none →
    ∃ u, exec .dres s = .next u ∧ u.mem = s.mem ∧ u.thread? (s.argN 0) k = some (if (s.argW 0).v.getLsbD k then
      { t with mail := t.mail ++ t.held, held := [], resumed := true, run := .ready } else t)) ∧
  (∀ s e, firstEntry (s.core (s.argN 0)).fpwin = some e →
    (s.now / 64 ≤ e.cycle / 64 ∨ (s.core (s.argN 0)).converting (e.cycle / 64) = true →
      exec .fpWindowEnd s = .next (s.again .fpWindowEnd)) ∧
    (∀ t, e.cycle / 64 < s.now / 64 → (s.core (s.argN 0)).converting (e.cycle / 64) = false → s.sameThread (s.argN 0) e.slot e.inc = some t → t.fpx = none →
      ∃ u, exec .fpWindowEnd s = .next u ∧ u.mem = s.mem ∧ (∀ x ∈ (u.core (s.argN 0)).fpwin, x.cycle / 64 ≠ e.cycle / 64) ∧
        u.thread? (s.argN 0) e.slot = some { t with fpx := some ⟨0x0A, e.addr, w64 (min 65535
          (((s.core (s.argN 0)).fpwin.filter (fun x => x.cycle / 64 = e.cycle / 64)).length - 1) * 2 ^ 48
            + e.flags % 32 * 2 ^ 40 + e.pc % 2 ^ 40), t.trap.tip⟩ }))

/-- R91 to R101: the directory: a read shares a line, a write owns it once every other holder has answered, an owner is recalled;
evictions, notices, leases, the host bridge and recalled words.
Readings and choices of the model it rests on: log entries 46, 51, 65, 67, 83. -/
def Obligations.CoherenceWork : Prop :=
  (∀ s u, s.alive (s.argN 0) = true → s.notices.contains (s.argN 0, s.argN 1) = false →
    s.makeRoom (s.argN 0) (s.argN 1) = some u →
    let v := u.countHot (s.argN 0) (u.tenantOf (128 * s.argN 1)) (s.argW 0).v
    exec .gets s = .next (v.dirGetS (s.argN 1) (s.argN 0)) ∧ exec .getm s = .next (v.dirGetM (s.argN 1) (s.argN 0))) ∧
  (∀ (s : State) (line cl : Nat), cl ≠ s.homeOf line →
    (s.dirOf line = none → s.dirGetS line cl = (s.setDir line (.ptr [cl])).sendLine line cl false) ∧
    (∀ l, s.dirOf line = some (.ptr l) → l.contains cl = false → l.length < 4 →
      s.dirGetS line cl = (s.setDir line (.ptr (l ++ [cl]))).sendLine line cl false) ∧
    (∀ o, s.dirOf line = some (.owned o) → o ≠ cl → ∀ w : Bool,
      (if w then s.dirGetM line cl else s.dirGetS line cl) =
        (s.setDir line (.recalling o cl w)).post [evt .ownerRecall [o, line]]) ∧
    (s.dirOf line = none → s.dirGetM line cl = s.grantOwner line cl) ∧
    (∀ l, s.dirOf line = some (.ptr l) → l.filter (fun x => x ≠ cl) ≠ [] → s.dirGetM line cl =
      (s.setDir line (.waiting (l.filter (fun x => x ≠ cl)).length cl (l.filter (fun x => x ≠ cl)))).post
        ((l.filter (fun x => x ≠ cl)).map (fun x => evt .inv [x, line]))) ∧
    (∀ k w inv, s.dirOf line = some (.waiting k w inv) → ∀ wr : Bool,
      (if wr then s.dirGetM line cl else s.dirGetS line cl) = s.queueDir line ⟨cl, wr⟩)) ∧
  (∀ s k w inv, s.dirOf (s.argN 1) = some (.waiting k w inv) → s.argN 0 ∈ inv →
    (k ≤ 1 → exec .invAck s = .next ((s.grantOwner (s.argN 1) w).serveDir (s.argN 1))) ∧
    (1 < k → exec .invAck s = .next (s.setDir (s.argN 1) (.waiting (k - 1) w (inv.filter (fun x => x ≠ s.argN 0)))))) ∧
  (∀ s, s.notices.contains (s.argN 0, s.argN 1) = false →
    exec .inv s = .next (({ s with notices := s.notices.filter (fun p => p ≠ (s.argN 0, s.argN 1)) } : State).dropCluster
      (s.argN 1) (s.argN 0) |>.post [evt .invAck [s.argN 0, s.argN 1]])) ∧
  (∀ s, s.alive (s.argN 0) = true → s.heldBy (s.argN 1) (s.argN 0) ≠ [] → s.notices.contains (s.argN 0, s.argN 1) = false →
    ((∀ cp ∈ s.heldBy (s.argN 1) (s.argN 0), cp.sw = false) →
      exec .evictionNotice s = .next (s.dirNotice (s.argN 1) (s.argN 0))) ∧
    (∀ cp ∈ s.heldBy (s.argN 1) (s.argN 0), cp.sw = true → exec .evictionNotice s =
      .next ((s.writeBackCluster (s.argN 1) (s.argN 0)).dropCluster (s.argN 1) (s.argN 0)))) ∧
  (∀ s, ∃ u, exec .evack s = .next u ∧ u.mem = s.mem ∧ u.dir = s.dir ∧
    ∀ p, p ∈ u.notices ↔ p ∈ s.notices ∧ p ≠ (s.argN 0, s.argN 1)) ∧
  (∀ s, exec .ownerRecall s = .next (if s.alive (s.argN 0) then s.post [evt .ownerRecallAnswer [s.argN 0, s.argN 1]] else s)) ∧
  (∀ s o c w, s.dirOf (s.argN 1) = some (.recalling o c w) →
    (o = s.argN 0 → exec .ownerRecallAnswer s = .next (s.recallDone (s.argN 1) o c w true)) ∧
    (o ≠ s.argN 0 → exec .ownerRecallAnswer s = .next s)) ∧
  (∀ s cp, s.dirOf (s.argN 1) = some (.owned (s.argN 0)) → s.copy? (s.argN 1) (s.argN 0) = some cp →
    exec .ownershipGrant s = .next ((s.setCopy (s.argN 1) (s.argN 0) { cp with owned := true }).retryFlights
      (fun f => f.stage = 3 && f.core / 8 = s.argN 0 && f.entry.addr / 128 = s.argN 1))) ∧
  (∀ s, s.alive (s.argN 0) = true → ∃ u, exec .leaseHeartbeat s = .next u ∧ u.mem = s.mem ∧ u.dir = s.dir ∧
    (∀ p ∈ u.leases, s.ownerOfLine p.1 = some (s.argN 0) → p.2 = s.now) ∧
    ∀ p ∈ u.halves, 2 ≤ p.2.st → s.homeOf (lineOfHalf p.1) = s.argN 0 → p.2.since = s.now) ∧
  (∀ s o b, s.leaseOf (s.argN 0) (s.argN 1) = some (o, b) →
    exec .leaseExpiry s = .next (if b + 2 ^ 22 ≤ s.now then s.post [evt .leasecheck [s.argN 0, s.argN 1]] else s) ∧
    (s.alive o = true → exec .leasecheckTimeout s = .next s ∧ exec .leasecheck s =
      .next (if s.argN 1 = 0 then { s with leases := SMap.set s.leases (s.argN 0) s.now }
        else s.setHalf (s.argN 0) { s.half (s.argN 0) with since := s.now })) ∧
    (s.alive o = false →
      exec .leasecheck s = .next (s.post [evt .leasecheckTimeout [s.argN 0, s.argN 1, s.now + 2 ^ 16]]) ∧
      (s.now < s.argN 2 → exec .leasecheckTimeout s = .next (s.again .leasecheckTimeout)) ∧
      (s.argN 2 ≤ s.now → exec .leasecheckTimeout s = .next (if s.argN 1 = 0 then (s.revertLine (s.argN 0)).markLost (s.argN 0) o
        else (s.revertHalf (s.argN 0)).markLost (lineOfHalf (s.argN 0)) o)))) ∧
  (∀ s, (∀ u, s.halfWait = [] → s.allocHalf (s.argN 0) = some u →
      exec .hostHalfRequest s = .next (u.post [evt .hostHalfResponse [s.argN 0, s.argN 1]])) ∧
    ((s.halfWait ≠ [] ∨ s.allocHalf (s.argN 0) = none) → exec .hostHalfRequest s =
      .next (({ s with halfWait := s.halfWait ++ [2 * s.argN 0 + s.argN 1 % 2] } : State).post
        [evt .bridgeEntryFreed [s.argN 0]])) ∧
    ∀ h, s.halves.length < 131072 → s.allocHalf h = some (s.setHalf h { s.half h with busy := true, used := s.now })) ∧
  (∀ s, ∃ u, exec .hostHalfResponse s = .next u ∧ u.mem = s.mem ∧ (u.half (s.argN 0)).busy = false ∧
    (u.half (s.argN 0)).st = max (s.half (s.argN 0)).st (if s.argN 1 = 1 then 2 else 1)) ∧
  (∀ s x r, s.halfWait = x :: r →
    (∀ u, s.allocHalf (x / 2) = some u → exec .bridgeEntryFreed s =
      .next (({ u with halfWait := r } : State).post [evt .hostHalfResponse [x / 2, x % 2]])) ∧
    (s.allocHalf (x / 2) = none → exec .bridgeEntryFreed s = .next (s.again .bridgeEntryFreed))) ∧
  (∀ s h, SMap.get? s.halves (s.argN 0) = some h →
    (s.lineBusy (lineOfHalf (s.argN 0)) = true → exec .hostSnoop s = .next (s.again .hostSnoop)) ∧
    (s.lineBusy (lineOfHalf (s.argN 0)) = false → s.argN 1 ≠ 1 →
      let u := s.gatherShared (lineOfHalf (s.argN 0))
      exec .hostSnoop s = .next (u.setHalf (s.argN 0) { u.half (s.argN 0) with st := min 1 (u.half (s.argN 0)).st })) ∧
    (s.lineBusy (lineOfHalf (s.argN 0)) = false → s.argN 1 = 1 → s.arg.vals = [] → ∃ u, exec .hostSnoop s = .next u ∧
      u.mem = (s.gather (lineOfHalf (s.argN 0))).mem ∧ SMap.get? u.halves (s.argN 0) = none)) ∧
  (∀ s r, SMap.get? s.regw (s.argN 0) = some r →
    (r.asker.isSome = true → exec .recallWord s = .next (s.post [evt .recallAnswer [s.argN 0]]) ∧
      exec .recallAnswer s = .next (s.recallEnds (s.argN 0) r)) ∧
    exec .registrantWriteBack s = .next (s.recallEnds (s.argN 0) r)) ∧
  (∀ (s : State) (w : Nat) (r : RegWord), SMap.get? s.regw w = some r →
    let u := s.unregister w
    ((∀ f ∈ s.flights, r.asker ≠ some f.id) → s.recallEnds w r = u) ∧
    (s.mem.wf = true → u.mem.word w = r.w ∧ SMap.get? u.regw w = none) ∧
    (∀ f, s.flights.find? (fun f => r.asker = some f.id && f.left.contains w) = some f →
      s.recallEnds w r =
        let v := u.storeWordDie f.core f.entry w
        if f.left.filter (fun x => x ≠ w) = [] then v.performed' f
        else v.setFlight { f with left := f.left.filter (fun x => x ≠ w) }))

/-! ### Launches, locks and phases -/

/-- R220 to R223, R226: the dispatcher checks the header of the entry it takes and accepts the launch or rejects it with a record; a
core takes the plan; the launch is created; its id is free when its last carrier has ended.
Readings and choices of the model it rests on: log entries 33, 57. -/
def Obligations.LaunchWork : Prop :=
  (∀ (h : List Word) (cores : Nat),
    (hdrRegs h = 0 → hdrFault h cores = some (1, 0x16)) ∧
    (128 < hdrRegs h → hdrFault h cores = some (2, 0x16)) ∧
    (hdrFault h cores = none ↔
      1 ≤ hdrRegs h ∧ hdrRegs h ≤ 128 ∧ (nthD h 0 0).bits 15 0 = 1 ∧ (nthD h 0 0).bits 31 16 = 0 ∧
      (nthD h 2 0).bits 63 41 = 0 ∧ nthD h 15 0 = 0 ∧ hdrEntry h % 2 = 0 ∧ hdrC h + hdrS h + hdrF h = 12 ∧ hdrF h ≠ 0 ∧
      hdrN h ≠ 0 ∧ hdrN h ≤ 131072 ∧ (hdrDet h = true → hdrN h ≤ 63 * cores))) ∧
  (∀ s e h s1 s2, let tn := s.argN 0
    let q := s.argN 1
    let t := s.tenant tn
    let r := nthD t.lq q Ring.reset
    t.tdi ≠ 3 → t.queueReady q = true → t.launches.length < 4096 → (∀ p, p < 4 → q < p → t.queueReady p = false) →
    s.dispatcherRead tn (r.base + 16 * (r.rp % ctlSize r.ctl)) 1 = .ok [e] s1 →
    s1.dispatcherRead tn (e.toNat / 128 * 128) 16 = .ok h s2 →
    hdrFault h (s2.coresOf tn).length = none →
    let l := freeLaunch t.launches 4097 t.nextLaunch
    ∃ u, exec .launchEntryTaken s = .next u ∧ u.mem = s2.mem ∧
      SMap.get? (u.tenant tn).launches l = some ⟨h, e.toNat, q, 0, false, 0, 0, s2.coresOf tn, false⟩ ∧
      (u.tenant tn).nextLaunch = (l + 1) % 65536 ∧ evt .launchCreate [tn, l] ∈ u.due ∧
      ∀ c ∈ s2.coresOf tn, evt .poolPlanReady [tn, l, c] ∈ u.due) ∧
  (∀ s la, SMap.get? (s.tenant (s.argN 0)).launches (s.argN 1) = some la →
    ((s.core (s.argN 2)).banks = planBanks la.hdr →
      exec .poolPlanReady s = .next (s.modCore (s.argN 2) (fun x => { x with plan := planBanks la.hdr }))) ∧
    ((s.core (s.argN 2)).banks ≠ planBanks la.hdr →
      s.planFree (s.argN 0) (s.argN 1) (s.argN 2) (planBanks la.hdr) = false →
      exec .poolPlanReady s = .next (s.again .poolPlanReady)) ∧
    (s.planFree (s.argN 0) (s.argN 1) (s.argN 2) (planBanks la.hdr) = true → s.windowBusy (s.argN 2) = false →
      (s.core (s.argN 2)).banks ≠ planBanks la.hdr →
      ∃ u, exec .poolPlanReady s = .next u ∧ (u.core (s.argN 2)).moving = false ∧
        (u.core (s.argN 2)).plan = planBanks la.hdr ∧ (u.core (s.argN 2)).rf = (s.core (s.argN 2)).rf ∧
        ∀ b, b < 11 → b < (s.core (s.argN 2)).banks.length →
          nthD (u.core (s.argN 2)).banks b .cache = nthD (planBanks la.hdr) b .cache)) ∧
  (∀ s la g u, SMap.get? (s.tenant (s.argN 0)).launches (s.argN 1) = some la → la.created = false →
    (la.group ≠ 0 → exec .launchCreate s =
      .next (s.placeLanes (s.argN 0) (s.argN 1) la (hdrN la.hdr - la.placed) la.placed)) ∧
    (la.group = 0 → (∃ c ∈ s.coresOf (s.argN 0), (s.core c).banks ≠ planBanks la.hdr) →
      exec .launchCreate s = .next ((s.askPlans (s.argN 0) (s.argN 1) la).again .launchCreate)) ∧
    (la.group = 0 → s.coresOf (s.argN 0) ≠ [] → (∀ c ∈ s.coresOf (s.argN 0), (s.core c).banks = planBanks la.hdr) →
      hdrDet la.hdr = false → s.newGroup (s.argN 0) (hdrN la.hdr) = some (g, u) →
      let la' := { la with group := g, cores := s.coresOf (s.argN 0) }
      exec .launchCreate s =
        .next ((u.modLaunch (s.argN 0) (s.argN 1) (fun _ => la')).placeLanes (s.argN 0) (s.argN 1) la' (hdrN la.hdr) 0))) ∧
  (∀ (s : State) (tn l : Nat) (la : Launch) (n lane : Nat),
    let c := nthD la.cores (lane % la.cores.length) 0
    (s.fifoRoom c tn = true → s.placeLanes tn l la (n + 1) lane =
      (s.pushFifo c (laneCont tn l la.group la.hdr lane)).placeLanes tn l la n (lane + 1)) ∧
    (s.fifoRoom c tn = false → s.placeLanes tn l la (n + 1) lane =
      (s.modLaunch tn l (fun x => { x with placed := lane })).again .launchCreate)) ∧
  (∀ s la, SMap.get? (s.tenant (s.argN 0)).launches (s.argN 1) = some la →
    (la.created = false ∨ la.lost = true ∨ s.carried (s.argN 0) (s.argN 1) = true → exec .launchDone s = .next s) ∧
    (la.created = true → la.lost = false → s.carried (s.argN 0) (s.argN 1) = false → s.addl = [] →
      (∀ p ∈ s.cores, p.2.launch ≠ some (s.argN 0, s.argN 1)) →
      exec .launchDone s = .next ((s.modTenant (s.argN 0) (fun t =>
        { t with launches := SMap.del t.launches (s.argN 1) })).notify (s.argN 0) (w64 (6 * 2 ^ 56 + s.argN 1))
        (w64 la.admitted))))

/-- R264 to R277, R280, R285, R286: the home of a LOCK or a PHASE serves attempts, retries, releases, withdrawals, grants, arrivals
and waits, and closes its windows; a core takes the answers.
Readings and choices of the model it rests on: log entries 30, 31, 32, 81. -/
def Obligations.LocusWork : Prop :=
  (∀ s q, s.req? (s.argN 0) = some q →
    (q.kind ≠ 2 → s.windowOver q.obj = true → exec .lockAttempt s = .next (s.again .lockAttempt)) ∧
    (q.kind ≠ 2 → s.windowOver q.obj = false → exec .lockAttempt s = .next ((s.attempt q).measured q.obj)) ∧
    (∀ s1, q.kind = 2 → s.released q.core q.after = (false, s1) → exec .lockAttempt s = .next (s1.again .lockAttempt)) ∧
    (∀ s1, q.kind = 2 → s.released q.core q.after = (true, s1) → s1.windowOver q.obj = false →
      exec .lockAttempt s = .next ((s1.attempt q).measured q.obj))) ∧
  (∀ (s : State) (q : SyncReq),
    (s.oKind q.obj ≠ 1 → s.attempt q = s.answerReq q 18) ∧
    (s.oKind q.obj = 1 → s.oH q.obj = true → (s.obj q.obj).owner = q.tid → s.attempt q = s.answerReq q 20) ∧
    (s.oKind q.obj = 1 → s.oH q.obj = false → s.oMode q.obj = 2 → (s.obj q.obj).queue = [] →
      s.attempt q = (s.takeLock q.obj q.tid).answerReq q (if q.kind = 2 then 6 else 1)) ∧
    (s.oKind q.obj = 1 → s.oH q.obj = true → (s.obj q.obj).owner ≠ q.tid → q.kind = 1 → s.attempt q = s.answerReq q 2) ∧
    (s.oKind q.obj = 1 → s.oH q.obj = true → (s.obj q.obj).owner ≠ q.tid → s.oMode q.obj = 2 → q.kind = 0 →
      (∀ e ∈ (s.obj q.obj).queue, e.req ≠ q.id) → s.attempt q = (s.setObj q.obj { s.obj q.obj with
        queue := (s.obj q.obj).queue ++ [⟨q.tid, q.lane, q.id, false⟩] }).answerReq q 3)) ∧
  (∀ s q, s.req? (s.argN 0) = some q → s.windowOver q.obj = false →
    (s.now < s.argN 1 → exec .flagRetry s = .next (s.again .flagRetry)) ∧
    (s.argN 1 ≤ s.now → (s.obj q.obj).spin.any (fun x => x.req = q.id) = true → exec .flagRetry s = .next ((s.attempt q).measured q.obj)) ∧
    (s.argN 1 ≤ s.now → (s.obj q.obj).spin.any (fun x => x.req = q.id) = false → (s.obj q.obj).queue.any (fun e => e.req = q.id) = true →
      exec .flagRetry s = .next (s.answerReq q 3))) ∧
  (∀ s q s1, s.req? (s.argN 0) = some q → s.released q.core q.after = (true, s1) → s1.windowOver q.obj = false →
    s1.reqs.any (fun x => x.kind = 6 && x.tid = q.tid && x.obj = q.obj) = false →
    (s1.oKind q.obj = 1 → s1.oH q.obj = true → (s1.obj q.obj).owner = q.tid →
      exec .lockRelease s = .next (((s1.releaseLock q.obj).measured q.obj).answerReq q 1)) ∧
    (s1.oKind q.obj = 1 → (s1.oH q.obj = false ∨ (s1.obj q.obj).owner ≠ q.tid) →
      exec .lockRelease s = .next (s1.answerReq q 19))) ∧
  (∀ (s : State) (l : Nat), s.oMode l = 2 → (s.oSP l = false ∨ (s.obj l).delTid = none) →
    (s.headOf l = none → s.releaseLock l = s.freeLock l) ∧ (∀ e, s.headOf l = some e → s.releaseLock l = s.grantTo l e)) ∧
  (∀ s q, s.req? (s.argN 0) = some q → s.requestDue q.ref = false → s.windowOver q.obj = false →
    let s1 := s.dropReq q.id
    let o := s1.obj q.obj
    (o.queue.any (fun x => x.req = q.ref) = true → exec .lockWithdrawal s = .next (((s1.setObj q.obj { o with
      spin := o.spin.filter (fun x => x.req ≠ q.ref), queue := o.queue.filter (fun x => x.req ≠ q.ref),
      wait := o.wait.filter (fun x => x.req ≠ q.ref) }).measured q.obj).post [evt .timeout [q.core, q.slot, q.ref]])) ∧
    (o.spin = [] → o.queue = [] → o.wait = [] → exec .lockWithdrawal s = .next s1)) ∧
  (∀ s q, s.req? (s.argN 0) = some q → s.windowOver q.obj = false →
    let s1 := s.dropReq q.id
    (s1.oGF q.obj = true → (s1.obj q.obj).owner = q.tid →
      exec .grantAck s = .next (((s1.putObj q.obj 0 51 51 0).toFlag q.obj s1.now).measured q.obj)) ∧
    (s1.oH q.obj = true → (s1.obj q.obj).owner = q.tid → exec .grantReturned s =
      .next ((((s1.putObj q.obj 0 51 51 0).releaseLock q.obj).toFlag q.obj s1.now).measured q.obj))) ∧
  (∀ s q w, s.req? (s.argN 0) = some q → s.waiting q = some w →
    (q.ans = 3 → exec .locusAnswer s = .next s) ∧
    (q.ans = 2 → q.kind ≠ 1 → s.reqs.any (fun x => x.kind = 5 && x.ref = q.id) = false → exec .locusAnswer s =
      .next ((s.setReq { q with fails := q.fails + 1 }).post [evt .flagRetry [q.id, s.now + backoff q.fails]])) ∧
    (q.ans = 1 → q.kind ≤ 1 → exec .locusAnswer s = .next (((s.dropReq q.id).countLock q.core q.slot true).reply q.core
      q.slot w ⟨1, q.carried, q.obj⟩)) ∧
    (q.ans = 1 → q.kind = 4 → exec .locusAnswer s = .next (((s.dropReq q.id).countLock q.core q.slot false).reply q.core
      q.slot w ⟨1, q.carried, q.obj⟩))) ∧
  (∀ s q w, s.req? (s.argN 2) = some q → (s.dropReq q.id).waiting q = some w →
    (q.kind = 9 → exec .grant s = .next ((s.dropReq q.id).reply q.core q.slot w ⟨1, TWord.zero, q.obj⟩)) ∧
    (q.kind = 0 → exec .grant s = .next (((((s.dropReq q.id).countLock q.core q.slot true).reply q.core q.slot w
      ⟨1, q.carried, q.obj⟩)).sendReq (SyncReq.new 6 q.obj q.tid q.core q.slot)).2) ∧
    exec .timeout s = .next ((s.dropReq q.id).reply q.core q.slot w ⟨5, TWord.zero, q.obj⟩)) ∧
  (∀ s t, s.thread? (s.argN 0) (s.argN 1) = some t → t.run = .wait (.locus (s.argN 2)) →
    s.reqs.any (fun q => q.kind = 5 && q.ref = s.argN 2) = false →
    (s.now < s.argN 3 → exec .syncTimeoutExpiry s = .next (s.again .syncTimeoutExpiry)) ∧
    (s.argN 3 ≤ s.now → exec .syncTimeoutExpiry s = .next (s.withdraw (s.argN 2)))) ∧
  (∀ s, s.oKind (s.argN 0) = 1 →
    ((s.obj (s.argN 0)).winEnd ≠ 0 → (s.obj (s.argN 0)).winEnd ≤ s.now →
      exec .locusWindowEnd s = .next ((s.windowEnd (s.argN 0)).again .locusWindowEnd)) ∧
    (s.now < (s.obj (s.argN 0)).winEnd → exec .locusWindowEnd s = .next (s.again .locusWindowEnd))) ∧
  (∀ s t d, s.thread? (s.argN 1) (s.argN 2) = some t → t.deleg = some d → d.remote = true → d.obj = s.argN 0 → d.req = 0 →
    d.ret ≠ 1 → s.windowOver (s.argN 0) = false → (s.obj (s.argN 0)).delTid ≠ some (s.tid (s.argN 1) (s.argN 2) t) →
    let s1 := s.modObj (s.argN 0) (fun o => { o with delTid := some (s.tid (s.argN 1) (s.argN 2) t) })
    exec .delegateAdmitted s = .next ((if s1.oMode (s.argN 0) = 2 && s1.oSP (s.argN 0) && !s1.oH (s.argN 0)
      then s1.enterDelegate (s.argN 0) else s1).measured (s.argN 0))) ∧
  (∀ s q w s1, let ck := s.delegateAt (s.argN 0)
    s.released ck.1 (s.storesOf ck.1 ck.2) = (true, s1) → s1.windowOver (s.argN 0) = false →
    s1.req? (s1.argN 1) = some q → s1.waiting q = some w →
    exec .delegateBodyExit s = .next (((((s1.reply q.core q.slot w ⟨7, s1.argW 0, s.argN 0⟩).dropReq q.id).dispatch
      (s.argN 0)).measured (s.argN 0)))) ∧
  (∀ s y, (s.cluster (s.argN 0)).comb.find? (fun y => y.obj = s.argN 1) = some y →
    let s1 := s.setCluster (s.argN 0) { s.cluster (s.argN 0) with
      comb := (s.cluster (s.argN 0)).comb.filter (fun z => z.obj ≠ s.argN 1) }
    (s.argN 1 < 2 ^ 60 → exec .combinerForward s = .next (s1.combineAt (s1.dieCombiner (s1.tenantOf (128 * s.argN 1))
      (s.argN 0)) (s.argN 1 + 2 ^ 60) y.count)) ∧
    (2 ^ 60 ≤ s.argN 1 → s1.oKind (s.argN 1 - 2 ^ 60) = 2 →
      exec .combinerForward s = .next (s1.arriveHome (s.argN 1 - 2 ^ 60) y.count true))) ∧
  (∀ s q w t s1, s.req? (s.argN 0) = some q → s.released q.core q.after = (true, s1) →
    let l := q.obj
    s1.waiting q = some w → s1.thread? q.core q.slot = some t → s1.oKind l = 2 →
    (taskGroup t.task ≠ (s1.objW l 3).bits 15 0 → exec .phaseArrival s = .next (s1.answerReq q 21)) ∧
    (taskGroup t.task = (s1.objW l 3).bits 15 0 → taskGroup t.task ≠ 0 → (s1.obj l).joined.contains q.tid = false →
      let s2 := (s1.modThread q.core q.slot (fun t => { t with arrival := some (l, s1.oC l) })).answerReq q 1
      exec .phaseArrival s = .next (if s2.oMode l = 3 then s2.combineAt (q.core / 8) l 1 else s2.arriveHome l 1 true))) ∧
  (∀ s q, s.req? (s.argN 0) = some q → s.oKind q.obj = 2 →
    let t := if q.ref = 0 then s.oC q.obj else q.ref - 1
    (t < s.oC q.obj → exec .phaseWaitRequest s = .next (s.answerReq q 1)) ∧
    (s.oC q.obj ≤ t → exec .phaseWaitRequest s = .next ((s.modObj q.obj (fun o =>
      { o with wait := o.wait ++ [⟨q.tid, t, q.id⟩] })).measure q.obj)) ∧
    ((s.dropReq q.id).oKind q.obj = 2 → (s.dropReq q.id).oC q.obj = q.ref →
      exec .phaseLeave s = .next ((s.dropReq q.id).arriveHome q.obj 1 false)))

/-! ### The fabric, the links between dies, bring-up and security -/

/-- R327 to R332: PV-X1's connections: opening and closing, acknowledgement, resending, receiving, and records in submission order.
Readings and choices of the model it rests on: log entries 2, 58. -/
def Obligations.FabricWork : Prop :=
  (∀ (s : State) (tn : Nat),
    (s.boot.fabid = none → s.discards tn = some s) ∧
    (s.boot.fabid ≠ none → SMap.get? s.tenants tn = none →
      s.discards tn = some { s with boot := { s.boot with badFrames := s.boot.badFrames + 1 } }) ∧
    (s.boot.fabid ≠ none → SMap.get? s.tenants tn ≠ none → s.discards tn = none)) ∧
  (∀ s, let tn := s.argN 0
    let n := s.argN 1
    let u := s.fabAdds tn n
    u.discards tn = none →
    (u.isOpen tn n = true → exec .ackFrame s = .next (((u.modConn tn n (fun c =>
      c.acknowledge (u.argN 2) u.now)).promptSent tn n).pump tn n)) ∧
    (u.isOpen tn n = true → u.argN 2 = 1 → exec .nackFrame s = .next (((u.modConn tn n
      (fun c => c.acknowledge (u.argN 3) u.now)).promptSent tn n).resend tn n)) ∧
    ((u.isOpen tn n = false ∨ u.fabricOn tn = false) →
      exec .dataFrame s = .next (u.sendNack tn n 4)) ∧
    (u.isOpen tn n = true → u.fabricOn tn = true →
      2 ^ 31 ≤ (u.argN 3 + 2 ^ 32 - (u.conn tn n).expect % 2 ^ 32) % 2 ^ 32 →
      exec .dataFrame s = .next (u.sendAck tn n)) ∧
    (∀ l, u.isOpen tn n = true → u.fabricOn tn = true →
      (u.argN 3 + 2 ^ 32 - (u.conn tn n).expect % 2 ^ 32) % 2 ^ 32 = 0 →
      s.argN 4 + s.argN 6 ≤ (u.peekVa tn (u.fabVa tn n + 16)).v.bits 39 0 →
      u.recvPages tn n (((u.peekVa tn (u.fabVa tn n + 8)).v.bits 56 0 + s.argN 4)
        % 2 ^ 57) (s.argN 6) 34 = .lines l →
      exec .dataFrame s = .next ((u.recvWrite tn ((u.arg.vals.flatMap (fun w => leBytes 8 w.v.toNat)).take (s.argN 6))
        (s.argN 2 / 4 % 2 = 1) (s.argN 2 / 8 % 2 = 1) l).received tn n (s.argN 2) (u.argN 5) (s.argN 6))) ∧
    (u.isOpen tn n = true → exec .closeFrame s = .next (u.failConn tn n)) ∧
    (entV (u.fabWord tn n) = true → entState (u.fabWord tn n) = 1 →
      exec .accept s = .next (u.opened tn n) ∧ exec .refuse s = .next (u.refused tn n)) ∧
    (entV (u.fabWord tn n) = true → u.fabricOn tn = true →
      entMod (u.fabWord tn n) = u.argN 2 → entTen (u.fabWord tn n) = u.argN 3 →
      entCon (u.fabWord tn n) = u.argN 4 →
      exec .connect s = .next ((u.opened tn n).sendShort tn n 5 0 0))) ∧
  (∀ s, let tn := s.argN 0
    let n := s.argN 1
    let u := s.fabAdds tn n
    u.doorOpen tn = true → u.fabricOn tn = true → entV (u.fabWord tn n) = true →
    (entState (u.fabWord tn n) = 0 → exec .fcopenOpen s = .next ((((u.setEntState tn n
      1).modConn tn n (fun c => { Conn.reset with xfers := c.xfers, tries := 1, since := u.now })).sendShort
      tn n 4 0 0).postOnce (evt .connectRetryTimer [tn, n]))) ∧
    (entState (u.fabWord tn n) ≠ 0 →
      ((u.conn tn n).xfers ≠ [] → exec .fcopenClose s = .next (u.again .fcopenClose)) ∧
      ((u.conn tn n).xfers = [] → exec .fcopenClose s =
        .next ((u.sendShort tn n 7 0 0).setEntState tn n 0)))) ∧
  (∀ s x r, (s.conn (s.argN 0) (s.argN 1)).xfers = x :: r →
    (x.ended = true → x.flagA = false → exec .fsent s = .next ((s.modConn (s.argN 0) (s.argN 1) (fun c =>
      { c with xfers := r })).promptSent (s.argN 0) (s.argN 1))) ∧
    (x.ended = true → x.flagA = true → exec .fsent s = .next (((s.modConn (s.argN 0) (s.argN 1) (fun c =>
      { c with xfers := r })).notify (s.argN 0) (w64 (0x0B * 2 ^ 56 + (x.status * 2 ^ 48 + x.tag * 2 ^ 32 + s.argN 1)))
        (w64 (min (4096 * x.acked) x.length))).promptSent (s.argN 0) (s.argN 1))) ∧
    (x.ended = false → exec .fsent s = .next s)) ∧
  (∀ s, exec .sendEntryTaken s =
    .next (((s.tenant (s.argN 0)).conns.foldl (fun u p => u.pump (s.argN 0) p.1) s).takeSend (s.argN 0))) ∧
  (∀ s, s.isOpen (s.argN 0) (s.argN 1) = true → (s.conn (s.argN 0) (s.argN 1)).window ≠ [] →
    (s.now < (s.conn (s.argN 0) (s.argN 1)).prog + 26000 → exec .resendTimer s = .next (s.again .resendTimer)) ∧
    ((s.conn (s.argN 0) (s.argN 1)).prog + 26000 ≤ s.now →
      exec .resendTimer s = .next (s.resend (s.argN 0) (s.argN 1)))) ∧
  (∀ s, (s.conn (s.argN 0) (s.argN 1)).unack ≠ 0 → exec .ackTimer s = .next (s.sendAck (s.argN 0) (s.argN 1))) ∧
  (∀ s, entV (s.fabWord (s.argN 0) (s.argN 1)) = true → entState (s.fabWord (s.argN 0) (s.argN 1)) = 1 →
    (s.now < (s.conn (s.argN 0) (s.argN 1)).since + 2 ^ 24 →
      exec .connectRetryTimer s = .next (s.again .connectRetryTimer)) ∧
    ((s.conn (s.argN 0) (s.argN 1)).since + 2 ^ 24 ≤ s.now → 8 ≤ (s.conn (s.argN 0) (s.argN 1)).tries →
      exec .connectRetryTimer s = .next (s.refused (s.argN 0) (s.argN 1)))) ∧
  (∀ (c : Conn) (psn now : Nat), let k := (psn + 2 ^ 32 - c.acked % 2 ^ 32) % 2 ^ 32
    (c.window.length < k → c.acknowledge psn now = c) ∧
    (k ≠ 0 → k ≤ c.window.length → (c.acknowledge psn now).acked = c.acked + k ∧
      (c.acknowledge psn now).window = c.window.drop k ∧ (c.acknowledge psn now).resent = 0)) ∧
  (∀ s, ∃ u, exec .portLinkDown s = .next u ∧ u.boot.ports = setNth s.boot.ports (s.argN 0) false) ∧
  (∀ s, exec .portLinkUp s = .next { s with boot := { s.boot with ports := setNth s.boot.ports (s.argN 0) true } }) ∧
  (∀ s, exec .fabidAssign s = .next { s with boot := { s.boot with fabid := some (s.argN 0 % 2 ^ 21) } })

/-- R321 to R326: requests and responses on the edges of a die take credits; the memory hub reads, writes and scrubs lines; links train,
are refused and are lost; descriptors are read and checked.
Readings and choices of the model it rests on: log entries 52, 54, 55. -/
def Obligations.LinkWork : Prop :=
  (∀ s n, (s.link (s.argN 0)).ok = true → (s.link (s.argN 0)).up = true →
    SMap.get (s.link (s.argN 0)).credits 0 0 = n + 1 → exec .mxreq s = .next (s.setLink (s.argN 0)
      { s.link (s.argN 0) with credits := SMap.set (s.link (s.argN 0)).credits 0 n })) ∧
  (∀ s, ((s.link (s.argN 0)).up = false ∨ SMap.get (s.link (s.argN 0)).credits 0 0 = 0 →
      exec .mxreq s = .next (s.again .mxreq)) ∧
    ((s.link (s.argN 0)).up = true → exec .mxrsp s = .next s) ∧
    ((s.link (s.argN 0)).up = false → exec .mxrsp s = .next (s.again .mxrsp))) ∧
  (∀ s, exec .splCreditReturn s = .next (s.setLink (s.argN 0) { s.link (s.argN 0) with
    credits := SMap.set (s.link (s.argN 0)).credits (s.argN 1) (min (SMap.get (s.link (s.argN 0)).offered (s.argN 1) 0)
      (SMap.get (s.link (s.argN 0)).credits (s.argN 1) 0 + s.argN 2)) })) ∧
  (∀ s s1, s.takeCredit (s.argN 0) 3 = some s1 →
    let a := hostBase + s.argN 1 / 8 * 8
    exec .iord s = .next (s1.respond ⟨s.argN 2, s.argN 0, 0x31, a, [s1.curWord (a / 8)], s1.poisoned a⟩ .iorsp) ∧
    (s1.poisoned a = false → exec .iowr s = .next (((s1.writeHome false a 8 ⟨(s1.argW 0).v, false⟩).dirtyHalf (halfOf a)).respond
      ⟨s1.argN 2, s1.argN 0, 0x32, a, [], false⟩ .iorsp)) ∧
    (s1.poisoned a = true → exec .iowr s = .next (s1.respond ⟨s1.argN 2, s1.argN 0, 0x32, a, [], false⟩ .iorsp)) ∧
    exec .iomsg s = .next s1) ∧
  (∀ s, ∃ u v w : State, exec .iorsp s = .next u ∧ exec .rdrsp s = .next v ∧ exec .wrack s = .next w ∧ u.mem = s.mem ∧
    v.mem = s.mem ∧ w.mem = s.mem ∧ (∀ m ∈ s.hub, m.tag ≠ s.argN 0 → m ∈ u.hub ∧ m ∈ v.hub ∧ m ∈ w.hub) ∧
    (∀ m ∈ v.hub, m.op = 0x21 → m.tag ≠ s.argN 0) ∧ (∀ m ∈ w.hub, m.op = 0x22 → m.tag ≠ s.argN 0)) ∧
  (∀ s s1, let d := s.argN 0 % 4
    let pa := d * 2 ^ 38 + s.argN 1 % 2 ^ 38
    populated pa = true → s.takeCredit (4 * d + 2) 1 = some s1 → s.mem.wf = true →
    exec .rd s = .next (s1.respond ⟨s.argN 2, d, 0x21, pa / 128 * 128, s1.homeWords (pa / 128), s1.poisoned pa⟩ .rdrsp) ∧
    (∃ u, exec .wr s = .next u ∧ (∀ i, i < 16 → u.mem.word (16 * (pa / 128) + i) = s.argW i) ∧
      (u.mem.poisoned (pa / 128) = decide (s.argN 3 = 1)) ∧ evt .wrack [s.argN 2] ∈ u.due) ∧
    (∃ u, exec .wrm s = .next u ∧ evt .wrack [s.argN 2] ∈ u.due ∧
      ∀ a, a / 128 ≠ pa / 128 → u.mem.byte a = s.mem.byte a) ∧
    (∃ u, exec .zeroLine s = .next u ∧ evt .wrack [s.argN 2] ∈ u.due ∧ u.mem.poisoned (pa / 128) = false ∧
      ∀ i, i < 16 → u.mem.word (16 * (pa / 128) + i) = TWord.zero) ∧
    (∃ u, exec .scrub s = .next u ∧ evt .wrack [s.argN 2] ∈ u.due ∧
      ∀ i, i < 512 → u.mem.word (pa / 4096 * 512 + i) = TWord.zero)) ∧
  (∀ s, (s.link (s.argN 0)).refused = false → (s.link (s.argN 0)).up = false →
    exec .ucieLinkUp s = .next ((s.setLink (s.argN 0) { s.link (s.argN 0) with
      up := true, retrain := 0, since := s.now }).advanceBoot)) ∧
  (∀ s, (s.link (s.argN 0)).up = true → (s.link (s.argN 0)).refused = false →
    (paramOk (s.argN 2) (s.argN 3) = true → exec .param s = .next ((s.setLink (s.argN 0) { s.link (s.argN 0) with
      ok := true, kind := s.argN 1, credits := paramCredits (s.argN 3), offered := paramCredits (s.argN 3) }).advanceBoot)) ∧
    (paramOk (s.argN 2) (s.argN 3) = false → exec .param s = .next (s.refuseLink (s.argN 0))) ∧
    ((s.link (s.argN 0)).ok = false → (s.link (s.argN 0)).since + 2 ^ 20 ≤ s.now → exec .splParamTimeout s = .next (s.refuseLink (s.argN 0)))) ∧
  (∀ s, (s.link (s.argN 0)).ok = true →
    ((s.link (s.argN 0)).retrain < 3 → exec .ucieReplayFail s = .next (s.setLink (s.argN 0) { s.link (s.argN 0) with
      up := false, retrain := (s.link (s.argN 0)).retrain + 1 })) ∧
    (3 ≤ (s.link (s.argN 0)).retrain → exec .ucieReplayFail s = .next (s.loseLink (s.argN 0)))) ∧
  (∀ s, s.boot.rdy = false → exec .ucieTrainingFail s = .next (s.bootFails 4)) ∧
  (∀ s, exec .topord s = .next { s with hub := s.hub ++ [⟨s.argN 1, s.argN 0, 0x42, 0, [], false⟩] }) ∧
  (∀ s, let s1 : State := { s with hub := s.hub.filter (fun m => !(m.op = 0x42 && m.die = s.argN 0)) }
    (descGood (s.arg.nums.drop 1) = true → exec .toprsp s = .next { s1 with boot := { s.boot with
      desc := SMap.set s.boot.desc (s.argN 0) ((s.arg.nums.drop 1).map (fun x => BitVec.ofNat 8 x)) } }) ∧
    (descGood (s.arg.nums.drop 1) = false → exec .toprsp s = .next (s1.bootFails 6))) ∧
  (∀ s, s.boot.stage = 6 → s.boot.err = 0 → (∀ i, i < 10 → SMap.get? s.boot.desc i ≠ none) →
    (s.attached = true → exec .topologyWalk s = .next { s with boot := { s.boot with stage := 7 } }) ∧
    (s.attached = false → exec .topologyWalk s = .next (s.bootFails 6))) ∧
  (∀ s, exec .splErr s = .next s) ∧
  (∀ s, ∃ u, exec .dieReset s = .next u ∧ (∀ c, dieOf (c / 8) = s.argN 0 % 4 → ∀ k, u.thread? c k = none) ∧
    (∀ c, dieOf (c / 8) ≠ s.argN 0 % 4 → (u.core c).rf = (s.core c).rf) ∧
    ∀ f ∈ u.flights, dieOf (f.core / 8) ≠ s.argN 0 % 4)

/-- R333 to R337, R43, R45, R99, R242: SPDM requests are answered; the states of a TDI; the stages of the boot; a tenant is created;
clusters are gated; the module is reset.
Readings and choices of the model it rests on: log entries 2, 11, 53, 56, 59, 60, 61, 82. -/
def Obligations.BringUp : Prop :=
  (∀ s, exec .getVersion s = .next { s with boot := { s.boot with responses := s.boot.responses ++ [(0, 0x13)] } }) ∧
  (∀ s, ∃ v u1 u2 u3 u4, u1 = s.boot.responses ++ [(1, v)] ∧ u2 = s.boot.responses ++ [(2, v)] ∧
    u3 = s.boot.responses ++ [(3, v)] ∧ u4 = s.boot.responses ++ [(4, v)] ∧
    exec .getCapabilities s = .next { s.freeVal.2 with boot := { s.boot with responses := u1 } } ∧
    exec .negotiateAlgorithms s = .next { s.freeVal.2 with boot := { s.boot with spdm := 1, responses := u2 } } ∧
    exec .getDigests s = .next { s.freeVal.2 with boot := { s.boot with responses := u3 } } ∧
    exec .getCertificate s = .next { s.freeVal.2 with boot := { s.boot with responses := u4 } }) ∧
  (∀ s, ∃ u v w, exec .challenge s = .next { s.freeVal.2.freeVal.2 with boot := { s.boot with
      responses := s.boot.responses ++ [(5, u), (5, v)] } } ∧
    exec .keyExchange s = .next { s.freeVal.2.freeVal.2 with boot := { s.boot with
      session := 1, responses := s.boot.responses ++ [(7, u), (7, v)] } } ∧
    (measured (s.argN 0) = true → exec .getMeasurements s = .next { s.freeVal.2.freeVal.2.freeVal.2 with boot := { s.boot with
      responses := s.boot.responses ++ [(6, u), (6, v), (6, w)] } }) ∧
    (s.boot.session = 1 → exec .spdmFinish s = .next { s.freeVal.2 with boot := { s.boot with
      session := 2, responses := s.boot.responses ++ [(8, u)] } }) ∧
    (s.boot.session ≠ 0 → exec .endSession s = .next { s.freeVal.2 with boot := { s.boot with
      session := 0, responses := s.boot.responses ++ [(9, u)] } })) ∧
  (∀ s, ((s.tenant (s.argN 0)).tdi = 0 → exec .lockInterfaceRequest s =
      .next (s.modTenant (s.argN 0) (fun t => { t with tdi := 1, locked := true })) ∧ exec .tdiUnlock s = .next s) ∧
    ((s.tenant (s.argN 0)).tdi = 1 → exec .startInterfaceRequest s =
      .next (s.modTenant (s.argN 0) (fun t => { t with tdi := 2 }))) ∧
    ((s.tenant (s.argN 0)).tdi = 1 ∨ (s.tenant (s.argN 0)).tdi = 2 → ∃ u, exec .tdiError s = .next u ∧
      (u.tenant (s.argN 0)).tdi = 3 ∧ u.mem = s.mem) ∧
    ((s.tenant (s.argN 0)).tdi ≠ 0 → ∃ u, exec .tdiUnlock s = .next u ∧ u.tenant (s.argN 0) = { s.tenant (s.argN 0) with
      tdi := 0, locked := false, trapvec := 0, ttroot := 0, savebase := 0, savesize := 0, cvquota := 0, tntctl := 0,
      launches := [], nextLaunch := 0, groups := [], nextGroup := 1, pool := [] })) ∧
  (∀ s, s.boot.stage = 0 → s.boot.err = 0 → exec .powerGood s = .next { s with boot := { s.boot with stage := 3 } } ∧
    exec .railTimeout s = .next (({ s with boot := { s.boot with stage := 1 } } : State).bootFails 1)) ∧
  (∀ s, s.boot.stage = 3 → s.boot.err = 0 →
    (s.argN 1 = s.boot.fuseEd ∧ s.argN 2 = s.boot.fuseMl ∧ s.argN 3 = 1 ∧ s.boot.fuseVer ≤ s.argN 4 →
      exec .firmwareCheck s = .next (({ s with boot := { s.boot with
        images := SMap.set s.boot.images (s.argN 0) (s.argN 4) } } : State).advanceBoot)) ∧
    (s.argN 4 < s.boot.fuseVer → exec .firmwareCheck s = .next { s with boot := { s.boot with
      err := 3, detail := s.argN 0 % 2 ^ 32 } })) ∧
  (∀ s, s.boot.stage = 7 → s.boot.err = 0 →
    (s.argN 0 < 8 ∨ s.argN 1 < 96000000000 → exec .hbmTraining s = .next (s.bootFails 7)) ∧
    (8 ≤ s.argN 0 → 96000000000 ≤ s.argN 1 → ∃ u, exec .hbmTraining s = .next u ∧ u.boot.stage = 8 ∧ u.mem = s.mem ∧
      ∀ d, d < 4 → (u.die d).trained = true)) ∧
  (∀ s, s.boot.stage = 8 → (s.boot.err = 0 →
      exec .cxlLinkUp s = .next { s with boot := { s.boot with stage := 9, rdy := true } }) ∧
    exec .cxlLinkTrainingFail s = .next (s.bootFails 8)) ∧
  (∀ s, (s.boot.stage < 9 → exec .cxlConfigRequest s =
      .next { s with boot := { s.boot with cfgRetry := s.boot.cfgRetry + 1 } }) ∧
    (9 ≤ s.boot.stage → exec .cxlConfigRequest s = .next s)) ∧
  (∀ s, s.argN 0 = 1 → (s.halves.any (fun p => s.lineBusy (lineOfHalf p.1)) = true →
      exec .moduleReset s = .next (s.again .moduleReset)) ∧
    (s.halves.any (fun p => s.lineBusy (lineOfHalf p.1)) = false → ∃ u, exec .moduleReset s = .next u ∧ u.halves = [] ∧
      u.cores = s.cores ∧ u.tenants = s.tenants)) ∧
  (∀ s, s.argN 0 ≠ 1 → ∃ u v, exec .moduleReset s = .next u ∧ exec .powerOverload s = .next v ∧ u.cores = State.reset.cores ∧
    u.clusters = State.reset.clusters ∧ u.tenants = State.reset.tenants ∧ u.cur = none ∧ u.due = State.reset.due ∧
    (∀ a, a < hostBase → s.mem.wf = true → u.mem.byte a = Mem.empty.byte a) ∧
    (s.halves = [] → s.mem.wf = true → ∀ a, hostBase ≤ a → u.mem.byte a = s.mem.byte a) ∧
    ∀ p ∈ v.tenants, p.2.tdi = 3) ∧
  (∀ s, s.ownerOf (s.argN 0) = none → s.clusterIdle (s.argN 0) = true → ∃ u, exec .clusterPowerGate s = .next u ∧
    (u.cluster (s.argN 0)).gated = true) ∧
  (∀ s, (s.ownerOf (s.argN 0) ≠ none ∨ s.clusterIdle (s.argN 0) = false) → exec .clusterPowerGate s = .next s) ∧
  (∀ s, s.argN 0 < 16 → s.arg.nums.drop 1 ≠ [] → (∀ q ∈ s.arg.nums.drop 1, q < 16) → s.mem.wf = true →
    (∀ p ∈ s.tenants, p.1 ≠ s.argN 0 ∧ ∀ q ∈ p.2.quads, q ∉ s.arg.nums.drop 1) →
    ∃ u win, exec .tenantCreated s = .next u ∧ u.tenant (s.argN 0) = { Tenant.reset with
        quads := s.arg.nums.drop 1, window := win } ∧
      (∀ p ∈ win, ∀ a, a / 65536 = p.2 → u.mem.byte a = 0) ∧
      (∀ cl ∈ (s.arg.nums.drop 1).flatMap quadClusters, (u.cluster cl).gated = false) ∧
      ∀ tn, tn ≠ s.argN 0 → u.tenant tn = s.tenant tn)

/-! ### Encoding, stepping, scheduling and the whole machine -/

/-- R14 to R22 with R28 to R34: words written out from the encodings the specification prints decode to the instructions they stand for, whatever
follows them; R27: op6 0, page 7, a second XPAGE, a fifth prefix, a missing XOPD and an illegal field are refused. -/
def Obligations.DecodeWords : Prop :=
  ∀ rest : List Nat,
    decode ([0xF803, 0xFC48, 0x2CE8] ++ rest) =
      .ok (.div ⟨7, 8, 9, false, false, false, true, 0, 0, 0, 3, 0⟩, 3, rest) ∧
    decode ([0xF808, 0xF488, 0xC831] ++ rest) =
      .ok (.strel ⟨22, 17, 0, false, false, false, false, 0, 0, 1, 0, 0⟩, 3, rest) ∧
    decode ([0xF440, 0xB40B] ++ rest) = .ok (.ldl ⟨9, 3, 0, false, false, false, false, 0, 0, 0, 0, 0⟩, 2, rest) ∧
    decode ([0xF803, 0xF480, 0xB862] ++ rest) =
      .ok (.stl ⟨20, 2, 0, false, false, false, false, 0, 1, 0, 3, 0⟩, 3, rest) ∧
    decode ([0xD401] ++ rest) = .ok (.scopeo ⟨0, 0, 0, false, false, false, false, 0, 0, 0, 0, 1⟩, 1, rest) ∧
    decode ([0xF883, 0x0419] ++ rest) = .ok (.bpack ⟨3, 1, 0, false, false, false, false, 0, 0, 0, 3, 0⟩, 2, rest) ∧
    decode ([0xF8C0, 0xFC88, 0x0E90] ++ rest) =
      .ok (.vwsplit ⟨20, 16, 17, false, false, false, true, 0, 0, 0, 0, 0⟩, 3, rest) ∧
    decode ([0xF8C8, 0x60F0] ++ rest) = .ok (.cflush ⟨7, 16, 0, false, false, false, false, 0, 0, 1, 0, 0⟩, 2, rest) ∧
    decode ([0xF948, 0x0690] ++ rest) = .ok (.cpy ⟨20, 16, 0, false, false, false, false, 0, 0, 1, 0, 0⟩, 2, rest) ∧
    decode ([0x0000] ++ rest) = .error .noInstruction ∧
    decode ([0xF9C0, 0x0400] ++ rest) = .error .badPage ∧
    decode ([0xF800, 0xF800, 0x0400] ++ rest) = .error .repeated ∧
    decode ([0xF000, 0xF000, 0xF000, 0xF400, 0xF800, 0x0400] ++ rest) = .error .fifthPrefix ∧
    decode ([0x7800] ++ rest) = .error .missingXopd ∧
    decode ([0xD400] ++ rest) = .error .badField

/-- R14 to R22, R41: every well-formed instruction that has an encoding is read back from it, with its length in parcels, in
front of any parcels. -/
def Obligations.EncodeDecode : Prop :=
  ∀ (i : Instr) (rest : List Nat), WellFormed i = true → i.opc ≠ none →
    decode (encode i ++ rest) = .ok (i, (encode i).length, rest)

/-- R14, R27: a step of the core that has the turn runs exec of the instruction its parcels decode to, in the state in which the
core has issued from the slot and the next address is past the instruction; what does not decode traps ILLOP; a fetched
parcel is the 16 bits at its address, of a page that may be executed; and the turn itself is an event or an issue that the choice has made.
Readings and choices of the model it rests on: log entry 1. -/
def Obligations.StepRunsDecoded : Prop :=
  (∀ (s0 : State) (c k : Nat) (t : Thread) (ps : List Nat), s0.cur = some (c, k) →
    let s := s0.turned c
    s.thread? c k = some t → t.run = .ready → s.boundary c k t = none →
    (t.answer.isSome = true ∨ t.midway = true ∨ s.mustWait c k t = none) → s.fetch c k t = .ok ps →
    (∀ i n rest, decode ps = .ok (i, n, rest) →
      step s0 = (match exec i (s.issued c k (t.pc + 2 * n)) with
        | .next u => .next u.endStep
        | .fault e => .fault e
        | .refused r => .refused r)) ∧
    (∀ e, decode ps = .error e → step s0 = .next (s.raise c k 0x01 (w64 t.pc) 0).endStep)) ∧
  (∀ (s0 : State) (c k : Nat) (t : Thread) (w : Wait), s0.cur = some (c, k) →
    let s := s0.turned c
    s.thread? c k = some t → t.run = .ready → s.boundary c k t = none → t.answer = none → t.midway = false →
    s.mustWait c k t = some w → step s0 = .next (s.parkAfter c k w).endStep) ∧
  (∀ (s : State) (c k : Nat) (t : Thread) (off : Nat),
    ((t.seg 0).limit < off + 2 → s.fetch16 c k t off = .trap 0x04 (w64 off) 0) ∧
    (off + 2 ≤ (t.seg 0).limit → (t.seg 0).has 'X' = false → s.fetch16 c k t off = .trap 0x05 (w64 off) 0) ∧
    (∀ tr, off + 2 ≤ (t.seg 0).limit → (t.seg 0).has 'X' = true → s.pageFor c k t ((t.seg 0).base + off) 3 = .tr tr →
      (s.poisoned tr.pa = true → s.fetch16 c k t off = .trap 0x10 (w64 ((t.seg 0).base + off)) (deferredAux 0 t.pc)) ∧
      (s.poisoned tr.pa = false → s.fetch16 c k t off =
        .ok (bitsOf (s.cohWord c (tr.pa / 8) tr.leaf).v.toNat (8 * (tr.pa % 8) + 15) (8 * (tr.pa % 8)))))) ∧
  (∀ s : State, s.cur = none →
    step s = (match s.choice with
      | .issue c k => .next { s with cur := some (c, k), tick := s.tick + 1 }
      | .event e u => (match exec e.ev u with
        | .next v => .next v.endStep
        | .fault e => .fault e
        | .refused r => .refused r)
      | .idle => .next s.endStep))

/-- R225, R226, R248: an invariant of every step: the core that has the turn is not dead, its slot holds a ready thread, and it
is the slot that the core issues from in this cycle. -/
def Obligations.TurnKept : Prop := ∀ s t : State, step s = .next t → t.TurnOk

/-- R105, R107, R114, R175, R177, R237, R242, R157, R133, R130: the machine after reset, where the turn's invariant holds: the
registers the specification gives a reset value; and a thread as it is admitted. -/
def Obligations.ResetState : Prop :=
  State.reset.TurnOk ∧ State.reset.mem.wf = true ∧
  (∀ c, c < 2048 → let x := State.reset.core c
    x.banks = List.replicate 8 .cache ++ List.replicate 3 .scratch ++ [.fifo] ∧ x.pubWin = 0x60000 ∧ x.fmt = 0x7FFF ∧
    (∀ n, n < 4 → (nthD x.mx n MxReg.reset).full = false) ∧ (∀ n, n < 2 → (x.tile n).owner = none) ∧
    (∀ k, State.reset.thread? c k = none)) ∧
  (∀ cl, cl < 256 → (State.reset.cluster cl).mxwgt = 0x11111111) ∧
  (∀ tn, (State.reset.tenant tn).trapvec = 0 ∧ (State.reset.tenant tn).ttroot = 0 ∧ (State.reset.tenant tn).savebase = 0 ∧
    (State.reset.tenant tn).savesize = 0 ∧ (State.reset.tenant tn).cvquota = 0 ∧ (State.reset.tenant tn).tntctl = 0) ∧
  (∀ (s : State) (c k : Nat) (q : Cont), q.origin ≠ 3 → q.args.length = 4 →
    taskGran q.task + 1 ≤ (s.core c).freeGran.length →
    ∃ (u : State) (t : Thread), s.enrol c k q = u ∧ u.thread? c k = some t ∧ t.fpstat = 0 ∧ t.trap.pk = false ∧
      t.trap.tip = false ∧ (∀ n, n < 8 → t.ptr n = TWord.zero) ∧ t.pc = q.pc ∧ t.priv = q.k ∧ t.task = q.task ∧
      t.reply = q.reply ∧ t.window.length = taskGran q.task + 1 ∧
      ∀ n, n < t.top → u.getG c t n = if 2 ≤ n ∧ n ≤ 5 then nthD q.args (n - 2) TWord.zero else TWord.zero)

/-- R225, R226: the slot a core issues from is ready; outside the share cycle it is of the highest class that has a ready
thread, and comes after the slot last issued from in its class where one does; in the share cycle no ready thread has waited
longer; and a core with a ready thread issues. A core of a deterministic launch takes its bound slots in turn, then slot 63,
whether or not they are ready. -/
def Obligations.IssueOrder : Prop :=
  (∀ (s : State) (c : Nat), s.boundSlots c = none →
    let x := s.core c
    (x.readySlots ≠ [] → s.issueSlot c ≠ none) ∧
    (∀ k, s.issueSlot c = some k →
      (∃ t, s.thread? c k = some t ∧ t.run = .ready ∧
        (s.now % 16 = 15 → ∀ j u, j ∈ x.readySlots → s.thread? c j = some u → t.lastRun ≤ u.lastRun)) ∧
      (s.now % 16 ≠ 15 → (∀ j ∈ x.readySlots, x.classOf j ≤ x.classOf k) ∧
        ((∃ j ∈ x.readySlots, x.classOf j = x.classOf k ∧ nthD x.lastIss (x.classOf k) 63 < j) →
          nthD x.lastIss (x.classOf k) 63 < k)))) ∧
  (∀ (s : State) (c m : Nat), s.boundSlots c = some m →
    let turn := (s.core c).rot % (m + 1)
    s.issueSlot c = some (if turn < m then turn else 63) ∧
    ((s.turned c).core c).rot % (m + 1) = if turn < m then turn + 1 else 0) ∧
  (∀ s : State, ∀ p ∈ s.issuers, (s.core p.1).dead = false ∧ s.issueSlot p.1 = some p.2)

/-- R9, R61 and the canonical form: a memory in canonical form stays so under every write; a read of what was written gives it
back, little-endian; every other byte, word and taint is as before; a narrow store keeps the rest of its word and ORs its
taint in; and memories that read alike are equal. -/
def Obligations.MemoryKept : Prop :=
  (∀ (m : Mem) (a n v : Nat), m.wf = true →
    (m.writeN a n v).wf = true ∧ (m.writeN a n v).readN a n = v % 256 ^ n ∧
    (∀ x, x < a ∨ a + n ≤ x → (m.writeN a n v).byte x = m.byte x) ∧
    (∀ j, j < n → ((m.writeN a n v).byte (a + j)).toNat = v / 256 ^ j % 256)) ∧
  (∀ (m : Mem) (w : Nat) (v : TWord), m.wf = true →
    (m.setWord w v).wf = true ∧ (m.setWord w v).word w = v ∧ (∀ x, x ≠ w → (m.setWord w v).word x = m.word x)) ∧
  (∀ (m : Mem) (a n : Nat) (v : TWord), m.wf = true → (m.store a n v).wf = true ∧
    (∀ x, x / 8 ≠ a / 8 → (m.store a n v).byte x = m.byte x)) ∧
  (∀ (old v : TWord) (o size : Nat), o + size ≤ 8 → size < 8 →
    (storeInto old o size v).t = (old.t || v.t) ∧
    ∀ j, j < 8 → (storeInto old o size v).v.toNat / 256 ^ j % 256 =
      if o ≤ j ∧ j < o + size then v.v.toNat / 256 ^ (j - o) % 256 else old.v.toNat / 256 ^ j % 256) ∧
  (∀ m n : Mem, m.wf = true → n.wf = true → (∀ a, m.byte a = n.byte a) → (∀ w, m.tainted w = n.tainted w) →
    (∀ l, m.poisoned l = n.poisoned l) → m = n)

/-- R23, R24, R27, R113: the checks before an instruction, in order: an instruction outside an open window waits; then PRIV, MOVEONLY, REGRANGE for
the first register past the window, LAHAZ for the first pending one; and every instruction whose checks trap takes that trap
at its own address, whose checks wait waits, with no other effect. -/
def Obligations.Prechecks : Prop :=
  (∀ (i : Instr) (s : State) (c k : Nat) (t : Thread), i.form ≠ none → s.current = some (c, k, t) → t.answer = none →
    (∀ code addr aux, s.precheck i c k t = .trap code addr aux →
      exec i s = .next ((s.clearAborts i c k code).raise c k code addr aux)) ∧
    (∀ w, s.precheck i c k t = .wait w → exec i s = .next ((s.askCredits c i.specialWrites).park c k w))) ∧
  (∀ (i : Instr) (s : State) (c k : Nat) (t : Thread),
    let dbg := decide ((s.tenant t.tenant).tntctl.bits 1 1 = 1)
    let regs := i.named (!t.frames.isEmpty || decide (t.deleg ≠ none))
    ((∃ o ∈ t.ops, o.left = 0) → s.precheck i c k t = .wait .window) ∧
    ((∀ o ∈ t.ops, o.left ≠ 0) →
      (i.mayRun t.priv dbg = false → s.precheck i c k t = .trap 0x12 (w64 t.pc) 0) ∧
      (i.mayRun t.priv dbg = true → i.wrongSlot k = true → s.precheck i c k t = .trap 0x15 (w64 t.pc) 0) ∧
      (i.mayRun t.priv dbg = true → i.wrongSlot k = false → (∃ n ∈ regs, t.top ≤ n) →
        ∃ n ∈ regs, t.top ≤ n ∧ s.precheck i c k t = .trap 0x03 (w64 t.pc) (w64 n)) ∧
      (i.mayRun t.priv dbg = true → i.wrongSlot k = false → (∀ n ∈ regs, n < t.top) →
        (∃ n ∈ regs, n ≠ 0 ∧ ∃ o ∈ t.ops, n ∈ o.pend) →
        ∃ n ∈ regs, n ≠ 0 ∧ (∃ o ∈ t.ops, n ∈ o.pend) ∧ s.precheck i c k t = .trap 0x02 (w64 t.pc) (w64 n))))

/-- R152: DIV and REM complete, they never trap, and their corner cases give the results of the table. -/
def Obligations.DivisionTable : Prop :=
  (∀ f s c k t, plainFields f → Goes (.div f) s c k t → exec (.div f) s = .next (s.wrote c k t f.d
    ⟨divW f (s.opX c t f).v (s.opY c t f).v, (s.opX c t f).t || (s.opY c t f).t⟩ s.next)) ∧
  (∀ f s c k t, plainFields f → Goes (.rem f) s c k t → exec (.rem f) s = .next (s.wrote c k t f.d
    ⟨remW f (s.opX c t f).v (s.opY c t f).v, (s.opX c t f).t || (s.opY c t f).t⟩ s.next)) ∧
  ∀ (f : Fields) (x y : Word),
    (red149 f y = 0 → divW f x y = 0xFFFFFFFFFFFFFFFF ∧ remW f x y = res149 f (red149 f x)) ∧
    (modU f = false → modW f = false → x = 0x8000000000000000 → y = 0xFFFFFFFFFFFFFFFF →
      divW f x y = 0x8000000000000000 ∧ remW f x y = 0) ∧
    (modU f = false → modW f = true → x.setWidth 32 = 0x80000000#32 → y.setWidth 32 = 0xFFFFFFFF#32 →
      divW f x y = 0xFFFFFFFF80000000 ∧ remW f x y = 0) ∧
    (modU f = true → modW f = true → x.setWidth 32 = 0xFFFFFFFF#32 → y.setWidth 32 = 1#32 →
      divW f x y = 0xFFFFFFFFFFFFFFFF ∧ remW f x y = 0) ∧
    (modU f = false → red149 f x = -7 → red149 f y = 2 → divW f x y = -3 ∧ remW f x y = -1) ∧
    (modU f = true → modW f = false → x = -7 → y = 2 → divW f x y = 0x7FFFFFFFFFFFFFFC ∧ remW f x y = 1)
end

