-- ==== Sys2Proof/Laws/Dispatch.lean ====
section
/-!
SUPPORT. Sys2Proof/Laws/Dispatch.lean: the meaning of each instruction, one equation per constructor.
-/
namespace Sys2Proof.Machine
open Sys2Proof

@[simp] theorem exec_nop (f : Fields) (s : State) : exec (.nop f) s = execNop f s := rfl
@[simp] theorem exec_mov (f : Fields) (s : State) : exec (.mov f) s = execMov f s := rfl
@[simp] theorem exec_movk (f : Fields) (s : State) : exec (.movk f) s = execMovk f s := rfl
@[simp] theorem exec_movkh (f : Fields) (s : State) : exec (.movkh f) s = execMovkh f s := rfl
@[simp] theorem exec_add (f : Fields) (s : State) : exec (.add f) s = execAdd f s := rfl
@[simp] theorem exec_sub (f : Fields) (s : State) : exec (.sub f) s = execSub f s := rfl
@[simp] theorem exec_addk (f : Fields) (s : State) : exec (.addk f) s = execAddk f s := rfl
@[simp] theorem exec_neg (f : Fields) (s : State) : exec (.neg f) s = execNeg f s := rfl
@[simp] theorem exec_mul (f : Fields) (s : State) : exec (.mul f) s = execMul f s := rfl
@[simp] theorem exec_mulh (f : Fields) (s : State) : exec (.mulh f) s = execMulh f s := rfl
@[simp] theorem exec_div (f : Fields) (s : State) : exec (.div f) s = execDiv f s := rfl
@[simp] theorem exec_rem (f : Fields) (s : State) : exec (.rem f) s = execRem f s := rfl
@[simp] theorem exec_andOp (f : Fields) (s : State) : exec (.andOp f) s = execAndOp f s := rfl
@[simp] theorem exec_orOp (f : Fields) (s : State) : exec (.orOp f) s = execOrOp f s := rfl
@[simp] theorem exec_xor (f : Fields) (s : State) : exec (.xor f) s = execXor f s := rfl
@[simp] theorem exec_andn (f : Fields) (s : State) : exec (.andn f) s = execAndn f s := rfl
@[simp] theorem exec_notOp (f : Fields) (s : State) : exec (.notOp f) s = execNotOp f s := rfl
@[simp] theorem exec_shl (f : Fields) (s : State) : exec (.shl f) s = execShl f s := rfl
@[simp] theorem exec_shr (f : Fields) (s : State) : exec (.shr f) s = execShr f s := rfl
@[simp] theorem exec_sar (f : Fields) (s : State) : exec (.sar f) s = execSar f s := rfl
@[simp] theorem exec_shlk (f : Fields) (s : State) : exec (.shlk f) s = execShlk f s := rfl
@[simp] theorem exec_shrk (f : Fields) (s : State) : exec (.shrk f) s = execShrk f s := rfl
@[simp] theorem exec_sark (f : Fields) (s : State) : exec (.sark f) s = execSark f s := rfl
@[simp] theorem exec_minOp (f : Fields) (s : State) : exec (.minOp f) s = execMinOp f s := rfl
@[simp] theorem exec_maxOp (f : Fields) (s : State) : exec (.maxOp f) s = execMaxOp f s := rfl
@[simp] theorem exec_cmpeq (f : Fields) (s : State) : exec (.cmpeq f) s = execCmpeq f s := rfl
@[simp] theorem exec_cmpne (f : Fields) (s : State) : exec (.cmpne f) s = execCmpne f s := rfl
@[simp] theorem exec_cmplt (f : Fields) (s : State) : exec (.cmplt f) s = execCmplt f s := rfl
@[simp] theorem exec_cmple (f : Fields) (s : State) : exec (.cmple f) s = execCmple f s := rfl
@[simp] theorem exec_sel (f : Fields) (s : State) : exec (.sel f) s = execSel f s := rfl
@[simp] theorem exec_clz (f : Fields) (s : State) : exec (.clz f) s = execClz f s := rfl
@[simp] theorem exec_popc (f : Fields) (s : State) : exec (.popc f) s = execPopc f s := rfl
@[simp] theorem exec_bfx (f : Fields) (s : State) : exec (.bfx f) s = execBfx f s := rfl
@[simp] theorem exec_bfi (f : Fields) (s : State) : exec (.bfi f) s = execBfi f s := rfl
@[simp] theorem exec_sext (f : Fields) (s : State) : exec (.sext f) s = execSext f s := rfl
@[simp] theorem exec_br (f : Fields) (s : State) : exec (.br f) s = execBr f s := rfl
@[simp] theorem exec_call (f : Fields) (s : State) : exec (.call f) s = execCall f s := rfl
@[simp] theorem exec_jr (f : Fields) (s : State) : exec (.jr f) s = execJr f s := rfl
@[simp] theorem exec_bz (f : Fields) (s : State) : exec (.bz f) s = execBz f s := rfl
@[simp] theorem exec_bnz (f : Fields) (s : State) : exec (.bnz f) s = execBnz f s := rfl
@[simp] theorem exec_bltz (f : Fields) (s : State) : exec (.bltz f) s = execBltz f s := rfl
@[simp] theorem exec_bgez (f : Fields) (s : State) : exec (.bgez f) s = execBgez f s := rfl
@[simp] theorem exec_ldg (f : Fields) (s : State) : exec (.ldg f) s = execLdg f s := rfl
@[simp] theorem exec_stg (f : Fields) (s : State) : exec (.stg f) s = execStg f s := rfl
@[simp] theorem exec_ldl (f : Fields) (s : State) : exec (.ldl f) s = execLdl f s := rfl
@[simp] theorem exec_stl (f : Fields) (s : State) : exec (.stl f) s = execStl f s := rfl
@[simp] theorem exec_ldlp (f : Fields) (s : State) : exec (.ldlp f) s = execLdlp f s := rfl
@[simp] theorem exec_stlp (f : Fields) (s : State) : exec (.stlp f) s = execStlp f s := rfl
@[simp] theorem exec_ldacq (f : Fields) (s : State) : exec (.ldacq f) s = execLdacq f s := rfl
@[simp] theorem exec_strel (f : Fields) (s : State) : exec (.strel f) s = execStrel f s := rfl
@[simp] theorem exec_fence (f : Fields) (s : State) : exec (.fence f) s = execFence f s := rfl
@[simp] theorem exec_fenceX (f : Fields) (s : State) : exec (.fenceX f) s = execFenceX f s := rfl
@[simp] theorem exec_fenceA (f : Fields) (s : State) : exec (.fenceA f) s = execFenceA f s := rfl
@[simp] theorem exec_fenceS (f : Fields) (s : State) : exec (.fenceS f) s = execFenceS f s := rfl
@[simp] theorem exec_pref (f : Fields) (s : State) : exec (.pref f) s = execPref f s := rfl
@[simp] theorem exec_scopeo (f : Fields) (s : State) : exec (.scopeo f) s = execScopeo f s := rfl
@[simp] theorem exec_scopec (f : Fields) (s : State) : exec (.scopec f) s = execScopec f s := rfl
@[simp] theorem exec_pset (f : Fields) (s : State) : exec (.pset f) s = execPset f s := rfl
@[simp] theorem exec_pget (f : Fields) (s : State) : exec (.pget f) s = execPget f s := rfl
@[simp] theorem exec_padd (f : Fields) (s : State) : exec (.padd f) s = execPadd f s := rfl
@[simp] theorem exec_vadd (f : Fields) (s : State) : exec (.vadd f) s = execVadd f s := rfl
@[simp] theorem exec_vsub (f : Fields) (s : State) : exec (.vsub f) s = execVsub f s := rfl
@[simp] theorem exec_vmul (f : Fields) (s : State) : exec (.vmul f) s = execVmul f s := rfl
@[simp] theorem exec_vfma (f : Fields) (s : State) : exec (.vfma f) s = execVfma f s := rfl
@[simp] theorem exec_vmin (f : Fields) (s : State) : exec (.vmin f) s = execVmin f s := rfl
@[simp] theorem exec_vmax (f : Fields) (s : State) : exec (.vmax f) s = execVmax f s := rfl
@[simp] theorem exec_vabs (f : Fields) (s : State) : exec (.vabs f) s = execVabs f s := rfl
@[simp] theorem exec_vneg (f : Fields) (s : State) : exec (.vneg f) s = execVneg f s := rfl
@[simp] theorem exec_vrcp (f : Fields) (s : State) : exec (.vrcp f) s = execVrcp f s := rfl
@[simp] theorem exec_vrsq (f : Fields) (s : State) : exec (.vrsq f) s = execVrsq f s := rfl
@[simp] theorem exec_vexp2 (f : Fields) (s : State) : exec (.vexp2 f) s = execVexp2 f s := rfl
@[simp] theorem exec_vlog2 (f : Fields) (s : State) : exec (.vlog2 f) s = execVlog2 f s := rfl
@[simp] theorem exec_vcvt (f : Fields) (s : State) : exec (.vcvt f) s = execVcvt f s := rfl
@[simp] theorem exec_vcmp (f : Fields) (s : State) : exec (.vcmp f) s = execVcmp f s := rfl
@[simp] theorem exec_vsel (f : Fields) (s : State) : exec (.vsel f) s = execVsel f s := rfl
@[simp] theorem exec_vradd (f : Fields) (s : State) : exec (.vradd f) s = execVradd f s := rfl
@[simp] theorem exec_vrmax (f : Fields) (s : State) : exec (.vrmax f) s = execVrmax f s := rfl
@[simp] theorem exec_vbcst (f : Fields) (s : State) : exec (.vbcst f) s = execVbcst f s := rfl
@[simp] theorem exec_vlane (f : Fields) (s : State) : exec (.vlane f) s = execVlane f s := rfl
@[simp] theorem exec_vperm (f : Fields) (s : State) : exec (.vperm f) s = execVperm f s := rfl
@[simp] theorem exec_vand (f : Fields) (s : State) : exec (.vand f) s = execVand f s := rfl
@[simp] theorem exec_vor (f : Fields) (s : State) : exec (.vor f) s = execVor f s := rfl
@[simp] theorem exec_vxor (f : Fields) (s : State) : exec (.vxor f) s = execVxor f s := rfl
@[simp] theorem exec_vshl (f : Fields) (s : State) : exec (.vshl f) s = execVshl f s := rfl
@[simp] theorem exec_vshr (f : Fields) (s : State) : exec (.vshr f) s = execVshr f s := rfl
@[simp] theorem exec_vldl (f : Fields) (s : State) : exec (.vldl f) s = execVldl f s := rfl
@[simp] theorem exec_vstl (f : Fields) (s : State) : exec (.vstl f) s = execVstl f s := rfl
@[simp] theorem exec_vldg (f : Fields) (s : State) : exec (.vldg f) s = execVldg f s := rfl
@[simp] theorem exec_vstg (f : Fields) (s : State) : exec (.vstg f) s = execVstg f s := rfl
@[simp] theorem exec_vgath (f : Fields) (s : State) : exec (.vgath f) s = execVgath f s := rfl
@[simp] theorem exec_vscat (f : Fields) (s : State) : exec (.vscat f) s = execVscat f s := rfl
@[simp] theorem exec_vscale (f : Fields) (s : State) : exec (.vscale f) s = execVscale f s := rfl
@[simp] theorem exec_vclamp (f : Fields) (s : State) : exec (.vclamp f) s = execVclamp f s := rfl
@[simp] theorem exec_fadd (f : Fields) (s : State) : exec (.fadd f) s = execFadd f s := rfl
@[simp] theorem exec_fsub (f : Fields) (s : State) : exec (.fsub f) s = execFsub f s := rfl
@[simp] theorem exec_fmul (f : Fields) (s : State) : exec (.fmul f) s = execFmul f s := rfl
@[simp] theorem exec_ffma (f : Fields) (s : State) : exec (.ffma f) s = execFfma f s := rfl
@[simp] theorem exec_fmin (f : Fields) (s : State) : exec (.fmin f) s = execFmin f s := rfl
@[simp] theorem exec_fmax (f : Fields) (s : State) : exec (.fmax f) s = execFmax f s := rfl
@[simp] theorem exec_fcmp (f : Fields) (s : State) : exec (.fcmp f) s = execFcmp f s := rfl
@[simp] theorem exec_fcvt (f : Fields) (s : State) : exec (.fcvt f) s = execFcvt f s := rfl
@[simp] theorem exec_frcp (f : Fields) (s : State) : exec (.frcp f) s = execFrcp f s := rfl
@[simp] theorem exec_frsq (f : Fields) (s : State) : exec (.frsq f) s = execFrsq f s := rfl
@[simp] theorem exec_bpack (f : Fields) (s : State) : exec (.bpack f) s = execBpack f s := rfl
@[simp] theorem exec_bunpk (f : Fields) (s : State) : exec (.bunpk f) s = execBunpk f s := rfl
@[simp] theorem exec_plxp (f : Fields) (s : State) : exec (.plxp f) s = execPlxp f s := rfl
@[simp] theorem exec_pldot (f : Fields) (s : State) : exec (.pldot f) s = execPldot f s := rfl
@[simp] theorem exec_mfmt (f : Fields) (s : State) : exec (.mfmt f) s = execMfmt f s := rfl
@[simp] theorem exec_mzero (f : Fields) (s : State) : exec (.mzero f) s = execMzero f s := rfl
@[simp] theorem exec_mma (f : Fields) (s : State) : exec (.mma f) s = execMma f s := rfl
@[simp] theorem exec_mstore (f : Fields) (s : State) : exec (.mstore f) s = execMstore f s := rfl
@[simp] theorem exec_mstat (f : Fields) (s : State) : exec (.mstat f) s = execMstat f s := rfl
@[simp] theorem exec_mtest (f : Fields) (s : State) : exec (.mtest f) s = execMtest f s := rfl
@[simp] theorem exec_mfree (f : Fields) (s : State) : exec (.mfree f) s = execMfree f s := rfl
@[simp] theorem exec_vwnew (f : Fields) (s : State) : exec (.vwnew f) s = execVwnew f s := rfl
@[simp] theorem exec_vwdup (f : Fields) (s : State) : exec (.vwdup f) s = execVwdup f s := rfl
@[simp] theorem exec_vwsplit (f : Fields) (s : State) : exec (.vwsplit f) s = execVwsplit f s := rfl
@[simp] theorem exec_vwnarrow (f : Fields) (s : State) : exec (.vwnarrow f) s = execVwnarrow f s := rfl
@[simp] theorem exec_vwdrop (f : Fields) (s : State) : exec (.vwdrop f) s = execVwdrop f s := rfl
@[simp] theorem exec_vwinfo (f : Fields) (s : State) : exec (.vwinfo f) s = execVwinfo f s := rfl
@[simp] theorem exec_ldv (f : Fields) (s : State) : exec (.ldv f) s = execLdv f s := rfl
@[simp] theorem exec_stv (f : Fields) (s : State) : exec (.stv f) s = execStv f s := rfl
@[simp] theorem exec_sanew (f : Fields) (s : State) : exec (.sanew f) s = execSanew f s := rfl
@[simp] theorem exec_saadd (f : Fields) (s : State) : exec (.saadd f) s = execSaadd f s := rfl
@[simp] theorem exec_saread (f : Fields) (s : State) : exec (.saread f) s = execSaread f s := rfl
@[simp] theorem exec_sainfo (f : Fields) (s : State) : exec (.sainfo f) s = execSainfo f s := rfl
@[simp] theorem exec_saevict (f : Fields) (s : State) : exec (.saevict f) s = execSaevict f s := rfl
@[simp] theorem exec_safree (f : Fields) (s : State) : exec (.safree f) s = execSafree f s := rfl
@[simp] theorem exec_amoadd (f : Fields) (s : State) : exec (.amoadd f) s = execAmoadd f s := rfl
@[simp] theorem exec_amoand (f : Fields) (s : State) : exec (.amoand f) s = execAmoand f s := rfl
@[simp] theorem exec_amoor (f : Fields) (s : State) : exec (.amoor f) s = execAmoor f s := rfl
@[simp] theorem exec_amoxor (f : Fields) (s : State) : exec (.amoxor f) s = execAmoxor f s := rfl
@[simp] theorem exec_amomin (f : Fields) (s : State) : exec (.amomin f) s = execAmomin f s := rfl
@[simp] theorem exec_amomax (f : Fields) (s : State) : exec (.amomax f) s = execAmomax f s := rfl
@[simp] theorem exec_amoswap (f : Fields) (s : State) : exec (.amoswap f) s = execAmoswap f s := rfl
@[simp] theorem exec_amocas (f : Fields) (s : State) : exec (.amocas f) s = execAmocas f s := rfl
@[simp] theorem exec_amofadd (f : Fields) (s : State) : exec (.amofadd f) s = execAmofadd f s := rfl
@[simp] theorem exec_cflush (f : Fields) (s : State) : exec (.cflush f) s = execCflush f s := rfl
@[simp] theorem exec_cinv (f : Fields) (s : State) : exec (.cinv f) s = execCinv f s := rfl
@[simp] theorem exec_pghot (f : Fields) (s : State) : exec (.pghot f) s = execPghot f s := rfl
@[simp] theorem exec_pgmig (f : Fields) (s : State) : exec (.pgmig f) s = execPgmig f s := rfl
@[simp] theorem exec_xlate (f : Fields) (s : State) : exec (.xlate f) s = execXlate f s := rfl
@[simp] theorem exec_setcoh (f : Fields) (s : State) : exec (.setcoh f) s = execSetcoh f s := rfl
@[simp] theorem exec_spawn (f : Fields) (s : State) : exec (.spawn f) s = execSpawn f s := rfl
@[simp] theorem exec_yield (f : Fields) (s : State) : exec (.yield f) s = execYield f s := rfl
@[simp] theorem exec_exit (f : Fields) (s : State) : exec (.exit f) s = execExit f s := rfl
@[simp] theorem exec_tid (f : Fields) (s : State) : exec (.tid f) s = execTid f s := rfl
@[simp] theorem exec_join (f : Fields) (s : State) : exec (.join f) s = execJoin f s := rfl
@[simp] theorem exec_leave (f : Fields) (s : State) : exec (.leave f) s = execLeave f s := rfl
@[simp] theorem exec_grpinfo (f : Fields) (s : State) : exec (.grpinfo f) s = execGrpinfo f s := rfl
@[simp] theorem exec_syinit (f : Fields) (s : State) : exec (.syinit f) s = execSyinit f s := rfl
@[simp] theorem exec_syacq (f : Fields) (s : State) : exec (.syacq f) s = execSyacq f s := rfl
@[simp] theorem exec_sytry (f : Fields) (s : State) : exec (.sytry f) s = execSytry f s := rfl
@[simp] theorem exec_syrel (f : Fields) (s : State) : exec (.syrel f) s = execSyrel f s := rfl
@[simp] theorem exec_sydlg (f : Fields) (s : State) : exec (.sydlg f) s = execSydlg f s := rfl
@[simp] theorem exec_syarv (f : Fields) (s : State) : exec (.syarv f) s = execSyarv f s := rfl
@[simp] theorem exec_sywait (f : Fields) (s : State) : exec (.sywait f) s = execSywait f s := rfl
@[simp] theorem exec_symode (f : Fields) (s : State) : exec (.symode f) s = execSymode f s := rfl
@[simp] theorem exec_hbarv (f : Fields) (s : State) : exec (.hbarv f) s = execHbarv f s := rfl
@[simp] theorem exec_hbwait (f : Fields) (s : State) : exec (.hbwait f) s = execHbwait f s := rfl
@[simp] theorem exec_hbcfg (f : Fields) (s : State) : exec (.hbcfg f) s = execHbcfg f s := rfl
@[simp] theorem exec_cpy (f : Fields) (s : State) : exec (.cpy f) s = execCpy f s := rfl
@[simp] theorem exec_cpy2d (f : Fields) (s : State) : exec (.cpy2d f) s = execCpy2d f s := rfl
@[simp] theorem exec_cpyq (f : Fields) (s : State) : exec (.cpyq f) s = execCpyq f s := rfl
@[simp] theorem exec_sdesc (f : Fields) (s : State) : exec (.sdesc f) s = execSdesc f s := rfl
@[simp] theorem exec_sdstop (f : Fields) (s : State) : exec (.sdstop f) s = execSdstop f s := rfl
@[simp] theorem exec_swinit (f : Fields) (s : State) : exec (.swinit f) s = execSwinit f s := rfl
@[simp] theorem exec_swwait (f : Fields) (s : State) : exec (.swwait f) s = execSwwait f s := rfl
@[simp] theorem exec_qcfg (f : Fields) (s : State) : exec (.qcfg f) s = execQcfg f s := rfl
@[simp] theorem exec_qstat (f : Fields) (s : State) : exec (.qstat f) s = execQstat f s := rfl
@[simp] theorem exec_nopen (f : Fields) (s : State) : exec (.nopen f) s = execNopen f s := rfl
@[simp] theorem exec_nsende (f : Fields) (s : State) : exec (.nsende f) s = execNsende f s := rfl
@[simp] theorem exec_nstat (f : Fields) (s : State) : exec (.nstat f) s = execNstat f s := rfl
@[simp] theorem exec_waitm (f : Fields) (s : State) : exec (.waitm f) s = execWaitm f s := rfl
@[simp] theorem exec_msgrd (f : Fields) (s : State) : exec (.msgrd f) s = execMsgrd f s := rfl
@[simp] theorem exec_msgsend (f : Fields) (s : State) : exec (.msgsend f) s = execMsgsend f s := rfl
@[simp] theorem exec_msgcnt (f : Fields) (s : State) : exec (.msgcnt f) s = execMsgcnt f s := rfl
@[simp] theorem exec_bkmode (f : Fields) (s : State) : exec (.bkmode f) s = execBkmode f s := rfl
@[simp] theorem exec_bkinfo (f : Fields) (s : State) : exec (.bkinfo f) s = execBkinfo f s := rfl
@[simp] theorem exec_trap (f : Fields) (s : State) : exec (.trap f) s = execTrap f s := rfl
@[simp] theorem exec_rett (f : Fields) (s : State) : exec (.rett f) s = execRett f s := rfl
@[simp] theorem exec_rdsr (f : Fields) (s : State) : exec (.rdsr f) s = execRdsr f s := rfl
@[simp] theorem exec_wrsr (f : Fields) (s : State) : exec (.wrsr f) s = execWrsr f s := rfl
@[simp] theorem exec_segld (f : Fields) (s : State) : exec (.segld f) s = execSegld f s := rfl
@[simp] theorem exec_segrd (f : Fields) (s : State) : exec (.segrd f) s = execSegrd f s := rfl
@[simp] theorem exec_ctxsv (f : Fields) (s : State) : exec (.ctxsv f) s = execCtxsv f s := rfl
@[simp] theorem exec_ctxld (f : Fields) (s : State) : exec (.ctxld f) s = execCtxld f s := rfl
@[simp] theorem exec_brk (f : Fields) (s : State) : exec (.brk f) s = execBrk f s := rfl
@[simp] theorem exec_tntrd (f : Fields) (s : State) : exec (.tntrd f) s = execTntrd f s := rfl
@[simp] theorem exec_tntclr (f : Fields) (s : State) : exec (.tntclr f) s = execTntclr f s := rfl
@[simp] theorem exec_perfrd (f : Fields) (s : State) : exec (.perfrd f) s = execPerfrd f s := rfl
@[simp] theorem exec_svcall (f : Fields) (s : State) : exec (.svcall f) s = execSvcall f s := rfl
@[simp] theorem exec_pghash (f : Fields) (s : State) : exec (.pghash f) s = execPghash f s := rfl
@[simp] theorem exec_longLatencyComplete (s : State) : exec .longLatencyComplete s = execLongLatencyComplete s := rfl
@[simp] theorem exec_instructionWake (s : State) : exec .instructionWake s = execInstructionWake s := rfl
@[simp] theorem exec_trapDelivery (s : State) : exec .trapDelivery s = execTrapDelivery s := rfl
@[simp] theorem exec_deferredTrap (s : State) : exec .deferredTrap s = execDeferredTrap s := rfl
@[simp] theorem exec_storeBufferDrain (s : State) : exec .storeBufferDrain s = execStoreBufferDrain s := rfl
@[simp] theorem exec_storeRegistration (s : State) : exec .storeRegistration s = execStoreRegistration s := rfl
@[simp] theorem exec_registrationAck (s : State) : exec .registrationAck s = execRegistrationAck s := rfl
@[simp] theorem exec_recallWord (s : State) : exec .recallWord s = execRecallWord s := rfl
@[simp] theorem exec_recallAnswer (s : State) : exec .recallAnswer s = execRecallAnswer s := rfl
@[simp] theorem exec_registrantWriteBack (s : State) : exec .registrantWriteBack s = execRegistrantWriteBack s := rfl
@[simp] theorem exec_forwardedLoad (s : State) : exec .forwardedLoad s = execForwardedLoad s := rfl
@[simp] theorem exec_l2Request (s : State) : exec .l2Request s = execL2Request s := rfl
@[simp] theorem exec_hbmFill (s : State) : exec .hbmFill s = execHbmFill s := rfl
@[simp] theorem exec_gets (s : State) : exec .gets s = execGets s := rfl
@[simp] theorem exec_getm (s : State) : exec .getm s = execGetm s := rfl
@[simp] theorem exec_evictionNotice (s : State) : exec .evictionNotice s = execEvictionNotice s := rfl
@[simp] theorem exec_inv (s : State) : exec .inv s = execInv s := rfl
@[simp] theorem exec_invAck (s : State) : exec .invAck s = execInvAck s := rfl
@[simp] theorem exec_evack (s : State) : exec .evack s = execEvack s := rfl
@[simp] theorem exec_ownerRecall (s : State) : exec .ownerRecall s = execOwnerRecall s := rfl
@[simp] theorem exec_ownerRecallAnswer (s : State) : exec .ownerRecallAnswer s = execOwnerRecallAnswer s := rfl
@[simp] theorem exec_ownershipGrant (s : State) : exec .ownershipGrant s = execOwnershipGrant s := rfl
@[simp] theorem exec_leaseHeartbeat (s : State) : exec .leaseHeartbeat s = execLeaseHeartbeat s := rfl
@[simp] theorem exec_leaseExpiry (s : State) : exec .leaseExpiry s = execLeaseExpiry s := rfl
@[simp] theorem exec_leasecheck (s : State) : exec .leasecheck s = execLeasecheck s := rfl
@[simp] theorem exec_leasecheckTimeout (s : State) : exec .leasecheckTimeout s = execLeasecheckTimeout s := rfl
@[simp] theorem exec_hostHalfRequest (s : State) : exec .hostHalfRequest s = execHostHalfRequest s := rfl
@[simp] theorem exec_hostHalfResponse (s : State) : exec .hostHalfResponse s = execHostHalfResponse s := rfl
@[simp] theorem exec_bridgeEntryFreed (s : State) : exec .bridgeEntryFreed s = execBridgeEntryFreed s := rfl
@[simp] theorem exec_hostSnoop (s : State) : exec .hostSnoop s = execHostSnoop s := rfl
@[simp] theorem exec_wcDrainTimeout (s : State) : exec .wcDrainTimeout s = execWcDrainTimeout s := rfl
@[simp] theorem exec_wcDrain (s : State) : exec .wcDrain s = execWcDrain s := rfl
@[simp] theorem exec_walkStart (s : State) : exec .walkStart s = execWalkStart s := rfl
@[simp] theorem exec_pageWalkDone (s : State) : exec .pageWalkDone s = execPageWalkDone s := rfl
@[simp] theorem exec_pfrespWrite (s : State) : exec .pfrespWrite s = execPfrespWrite s := rfl
@[simp] theorem exec_xinvWrite (s : State) : exec .xinvWrite s = execXinvWrite s := rfl
@[simp] theorem exec_atsInvalidation (s : State) : exec .atsInvalidation s = execAtsInvalidation s := rfl
@[simp] theorem exec_migrationCopy (s : State) : exec .migrationCopy s = execMigrationCopy s := rfl
@[simp] theorem exec_migrationDrainDone (s : State) : exec .migrationDrainDone s = execMigrationDrainDone s := rfl
@[simp] theorem exec_poisonDetected (s : State) : exec .poisonDetected s = execPoisonDetected s := rfl
@[simp] theorem exec_softErrorCorrected (s : State) : exec .softErrorCorrected s = execSoftErrorCorrected s := rfl
@[simp] theorem exec_apexWindowShrink (s : State) : exec .apexWindowShrink s = execApexWindowShrink s := rfl
@[simp] theorem exec_viewOpRequest (s : State) : exec .viewOpRequest s = execViewOpRequest s := rfl
@[simp] theorem exec_viewCacheFetch (s : State) : exec .viewCacheFetch s = execViewCacheFetch s := rfl
@[simp] theorem exec_viewInvalidate (s : State) : exec .viewInvalidate s = execViewInvalidate s := rfl
@[simp] theorem exec_granuleFreeStart (s : State) : exec .granuleFreeStart s = execGranuleFreeStart s := rfl
@[simp] theorem exec_granuleDrainDone (s : State) : exec .granuleDrainDone s = execGranuleDrainDone s := rfl
@[simp] theorem exec_tuCommandAccept (s : State) : exec .tuCommandAccept s = execTuCommandAccept s := rfl
@[simp] theorem exec_tuLineTransfer (s : State) : exec .tuLineTransfer s = execTuLineTransfer s := rfl
@[simp] theorem exec_syncWordCount (s : State) : exec .syncWordCount s = execSyncWordCount s := rfl
@[simp] theorem exec_cpyqPush (s : State) : exec .cpyqPush s = execCpyqPush s := rfl
@[simp] theorem exec_copydone (s : State) : exec .copydone s = execCopydone s := rfl
@[simp] theorem exec_prefetchIssue (s : State) : exec .prefetchIssue s = execPrefetchIssue s := rfl
@[simp] theorem exec_messageDepart (s : State) : exec .messageDepart s = execMessageDepart s := rfl
@[simp] theorem exec_messageArrival (s : State) : exec .messageArrival s = execMessageArrival s := rfl
@[simp] theorem exec_mxWriteWait (s : State) : exec .mxWriteWait s = execMxWriteWait s := rfl
@[simp] theorem exec_creditRequest (s : State) : exec .creditRequest s = execCreditRequest s := rfl
@[simp] theorem exec_creditGrant (s : State) : exec .creditGrant s = execCreditGrant s := rfl
@[simp] theorem exec_queueWordArrival (s : State) : exec .queueWordArrival s = execQueueWordArrival s := rfl
@[simp] theorem exec_streamWordArrival (s : State) : exec .streamWordArrival s = execStreamWordArrival s := rfl
@[simp] theorem exec_streamForceClose (s : State) : exec .streamForceClose s = execStreamForceClose s := rfl
@[simp] theorem exec_scopeSpaceGrant (s : State) : exec .scopeSpaceGrant s = execScopeSpaceGrant s := rfl
@[simp] theorem exec_latticeCommandStart (s : State) : exec .latticeCommandStart s = execLatticeCommandStart s := rfl
@[simp] theorem exec_tileFetchLine (s : State) : exec .tileFetchLine s = execTileFetchLine s := rfl
@[simp] theorem exec_planePairExecute (s : State) : exec .planePairExecute s = execPlanePairExecute s := rfl
@[simp] theorem exec_mxdone (s : State) : exec .mxdone s = execMxdone s := rfl
@[simp] theorem exec_tileEccError (s : State) : exec .tileEccError s = execTileEccError s := rfl
@[simp] theorem exec_latticeSelfTest (s : State) : exec .latticeSelfTest s = execLatticeSelfTest s := rfl
@[simp] theorem exec_streamAddApply (s : State) : exec .streamAddApply s = execStreamAddApply s := rfl
@[simp] theorem exec_saovf (s : State) : exec .saovf s = execSaovf s := rfl
@[simp] theorem exec_radiusSnapshot (s : State) : exec .radiusSnapshot s = execRadiusSnapshot s := rfl
@[simp] theorem exec_rowEviction (s : State) : exec .rowEviction s = execRowEviction s := rfl
@[simp] theorem exec_rowReload (s : State) : exec .rowReload s = execRowReload s := rfl
@[simp] theorem exec_sadone (s : State) : exec .sadone s = execSadone s := rfl
@[simp] theorem exec_admission (s : State) : exec .admission s = execAdmission s := rfl
@[simp] theorem exec_spawnRequestArrival (s : State) : exec .spawnRequestArrival s = execSpawnRequestArrival s := rfl
@[simp] theorem exec_spawnAdmitTimeout (s : State) : exec .spawnAdmitTimeout s = execSpawnAdmitTimeout s := rfl
@[simp] theorem exec_spawnAnswer (s : State) : exec .spawnAnswer s = execSpawnAnswer s := rfl
@[simp] theorem exec_launchEntryTaken (s : State) : exec .launchEntryTaken s = execLaunchEntryTaken s := rfl
@[simp] theorem exec_poolPlanReady (s : State) : exec .poolPlanReady s = execPoolPlanReady s := rfl
@[simp] theorem exec_launchCreate (s : State) : exec .launchCreate s = execLaunchCreate s := rfl
@[simp] theorem exec_launchDone (s : State) : exec .launchDone s = execLaunchDone s := rfl
@[simp] theorem exec_fpWindowEnd (s : State) : exec .fpWindowEnd s = execFpWindowEnd s := rfl
@[simp] theorem exec_stopRequest (s : State) : exec .stopRequest s = execStopRequest s := rfl
@[simp] theorem exec_stopTakesEffect (s : State) : exec .stopTakesEffect s = execStopTakesEffect s := rfl
@[simp] theorem exec_contextSaveComplete (s : State) : exec .contextSaveComplete s = execContextSaveComplete s := rfl
@[simp] theorem exec_coreFatalError (s : State) : exec .coreFatalError s = execCoreFatalError s := rfl
@[simp] theorem exec_apexCoreRepair (s : State) : exec .apexCoreRepair s = execApexCoreRepair s := rfl
@[simp] theorem exec_apexCoreFence (s : State) : exec .apexCoreFence s = execApexCoreFence s := rfl
@[simp] theorem exec_ltholdSet (s : State) : exec .ltholdSet s = execLtholdSet s := rfl
@[simp] theorem exec_ltholdClear (s : State) : exec .ltholdClear s = execLtholdClear s := rfl
@[simp] theorem exec_lockAttempt (s : State) : exec .lockAttempt s = execLockAttempt s := rfl
@[simp] theorem exec_flagRetry (s : State) : exec .flagRetry s = execFlagRetry s := rfl
@[simp] theorem exec_lockRelease (s : State) : exec .lockRelease s = execLockRelease s := rfl
@[simp] theorem exec_lockWithdrawal (s : State) : exec .lockWithdrawal s = execLockWithdrawal s := rfl
@[simp] theorem exec_grant (s : State) : exec .grant s = execGrant s := rfl
@[simp] theorem exec_grantAck (s : State) : exec .grantAck s = execGrantAck s := rfl
@[simp] theorem exec_grantReturned (s : State) : exec .grantReturned s = execGrantReturned s := rfl
@[simp] theorem exec_timeout (s : State) : exec .timeout s = execTimeout s := rfl
@[simp] theorem exec_locusWindowEnd (s : State) : exec .locusWindowEnd s = execLocusWindowEnd s := rfl
@[simp] theorem exec_delegateAdmitted (s : State) : exec .delegateAdmitted s = execDelegateAdmitted s := rfl
@[simp] theorem exec_delegateBodyExit (s : State) : exec .delegateBodyExit s = execDelegateBodyExit s := rfl
@[simp] theorem exec_phaseArrival (s : State) : exec .phaseArrival s = execPhaseArrival s := rfl
@[simp] theorem exec_phaseWaitRequest (s : State) : exec .phaseWaitRequest s = execPhaseWaitRequest s := rfl
@[simp] theorem exec_phaseLeave (s : State) : exec .phaseLeave s = execPhaseLeave s := rfl
@[simp] theorem exec_combinerForward (s : State) : exec .combinerForward s = execCombinerForward s := rfl
@[simp] theorem exec_syncTimeoutExpiry (s : State) : exec .syncTimeoutExpiry s = execSyncTimeoutExpiry s := rfl
@[simp] theorem exec_axisEpisodeComplete (s : State) : exec .axisEpisodeComplete s = execAxisEpisodeComplete s := rfl
@[simp] theorem exec_axisEpisodeTimeout (s : State) : exec .axisEpisodeTimeout s = execAxisEpisodeTimeout s := rfl
@[simp] theorem exec_hashJobComplete (s : State) : exec .hashJobComplete s = execHashJobComplete s := rfl
@[simp] theorem exec_hashPeriodicTimer (s : State) : exec .hashPeriodicTimer s = execHashPeriodicTimer s := rfl
@[simp] theorem exec_breakpointHit (s : State) : exec .breakpointHit s = execBreakpointHit s := rfl
@[simp] theorem exec_watchpointHit (s : State) : exec .watchpointHit s = execWatchpointHit s := rfl
@[simp] theorem exec_dres (s : State) : exec .dres s = execDres s := rfl
@[simp] theorem exec_lqwp (s : State) : exec .lqwp s = execLqwp s := rfl
@[simp] theorem exec_lqwaWordUpdate (s : State) : exec .lqwaWordUpdate s = execLqwaWordUpdate s := rfl
@[simp] theorem exec_lqctl (s : State) : exec .lqctl s = execLqctl s := rfl
@[simp] theorem exec_ringRpWrite (s : State) : exec .ringRpWrite s = execRingRpWrite s := rfl
@[simp] theorem exec_fcopenOpen (s : State) : exec .fcopenOpen s = execFcopenOpen s := rfl
@[simp] theorem exec_fcopenClose (s : State) : exec .fcopenClose s = execFcopenClose s := rfl
@[simp] theorem exec_fswp (s : State) : exec .fswp s = execFswp s := rfl
@[simp] theorem exec_doorbellRegWrite (s : State) : exec .doorbellRegWrite s = execDoorbellRegWrite s := rfl
@[simp] theorem exec_hostMemAccess (s : State) : exec .hostMemAccess s = execHostMemAccess s := rfl
@[simp] theorem exec_bisnp (s : State) : exec .bisnp s = execBisnp s := rfl
@[simp] theorem exec_birsp (s : State) : exec .birsp s = execBirsp s := rfl
@[simp] theorem exec_mxreq (s : State) : exec .mxreq s = execMxreq s := rfl
@[simp] theorem exec_mxrsp (s : State) : exec .mxrsp s = execMxrsp s := rfl
@[simp] theorem exec_rd (s : State) : exec .rd s = execRd s := rfl
@[simp] theorem exec_wr (s : State) : exec .wr s = execWr s := rfl
@[simp] theorem exec_wrm (s : State) : exec .wrm s = execWrm s := rfl
@[simp] theorem exec_zeroLine (s : State) : exec .zeroLine s = execZeroLine s := rfl
@[simp] theorem exec_scrub (s : State) : exec .scrub s = execScrub s := rfl
@[simp] theorem exec_rdrsp (s : State) : exec .rdrsp s = execRdrsp s := rfl
@[simp] theorem exec_wrack (s : State) : exec .wrack s = execWrack s := rfl
@[simp] theorem exec_iord (s : State) : exec .iord s = execIord s := rfl
@[simp] theorem exec_iowr (s : State) : exec .iowr s = execIowr s := rfl
@[simp] theorem exec_iorsp (s : State) : exec .iorsp s = execIorsp s := rfl
@[simp] theorem exec_iomsg (s : State) : exec .iomsg s = execIomsg s := rfl
@[simp] theorem exec_param (s : State) : exec .param s = execParam s := rfl
@[simp] theorem exec_topord (s : State) : exec .topord s = execTopord s := rfl
@[simp] theorem exec_toprsp (s : State) : exec .toprsp s = execToprsp s := rfl
@[simp] theorem exec_splErr (s : State) : exec .splErr s = execSplErr s := rfl
@[simp] theorem exec_dieReset (s : State) : exec .dieReset s = execDieReset s := rfl
@[simp] theorem exec_splCreditReturn (s : State) : exec .splCreditReturn s = execSplCreditReturn s := rfl
@[simp] theorem exec_ucieLinkUp (s : State) : exec .ucieLinkUp s = execUcieLinkUp s := rfl
@[simp] theorem exec_splParamTimeout (s : State) : exec .splParamTimeout s = execSplParamTimeout s := rfl
@[simp] theorem exec_ucieReplayFail (s : State) : exec .ucieReplayFail s = execUcieReplayFail s := rfl
@[simp] theorem exec_dataFrame (s : State) : exec .dataFrame s = execDataFrame s := rfl
@[simp] theorem exec_ackFrame (s : State) : exec .ackFrame s = execAckFrame s := rfl
@[simp] theorem exec_nackFrame (s : State) : exec .nackFrame s = execNackFrame s := rfl
@[simp] theorem exec_connect (s : State) : exec .connect s = execConnect s := rfl
@[simp] theorem exec_accept (s : State) : exec .accept s = execAccept s := rfl
@[simp] theorem exec_refuse (s : State) : exec .refuse s = execRefuse s := rfl
@[simp] theorem exec_closeFrame (s : State) : exec .closeFrame s = execCloseFrame s := rfl
@[simp] theorem exec_connectRetryTimer (s : State) : exec .connectRetryTimer s = execConnectRetryTimer s := rfl
@[simp] theorem exec_ackTimer (s : State) : exec .ackTimer s = execAckTimer s := rfl
@[simp] theorem exec_resendTimer (s : State) : exec .resendTimer s = execResendTimer s := rfl
@[simp] theorem exec_portLinkDown (s : State) : exec .portLinkDown s = execPortLinkDown s := rfl
@[simp] theorem exec_sendEntryTaken (s : State) : exec .sendEntryTaken s = execSendEntryTaken s := rfl
@[simp] theorem exec_fsent (s : State) : exec .fsent s = execFsent s := rfl
@[simp] theorem exec_fabidAssign (s : State) : exec .fabidAssign s = execFabidAssign s := rfl
@[simp] theorem exec_getVersion (s : State) : exec .getVersion s = execGetVersion s := rfl
@[simp] theorem exec_getCapabilities (s : State) : exec .getCapabilities s = execGetCapabilities s := rfl
@[simp] theorem exec_negotiateAlgorithms (s : State) : exec .negotiateAlgorithms s = execNegotiateAlgorithms s := rfl
@[simp] theorem exec_getDigests (s : State) : exec .getDigests s = execGetDigests s := rfl
@[simp] theorem exec_getCertificate (s : State) : exec .getCertificate s = execGetCertificate s := rfl
@[simp] theorem exec_challenge (s : State) : exec .challenge s = execChallenge s := rfl
@[simp] theorem exec_getMeasurements (s : State) : exec .getMeasurements s = execGetMeasurements s := rfl
@[simp] theorem exec_keyExchange (s : State) : exec .keyExchange s = execKeyExchange s := rfl
@[simp] theorem exec_spdmFinish (s : State) : exec .spdmFinish s = execSpdmFinish s := rfl
@[simp] theorem exec_endSession (s : State) : exec .endSession s = execEndSession s := rfl
@[simp] theorem exec_lockInterfaceRequest (s : State) : exec .lockInterfaceRequest s = execLockInterfaceRequest s := rfl
@[simp] theorem exec_startInterfaceRequest (s : State) : exec .startInterfaceRequest s = execStartInterfaceRequest s := rfl
@[simp] theorem exec_tdiUnlock (s : State) : exec .tdiUnlock s = execTdiUnlock s := rfl
@[simp] theorem exec_tdiError (s : State) : exec .tdiError s = execTdiError s := rfl
@[simp] theorem exec_powerGood (s : State) : exec .powerGood s = execPowerGood s := rfl
@[simp] theorem exec_railTimeout (s : State) : exec .railTimeout s = execRailTimeout s := rfl
@[simp] theorem exec_firmwareCheck (s : State) : exec .firmwareCheck s = execFirmwareCheck s := rfl
@[simp] theorem exec_topologyWalk (s : State) : exec .topologyWalk s = execTopologyWalk s := rfl
@[simp] theorem exec_hbmTraining (s : State) : exec .hbmTraining s = execHbmTraining s := rfl
@[simp] theorem exec_cxlLinkUp (s : State) : exec .cxlLinkUp s = execCxlLinkUp s := rfl
@[simp] theorem exec_cxlConfigRequest (s : State) : exec .cxlConfigRequest s = execCxlConfigRequest s := rfl
@[simp] theorem exec_moduleReset (s : State) : exec .moduleReset s = execModuleReset s := rfl
@[simp] theorem exec_clusterPowerGate (s : State) : exec .clusterPowerGate s = execClusterPowerGate s := rfl
@[simp] theorem exec_powerOverload (s : State) : exec .powerOverload s = execPowerOverload s := rfl
@[simp] theorem exec_ucieTrainingFail (s : State) : exec .ucieTrainingFail s = execUcieTrainingFail s := rfl
@[simp] theorem exec_cxlLinkTrainingFail (s : State) : exec .cxlLinkTrainingFail s = execCxlLinkTrainingFail s := rfl
@[simp] theorem exec_portLinkUp (s : State) : exec .portLinkUp s = execPortLinkUp s := rfl
@[simp] theorem exec_msixVectorUnmask (s : State) : exec .msixVectorUnmask s = execMsixVectorUnmask s := rfl
@[simp] theorem exec_tenantCreated (s : State) : exec .tenantCreated s = execTenantCreated s := rfl
@[simp] theorem exec_creditReturn (s : State) : exec .creditReturn s = execCreditReturn s := rfl
@[simp] theorem exec_locusAnswer (s : State) : exec .locusAnswer s = execLocusAnswer s := rfl
@[simp] theorem exec_apexLatticeRepair (s : State) : exec .apexLatticeRepair s = execApexLatticeRepair s := rfl

end Sys2Proof.Machine
end

