-- ==== Sys2Proof/Laws/Forms.lean ====
section
/-!
SUPPORT. Sys2Proof/Laws/Forms.lean: the form, the fields, the page with op6 and the roles of each encoded instruction, one
equation each.
-/
namespace Sys2Proof

@[simp] theorem Instr.form_nop (f : Fields) : (Instr.nop f).form = some ⟨.N, .no, .none, .none, .none, .none, .none⟩ := rfl
@[simp] theorem Instr.fields_nop (f : Fields) : (Instr.nop f).fields = some f := rfl
@[simp] theorem Instr.opc_nop (f : Fields) : (Instr.nop f).opc = some (0, 1) := rfl
@[simp] theorem Instr.form_mov (f : Fields) : (Instr.mov f).form = some ⟨.A, .no, .none, .wr, .rd, .none, .none⟩ := rfl
@[simp] theorem Instr.fields_mov (f : Fields) : (Instr.mov f).fields = some f := rfl
@[simp] theorem Instr.opc_mov (f : Fields) : (Instr.mov f).opc = some (0, 2) := rfl
@[simp] theorem Instr.form_movk (f : Fields) : (Instr.movk f).form = some ⟨.K, .no, .none, .wr, .none, .none, .signed⟩ := rfl
@[simp] theorem Instr.fields_movk (f : Fields) : (Instr.movk f).fields = some f := rfl
@[simp] theorem Instr.opc_movk (f : Fields) : (Instr.movk f).opc = some (0, 3) := rfl
@[simp] theorem Instr.form_movkh (f : Fields) : (Instr.movkh f).form = some ⟨.K, .no, .none, .rw, .none, .none, .signed⟩ := rfl
@[simp] theorem Instr.fields_movkh (f : Fields) : (Instr.movkh f).fields = some f := rfl
@[simp] theorem Instr.opc_movkh (f : Fields) : (Instr.movkh f).opc = some (0, 4) := rfl
@[simp] theorem Instr.form_add (f : Fields) : (Instr.add f).form = some ⟨.A, .opt, .iW, .rw, .rd, .rd, .none⟩ := rfl
@[simp] theorem Instr.fields_add (f : Fields) : (Instr.add f).fields = some f := rfl
@[simp] theorem Instr.opc_add (f : Fields) : (Instr.add f).opc = some (0, 5) := rfl
@[simp] theorem Instr.form_sub (f : Fields) : (Instr.sub f).form = some ⟨.A, .opt, .iW, .rw, .rd, .rd, .none⟩ := rfl
@[simp] theorem Instr.fields_sub (f : Fields) : (Instr.sub f).fields = some f := rfl
@[simp] theorem Instr.opc_sub (f : Fields) : (Instr.sub f).opc = some (0, 6) := rfl
@[simp] theorem Instr.form_addk (f : Fields) : (Instr.addk f).form = some ⟨.K, .no, .iW, .rw, .none, .none, .signed⟩ := rfl
@[simp] theorem Instr.fields_addk (f : Fields) : (Instr.addk f).fields = some f := rfl
@[simp] theorem Instr.opc_addk (f : Fields) : (Instr.addk f).opc = some (0, 7) := rfl
@[simp] theorem Instr.form_neg (f : Fields) : (Instr.neg f).form = some ⟨.A, .no, .iW, .wr, .rd, .none, .none⟩ := rfl
@[simp] theorem Instr.fields_neg (f : Fields) : (Instr.neg f).fields = some f := rfl
@[simp] theorem Instr.opc_neg (f : Fields) : (Instr.neg f).opc = some (0, 8) := rfl
@[simp] theorem Instr.form_mul (f : Fields) : (Instr.mul f).form = some ⟨.A, .opt, .iW, .rw, .rd, .rd, .none⟩ := rfl
@[simp] theorem Instr.fields_mul (f : Fields) : (Instr.mul f).fields = some f := rfl
@[simp] theorem Instr.opc_mul (f : Fields) : (Instr.mul f).opc = some (0, 9) := rfl
@[simp] theorem Instr.form_mulh (f : Fields) : (Instr.mulh f).form = some ⟨.A, .opt, .iU, .rw, .rd, .rd, .none⟩ := rfl
@[simp] theorem Instr.fields_mulh (f : Fields) : (Instr.mulh f).fields = some f := rfl
@[simp] theorem Instr.opc_mulh (f : Fields) : (Instr.mulh f).opc = some (0, 10) := rfl
@[simp] theorem Instr.form_div (f : Fields) : (Instr.div f).form = some ⟨.A, .opt, .iUW, .rw, .rd, .rd, .none⟩ := rfl
@[simp] theorem Instr.fields_div (f : Fields) : (Instr.div f).fields = some f := rfl
@[simp] theorem Instr.opc_div (f : Fields) : (Instr.div f).opc = some (0, 11) := rfl
@[simp] theorem Instr.form_rem (f : Fields) : (Instr.rem f).form = some ⟨.A, .opt, .iUW, .rw, .rd, .rd, .none⟩ := rfl
@[simp] theorem Instr.fields_rem (f : Fields) : (Instr.rem f).fields = some f := rfl
@[simp] theorem Instr.opc_rem (f : Fields) : (Instr.rem f).opc = some (0, 12) := rfl
@[simp] theorem Instr.form_andOp (f : Fields) : (Instr.andOp f).form = some ⟨.A, .opt, .none, .rw, .rd, .rd, .none⟩ := rfl
@[simp] theorem Instr.fields_andOp (f : Fields) : (Instr.andOp f).fields = some f := rfl
@[simp] theorem Instr.opc_andOp (f : Fields) : (Instr.andOp f).opc = some (0, 13) := rfl
@[simp] theorem Instr.form_orOp (f : Fields) : (Instr.orOp f).form = some ⟨.A, .opt, .none, .rw, .rd, .rd, .none⟩ := rfl
@[simp] theorem Instr.fields_orOp (f : Fields) : (Instr.orOp f).fields = some f := rfl
@[simp] theorem Instr.opc_orOp (f : Fields) : (Instr.orOp f).opc = some (0, 14) := rfl
@[simp] theorem Instr.form_xor (f : Fields) : (Instr.xor f).form = some ⟨.A, .opt, .none, .rw, .rd, .rd, .none⟩ := rfl
@[simp] theorem Instr.fields_xor (f : Fields) : (Instr.xor f).fields = some f := rfl
@[simp] theorem Instr.opc_xor (f : Fields) : (Instr.xor f).opc = some (0, 15) := rfl
@[simp] theorem Instr.form_andn (f : Fields) : (Instr.andn f).form = some ⟨.A, .opt, .none, .rw, .rd, .rd, .none⟩ := rfl
@[simp] theorem Instr.fields_andn (f : Fields) : (Instr.andn f).fields = some f := rfl
@[simp] theorem Instr.opc_andn (f : Fields) : (Instr.andn f).opc = some (0, 16) := rfl
@[simp] theorem Instr.form_notOp (f : Fields) : (Instr.notOp f).form = some ⟨.A, .no, .none, .wr, .rd, .none, .none⟩ := rfl
@[simp] theorem Instr.fields_notOp (f : Fields) : (Instr.notOp f).fields = some f := rfl
@[simp] theorem Instr.opc_notOp (f : Fields) : (Instr.notOp f).opc = some (0, 17) := rfl
@[simp] theorem Instr.form_shl (f : Fields) : (Instr.shl f).form = some ⟨.A, .opt, .iW, .rw, .rd, .rd, .none⟩ := rfl
@[simp] theorem Instr.fields_shl (f : Fields) : (Instr.shl f).fields = some f := rfl
@[simp] theorem Instr.opc_shl (f : Fields) : (Instr.shl f).opc = some (0, 18) := rfl
@[simp] theorem Instr.form_shr (f : Fields) : (Instr.shr f).form = some ⟨.A, .opt, .iW, .rw, .rd, .rd, .none⟩ := rfl
@[simp] theorem Instr.fields_shr (f : Fields) : (Instr.shr f).fields = some f := rfl
@[simp] theorem Instr.opc_shr (f : Fields) : (Instr.shr f).opc = some (0, 19) := rfl
@[simp] theorem Instr.form_sar (f : Fields) : (Instr.sar f).form = some ⟨.A, .opt, .iW, .rw, .rd, .rd, .none⟩ := rfl
@[simp] theorem Instr.fields_sar (f : Fields) : (Instr.sar f).fields = some f := rfl
@[simp] theorem Instr.opc_sar (f : Fields) : (Instr.sar f).opc = some (0, 20) := rfl
@[simp] theorem Instr.form_shlk (f : Fields) : (Instr.shlk f).form = some ⟨.K, .no, .iW, .rw, .none, .none, .unsigned⟩ := rfl
@[simp] theorem Instr.fields_shlk (f : Fields) : (Instr.shlk f).fields = some f := rfl
@[simp] theorem Instr.opc_shlk (f : Fields) : (Instr.shlk f).opc = some (0, 21) := rfl
@[simp] theorem Instr.form_shrk (f : Fields) : (Instr.shrk f).form = some ⟨.K, .no, .iW, .rw, .none, .none, .unsigned⟩ := rfl
@[simp] theorem Instr.fields_shrk (f : Fields) : (Instr.shrk f).fields = some f := rfl
@[simp] theorem Instr.opc_shrk (f : Fields) : (Instr.shrk f).opc = some (0, 22) := rfl
@[simp] theorem Instr.form_sark (f : Fields) : (Instr.sark f).form = some ⟨.K, .no, .iW, .rw, .none, .none, .unsigned⟩ := rfl
@[simp] theorem Instr.fields_sark (f : Fields) : (Instr.sark f).fields = some f := rfl
@[simp] theorem Instr.opc_sark (f : Fields) : (Instr.sark f).opc = some (0, 23) := rfl
@[simp] theorem Instr.form_minOp (f : Fields) : (Instr.minOp f).form = some ⟨.A, .opt, .iUW, .rw, .rd, .rd, .none⟩ := rfl
@[simp] theorem Instr.fields_minOp (f : Fields) : (Instr.minOp f).fields = some f := rfl
@[simp] theorem Instr.opc_minOp (f : Fields) : (Instr.minOp f).opc = some (0, 24) := rfl
@[simp] theorem Instr.form_maxOp (f : Fields) : (Instr.maxOp f).form = some ⟨.A, .opt, .iUW, .rw, .rd, .rd, .none⟩ := rfl
@[simp] theorem Instr.fields_maxOp (f : Fields) : (Instr.maxOp f).fields = some f := rfl
@[simp] theorem Instr.opc_maxOp (f : Fields) : (Instr.maxOp f).opc = some (0, 25) := rfl
@[simp] theorem Instr.form_cmpeq (f : Fields) : (Instr.cmpeq f).form = some ⟨.A, .opt, .iW, .rw, .rd, .rd, .none⟩ := rfl
@[simp] theorem Instr.fields_cmpeq (f : Fields) : (Instr.cmpeq f).fields = some f := rfl
@[simp] theorem Instr.opc_cmpeq (f : Fields) : (Instr.cmpeq f).opc = some (0, 26) := rfl
@[simp] theorem Instr.form_cmpne (f : Fields) : (Instr.cmpne f).form = some ⟨.A, .opt, .iW, .rw, .rd, .rd, .none⟩ := rfl
@[simp] theorem Instr.fields_cmpne (f : Fields) : (Instr.cmpne f).fields = some f := rfl
@[simp] theorem Instr.opc_cmpne (f : Fields) : (Instr.cmpne f).opc = some (0, 27) := rfl
@[simp] theorem Instr.form_cmplt (f : Fields) : (Instr.cmplt f).form = some ⟨.A, .opt, .iUW, .rw, .rd, .rd, .none⟩ := rfl
@[simp] theorem Instr.fields_cmplt (f : Fields) : (Instr.cmplt f).fields = some f := rfl
@[simp] theorem Instr.opc_cmplt (f : Fields) : (Instr.cmplt f).opc = some (0, 28) := rfl
@[simp] theorem Instr.form_cmple (f : Fields) : (Instr.cmple f).form = some ⟨.A, .opt, .iUW, .rw, .rd, .rd, .none⟩ := rfl
@[simp] theorem Instr.fields_cmple (f : Fields) : (Instr.cmple f).fields = some f := rfl
@[simp] theorem Instr.opc_cmple (f : Fields) : (Instr.cmple f).opc = some (0, 29) := rfl
@[simp] theorem Instr.form_sel (f : Fields) : (Instr.sel f).form = some ⟨.A, .req, .none, .rw, .rd, .rd, .none⟩ := rfl
@[simp] theorem Instr.fields_sel (f : Fields) : (Instr.sel f).fields = some f := rfl
@[simp] theorem Instr.opc_sel (f : Fields) : (Instr.sel f).opc = some (0, 30) := rfl
@[simp] theorem Instr.form_clz (f : Fields) : (Instr.clz f).form = some ⟨.A, .no, .iW, .wr, .rd, .none, .none⟩ := rfl
@[simp] theorem Instr.fields_clz (f : Fields) : (Instr.clz f).fields = some f := rfl
@[simp] theorem Instr.opc_clz (f : Fields) : (Instr.clz f).opc = some (0, 31) := rfl
@[simp] theorem Instr.form_popc (f : Fields) : (Instr.popc f).form = some ⟨.A, .no, .iW, .wr, .rd, .none, .none⟩ := rfl
@[simp] theorem Instr.fields_popc (f : Fields) : (Instr.popc f).fields = some f := rfl
@[simp] theorem Instr.opc_popc (f : Fields) : (Instr.popc f).opc = some (0, 32) := rfl
@[simp] theorem Instr.form_bfx (f : Fields) : (Instr.bfx f).form = some ⟨.A, .no, .none, .wr, .rd, .none, .signed⟩ := rfl
@[simp] theorem Instr.fields_bfx (f : Fields) : (Instr.bfx f).fields = some f := rfl
@[simp] theorem Instr.opc_bfx (f : Fields) : (Instr.bfx f).opc = some (0, 33) := rfl
@[simp] theorem Instr.form_bfi (f : Fields) : (Instr.bfi f).form = some ⟨.A, .no, .none, .rw, .rd, .none, .signed⟩ := rfl
@[simp] theorem Instr.fields_bfi (f : Fields) : (Instr.bfi f).fields = some f := rfl
@[simp] theorem Instr.opc_bfi (f : Fields) : (Instr.bfi f).opc = some (0, 34) := rfl
@[simp] theorem Instr.form_sext (f : Fields) : (Instr.sext f).form = some ⟨.K, .no, .none, .rw, .none, .none, .unsigned⟩ := rfl
@[simp] theorem Instr.fields_sext (f : Fields) : (Instr.sext f).fields = some f := rfl
@[simp] theorem Instr.opc_sext (f : Fields) : (Instr.sext f).opc = some (0, 35) := rfl
@[simp] theorem Instr.form_br (f : Fields) : (Instr.br f).form = some ⟨.J, .no, .none, .none, .none, .none, .signed⟩ := rfl
@[simp] theorem Instr.fields_br (f : Fields) : (Instr.br f).fields = some f := rfl
@[simp] theorem Instr.opc_br (f : Fields) : (Instr.br f).opc = some (0, 36) := rfl
@[simp] theorem Instr.form_call (f : Fields) : (Instr.call f).form = some ⟨.J, .no, .none, .none, .none, .none, .signed⟩ := rfl
@[simp] theorem Instr.fields_call (f : Fields) : (Instr.call f).fields = some f := rfl
@[simp] theorem Instr.opc_call (f : Fields) : (Instr.call f).opc = some (0, 37) := rfl
@[simp] theorem Instr.form_jr (f : Fields) : (Instr.jr f).form = some ⟨.A, .no, .none, .wr, .rd, .none, .none⟩ := rfl
@[simp] theorem Instr.fields_jr (f : Fields) : (Instr.jr f).fields = some f := rfl
@[simp] theorem Instr.opc_jr (f : Fields) : (Instr.jr f).opc = some (0, 38) := rfl
@[simp] theorem Instr.form_bz (f : Fields) : (Instr.bz f).form = some ⟨.K, .no, .none, .rd, .none, .none, .signed⟩ := rfl
@[simp] theorem Instr.fields_bz (f : Fields) : (Instr.bz f).fields = some f := rfl
@[simp] theorem Instr.opc_bz (f : Fields) : (Instr.bz f).opc = some (0, 39) := rfl
@[simp] theorem Instr.form_bnz (f : Fields) : (Instr.bnz f).form = some ⟨.K, .no, .none, .rd, .none, .none, .signed⟩ := rfl
@[simp] theorem Instr.fields_bnz (f : Fields) : (Instr.bnz f).fields = some f := rfl
@[simp] theorem Instr.opc_bnz (f : Fields) : (Instr.bnz f).opc = some (0, 40) := rfl
@[simp] theorem Instr.form_bltz (f : Fields) : (Instr.bltz f).form = some ⟨.K, .no, .none, .rd, .none, .none, .signed⟩ := rfl
@[simp] theorem Instr.fields_bltz (f : Fields) : (Instr.bltz f).fields = some f := rfl
@[simp] theorem Instr.opc_bltz (f : Fields) : (Instr.bltz f).opc = some (0, 41) := rfl
@[simp] theorem Instr.form_bgez (f : Fields) : (Instr.bgez f).form = some ⟨.K, .no, .none, .rd, .none, .none, .signed⟩ := rfl
@[simp] theorem Instr.fields_bgez (f : Fields) : (Instr.bgez f).fields = some f := rfl
@[simp] theorem Instr.opc_bgez (f : Fields) : (Instr.bgez f).opc = some (0, 42) := rfl
@[simp] theorem Instr.form_ldg (f : Fields) : (Instr.ldg f).form = some ⟨.L, .no, .gLoad, .wr, .base, .none, .signed⟩ := rfl
@[simp] theorem Instr.fields_ldg (f : Fields) : (Instr.ldg f).fields = some f := rfl
@[simp] theorem Instr.opc_ldg (f : Fields) : (Instr.ldg f).opc = some (0, 43) := rfl
@[simp] theorem Instr.form_stg (f : Fields) : (Instr.stg f).form = some ⟨.L, .no, .gStore, .rd, .base, .none, .signed⟩ := rfl
@[simp] theorem Instr.fields_stg (f : Fields) : (Instr.stg f).fields = some f := rfl
@[simp] theorem Instr.opc_stg (f : Fields) : (Instr.stg f).opc = some (0, 44) := rfl
@[simp] theorem Instr.form_ldl (f : Fields) : (Instr.ldl f).form = some ⟨.L, .no, .lLoad, .wr, .ptr, .none, .none⟩ := rfl
@[simp] theorem Instr.fields_ldl (f : Fields) : (Instr.ldl f).fields = some f := rfl
@[simp] theorem Instr.opc_ldl (f : Fields) : (Instr.ldl f).opc = some (0, 45) := rfl
@[simp] theorem Instr.form_stl (f : Fields) : (Instr.stl f).form = some ⟨.L, .no, .lStore, .rd, .ptr, .none, .none⟩ := rfl
@[simp] theorem Instr.fields_stl (f : Fields) : (Instr.stl f).fields = some f := rfl
@[simp] theorem Instr.opc_stl (f : Fields) : (Instr.stl f).opc = some (0, 46) := rfl
@[simp] theorem Instr.form_ldlp (f : Fields) : (Instr.ldlp f).form = some ⟨.L, .no, .lLoad, .wr, .ptr, .none, .none⟩ := rfl
@[simp] theorem Instr.fields_ldlp (f : Fields) : (Instr.ldlp f).fields = some f := rfl
@[simp] theorem Instr.opc_ldlp (f : Fields) : (Instr.ldlp f).opc = some (0, 47) := rfl
@[simp] theorem Instr.form_stlp (f : Fields) : (Instr.stlp f).form = some ⟨.L, .no, .lStore, .rd, .ptr, .none, .none⟩ := rfl
@[simp] theorem Instr.fields_stlp (f : Fields) : (Instr.stlp f).fields = some f := rfl
@[simp] theorem Instr.opc_stlp (f : Fields) : (Instr.stlp f).opc = some (0, 48) := rfl
@[simp] theorem Instr.form_ldacq (f : Fields) : (Instr.ldacq f).form = some ⟨.L, .no, .gStore, .wr, .base, .none, .signed⟩ := rfl
@[simp] theorem Instr.fields_ldacq (f : Fields) : (Instr.ldacq f).fields = some f := rfl
@[simp] theorem Instr.opc_ldacq (f : Fields) : (Instr.ldacq f).opc = some (0, 49) := rfl
@[simp] theorem Instr.form_strel (f : Fields) : (Instr.strel f).form = some ⟨.L, .no, .gStore, .rd, .base, .none, .signed⟩ := rfl
@[simp] theorem Instr.fields_strel (f : Fields) : (Instr.strel f).fields = some f := rfl
@[simp] theorem Instr.opc_strel (f : Fields) : (Instr.strel f).opc = some (0, 50) := rfl
@[simp] theorem Instr.form_fence (f : Fields) : (Instr.fence f).form = some ⟨.A, .no, .none, (.is 0), .none, .none, .none⟩ := rfl
@[simp] theorem Instr.fields_fence (f : Fields) : (Instr.fence f).fields = some f := rfl
@[simp] theorem Instr.opc_fence (f : Fields) : (Instr.fence f).opc = some (0, 51) := rfl
@[simp] theorem Instr.form_fenceX (f : Fields) : (Instr.fenceX f).form = some ⟨.A, .no, .none, (.is 1), .none, .none, .none⟩ := rfl
@[simp] theorem Instr.fields_fenceX (f : Fields) : (Instr.fenceX f).fields = some f := rfl
@[simp] theorem Instr.opc_fenceX (f : Fields) : (Instr.fenceX f).opc = some (0, 51) := rfl
@[simp] theorem Instr.form_fenceA (f : Fields) : (Instr.fenceA f).form = some ⟨.A, .no, .none, (.is 2), .rd, .none, .none⟩ := rfl
@[simp] theorem Instr.fields_fenceA (f : Fields) : (Instr.fenceA f).fields = some f := rfl
@[simp] theorem Instr.opc_fenceA (f : Fields) : (Instr.fenceA f).opc = some (0, 51) := rfl
@[simp] theorem Instr.form_fenceS (f : Fields) : (Instr.fenceS f).form = some ⟨.A, .no, .none, (.is 3), .none, .none, .none⟩ := rfl
@[simp] theorem Instr.fields_fenceS (f : Fields) : (Instr.fenceS f).fields = some f := rfl
@[simp] theorem Instr.opc_fenceS (f : Fields) : (Instr.fenceS f).opc = some (0, 51) := rfl
@[simp] theorem Instr.form_pref (f : Fields) : (Instr.pref f).form = some ⟨.L, .no, .seg, (.sel 1), .base, .none, .signed⟩ := rfl
@[simp] theorem Instr.fields_pref (f : Fields) : (Instr.pref f).fields = some f := rfl
@[simp] theorem Instr.opc_pref (f : Fields) : (Instr.pref f).opc = some (0, 52) := rfl
@[simp] theorem Instr.form_scopeo (f : Fields) : (Instr.scopeo f).form = some ⟨.K, .no, .none, .none, .none, .none, .short⟩ := rfl
@[simp] theorem Instr.fields_scopeo (f : Fields) : (Instr.scopeo f).fields = some f := rfl
@[simp] theorem Instr.opc_scopeo (f : Fields) : (Instr.scopeo f).opc = some (0, 53) := rfl
@[simp] theorem Instr.form_scopec (f : Fields) : (Instr.scopec f).form = some ⟨.N, .no, .none, .none, .none, .none, .none⟩ := rfl
@[simp] theorem Instr.fields_scopec (f : Fields) : (Instr.scopec f).fields = some f := rfl
@[simp] theorem Instr.opc_scopec (f : Fields) : (Instr.scopec f).opc = some (0, 54) := rfl
@[simp] theorem Instr.form_pset (f : Fields) : (Instr.pset f).form = some ⟨.A, .no, .none, .ptr, .rd, .none, .none⟩ := rfl
@[simp] theorem Instr.fields_pset (f : Fields) : (Instr.pset f).fields = some f := rfl
@[simp] theorem Instr.opc_pset (f : Fields) : (Instr.pset f).opc = some (0, 55) := rfl
@[simp] theorem Instr.form_pget (f : Fields) : (Instr.pget f).form = some ⟨.A, .no, .none, .wr, .ptr, .none, .none⟩ := rfl
@[simp] theorem Instr.fields_pget (f : Fields) : (Instr.pget f).fields = some f := rfl
@[simp] theorem Instr.opc_pget (f : Fields) : (Instr.pget f).opc = some (0, 56) := rfl
@[simp] theorem Instr.form_padd (f : Fields) : (Instr.padd f).form = some ⟨.K, .no, .none, .ptr, .none, .none, .signed⟩ := rfl
@[simp] theorem Instr.fields_padd (f : Fields) : (Instr.padd f).fields = some f := rfl
@[simp] theorem Instr.opc_padd (f : Fields) : (Instr.padd f).opc = some (0, 57) := rfl
@[simp] theorem Instr.form_vadd (f : Fields) : (Instr.vadd f).form = some ⟨.A, .opt, .fArith, .vrw, .vrd, .vrd, .none⟩ := rfl
@[simp] theorem Instr.fields_vadd (f : Fields) : (Instr.vadd f).fields = some f := rfl
@[simp] theorem Instr.opc_vadd (f : Fields) : (Instr.vadd f).opc = some (1, 1) := rfl
@[simp] theorem Instr.form_vsub (f : Fields) : (Instr.vsub f).form = some ⟨.A, .opt, .fArith, .vrw, .vrd, .vrd, .none⟩ := rfl
@[simp] theorem Instr.fields_vsub (f : Fields) : (Instr.vsub f).fields = some f := rfl
@[simp] theorem Instr.opc_vsub (f : Fields) : (Instr.vsub f).opc = some (1, 2) := rfl
@[simp] theorem Instr.form_vmul (f : Fields) : (Instr.vmul f).form = some ⟨.A, .opt, .fArith, .vrw, .vrd, .vrd, .none⟩ := rfl
@[simp] theorem Instr.fields_vmul (f : Fields) : (Instr.vmul f).fields = some f := rfl
@[simp] theorem Instr.opc_vmul (f : Fields) : (Instr.vmul f).opc = some (1, 3) := rfl
@[simp] theorem Instr.form_vfma (f : Fields) : (Instr.vfma f).form = some ⟨.A, .req, .fArith, .vrw, .vrd, .vrd, .none⟩ := rfl
@[simp] theorem Instr.fields_vfma (f : Fields) : (Instr.vfma f).fields = some f := rfl
@[simp] theorem Instr.opc_vfma (f : Fields) : (Instr.vfma f).opc = some (1, 4) := rfl
@[simp] theorem Instr.form_vmin (f : Fields) : (Instr.vmin f).form = some ⟨.A, .opt, .tAny, .vrw, .vrd, .vrd, .none⟩ := rfl
@[simp] theorem Instr.fields_vmin (f : Fields) : (Instr.vmin f).fields = some f := rfl
@[simp] theorem Instr.opc_vmin (f : Fields) : (Instr.vmin f).opc = some (1, 5) := rfl
@[simp] theorem Instr.form_vmax (f : Fields) : (Instr.vmax f).form = some ⟨.A, .opt, .tAny, .vrw, .vrd, .vrd, .none⟩ := rfl
@[simp] theorem Instr.fields_vmax (f : Fields) : (Instr.vmax f).fields = some f := rfl
@[simp] theorem Instr.opc_vmax (f : Fields) : (Instr.vmax f).opc = some (1, 6) := rfl
@[simp] theorem Instr.form_vabs (f : Fields) : (Instr.vabs f).form = some ⟨.A, .no, .tAny, .vwr, .vrd, .none, .none⟩ := rfl
@[simp] theorem Instr.fields_vabs (f : Fields) : (Instr.vabs f).fields = some f := rfl
@[simp] theorem Instr.opc_vabs (f : Fields) : (Instr.vabs f).opc = some (1, 7) := rfl
@[simp] theorem Instr.form_vneg (f : Fields) : (Instr.vneg f).form = some ⟨.A, .no, .tAny, .vwr, .vrd, .none, .none⟩ := rfl
@[simp] theorem Instr.fields_vneg (f : Fields) : (Instr.vneg f).fields = some f := rfl
@[simp] theorem Instr.opc_vneg (f : Fields) : (Instr.vneg f).opc = some (1, 8) := rfl
@[simp] theorem Instr.form_vrcp (f : Fields) : (Instr.vrcp f).form = some ⟨.A, .no, .fFloat, .vwr, .vrd, .none, .none⟩ := rfl
@[simp] theorem Instr.fields_vrcp (f : Fields) : (Instr.vrcp f).fields = some f := rfl
@[simp] theorem Instr.opc_vrcp (f : Fields) : (Instr.vrcp f).opc = some (1, 9) := rfl
@[simp] theorem Instr.form_vrsq (f : Fields) : (Instr.vrsq f).form = some ⟨.A, .no, .fFloat, .vwr, .vrd, .none, .none⟩ := rfl
@[simp] theorem Instr.fields_vrsq (f : Fields) : (Instr.vrsq f).fields = some f := rfl
@[simp] theorem Instr.opc_vrsq (f : Fields) : (Instr.vrsq f).opc = some (1, 10) := rfl
@[simp] theorem Instr.form_vexp2 (f : Fields) : (Instr.vexp2 f).form = some ⟨.A, .no, .fFloat, .vwr, .vrd, .none, .none⟩ := rfl
@[simp] theorem Instr.fields_vexp2 (f : Fields) : (Instr.vexp2 f).fields = some f := rfl
@[simp] theorem Instr.opc_vexp2 (f : Fields) : (Instr.vexp2 f).opc = some (1, 11) := rfl
@[simp] theorem Instr.form_vlog2 (f : Fields) : (Instr.vlog2 f).form = some ⟨.A, .no, .fFloat, .vwr, .vrd, .none, .none⟩ := rfl
@[simp] theorem Instr.fields_vlog2 (f : Fields) : (Instr.vlog2 f).fields = some f := rfl
@[simp] theorem Instr.opc_vlog2 (f : Fields) : (Instr.vlog2 f).opc = some (1, 12) := rfl
@[simp] theorem Instr.form_vcvt (f : Fields) : (Instr.vcvt f).form = some ⟨.A, .req, .fConv, .vwr, .vrd, .none, .none⟩ := rfl
@[simp] theorem Instr.fields_vcvt (f : Fields) : (Instr.vcvt f).fields = some f := rfl
@[simp] theorem Instr.opc_vcvt (f : Fields) : (Instr.vcvt f).opc = some (1, 13) := rfl
@[simp] theorem Instr.form_vcmp (f : Fields) : (Instr.vcmp f).form = some ⟨.A, .req, .tAny, .vwr, .vrd, .vrd, .none⟩ := rfl
@[simp] theorem Instr.fields_vcmp (f : Fields) : (Instr.vcmp f).fields = some f := rfl
@[simp] theorem Instr.opc_vcmp (f : Fields) : (Instr.vcmp f).opc = some (1, 14) := rfl
@[simp] theorem Instr.form_vsel (f : Fields) : (Instr.vsel f).form = some ⟨.A, .req, .tAny, .vrw, .vrd, .vrd, .none⟩ := rfl
@[simp] theorem Instr.fields_vsel (f : Fields) : (Instr.vsel f).fields = some f := rfl
@[simp] theorem Instr.opc_vsel (f : Fields) : (Instr.vsel f).opc = some (1, 15) := rfl
@[simp] theorem Instr.form_vradd (f : Fields) : (Instr.vradd f).form = some ⟨.A, .no, .fSum, .wr, .vrd, .none, .none⟩ := rfl
@[simp] theorem Instr.fields_vradd (f : Fields) : (Instr.vradd f).fields = some f := rfl
@[simp] theorem Instr.opc_vradd (f : Fields) : (Instr.vradd f).opc = some (1, 16) := rfl
@[simp] theorem Instr.form_vrmax (f : Fields) : (Instr.vrmax f).form = some ⟨.A, .no, .tAny, .wr, .vrd, .none, .none⟩ := rfl
@[simp] theorem Instr.fields_vrmax (f : Fields) : (Instr.vrmax f).fields = some f := rfl
@[simp] theorem Instr.opc_vrmax (f : Fields) : (Instr.vrmax f).opc = some (1, 17) := rfl
@[simp] theorem Instr.form_vbcst (f : Fields) : (Instr.vbcst f).form = some ⟨.A, .no, .tAny, .vwr, .rd, .none, .none⟩ := rfl
@[simp] theorem Instr.fields_vbcst (f : Fields) : (Instr.vbcst f).fields = some f := rfl
@[simp] theorem Instr.opc_vbcst (f : Fields) : (Instr.vbcst f).opc = some (1, 18) := rfl
@[simp] theorem Instr.form_vlane (f : Fields) : (Instr.vlane f).form = some ⟨.A, .no, .tAny, .wr, .vrd, .none, .unsigned⟩ := rfl
@[simp] theorem Instr.fields_vlane (f : Fields) : (Instr.vlane f).fields = some f := rfl
@[simp] theorem Instr.opc_vlane (f : Fields) : (Instr.vlane f).opc = some (1, 19) := rfl
@[simp] theorem Instr.form_vperm (f : Fields) : (Instr.vperm f).form = some ⟨.A, .req, .tAny, .vwr, .vrd, .vrd, .none⟩ := rfl
@[simp] theorem Instr.fields_vperm (f : Fields) : (Instr.vperm f).fields = some f := rfl
@[simp] theorem Instr.opc_vperm (f : Fields) : (Instr.vperm f).opc = some (1, 20) := rfl
@[simp] theorem Instr.form_vand (f : Fields) : (Instr.vand f).form = some ⟨.A, .opt, .none, .vrw, .vrd, .vrd, .none⟩ := rfl
@[simp] theorem Instr.fields_vand (f : Fields) : (Instr.vand f).fields = some f := rfl
@[simp] theorem Instr.opc_vand (f : Fields) : (Instr.vand f).opc = some (1, 21) := rfl
@[simp] theorem Instr.form_vor (f : Fields) : (Instr.vor f).form = some ⟨.A, .opt, .none, .vrw, .vrd, .vrd, .none⟩ := rfl
@[simp] theorem Instr.fields_vor (f : Fields) : (Instr.vor f).fields = some f := rfl
@[simp] theorem Instr.opc_vor (f : Fields) : (Instr.vor f).opc = some (1, 22) := rfl
@[simp] theorem Instr.form_vxor (f : Fields) : (Instr.vxor f).form = some ⟨.A, .opt, .none, .vrw, .vrd, .vrd, .none⟩ := rfl
@[simp] theorem Instr.fields_vxor (f : Fields) : (Instr.vxor f).fields = some f := rfl
@[simp] theorem Instr.opc_vxor (f : Fields) : (Instr.vxor f).opc = some (1, 23) := rfl
@[simp] theorem Instr.form_vshl (f : Fields) : (Instr.vshl f).form = some ⟨.A, .opt, .tInt, .vrw, .vrd, .vrd, .none⟩ := rfl
@[simp] theorem Instr.fields_vshl (f : Fields) : (Instr.vshl f).fields = some f := rfl
@[simp] theorem Instr.opc_vshl (f : Fields) : (Instr.vshl f).opc = some (1, 24) := rfl
@[simp] theorem Instr.form_vshr (f : Fields) : (Instr.vshr f).form = some ⟨.A, .opt, .tInt, .vrw, .vrd, .vrd, .none⟩ := rfl
@[simp] theorem Instr.fields_vshr (f : Fields) : (Instr.vshr f).fields = some f := rfl
@[simp] theorem Instr.opc_vshr (f : Fields) : (Instr.vshr f).opc = some (1, 25) := rfl
@[simp] theorem Instr.form_vldl (f : Fields) : (Instr.vldl f).form = some ⟨.L, .no, .none, .vwr, .ptr, .none, .none⟩ := rfl
@[simp] theorem Instr.fields_vldl (f : Fields) : (Instr.vldl f).fields = some f := rfl
@[simp] theorem Instr.opc_vldl (f : Fields) : (Instr.vldl f).opc = some (1, 26) := rfl
@[simp] theorem Instr.form_vstl (f : Fields) : (Instr.vstl f).form = some ⟨.L, .no, .none, .vrd, .ptr, .none, .none⟩ := rfl
@[simp] theorem Instr.fields_vstl (f : Fields) : (Instr.vstl f).fields = some f := rfl
@[simp] theorem Instr.opc_vstl (f : Fields) : (Instr.vstl f).opc = some (1, 27) := rfl
@[simp] theorem Instr.form_vldg (f : Fields) : (Instr.vldg f).form = some ⟨.L, .no, .seg, .vwr, .base, .none, .signed⟩ := rfl
@[simp] theorem Instr.fields_vldg (f : Fields) : (Instr.vldg f).fields = some f := rfl
@[simp] theorem Instr.opc_vldg (f : Fields) : (Instr.vldg f).opc = some (1, 28) := rfl
@[simp] theorem Instr.form_vstg (f : Fields) : (Instr.vstg f).form = some ⟨.L, .no, .seg, .vrd, .base, .none, .signed⟩ := rfl
@[simp] theorem Instr.fields_vstg (f : Fields) : (Instr.vstg f).fields = some f := rfl
@[simp] theorem Instr.opc_vstg (f : Fields) : (Instr.vstg f).opc = some (1, 29) := rfl
@[simp] theorem Instr.form_vgath (f : Fields) : (Instr.vgath f).form = some ⟨.L, .req, .gStore, .vwr, .base, .vrd, .none⟩ := rfl
@[simp] theorem Instr.fields_vgath (f : Fields) : (Instr.vgath f).fields = some f := rfl
@[simp] theorem Instr.opc_vgath (f : Fields) : (Instr.vgath f).opc = some (1, 30) := rfl
@[simp] theorem Instr.form_vscat (f : Fields) : (Instr.vscat f).form = some ⟨.L, .req, .gStore, .vrd, .base, .vrd, .none⟩ := rfl
@[simp] theorem Instr.fields_vscat (f : Fields) : (Instr.vscat f).fields = some f := rfl
@[simp] theorem Instr.opc_vscat (f : Fields) : (Instr.vscat f).opc = some (1, 31) := rfl
@[simp] theorem Instr.form_vscale (f : Fields) : (Instr.vscale f).form = some ⟨.A, .opt, .fFloat, .vrw, .vrd, .vrd, .none⟩ := rfl
@[simp] theorem Instr.fields_vscale (f : Fields) : (Instr.vscale f).fields = some f := rfl
@[simp] theorem Instr.opc_vscale (f : Fields) : (Instr.vscale f).opc = some (1, 32) := rfl
@[simp] theorem Instr.form_vclamp (f : Fields) : (Instr.vclamp f).form = some ⟨.A, .req, .tAny, .vrw, .vrd, .vrd, .none⟩ := rfl
@[simp] theorem Instr.fields_vclamp (f : Fields) : (Instr.vclamp f).fields = some f := rfl
@[simp] theorem Instr.opc_vclamp (f : Fields) : (Instr.vclamp f).opc = some (1, 33) := rfl
@[simp] theorem Instr.form_fadd (f : Fields) : (Instr.fadd f).form = some ⟨.A, .opt, .fArith, .rw, .rd, .rd, .none⟩ := rfl
@[simp] theorem Instr.fields_fadd (f : Fields) : (Instr.fadd f).fields = some f := rfl
@[simp] theorem Instr.opc_fadd (f : Fields) : (Instr.fadd f).opc = some (1, 34) := rfl
@[simp] theorem Instr.form_fsub (f : Fields) : (Instr.fsub f).form = some ⟨.A, .opt, .fArith, .rw, .rd, .rd, .none⟩ := rfl
@[simp] theorem Instr.fields_fsub (f : Fields) : (Instr.fsub f).fields = some f := rfl
@[simp] theorem Instr.opc_fsub (f : Fields) : (Instr.fsub f).opc = some (1, 35) := rfl
@[simp] theorem Instr.form_fmul (f : Fields) : (Instr.fmul f).form = some ⟨.A, .opt, .fArith, .rw, .rd, .rd, .none⟩ := rfl
@[simp] theorem Instr.fields_fmul (f : Fields) : (Instr.fmul f).fields = some f := rfl
@[simp] theorem Instr.opc_fmul (f : Fields) : (Instr.fmul f).opc = some (1, 36) := rfl
@[simp] theorem Instr.form_ffma (f : Fields) : (Instr.ffma f).form = some ⟨.A, .req, .fArith, .rw, .rd, .rd, .none⟩ := rfl
@[simp] theorem Instr.fields_ffma (f : Fields) : (Instr.ffma f).fields = some f := rfl
@[simp] theorem Instr.opc_ffma (f : Fields) : (Instr.ffma f).opc = some (1, 37) := rfl
@[simp] theorem Instr.form_fmin (f : Fields) : (Instr.fmin f).form = some ⟨.A, .opt, .tAny, .rw, .rd, .rd, .none⟩ := rfl
@[simp] theorem Instr.fields_fmin (f : Fields) : (Instr.fmin f).fields = some f := rfl
@[simp] theorem Instr.opc_fmin (f : Fields) : (Instr.fmin f).opc = some (1, 38) := rfl
@[simp] theorem Instr.form_fmax (f : Fields) : (Instr.fmax f).form = some ⟨.A, .opt, .tAny, .rw, .rd, .rd, .none⟩ := rfl
@[simp] theorem Instr.fields_fmax (f : Fields) : (Instr.fmax f).fields = some f := rfl
@[simp] theorem Instr.opc_fmax (f : Fields) : (Instr.fmax f).opc = some (1, 39) := rfl
@[simp] theorem Instr.form_fcmp (f : Fields) : (Instr.fcmp f).form = some ⟨.A, .req, .tAny, .wr, .rd, .rd, .none⟩ := rfl
@[simp] theorem Instr.fields_fcmp (f : Fields) : (Instr.fcmp f).fields = some f := rfl
@[simp] theorem Instr.opc_fcmp (f : Fields) : (Instr.fcmp f).opc = some (1, 40) := rfl
@[simp] theorem Instr.form_fcvt (f : Fields) : (Instr.fcvt f).form = some ⟨.A, .req, .fConv, .wr, .rd, .none, .none⟩ := rfl
@[simp] theorem Instr.fields_fcvt (f : Fields) : (Instr.fcvt f).fields = some f := rfl
@[simp] theorem Instr.opc_fcvt (f : Fields) : (Instr.fcvt f).opc = some (1, 41) := rfl
@[simp] theorem Instr.form_frcp (f : Fields) : (Instr.frcp f).form = some ⟨.A, .no, .fFloat, .wr, .rd, .none, .none⟩ := rfl
@[simp] theorem Instr.fields_frcp (f : Fields) : (Instr.frcp f).fields = some f := rfl
@[simp] theorem Instr.opc_frcp (f : Fields) : (Instr.frcp f).opc = some (1, 42) := rfl
@[simp] theorem Instr.form_frsq (f : Fields) : (Instr.frsq f).form = some ⟨.A, .no, .fFloat, .wr, .rd, .none, .none⟩ := rfl
@[simp] theorem Instr.fields_frsq (f : Fields) : (Instr.frsq f).fields = some f := rfl
@[simp] theorem Instr.opc_frsq (f : Fields) : (Instr.frsq f).opc = some (1, 43) := rfl
@[simp] theorem Instr.form_bpack (f : Fields) : (Instr.bpack f).form = some ⟨.L, .no, .pack, .ptr, .ptr, .none, .none⟩ := rfl
@[simp] theorem Instr.fields_bpack (f : Fields) : (Instr.bpack f).fields = some f := rfl
@[simp] theorem Instr.opc_bpack (f : Fields) : (Instr.bpack f).opc = some (2, 1) := rfl
@[simp] theorem Instr.form_bunpk (f : Fields) : (Instr.bunpk f).form = some ⟨.L, .no, .pack, .ptr, .ptr, .none, .none⟩ := rfl
@[simp] theorem Instr.fields_bunpk (f : Fields) : (Instr.bunpk f).fields = some f := rfl
@[simp] theorem Instr.opc_bunpk (f : Fields) : (Instr.bunpk f).opc = some (2, 2) := rfl
@[simp] theorem Instr.form_plxp (f : Fields) : (Instr.plxp f).form = some ⟨.A, .no, .inv, .vwr, .vrd, .none, .none⟩ := rfl
@[simp] theorem Instr.fields_plxp (f : Fields) : (Instr.plxp f).fields = some f := rfl
@[simp] theorem Instr.opc_plxp (f : Fields) : (Instr.plxp f).opc = some (2, 3) := rfl
@[simp] theorem Instr.form_pldot (f : Fields) : (Instr.pldot f).form = some ⟨.A, .req, .none, .rw, .rd, .rd, .none⟩ := rfl
@[simp] theorem Instr.fields_pldot (f : Fields) : (Instr.pldot f).fields = some f := rfl
@[simp] theorem Instr.opc_pldot (f : Fields) : (Instr.pldot f).opc = some (2, 4) := rfl
@[simp] theorem Instr.form_mfmt (f : Fields) : (Instr.mfmt f).form = some ⟨.A, .no, .none, .rw, .none, .none, .none⟩ := rfl
@[simp] theorem Instr.fields_mfmt (f : Fields) : (Instr.mfmt f).fields = some f := rfl
@[simp] theorem Instr.opc_mfmt (f : Fields) : (Instr.mfmt f).opc = some (2, 5) := rfl
@[simp] theorem Instr.form_mzero (f : Fields) : (Instr.mzero f).form = some ⟨.A, .no, .none, .tile, .none, .none, .none⟩ := rfl
@[simp] theorem Instr.fields_mzero (f : Fields) : (Instr.mzero f).fields = some f := rfl
@[simp] theorem Instr.opc_mzero (f : Fields) : (Instr.mzero f).opc = some (2, 6) := rfl
@[simp] theorem Instr.form_mma (f : Fields) : (Instr.mma f).form = some ⟨.L, .req, .eMma, (.sel 3), .base, .rd, .none⟩ := rfl
@[simp] theorem Instr.fields_mma (f : Fields) : (Instr.mma f).fields = some f := rfl
@[simp] theorem Instr.opc_mma (f : Fields) : (Instr.mma f).opc = some (2, 7) := rfl
@[simp] theorem Instr.form_mstore (f : Fields) : (Instr.mstore f).form = some ⟨.L, .no, .eMstore, (.sel 3), .base, .none, .signed⟩ := rfl
@[simp] theorem Instr.fields_mstore (f : Fields) : (Instr.mstore f).fields = some f := rfl
@[simp] theorem Instr.opc_mstore (f : Fields) : (Instr.mstore f).opc = some (2, 8) := rfl
@[simp] theorem Instr.form_mstat (f : Fields) : (Instr.mstat f).form = some ⟨.A, .no, .none, .wr, .none, .none, .none⟩ := rfl
@[simp] theorem Instr.fields_mstat (f : Fields) : (Instr.mstat f).fields = some f := rfl
@[simp] theorem Instr.opc_mstat (f : Fields) : (Instr.mstat f).opc = some (2, 9) := rfl
@[simp] theorem Instr.form_mtest (f : Fields) : (Instr.mtest f).form = some ⟨.N, .no, .none, .none, .none, .none, .none⟩ := rfl
@[simp] theorem Instr.fields_mtest (f : Fields) : (Instr.mtest f).fields = some f := rfl
@[simp] theorem Instr.opc_mtest (f : Fields) : (Instr.mtest f).opc = some (2, 10) := rfl
@[simp] theorem Instr.form_mfree (f : Fields) : (Instr.mfree f).form = some ⟨.A, .no, .none, .tile, .none, .none, .none⟩ := rfl
@[simp] theorem Instr.fields_mfree (f : Fields) : (Instr.mfree f).fields = some f := rfl
@[simp] theorem Instr.opc_mfree (f : Fields) : (Instr.mfree f).opc = some (2, 11) := rfl
@[simp] theorem Instr.form_vwnew (f : Fields) : (Instr.vwnew f).form = some ⟨.A, .no, .none, .wr, .rd, .none, .none⟩ := rfl
@[simp] theorem Instr.fields_vwnew (f : Fields) : (Instr.vwnew f).fields = some f := rfl
@[simp] theorem Instr.opc_vwnew (f : Fields) : (Instr.vwnew f).opc = some (3, 1) := rfl
@[simp] theorem Instr.form_vwdup (f : Fields) : (Instr.vwdup f).form = some ⟨.A, .no, .none, .wr, .base, .none, .none⟩ := rfl
@[simp] theorem Instr.fields_vwdup (f : Fields) : (Instr.vwdup f).fields = some f := rfl
@[simp] theorem Instr.opc_vwdup (f : Fields) : (Instr.vwdup f).opc = some (3, 2) := rfl
@[simp] theorem Instr.form_vwsplit (f : Fields) : (Instr.vwsplit f).form = some ⟨.A, .req, .none, .wrp, .base, .rd, .none⟩ := rfl
@[simp] theorem Instr.fields_vwsplit (f : Fields) : (Instr.vwsplit f).fields = some f := rfl
@[simp] theorem Instr.opc_vwsplit (f : Fields) : (Instr.vwsplit f).opc = some (3, 3) := rfl
@[simp] theorem Instr.form_vwnarrow (f : Fields) : (Instr.vwnarrow f).form = some ⟨.A, .req, .none, .base, .rd, .rd, .none⟩ := rfl
@[simp] theorem Instr.fields_vwnarrow (f : Fields) : (Instr.vwnarrow f).fields = some f := rfl
@[simp] theorem Instr.opc_vwnarrow (f : Fields) : (Instr.vwnarrow f).opc = some (3, 4) := rfl
@[simp] theorem Instr.form_vwdrop (f : Fields) : (Instr.vwdrop f).form = some ⟨.A, .no, .none, .base, .none, .none, .none⟩ := rfl
@[simp] theorem Instr.fields_vwdrop (f : Fields) : (Instr.vwdrop f).fields = some f := rfl
@[simp] theorem Instr.opc_vwdrop (f : Fields) : (Instr.vwdrop f).opc = some (3, 5) := rfl
@[simp] theorem Instr.form_vwinfo (f : Fields) : (Instr.vwinfo f).form = some ⟨.A, .no, .none, .wrp, .base, .none, .none⟩ := rfl
@[simp] theorem Instr.fields_vwinfo (f : Fields) : (Instr.vwinfo f).fields = some f := rfl
@[simp] theorem Instr.opc_vwinfo (f : Fields) : (Instr.vwinfo f).opc = some (3, 6) := rfl
@[simp] theorem Instr.form_ldv (f : Fields) : (Instr.ldv f).form = some ⟨.L, .req, .lLoad, .wr, .base, .base, .none⟩ := rfl
@[simp] theorem Instr.fields_ldv (f : Fields) : (Instr.ldv f).fields = some f := rfl
@[simp] theorem Instr.opc_ldv (f : Fields) : (Instr.ldv f).opc = some (3, 7) := rfl
@[simp] theorem Instr.form_stv (f : Fields) : (Instr.stv f).form = some ⟨.L, .req, .lStore, .rd, .base, .base, .none⟩ := rfl
@[simp] theorem Instr.fields_stv (f : Fields) : (Instr.stv f).fields = some f := rfl
@[simp] theorem Instr.opc_stv (f : Fields) : (Instr.stv f).opc = some (3, 8) := rfl
@[simp] theorem Instr.form_sanew (f : Fields) : (Instr.sanew f).form = some ⟨.A, .no, .seg, .rw, .base, .none, .signed⟩ := rfl
@[simp] theorem Instr.fields_sanew (f : Fields) : (Instr.sanew f).fields = some f := rfl
@[simp] theorem Instr.opc_sanew (f : Fields) : (Instr.sanew f).opc = some (3, 9) := rfl
@[simp] theorem Instr.form_saadd (f : Fields) : (Instr.saadd f).form = some ⟨.A, .no, .st, .vrd, .base, .none, .signed⟩ := rfl
@[simp] theorem Instr.fields_saadd (f : Fields) : (Instr.saadd f).fields = some f := rfl
@[simp] theorem Instr.opc_saadd (f : Fields) : (Instr.saadd f).opc = some (3, 10) := rfl
@[simp] theorem Instr.form_saread (f : Fields) : (Instr.saread f).form = some ⟨.L, .no, .saread, .vwr, .base, .none, .signed⟩ := rfl
@[simp] theorem Instr.fields_saread (f : Fields) : (Instr.saread f).fields = some f := rfl
@[simp] theorem Instr.opc_saread (f : Fields) : (Instr.saread f).opc = some (3, 11) := rfl
@[simp] theorem Instr.form_sainfo (f : Fields) : (Instr.sainfo f).form = some ⟨.A, .no, .seg, .rw, .base, .none, .signed⟩ := rfl
@[simp] theorem Instr.fields_sainfo (f : Fields) : (Instr.sainfo f).fields = some f := rfl
@[simp] theorem Instr.opc_sainfo (f : Fields) : (Instr.sainfo f).opc = some (3, 12) := rfl
@[simp] theorem Instr.form_saevict (f : Fields) : (Instr.saevict f).form = some ⟨.A, .no, .saevict, .rw, .base, .none, .signed⟩ := rfl
@[simp] theorem Instr.fields_saevict (f : Fields) : (Instr.saevict f).fields = some f := rfl
@[simp] theorem Instr.opc_saevict (f : Fields) : (Instr.saevict f).opc = some (3, 13) := rfl
@[simp] theorem Instr.form_safree (f : Fields) : (Instr.safree f).form = some ⟨.A, .no, .seg, .none, .base, .none, .signed⟩ := rfl
@[simp] theorem Instr.fields_safree (f : Fields) : (Instr.safree f).fields = some f := rfl
@[simp] theorem Instr.opc_safree (f : Fields) : (Instr.safree f).opc = some (3, 14) := rfl
@[simp] theorem Instr.form_amoadd (f : Fields) : (Instr.amoadd f).form = some ⟨.L, .req, .gStore, .wr, .base, .rd, .signed⟩ := rfl
@[simp] theorem Instr.fields_amoadd (f : Fields) : (Instr.amoadd f).fields = some f := rfl
@[simp] theorem Instr.opc_amoadd (f : Fields) : (Instr.amoadd f).opc = some (3, 15) := rfl
@[simp] theorem Instr.form_amoand (f : Fields) : (Instr.amoand f).form = some ⟨.L, .req, .gStore, .wr, .base, .rd, .signed⟩ := rfl
@[simp] theorem Instr.fields_amoand (f : Fields) : (Instr.amoand f).fields = some f := rfl
@[simp] theorem Instr.opc_amoand (f : Fields) : (Instr.amoand f).opc = some (3, 16) := rfl
@[simp] theorem Instr.form_amoor (f : Fields) : (Instr.amoor f).form = some ⟨.L, .req, .gStore, .wr, .base, .rd, .signed⟩ := rfl
@[simp] theorem Instr.fields_amoor (f : Fields) : (Instr.amoor f).fields = some f := rfl
@[simp] theorem Instr.opc_amoor (f : Fields) : (Instr.amoor f).opc = some (3, 17) := rfl
@[simp] theorem Instr.form_amoxor (f : Fields) : (Instr.amoxor f).form = some ⟨.L, .req, .gStore, .wr, .base, .rd, .signed⟩ := rfl
@[simp] theorem Instr.fields_amoxor (f : Fields) : (Instr.amoxor f).fields = some f := rfl
@[simp] theorem Instr.opc_amoxor (f : Fields) : (Instr.amoxor f).opc = some (3, 18) := rfl
@[simp] theorem Instr.form_amomin (f : Fields) : (Instr.amomin f).form = some ⟨.L, .req, .gStore, .wr, .base, .rd, .signed⟩ := rfl
@[simp] theorem Instr.fields_amomin (f : Fields) : (Instr.amomin f).fields = some f := rfl
@[simp] theorem Instr.opc_amomin (f : Fields) : (Instr.amomin f).opc = some (3, 19) := rfl
@[simp] theorem Instr.form_amomax (f : Fields) : (Instr.amomax f).form = some ⟨.L, .req, .gStore, .wr, .base, .rd, .signed⟩ := rfl
@[simp] theorem Instr.fields_amomax (f : Fields) : (Instr.amomax f).fields = some f := rfl
@[simp] theorem Instr.opc_amomax (f : Fields) : (Instr.amomax f).opc = some (3, 20) := rfl
@[simp] theorem Instr.form_amoswap (f : Fields) : (Instr.amoswap f).form = some ⟨.L, .req, .gStore, .wr, .base, .rd, .signed⟩ := rfl
@[simp] theorem Instr.fields_amoswap (f : Fields) : (Instr.amoswap f).fields = some f := rfl
@[simp] theorem Instr.opc_amoswap (f : Fields) : (Instr.amoswap f).opc = some (3, 21) := rfl
@[simp] theorem Instr.form_amocas (f : Fields) : (Instr.amocas f).form = some ⟨.L, .req, .gStore, .rw, .base, .rd, .signed⟩ := rfl
@[simp] theorem Instr.fields_amocas (f : Fields) : (Instr.amocas f).fields = some f := rfl
@[simp] theorem Instr.opc_amocas (f : Fields) : (Instr.amocas f).opc = some (3, 22) := rfl
@[simp] theorem Instr.form_amofadd (f : Fields) : (Instr.amofadd f).form = some ⟨.L, .req, .gFloat, .wr, .base, .rd, .signed⟩ := rfl
@[simp] theorem Instr.fields_amofadd (f : Fields) : (Instr.amofadd f).fields = some f := rfl
@[simp] theorem Instr.opc_amofadd (f : Fields) : (Instr.amofadd f).opc = some (3, 23) := rfl
@[simp] theorem Instr.form_cflush (f : Fields) : (Instr.cflush f).form = some ⟨.A, .no, .seg, .rw, .base, .none, .signed⟩ := rfl
@[simp] theorem Instr.fields_cflush (f : Fields) : (Instr.cflush f).fields = some f := rfl
@[simp] theorem Instr.opc_cflush (f : Fields) : (Instr.cflush f).opc = some (3, 24) := rfl
@[simp] theorem Instr.form_cinv (f : Fields) : (Instr.cinv f).form = some ⟨.A, .no, .seg, .rw, .base, .none, .signed⟩ := rfl
@[simp] theorem Instr.fields_cinv (f : Fields) : (Instr.cinv f).fields = some f := rfl
@[simp] theorem Instr.opc_cinv (f : Fields) : (Instr.cinv f).opc = some (3, 25) := rfl
@[simp] theorem Instr.form_pghot (f : Fields) : (Instr.pghot f).form = some ⟨.A, .no, .seg, .rw, .base, .none, .signed⟩ := rfl
@[simp] theorem Instr.fields_pghot (f : Fields) : (Instr.pghot f).fields = some f := rfl
@[simp] theorem Instr.opc_pghot (f : Fields) : (Instr.pghot f).opc = some (3, 26) := rfl
@[simp] theorem Instr.form_pgmig (f : Fields) : (Instr.pgmig f).form = some ⟨.A, .no, .seg, .rw, .base, .none, .signed⟩ := rfl
@[simp] theorem Instr.fields_pgmig (f : Fields) : (Instr.pgmig f).fields = some f := rfl
@[simp] theorem Instr.opc_pgmig (f : Fields) : (Instr.pgmig f).opc = some (3, 27) := rfl
@[simp] theorem Instr.form_xlate (f : Fields) : (Instr.xlate f).form = some ⟨.A, .no, .seg, .wr, .base, .none, .signed⟩ := rfl
@[simp] theorem Instr.fields_xlate (f : Fields) : (Instr.xlate f).fields = some f := rfl
@[simp] theorem Instr.opc_xlate (f : Fields) : (Instr.xlate f).opc = some (3, 28) := rfl
@[simp] theorem Instr.form_setcoh (f : Fields) : (Instr.setcoh f).form = some ⟨.A, .no, .seg, .rw, .base, .none, .signed⟩ := rfl
@[simp] theorem Instr.fields_setcoh (f : Fields) : (Instr.setcoh f).fields = some f := rfl
@[simp] theorem Instr.opc_setcoh (f : Fields) : (Instr.setcoh f).opc = some (3, 29) := rfl
@[simp] theorem Instr.form_spawn (f : Fields) : (Instr.spawn f).form = some ⟨.A, .req, .none, .wr, .rd, .rd, .none⟩ := rfl
@[simp] theorem Instr.fields_spawn (f : Fields) : (Instr.spawn f).fields = some f := rfl
@[simp] theorem Instr.opc_spawn (f : Fields) : (Instr.spawn f).opc = some (4, 1) := rfl
@[simp] theorem Instr.form_yield (f : Fields) : (Instr.yield f).form = some ⟨.N, .no, .none, .none, .none, .none, .none⟩ := rfl
@[simp] theorem Instr.fields_yield (f : Fields) : (Instr.yield f).fields = some f := rfl
@[simp] theorem Instr.opc_yield (f : Fields) : (Instr.yield f).opc = some (4, 2) := rfl
@[simp] theorem Instr.form_exit (f : Fields) : (Instr.exit f).form = some ⟨.A, .no, .none, .rd, .none, .none, .none⟩ := rfl
@[simp] theorem Instr.fields_exit (f : Fields) : (Instr.exit f).fields = some f := rfl
@[simp] theorem Instr.opc_exit (f : Fields) : (Instr.exit f).opc = some (4, 3) := rfl
@[simp] theorem Instr.form_tid (f : Fields) : (Instr.tid f).form = some ⟨.A, .no, .none, .wr, .none, .none, .none⟩ := rfl
@[simp] theorem Instr.fields_tid (f : Fields) : (Instr.tid f).fields = some f := rfl
@[simp] theorem Instr.opc_tid (f : Fields) : (Instr.tid f).opc = some (4, 4) := rfl
@[simp] theorem Instr.form_join (f : Fields) : (Instr.join f).form = some ⟨.A, .no, .none, .wr, .rd, .none, .none⟩ := rfl
@[simp] theorem Instr.fields_join (f : Fields) : (Instr.join f).fields = some f := rfl
@[simp] theorem Instr.opc_join (f : Fields) : (Instr.join f).opc = some (4, 5) := rfl
@[simp] theorem Instr.form_leave (f : Fields) : (Instr.leave f).form = some ⟨.A, .no, .none, .wr, .rd, .none, .none⟩ := rfl
@[simp] theorem Instr.fields_leave (f : Fields) : (Instr.leave f).fields = some f := rfl
@[simp] theorem Instr.opc_leave (f : Fields) : (Instr.leave f).opc = some (4, 6) := rfl
@[simp] theorem Instr.form_grpinfo (f : Fields) : (Instr.grpinfo f).form = some ⟨.A, .no, .none, .wr, .rd, .none, .none⟩ := rfl
@[simp] theorem Instr.fields_grpinfo (f : Fields) : (Instr.grpinfo f).fields = some f := rfl
@[simp] theorem Instr.opc_grpinfo (f : Fields) : (Instr.grpinfo f).opc = some (4, 7) := rfl
@[simp] theorem Instr.form_syinit (f : Fields) : (Instr.syinit f).form = some ⟨.A, .no, .seg, .rwp, .base, .none, .signed⟩ := rfl
@[simp] theorem Instr.fields_syinit (f : Fields) : (Instr.syinit f).fields = some f := rfl
@[simp] theorem Instr.opc_syinit (f : Fields) : (Instr.syinit f).opc = some (4, 8) := rfl
@[simp] theorem Instr.form_syacq (f : Fields) : (Instr.syacq f).form = some ⟨.A, .no, .seg, .rw, .base, .none, .signed⟩ := rfl
@[simp] theorem Instr.fields_syacq (f : Fields) : (Instr.syacq f).fields = some f := rfl
@[simp] theorem Instr.opc_syacq (f : Fields) : (Instr.syacq f).opc = some (4, 9) := rfl
@[simp] theorem Instr.form_sytry (f : Fields) : (Instr.sytry f).form = some ⟨.A, .no, .seg, .wr, .base, .none, .signed⟩ := rfl
@[simp] theorem Instr.fields_sytry (f : Fields) : (Instr.sytry f).fields = some f := rfl
@[simp] theorem Instr.opc_sytry (f : Fields) : (Instr.sytry f).opc = some (4, 10) := rfl
@[simp] theorem Instr.form_syrel (f : Fields) : (Instr.syrel f).form = some ⟨.A, .no, .seg, .none, .base, .none, .signed⟩ := rfl
@[simp] theorem Instr.fields_syrel (f : Fields) : (Instr.syrel f).fields = some f := rfl
@[simp] theorem Instr.opc_syrel (f : Fields) : (Instr.syrel f).opc = some (4, 11) := rfl
@[simp] theorem Instr.form_sydlg (f : Fields) : (Instr.sydlg f).form = some ⟨.A, .no, .seg, .rd, .base, .none, .signed⟩ := rfl
@[simp] theorem Instr.fields_sydlg (f : Fields) : (Instr.sydlg f).fields = some f := rfl
@[simp] theorem Instr.opc_sydlg (f : Fields) : (Instr.sydlg f).opc = some (4, 12) := rfl
@[simp] theorem Instr.form_syarv (f : Fields) : (Instr.syarv f).form = some ⟨.A, .no, .seg, .none, .base, .none, .signed⟩ := rfl
@[simp] theorem Instr.fields_syarv (f : Fields) : (Instr.syarv f).fields = some f := rfl
@[simp] theorem Instr.opc_syarv (f : Fields) : (Instr.syarv f).opc = some (4, 13) := rfl
@[simp] theorem Instr.form_sywait (f : Fields) : (Instr.sywait f).form = some ⟨.A, .no, .seg, .rw, .base, .none, .signed⟩ := rfl
@[simp] theorem Instr.fields_sywait (f : Fields) : (Instr.sywait f).fields = some f := rfl
@[simp] theorem Instr.opc_sywait (f : Fields) : (Instr.sywait f).opc = some (4, 14) := rfl
@[simp] theorem Instr.form_symode (f : Fields) : (Instr.symode f).form = some ⟨.A, .no, .seg, .wr, .base, .none, .signed⟩ := rfl
@[simp] theorem Instr.fields_symode (f : Fields) : (Instr.symode f).fields = some f := rfl
@[simp] theorem Instr.opc_symode (f : Fields) : (Instr.symode f).opc = some (4, 15) := rfl
@[simp] theorem Instr.form_hbarv (f : Fields) : (Instr.hbarv f).form = some ⟨.K, .no, .none, .none, .none, .none, .short⟩ := rfl
@[simp] theorem Instr.fields_hbarv (f : Fields) : (Instr.hbarv f).fields = some f := rfl
@[simp] theorem Instr.opc_hbarv (f : Fields) : (Instr.hbarv f).opc = some (4, 16) := rfl
@[simp] theorem Instr.form_hbwait (f : Fields) : (Instr.hbwait f).form = some ⟨.K, .no, .none, .wr, .none, .none, .short⟩ := rfl
@[simp] theorem Instr.fields_hbwait (f : Fields) : (Instr.hbwait f).fields = some f := rfl
@[simp] theorem Instr.opc_hbwait (f : Fields) : (Instr.hbwait f).opc = some (4, 17) := rfl
@[simp] theorem Instr.form_hbcfg (f : Fields) : (Instr.hbcfg f).form = some ⟨.K, .no, .none, .rw, .none, .none, .short⟩ := rfl
@[simp] theorem Instr.fields_hbcfg (f : Fields) : (Instr.hbcfg f).fields = some f := rfl
@[simp] theorem Instr.opc_hbcfg (f : Fields) : (Instr.hbcfg f).opc = some (4, 18) := rfl
@[simp] theorem Instr.form_cpy (f : Fields) : (Instr.cpy f).form = some ⟨.A, .no, .eCopy, .rd, .base, .none, .none⟩ := rfl
@[simp] theorem Instr.fields_cpy (f : Fields) : (Instr.cpy f).fields = some f := rfl
@[simp] theorem Instr.opc_cpy (f : Fields) : (Instr.cpy f).opc = some (5, 1) := rfl
@[simp] theorem Instr.form_cpy2d (f : Fields) : (Instr.cpy2d f).form = some ⟨.A, .no, .eCopy, .rd, .base, .none, .none⟩ := rfl
@[simp] theorem Instr.fields_cpy2d (f : Fields) : (Instr.cpy2d f).fields = some f := rfl
@[simp] theorem Instr.opc_cpy2d (f : Fields) : (Instr.cpy2d f).opc = some (5, 2) := rfl
@[simp] theorem Instr.form_cpyq (f : Fields) : (Instr.cpyq f).form = some ⟨.A, .no, .eCopy, .rd, .base, .none, .none⟩ := rfl
@[simp] theorem Instr.fields_cpyq (f : Fields) : (Instr.cpyq f).fields = some f := rfl
@[simp] theorem Instr.opc_cpyq (f : Fields) : (Instr.cpyq f).opc = some (5, 3) := rfl
@[simp] theorem Instr.form_sdesc (f : Fields) : (Instr.sdesc f).form = some ⟨.A, .no, .none, .wr, .base, .none, .none⟩ := rfl
@[simp] theorem Instr.fields_sdesc (f : Fields) : (Instr.sdesc f).fields = some f := rfl
@[simp] theorem Instr.opc_sdesc (f : Fields) : (Instr.sdesc f).opc = some (5, 4) := rfl
@[simp] theorem Instr.form_sdstop (f : Fields) : (Instr.sdstop f).form = some ⟨.A, .no, .none, .none, .rd, .none, .none⟩ := rfl
@[simp] theorem Instr.fields_sdstop (f : Fields) : (Instr.sdstop f).fields = some f := rfl
@[simp] theorem Instr.opc_sdstop (f : Fields) : (Instr.sdstop f).opc = some (5, 5) := rfl
@[simp] theorem Instr.form_swinit (f : Fields) : (Instr.swinit f).form = some ⟨.A, .no, .none, .ptr, .rd, .none, .none⟩ := rfl
@[simp] theorem Instr.fields_swinit (f : Fields) : (Instr.swinit f).fields = some f := rfl
@[simp] theorem Instr.opc_swinit (f : Fields) : (Instr.swinit f).opc = some (5, 6) := rfl
@[simp] theorem Instr.form_swwait (f : Fields) : (Instr.swwait f).form = some ⟨.A, .no, .none, .rw, .ptr, .none, .none⟩ := rfl
@[simp] theorem Instr.fields_swwait (f : Fields) : (Instr.swwait f).fields = some f := rfl
@[simp] theorem Instr.opc_swwait (f : Fields) : (Instr.swwait f).opc = some (5, 7) := rfl
@[simp] theorem Instr.form_qcfg (f : Fields) : (Instr.qcfg f).form = some ⟨.A, .no, .none, .rw, .rd, .none, .none⟩ := rfl
@[simp] theorem Instr.fields_qcfg (f : Fields) : (Instr.qcfg f).fields = some f := rfl
@[simp] theorem Instr.opc_qcfg (f : Fields) : (Instr.qcfg f).opc = some (5, 8) := rfl
@[simp] theorem Instr.form_qstat (f : Fields) : (Instr.qstat f).form = some ⟨.A, .no, .none, .wr, .rd, .none, .none⟩ := rfl
@[simp] theorem Instr.fields_qstat (f : Fields) : (Instr.qstat f).fields = some f := rfl
@[simp] theorem Instr.opc_qstat (f : Fields) : (Instr.qstat f).opc = some (5, 9) := rfl
@[simp] theorem Instr.form_nopen (f : Fields) : (Instr.nopen f).form = some ⟨.K, .no, .none, .rw, .none, .none, .short⟩ := rfl
@[simp] theorem Instr.fields_nopen (f : Fields) : (Instr.nopen f).fields = some f := rfl
@[simp] theorem Instr.opc_nopen (f : Fields) : (Instr.nopen f).opc = some (5, 10) := rfl
@[simp] theorem Instr.form_nsende (f : Fields) : (Instr.nsende f).form = some ⟨.K, .no, .none, .rd, .none, .none, .short⟩ := rfl
@[simp] theorem Instr.fields_nsende (f : Fields) : (Instr.nsende f).fields = some f := rfl
@[simp] theorem Instr.opc_nsende (f : Fields) : (Instr.nsende f).opc = some (5, 11) := rfl
@[simp] theorem Instr.form_nstat (f : Fields) : (Instr.nstat f).form = some ⟨.K, .no, .none, .wr, .none, .none, .short⟩ := rfl
@[simp] theorem Instr.fields_nstat (f : Fields) : (Instr.nstat f).fields = some f := rfl
@[simp] theorem Instr.opc_nstat (f : Fields) : (Instr.nstat f).opc = some (5, 12) := rfl
@[simp] theorem Instr.form_waitm (f : Fields) : (Instr.waitm f).form = some ⟨.N, .no, .none, .none, .none, .none, .none⟩ := rfl
@[simp] theorem Instr.fields_waitm (f : Fields) : (Instr.waitm f).fields = some f := rfl
@[simp] theorem Instr.opc_waitm (f : Fields) : (Instr.waitm f).opc = some (5, 13) := rfl
@[simp] theorem Instr.form_msgrd (f : Fields) : (Instr.msgrd f).form = some ⟨.A, .no, .none, .wr, .wr, .none, .none⟩ := rfl
@[simp] theorem Instr.fields_msgrd (f : Fields) : (Instr.msgrd f).fields = some f := rfl
@[simp] theorem Instr.opc_msgrd (f : Fields) : (Instr.msgrd f).opc = some (5, 14) := rfl
@[simp] theorem Instr.form_msgsend (f : Fields) : (Instr.msgsend f).form = some ⟨.A, .req, .none, .rd, .rd, .rd, .none⟩ := rfl
@[simp] theorem Instr.fields_msgsend (f : Fields) : (Instr.msgsend f).fields = some f := rfl
@[simp] theorem Instr.opc_msgsend (f : Fields) : (Instr.msgsend f).opc = some (5, 15) := rfl
@[simp] theorem Instr.form_msgcnt (f : Fields) : (Instr.msgcnt f).form = some ⟨.A, .no, .none, .wr, .none, .none, .none⟩ := rfl
@[simp] theorem Instr.fields_msgcnt (f : Fields) : (Instr.msgcnt f).fields = some f := rfl
@[simp] theorem Instr.opc_msgcnt (f : Fields) : (Instr.msgcnt f).opc = some (5, 16) := rfl
@[simp] theorem Instr.form_bkmode (f : Fields) : (Instr.bkmode f).form = some ⟨.A, .no, .none, .wr, .rd, .none, .none⟩ := rfl
@[simp] theorem Instr.fields_bkmode (f : Fields) : (Instr.bkmode f).fields = some f := rfl
@[simp] theorem Instr.opc_bkmode (f : Fields) : (Instr.bkmode f).opc = some (5, 17) := rfl
@[simp] theorem Instr.form_bkinfo (f : Fields) : (Instr.bkinfo f).form = some ⟨.A, .no, .none, .wr, .rd, .none, .none⟩ := rfl
@[simp] theorem Instr.fields_bkinfo (f : Fields) : (Instr.bkinfo f).fields = some f := rfl
@[simp] theorem Instr.opc_bkinfo (f : Fields) : (Instr.bkinfo f).opc = some (5, 18) := rfl
@[simp] theorem Instr.form_trap (f : Fields) : (Instr.trap f).form = some ⟨.K, .no, .none, .none, .none, .none, .unsigned⟩ := rfl
@[simp] theorem Instr.fields_trap (f : Fields) : (Instr.trap f).fields = some f := rfl
@[simp] theorem Instr.opc_trap (f : Fields) : (Instr.trap f).opc = some (6, 1) := rfl
@[simp] theorem Instr.form_rett (f : Fields) : (Instr.rett f).form = some ⟨.N, .no, .none, .none, .none, .none, .none⟩ := rfl
@[simp] theorem Instr.fields_rett (f : Fields) : (Instr.rett f).fields = some f := rfl
@[simp] theorem Instr.opc_rett (f : Fields) : (Instr.rett f).opc = some (6, 2) := rfl
@[simp] theorem Instr.form_rdsr (f : Fields) : (Instr.rdsr f).form = some ⟨.K, .no, .none, .wr, .none, .none, .unsigned⟩ := rfl
@[simp] theorem Instr.fields_rdsr (f : Fields) : (Instr.rdsr f).fields = some f := rfl
@[simp] theorem Instr.opc_rdsr (f : Fields) : (Instr.rdsr f).opc = some (6, 3) := rfl
@[simp] theorem Instr.form_wrsr (f : Fields) : (Instr.wrsr f).form = some ⟨.K, .no, .none, .rd, .none, .none, .unsigned⟩ := rfl
@[simp] theorem Instr.fields_wrsr (f : Fields) : (Instr.wrsr f).fields = some f := rfl
@[simp] theorem Instr.opc_wrsr (f : Fields) : (Instr.wrsr f).opc = some (6, 4) := rfl
@[simp] theorem Instr.form_segld (f : Fields) : (Instr.segld f).form = some ⟨.A, .no, .seg, .seg, .base, .none, .signed⟩ := rfl
@[simp] theorem Instr.fields_segld (f : Fields) : (Instr.segld f).fields = some f := rfl
@[simp] theorem Instr.opc_segld (f : Fields) : (Instr.segld f).opc = some (6, 5) := rfl
@[simp] theorem Instr.form_segrd (f : Fields) : (Instr.segrd f).form = some ⟨.A, .req, .none, .wr, .seg, .none, .none⟩ := rfl
@[simp] theorem Instr.fields_segrd (f : Fields) : (Instr.segrd f).fields = some f := rfl
@[simp] theorem Instr.opc_segrd (f : Fields) : (Instr.segrd f).opc = some (6, 6) := rfl
@[simp] theorem Instr.form_ctxsv (f : Fields) : (Instr.ctxsv f).form = some ⟨.A, .no, .none, .rw, .none, .none, .none⟩ := rfl
@[simp] theorem Instr.fields_ctxsv (f : Fields) : (Instr.ctxsv f).fields = some f := rfl
@[simp] theorem Instr.opc_ctxsv (f : Fields) : (Instr.ctxsv f).opc = some (6, 7) := rfl
@[simp] theorem Instr.form_ctxld (f : Fields) : (Instr.ctxld f).form = some ⟨.A, .no, .none, .rw, .none, .none, .none⟩ := rfl
@[simp] theorem Instr.fields_ctxld (f : Fields) : (Instr.ctxld f).fields = some f := rfl
@[simp] theorem Instr.opc_ctxld (f : Fields) : (Instr.ctxld f).opc = some (6, 8) := rfl
@[simp] theorem Instr.form_brk (f : Fields) : (Instr.brk f).form = some ⟨.K, .no, .none, .none, .none, .none, .unsigned⟩ := rfl
@[simp] theorem Instr.fields_brk (f : Fields) : (Instr.brk f).fields = some f := rfl
@[simp] theorem Instr.opc_brk (f : Fields) : (Instr.brk f).opc = some (6, 9) := rfl
@[simp] theorem Instr.form_tntrd (f : Fields) : (Instr.tntrd f).form = some ⟨.A, .no, .none, .wr, .rd, .none, .none⟩ := rfl
@[simp] theorem Instr.fields_tntrd (f : Fields) : (Instr.tntrd f).fields = some f := rfl
@[simp] theorem Instr.opc_tntrd (f : Fields) : (Instr.tntrd f).opc = some (6, 10) := rfl
@[simp] theorem Instr.form_tntclr (f : Fields) : (Instr.tntclr f).form = some ⟨.A, .no, .none, .rw, .none, .none, .none⟩ := rfl
@[simp] theorem Instr.fields_tntclr (f : Fields) : (Instr.tntclr f).fields = some f := rfl
@[simp] theorem Instr.opc_tntclr (f : Fields) : (Instr.tntclr f).opc = some (6, 11) := rfl
@[simp] theorem Instr.form_perfrd (f : Fields) : (Instr.perfrd f).form = some ⟨.K, .no, .none, .wr, .none, .none, .unsigned⟩ := rfl
@[simp] theorem Instr.fields_perfrd (f : Fields) : (Instr.perfrd f).fields = some f := rfl
@[simp] theorem Instr.opc_perfrd (f : Fields) : (Instr.perfrd f).opc = some (6, 12) := rfl
@[simp] theorem Instr.form_svcall (f : Fields) : (Instr.svcall f).form = some ⟨.K, .no, .none, .none, .none, .none, .unsigned⟩ := rfl
@[simp] theorem Instr.fields_svcall (f : Fields) : (Instr.svcall f).fields = some f := rfl
@[simp] theorem Instr.opc_svcall (f : Fields) : (Instr.svcall f).opc = some (6, 13) := rfl
@[simp] theorem Instr.form_pghash (f : Fields) : (Instr.pghash f).form = some ⟨.A, .no, .seg, .rwp, .base, .none, .signed⟩ := rfl
@[simp] theorem Instr.fields_pghash (f : Fields) : (Instr.pghash f).fields = some f := rfl
@[simp] theorem Instr.opc_pghash (f : Fields) : (Instr.pghash f).opc = some (6, 14) := rfl

/-- The roles of an instruction whose fields have their form's roles, but for the three-address forms (R21). -/
def Form.rolesOf (fo : Form) (three : Bool) : Role × Role × Role :=
  match fo.x, three, fo.rd with
  | .opt, true, .rw => (.wr, fo.ra, fo.rb)
  | .opt, true, .vrw => (.vwr, fo.ra, fo.rb)
  | _, _, _ => (fo.rd, fo.ra, fo.rb)

@[simp] theorem Instr.roles_nop (f g : Fields) (fo : Form) : (Instr.nop f).roles fo g = fo.rolesOf g.three := rfl
@[simp] theorem Instr.roles_mov (f g : Fields) (fo : Form) : (Instr.mov f).roles fo g = fo.rolesOf g.three := rfl
@[simp] theorem Instr.roles_movk (f g : Fields) (fo : Form) : (Instr.movk f).roles fo g = fo.rolesOf g.three := rfl
@[simp] theorem Instr.roles_movkh (f g : Fields) (fo : Form) : (Instr.movkh f).roles fo g = fo.rolesOf g.three := rfl
@[simp] theorem Instr.roles_add (f g : Fields) (fo : Form) : (Instr.add f).roles fo g = fo.rolesOf g.three := rfl
@[simp] theorem Instr.roles_sub (f g : Fields) (fo : Form) : (Instr.sub f).roles fo g = fo.rolesOf g.three := rfl
@[simp] theorem Instr.roles_addk (f g : Fields) (fo : Form) : (Instr.addk f).roles fo g = fo.rolesOf g.three := rfl
@[simp] theorem Instr.roles_neg (f g : Fields) (fo : Form) : (Instr.neg f).roles fo g = fo.rolesOf g.three := rfl
@[simp] theorem Instr.roles_mul (f g : Fields) (fo : Form) : (Instr.mul f).roles fo g = fo.rolesOf g.three := rfl
@[simp] theorem Instr.roles_mulh (f g : Fields) (fo : Form) : (Instr.mulh f).roles fo g = fo.rolesOf g.three := rfl
@[simp] theorem Instr.roles_div (f g : Fields) (fo : Form) : (Instr.div f).roles fo g = fo.rolesOf g.three := rfl
@[simp] theorem Instr.roles_rem (f g : Fields) (fo : Form) : (Instr.rem f).roles fo g = fo.rolesOf g.three := rfl
@[simp] theorem Instr.roles_andOp (f g : Fields) (fo : Form) : (Instr.andOp f).roles fo g = fo.rolesOf g.three := rfl
@[simp] theorem Instr.roles_orOp (f g : Fields) (fo : Form) : (Instr.orOp f).roles fo g = fo.rolesOf g.three := rfl
@[simp] theorem Instr.roles_xor (f g : Fields) (fo : Form) : (Instr.xor f).roles fo g = fo.rolesOf g.three := rfl
@[simp] theorem Instr.roles_andn (f g : Fields) (fo : Form) : (Instr.andn f).roles fo g = fo.rolesOf g.three := rfl
@[simp] theorem Instr.roles_notOp (f g : Fields) (fo : Form) : (Instr.notOp f).roles fo g = fo.rolesOf g.three := rfl
@[simp] theorem Instr.roles_shl (f g : Fields) (fo : Form) : (Instr.shl f).roles fo g = fo.rolesOf g.three := rfl
@[simp] theorem Instr.roles_shr (f g : Fields) (fo : Form) : (Instr.shr f).roles fo g = fo.rolesOf g.three := rfl
@[simp] theorem Instr.roles_sar (f g : Fields) (fo : Form) : (Instr.sar f).roles fo g = fo.rolesOf g.three := rfl
@[simp] theorem Instr.roles_shlk (f g : Fields) (fo : Form) : (Instr.shlk f).roles fo g = fo.rolesOf g.three := rfl
@[simp] theorem Instr.roles_shrk (f g : Fields) (fo : Form) : (Instr.shrk f).roles fo g = fo.rolesOf g.three := rfl
@[simp] theorem Instr.roles_sark (f g : Fields) (fo : Form) : (Instr.sark f).roles fo g = fo.rolesOf g.three := rfl
@[simp] theorem Instr.roles_minOp (f g : Fields) (fo : Form) : (Instr.minOp f).roles fo g = fo.rolesOf g.three := rfl
@[simp] theorem Instr.roles_maxOp (f g : Fields) (fo : Form) : (Instr.maxOp f).roles fo g = fo.rolesOf g.three := rfl
@[simp] theorem Instr.roles_cmpeq (f g : Fields) (fo : Form) : (Instr.cmpeq f).roles fo g = fo.rolesOf g.three := rfl
@[simp] theorem Instr.roles_cmpne (f g : Fields) (fo : Form) : (Instr.cmpne f).roles fo g = fo.rolesOf g.three := rfl
@[simp] theorem Instr.roles_cmplt (f g : Fields) (fo : Form) : (Instr.cmplt f).roles fo g = fo.rolesOf g.three := rfl
@[simp] theorem Instr.roles_cmple (f g : Fields) (fo : Form) : (Instr.cmple f).roles fo g = fo.rolesOf g.three := rfl
@[simp] theorem Instr.roles_sel (f g : Fields) (fo : Form) : (Instr.sel f).roles fo g = fo.rolesOf g.three := rfl
@[simp] theorem Instr.roles_clz (f g : Fields) (fo : Form) : (Instr.clz f).roles fo g = fo.rolesOf g.three := rfl
@[simp] theorem Instr.roles_popc (f g : Fields) (fo : Form) : (Instr.popc f).roles fo g = fo.rolesOf g.three := rfl
@[simp] theorem Instr.roles_bfx (f g : Fields) (fo : Form) : (Instr.bfx f).roles fo g = fo.rolesOf g.three := rfl
@[simp] theorem Instr.roles_bfi (f g : Fields) (fo : Form) : (Instr.bfi f).roles fo g = fo.rolesOf g.three := rfl
@[simp] theorem Instr.roles_sext (f g : Fields) (fo : Form) : (Instr.sext f).roles fo g = fo.rolesOf g.three := rfl
@[simp] theorem Instr.roles_br (f g : Fields) (fo : Form) : (Instr.br f).roles fo g = fo.rolesOf g.three := rfl
@[simp] theorem Instr.roles_call (f g : Fields) (fo : Form) : (Instr.call f).roles fo g = fo.rolesOf g.three := rfl
@[simp] theorem Instr.roles_jr (f g : Fields) (fo : Form) : (Instr.jr f).roles fo g = fo.rolesOf g.three := rfl
@[simp] theorem Instr.roles_bz (f g : Fields) (fo : Form) : (Instr.bz f).roles fo g = fo.rolesOf g.three := rfl
@[simp] theorem Instr.roles_bnz (f g : Fields) (fo : Form) : (Instr.bnz f).roles fo g = fo.rolesOf g.three := rfl
@[simp] theorem Instr.roles_bltz (f g : Fields) (fo : Form) : (Instr.bltz f).roles fo g = fo.rolesOf g.three := rfl
@[simp] theorem Instr.roles_bgez (f g : Fields) (fo : Form) : (Instr.bgez f).roles fo g = fo.rolesOf g.three := rfl
@[simp] theorem Instr.roles_ldg (f g : Fields) (fo : Form) : (Instr.ldg f).roles fo g = fo.rolesOf g.three := rfl
@[simp] theorem Instr.roles_stg (f g : Fields) (fo : Form) : (Instr.stg f).roles fo g = fo.rolesOf g.three := rfl
@[simp] theorem Instr.roles_ldl (f g : Fields) (fo : Form) : (Instr.ldl f).roles fo g = fo.rolesOf g.three := rfl
@[simp] theorem Instr.roles_stl (f g : Fields) (fo : Form) : (Instr.stl f).roles fo g = fo.rolesOf g.three := rfl
@[simp] theorem Instr.roles_ldlp (f g : Fields) (fo : Form) : (Instr.ldlp f).roles fo g = fo.rolesOf g.three := rfl
@[simp] theorem Instr.roles_stlp (f g : Fields) (fo : Form) : (Instr.stlp f).roles fo g = fo.rolesOf g.three := rfl
@[simp] theorem Instr.roles_ldacq (f g : Fields) (fo : Form) : (Instr.ldacq f).roles fo g = fo.rolesOf g.three := rfl
@[simp] theorem Instr.roles_strel (f g : Fields) (fo : Form) : (Instr.strel f).roles fo g = fo.rolesOf g.three := rfl
@[simp] theorem Instr.roles_fence (f g : Fields) (fo : Form) : (Instr.fence f).roles fo g = fo.rolesOf g.three := rfl
@[simp] theorem Instr.roles_fenceX (f g : Fields) (fo : Form) : (Instr.fenceX f).roles fo g = fo.rolesOf g.three := rfl
@[simp] theorem Instr.roles_fenceA (f g : Fields) (fo : Form) : (Instr.fenceA f).roles fo g = fo.rolesOf g.three := rfl
@[simp] theorem Instr.roles_fenceS (f g : Fields) (fo : Form) : (Instr.fenceS f).roles fo g = fo.rolesOf g.three := rfl
@[simp] theorem Instr.roles_pref (f g : Fields) (fo : Form) : (Instr.pref f).roles fo g = fo.rolesOf g.three := rfl
@[simp] theorem Instr.roles_scopeo (f g : Fields) (fo : Form) : (Instr.scopeo f).roles fo g = fo.rolesOf g.three := rfl
@[simp] theorem Instr.roles_scopec (f g : Fields) (fo : Form) : (Instr.scopec f).roles fo g = fo.rolesOf g.three := rfl
@[simp] theorem Instr.roles_pset (f g : Fields) (fo : Form) : (Instr.pset f).roles fo g = fo.rolesOf g.three := rfl
@[simp] theorem Instr.roles_pget (f g : Fields) (fo : Form) : (Instr.pget f).roles fo g = fo.rolesOf g.three := rfl
@[simp] theorem Instr.roles_padd (f g : Fields) (fo : Form) : (Instr.padd f).roles fo g = fo.rolesOf g.three := rfl
@[simp] theorem Instr.roles_vadd (f g : Fields) (fo : Form) : (Instr.vadd f).roles fo g = fo.rolesOf g.three := rfl
@[simp] theorem Instr.roles_vsub (f g : Fields) (fo : Form) : (Instr.vsub f).roles fo g = fo.rolesOf g.three := rfl
@[simp] theorem Instr.roles_vmul (f g : Fields) (fo : Form) : (Instr.vmul f).roles fo g = fo.rolesOf g.three := rfl
@[simp] theorem Instr.roles_vfma (f g : Fields) (fo : Form) : (Instr.vfma f).roles fo g = fo.rolesOf g.three := rfl
@[simp] theorem Instr.roles_vmin (f g : Fields) (fo : Form) : (Instr.vmin f).roles fo g = fo.rolesOf g.three := rfl
@[simp] theorem Instr.roles_vmax (f g : Fields) (fo : Form) : (Instr.vmax f).roles fo g = fo.rolesOf g.three := rfl
@[simp] theorem Instr.roles_vabs (f g : Fields) (fo : Form) : (Instr.vabs f).roles fo g = fo.rolesOf g.three := rfl
@[simp] theorem Instr.roles_vneg (f g : Fields) (fo : Form) : (Instr.vneg f).roles fo g = fo.rolesOf g.three := rfl
@[simp] theorem Instr.roles_vrcp (f g : Fields) (fo : Form) : (Instr.vrcp f).roles fo g = fo.rolesOf g.three := rfl
@[simp] theorem Instr.roles_vrsq (f g : Fields) (fo : Form) : (Instr.vrsq f).roles fo g = fo.rolesOf g.three := rfl
@[simp] theorem Instr.roles_vexp2 (f g : Fields) (fo : Form) : (Instr.vexp2 f).roles fo g = fo.rolesOf g.three := rfl
@[simp] theorem Instr.roles_vlog2 (f g : Fields) (fo : Form) : (Instr.vlog2 f).roles fo g = fo.rolesOf g.three := rfl
@[simp] theorem Instr.roles_vcvt (f g : Fields) (fo : Form) : (Instr.vcvt f).roles fo g = fo.rolesOf g.three := rfl
@[simp] theorem Instr.roles_vcmp (f g : Fields) (fo : Form) : (Instr.vcmp f).roles fo g = fo.rolesOf g.three := rfl
@[simp] theorem Instr.roles_vsel (f g : Fields) (fo : Form) : (Instr.vsel f).roles fo g = fo.rolesOf g.three := rfl
@[simp] theorem Instr.roles_vradd (f g : Fields) (fo : Form) : (Instr.vradd f).roles fo g = fo.rolesOf g.three := rfl
@[simp] theorem Instr.roles_vrmax (f g : Fields) (fo : Form) : (Instr.vrmax f).roles fo g = fo.rolesOf g.three := rfl
@[simp] theorem Instr.roles_vbcst (f g : Fields) (fo : Form) : (Instr.vbcst f).roles fo g = fo.rolesOf g.three := rfl
@[simp] theorem Instr.roles_vlane (f g : Fields) (fo : Form) : (Instr.vlane f).roles fo g = fo.rolesOf g.three := rfl
@[simp] theorem Instr.roles_vperm (f g : Fields) (fo : Form) : (Instr.vperm f).roles fo g = fo.rolesOf g.three := rfl
@[simp] theorem Instr.roles_vand (f g : Fields) (fo : Form) : (Instr.vand f).roles fo g = fo.rolesOf g.three := rfl
@[simp] theorem Instr.roles_vor (f g : Fields) (fo : Form) : (Instr.vor f).roles fo g = fo.rolesOf g.three := rfl
@[simp] theorem Instr.roles_vxor (f g : Fields) (fo : Form) : (Instr.vxor f).roles fo g = fo.rolesOf g.three := rfl
@[simp] theorem Instr.roles_vshl (f g : Fields) (fo : Form) : (Instr.vshl f).roles fo g = fo.rolesOf g.three := rfl
@[simp] theorem Instr.roles_vshr (f g : Fields) (fo : Form) : (Instr.vshr f).roles fo g = fo.rolesOf g.three := rfl
@[simp] theorem Instr.roles_vldl (f g : Fields) (fo : Form) : (Instr.vldl f).roles fo g = fo.rolesOf g.three := rfl
@[simp] theorem Instr.roles_vstl (f g : Fields) (fo : Form) : (Instr.vstl f).roles fo g = fo.rolesOf g.three := rfl
@[simp] theorem Instr.roles_vldg (f g : Fields) (fo : Form) : (Instr.vldg f).roles fo g = fo.rolesOf g.three := rfl
@[simp] theorem Instr.roles_vstg (f g : Fields) (fo : Form) : (Instr.vstg f).roles fo g = fo.rolesOf g.three := rfl
@[simp] theorem Instr.roles_vgath (f g : Fields) (fo : Form) : (Instr.vgath f).roles fo g = fo.rolesOf g.three := rfl
@[simp] theorem Instr.roles_vscat (f g : Fields) (fo : Form) : (Instr.vscat f).roles fo g = fo.rolesOf g.three := rfl
@[simp] theorem Instr.roles_vscale (f g : Fields) (fo : Form) : (Instr.vscale f).roles fo g = fo.rolesOf g.three := rfl
@[simp] theorem Instr.roles_vclamp (f g : Fields) (fo : Form) : (Instr.vclamp f).roles fo g = fo.rolesOf g.three := rfl
@[simp] theorem Instr.roles_fadd (f g : Fields) (fo : Form) : (Instr.fadd f).roles fo g = fo.rolesOf g.three := rfl
@[simp] theorem Instr.roles_fsub (f g : Fields) (fo : Form) : (Instr.fsub f).roles fo g = fo.rolesOf g.three := rfl
@[simp] theorem Instr.roles_fmul (f g : Fields) (fo : Form) : (Instr.fmul f).roles fo g = fo.rolesOf g.three := rfl
@[simp] theorem Instr.roles_ffma (f g : Fields) (fo : Form) : (Instr.ffma f).roles fo g = fo.rolesOf g.three := rfl
@[simp] theorem Instr.roles_fmin (f g : Fields) (fo : Form) : (Instr.fmin f).roles fo g = fo.rolesOf g.three := rfl
@[simp] theorem Instr.roles_fmax (f g : Fields) (fo : Form) : (Instr.fmax f).roles fo g = fo.rolesOf g.three := rfl
@[simp] theorem Instr.roles_fcmp (f g : Fields) (fo : Form) : (Instr.fcmp f).roles fo g = fo.rolesOf g.three := rfl
@[simp] theorem Instr.roles_fcvt (f g : Fields) (fo : Form) : (Instr.fcvt f).roles fo g = fo.rolesOf g.three := rfl
@[simp] theorem Instr.roles_frcp (f g : Fields) (fo : Form) : (Instr.frcp f).roles fo g = fo.rolesOf g.three := rfl
@[simp] theorem Instr.roles_frsq (f g : Fields) (fo : Form) : (Instr.frsq f).roles fo g = fo.rolesOf g.three := rfl
@[simp] theorem Instr.roles_bpack (f g : Fields) (fo : Form) : (Instr.bpack f).roles fo g = fo.rolesOf g.three := rfl
@[simp] theorem Instr.roles_bunpk (f g : Fields) (fo : Form) : (Instr.bunpk f).roles fo g = fo.rolesOf g.three := rfl
@[simp] theorem Instr.roles_plxp (f g : Fields) (fo : Form) : (Instr.plxp f).roles fo g = fo.rolesOf g.three := rfl
@[simp] theorem Instr.roles_pldot (f g : Fields) (fo : Form) : (Instr.pldot f).roles fo g = fo.rolesOf g.three := rfl
@[simp] theorem Instr.roles_mfmt (f g : Fields) (fo : Form) : (Instr.mfmt f).roles fo g = fo.rolesOf g.three := rfl
@[simp] theorem Instr.roles_mzero (f g : Fields) (fo : Form) : (Instr.mzero f).roles fo g = fo.rolesOf g.three := rfl
@[simp] theorem Instr.roles_mstat (f g : Fields) (fo : Form) : (Instr.mstat f).roles fo g = fo.rolesOf g.three := rfl
@[simp] theorem Instr.roles_mtest (f g : Fields) (fo : Form) : (Instr.mtest f).roles fo g = fo.rolesOf g.three := rfl
@[simp] theorem Instr.roles_mfree (f g : Fields) (fo : Form) : (Instr.mfree f).roles fo g = fo.rolesOf g.three := rfl
@[simp] theorem Instr.roles_vwnew (f g : Fields) (fo : Form) : (Instr.vwnew f).roles fo g = fo.rolesOf g.three := rfl
@[simp] theorem Instr.roles_vwdup (f g : Fields) (fo : Form) : (Instr.vwdup f).roles fo g = fo.rolesOf g.three := rfl
@[simp] theorem Instr.roles_vwsplit (f g : Fields) (fo : Form) : (Instr.vwsplit f).roles fo g = fo.rolesOf g.three := rfl
@[simp] theorem Instr.roles_vwnarrow (f g : Fields) (fo : Form) : (Instr.vwnarrow f).roles fo g = fo.rolesOf g.three := rfl
@[simp] theorem Instr.roles_vwdrop (f g : Fields) (fo : Form) : (Instr.vwdrop f).roles fo g = fo.rolesOf g.three := rfl
@[simp] theorem Instr.roles_vwinfo (f g : Fields) (fo : Form) : (Instr.vwinfo f).roles fo g = fo.rolesOf g.three := rfl
@[simp] theorem Instr.roles_ldv (f g : Fields) (fo : Form) : (Instr.ldv f).roles fo g = fo.rolesOf g.three := rfl
@[simp] theorem Instr.roles_stv (f g : Fields) (fo : Form) : (Instr.stv f).roles fo g = fo.rolesOf g.three := rfl
@[simp] theorem Instr.roles_sanew (f g : Fields) (fo : Form) : (Instr.sanew f).roles fo g = fo.rolesOf g.three := rfl
@[simp] theorem Instr.roles_saadd (f g : Fields) (fo : Form) : (Instr.saadd f).roles fo g = fo.rolesOf g.three := rfl
@[simp] theorem Instr.roles_sainfo (f g : Fields) (fo : Form) : (Instr.sainfo f).roles fo g = fo.rolesOf g.three := rfl
@[simp] theorem Instr.roles_saevict (f g : Fields) (fo : Form) : (Instr.saevict f).roles fo g = fo.rolesOf g.three := rfl
@[simp] theorem Instr.roles_safree (f g : Fields) (fo : Form) : (Instr.safree f).roles fo g = fo.rolesOf g.three := rfl
@[simp] theorem Instr.roles_amoadd (f g : Fields) (fo : Form) : (Instr.amoadd f).roles fo g = fo.rolesOf g.three := rfl
@[simp] theorem Instr.roles_amoand (f g : Fields) (fo : Form) : (Instr.amoand f).roles fo g = fo.rolesOf g.three := rfl
@[simp] theorem Instr.roles_amoor (f g : Fields) (fo : Form) : (Instr.amoor f).roles fo g = fo.rolesOf g.three := rfl
@[simp] theorem Instr.roles_amoxor (f g : Fields) (fo : Form) : (Instr.amoxor f).roles fo g = fo.rolesOf g.three := rfl
@[simp] theorem Instr.roles_amomin (f g : Fields) (fo : Form) : (Instr.amomin f).roles fo g = fo.rolesOf g.three := rfl
@[simp] theorem Instr.roles_amomax (f g : Fields) (fo : Form) : (Instr.amomax f).roles fo g = fo.rolesOf g.three := rfl
@[simp] theorem Instr.roles_amoswap (f g : Fields) (fo : Form) : (Instr.amoswap f).roles fo g = fo.rolesOf g.three := rfl
@[simp] theorem Instr.roles_amocas (f g : Fields) (fo : Form) : (Instr.amocas f).roles fo g = fo.rolesOf g.three := rfl
@[simp] theorem Instr.roles_amofadd (f g : Fields) (fo : Form) : (Instr.amofadd f).roles fo g = fo.rolesOf g.three := rfl
@[simp] theorem Instr.roles_cflush (f g : Fields) (fo : Form) : (Instr.cflush f).roles fo g = fo.rolesOf g.three := rfl
@[simp] theorem Instr.roles_cinv (f g : Fields) (fo : Form) : (Instr.cinv f).roles fo g = fo.rolesOf g.three := rfl
@[simp] theorem Instr.roles_pghot (f g : Fields) (fo : Form) : (Instr.pghot f).roles fo g = fo.rolesOf g.three := rfl
@[simp] theorem Instr.roles_pgmig (f g : Fields) (fo : Form) : (Instr.pgmig f).roles fo g = fo.rolesOf g.three := rfl
@[simp] theorem Instr.roles_xlate (f g : Fields) (fo : Form) : (Instr.xlate f).roles fo g = fo.rolesOf g.three := rfl
@[simp] theorem Instr.roles_setcoh (f g : Fields) (fo : Form) : (Instr.setcoh f).roles fo g = fo.rolesOf g.three := rfl
@[simp] theorem Instr.roles_spawn (f g : Fields) (fo : Form) : (Instr.spawn f).roles fo g = fo.rolesOf g.three := rfl
@[simp] theorem Instr.roles_yield (f g : Fields) (fo : Form) : (Instr.yield f).roles fo g = fo.rolesOf g.three := rfl
@[simp] theorem Instr.roles_exit (f g : Fields) (fo : Form) : (Instr.exit f).roles fo g = fo.rolesOf g.three := rfl
@[simp] theorem Instr.roles_tid (f g : Fields) (fo : Form) : (Instr.tid f).roles fo g = fo.rolesOf g.three := rfl
@[simp] theorem Instr.roles_join (f g : Fields) (fo : Form) : (Instr.join f).roles fo g = fo.rolesOf g.three := rfl
@[simp] theorem Instr.roles_leave (f g : Fields) (fo : Form) : (Instr.leave f).roles fo g = fo.rolesOf g.three := rfl
@[simp] theorem Instr.roles_grpinfo (f g : Fields) (fo : Form) : (Instr.grpinfo f).roles fo g = fo.rolesOf g.three := rfl
@[simp] theorem Instr.roles_syinit (f g : Fields) (fo : Form) : (Instr.syinit f).roles fo g = fo.rolesOf g.three := rfl
@[simp] theorem Instr.roles_syacq (f g : Fields) (fo : Form) : (Instr.syacq f).roles fo g = fo.rolesOf g.three := rfl
@[simp] theorem Instr.roles_sytry (f g : Fields) (fo : Form) : (Instr.sytry f).roles fo g = fo.rolesOf g.three := rfl
@[simp] theorem Instr.roles_syrel (f g : Fields) (fo : Form) : (Instr.syrel f).roles fo g = fo.rolesOf g.three := rfl
@[simp] theorem Instr.roles_sydlg (f g : Fields) (fo : Form) : (Instr.sydlg f).roles fo g = fo.rolesOf g.three := rfl
@[simp] theorem Instr.roles_syarv (f g : Fields) (fo : Form) : (Instr.syarv f).roles fo g = fo.rolesOf g.three := rfl
@[simp] theorem Instr.roles_sywait (f g : Fields) (fo : Form) : (Instr.sywait f).roles fo g = fo.rolesOf g.three := rfl
@[simp] theorem Instr.roles_symode (f g : Fields) (fo : Form) : (Instr.symode f).roles fo g = fo.rolesOf g.three := rfl
@[simp] theorem Instr.roles_hbarv (f g : Fields) (fo : Form) : (Instr.hbarv f).roles fo g = fo.rolesOf g.three := rfl
@[simp] theorem Instr.roles_hbwait (f g : Fields) (fo : Form) : (Instr.hbwait f).roles fo g = fo.rolesOf g.three := rfl
@[simp] theorem Instr.roles_hbcfg (f g : Fields) (fo : Form) : (Instr.hbcfg f).roles fo g = fo.rolesOf g.three := rfl
@[simp] theorem Instr.roles_cpy (f g : Fields) (fo : Form) : (Instr.cpy f).roles fo g = fo.rolesOf g.three := rfl
@[simp] theorem Instr.roles_cpy2d (f g : Fields) (fo : Form) : (Instr.cpy2d f).roles fo g = fo.rolesOf g.three := rfl
@[simp] theorem Instr.roles_cpyq (f g : Fields) (fo : Form) : (Instr.cpyq f).roles fo g = fo.rolesOf g.three := rfl
@[simp] theorem Instr.roles_sdesc (f g : Fields) (fo : Form) : (Instr.sdesc f).roles fo g = fo.rolesOf g.three := rfl
@[simp] theorem Instr.roles_sdstop (f g : Fields) (fo : Form) : (Instr.sdstop f).roles fo g = fo.rolesOf g.three := rfl
@[simp] theorem Instr.roles_swinit (f g : Fields) (fo : Form) : (Instr.swinit f).roles fo g = fo.rolesOf g.three := rfl
@[simp] theorem Instr.roles_swwait (f g : Fields) (fo : Form) : (Instr.swwait f).roles fo g = fo.rolesOf g.three := rfl
@[simp] theorem Instr.roles_qcfg (f g : Fields) (fo : Form) : (Instr.qcfg f).roles fo g = fo.rolesOf g.three := rfl
@[simp] theorem Instr.roles_qstat (f g : Fields) (fo : Form) : (Instr.qstat f).roles fo g = fo.rolesOf g.three := rfl
@[simp] theorem Instr.roles_nopen (f g : Fields) (fo : Form) : (Instr.nopen f).roles fo g = fo.rolesOf g.three := rfl
@[simp] theorem Instr.roles_nsende (f g : Fields) (fo : Form) : (Instr.nsende f).roles fo g = fo.rolesOf g.three := rfl
@[simp] theorem Instr.roles_nstat (f g : Fields) (fo : Form) : (Instr.nstat f).roles fo g = fo.rolesOf g.three := rfl
@[simp] theorem Instr.roles_waitm (f g : Fields) (fo : Form) : (Instr.waitm f).roles fo g = fo.rolesOf g.three := rfl
@[simp] theorem Instr.roles_msgrd (f g : Fields) (fo : Form) : (Instr.msgrd f).roles fo g = fo.rolesOf g.three := rfl
@[simp] theorem Instr.roles_msgsend (f g : Fields) (fo : Form) : (Instr.msgsend f).roles fo g = fo.rolesOf g.three := rfl
@[simp] theorem Instr.roles_msgcnt (f g : Fields) (fo : Form) : (Instr.msgcnt f).roles fo g = fo.rolesOf g.three := rfl
@[simp] theorem Instr.roles_bkmode (f g : Fields) (fo : Form) : (Instr.bkmode f).roles fo g = fo.rolesOf g.three := rfl
@[simp] theorem Instr.roles_bkinfo (f g : Fields) (fo : Form) : (Instr.bkinfo f).roles fo g = fo.rolesOf g.three := rfl
@[simp] theorem Instr.roles_trap (f g : Fields) (fo : Form) : (Instr.trap f).roles fo g = fo.rolesOf g.three := rfl
@[simp] theorem Instr.roles_rett (f g : Fields) (fo : Form) : (Instr.rett f).roles fo g = fo.rolesOf g.three := rfl
@[simp] theorem Instr.roles_rdsr (f g : Fields) (fo : Form) : (Instr.rdsr f).roles fo g = fo.rolesOf g.three := rfl
@[simp] theorem Instr.roles_wrsr (f g : Fields) (fo : Form) : (Instr.wrsr f).roles fo g = fo.rolesOf g.three := rfl
@[simp] theorem Instr.roles_segld (f g : Fields) (fo : Form) : (Instr.segld f).roles fo g = fo.rolesOf g.three := rfl
@[simp] theorem Instr.roles_segrd (f g : Fields) (fo : Form) : (Instr.segrd f).roles fo g = fo.rolesOf g.three := rfl
@[simp] theorem Instr.roles_ctxsv (f g : Fields) (fo : Form) : (Instr.ctxsv f).roles fo g = fo.rolesOf g.three := rfl
@[simp] theorem Instr.roles_ctxld (f g : Fields) (fo : Form) : (Instr.ctxld f).roles fo g = fo.rolesOf g.three := rfl
@[simp] theorem Instr.roles_brk (f g : Fields) (fo : Form) : (Instr.brk f).roles fo g = fo.rolesOf g.three := rfl
@[simp] theorem Instr.roles_tntrd (f g : Fields) (fo : Form) : (Instr.tntrd f).roles fo g = fo.rolesOf g.three := rfl
@[simp] theorem Instr.roles_tntclr (f g : Fields) (fo : Form) : (Instr.tntclr f).roles fo g = fo.rolesOf g.three := rfl
@[simp] theorem Instr.roles_perfrd (f g : Fields) (fo : Form) : (Instr.perfrd f).roles fo g = fo.rolesOf g.three := rfl
@[simp] theorem Instr.roles_svcall (f g : Fields) (fo : Form) : (Instr.svcall f).roles fo g = fo.rolesOf g.three := rfl
@[simp] theorem Instr.roles_pghash (f g : Fields) (fo : Form) : (Instr.pghash f).roles fo g = fo.rolesOf g.three := rfl

end Sys2Proof
end

