-- ==== Sys2Proof/Laws/Word.lean ====
section
/-!
SUPPORT. Sys2Proof/Laws/Word.lean: the laws of sparse tables, of lists by index and of rising lists of numbers.
-/
namespace Sys2Proof

/-! ### Sparse tables -/

@[simp] theorem SMap.get_nil {α : Type} (k : Nat) (d : α) : SMap.get ([] : SMap α) k d = d := rfl
@[simp] theorem SMap.get?_nil {α : Type} (k : Nat) : SMap.get? ([] : SMap α) k = none := rfl

/-- A key reads what was set at it. -/
@[simp] theorem SMap.get_set_same {α : Type} (m : SMap α) (k : Nat) (v d : α) : SMap.get (SMap.set m k v) k d = v := by
  induction m with
  | nil => simp [SMap.set, SMap.get]
  | cons p r ih =>
    obtain ⟨j, w⟩ := p
    simp only [SMap.set]
    split
    · simp [SMap.get]
    · split
      · simp [SMap.get]
      · next h => simp [SMap.get, h, ih]

/-- The other keys read as before. -/
theorem SMap.get_set_other {α : Type} (m : SMap α) {k j : Nat} (h : j ≠ k) (v d : α) :
    SMap.get (SMap.set m k v) j d = SMap.get m j d := by
  induction m with
  | nil => simp [SMap.set, SMap.get, Ne.symm h]
  | cons p r ih =>
    obtain ⟨i, w⟩ := p
    simp only [SMap.set]
    split
    · simp [SMap.get, Ne.symm h]
    · split
      · next he => subst he; simp [SMap.get, Ne.symm h]
      · simp [SMap.get, ih]

/-- What a table with one key set reads. -/
theorem SMap.get_set {α : Type} (m : SMap α) (k j : Nat) (v d : α) :
    SMap.get (SMap.set m k v) j d = if j = k then v else SMap.get m j d := by
  split
  · next h => subst h; simp
  · next h => exact SMap.get_set_other m h v d

theorem SMap.get?_set {α : Type} (m : SMap α) (k j : Nat) (v : α) :
    SMap.get? (SMap.set m k v) j = if j = k then some v else SMap.get? m j := by
  induction m with
  | nil => by_cases h : j = k <;> simp [SMap.set, SMap.get?, h, Ne.symm]
  | cons p r ih =>
    obtain ⟨i, w⟩ := p
    simp only [SMap.set]
    split
    · by_cases h : j = k
      · subst h; simp [SMap.get?]
      · simp [SMap.get?, h, Ne.symm h]
    · split
      · next he =>
        subst he
        by_cases h : j = i
        · subst h; simp [SMap.get?]
        · simp [SMap.get?, h, Ne.symm h]
      · next h1 h2 =>
        by_cases hj : i = j
        · subst hj; simp [SMap.get?, h2]
        · simp [SMap.get?, hj, ih]

/-- A second value set at a key replaces the first. -/
@[simp] theorem SMap.set_set {α : Type} (m : SMap α) (k : Nat) (v w : α) :
    SMap.set (SMap.set m k v) k w = SMap.set m k w := by
  induction m with
  | nil => simp [SMap.set]
  | cons p r ih =>
    obtain ⟨j, u⟩ := p
    simp only [SMap.set]
    split
    · simp [SMap.set]
    · split
      · simp [SMap.set]
      · next h1 h2 => simp [SMap.set, h1, h2, ih]

/-- The keys of a table are those of `get?`. -/
theorem SMap.get_eq_getD {α : Type} (m : SMap α) (k : Nat) (d : α) : SMap.get m k d = (SMap.get? m k).getD d := by
  induction m with
  | nil => rfl
  | cons p r ih =>
    obtain ⟨j, w⟩ := p
    by_cases h : j = k <;> simp [SMap.get, SMap.get?, h, ih]

/-- Setting at one key the values of a mapped table. -/
theorem SMap.get_map {α β : Type} (m : SMap α) (g : α → β) (k : Nat) (d : α) :
    SMap.get (m.map (fun p => (p.1, g p.2))) k (g d) = g (SMap.get m k d) := by
  induction m with
  | nil => rfl
  | cons p r ih =>
    obtain ⟨j, w⟩ := p
    simp only [List.map_cons, SMap.get]
    split
    · rfl
    · exact ih

/-! ### Lists by index -/

@[simp] theorem nthD_nil {α : Type} (i : Nat) (d : α) : nthD ([] : List α) i d = d := by cases i <;> rfl
@[simp] theorem nthD_cons_zero {α : Type} (x : α) (l : List α) (d : α) : nthD (x :: l) 0 d = x := rfl
@[simp] theorem nthD_cons_succ {α : Type} (x : α) (l : List α) (i : Nat) (d : α) :
    nthD (x :: l) (i + 1) d = nthD l i d := rfl

@[simp] theorem setNth_length {α : Type} (l : List α) (i : Nat) (v : α) : (setNth l i v).length = l.length := by
  induction l generalizing i with
  | nil => cases i <;> rfl
  | cons x r ih => cases i <;> simp [setNth, ih]

theorem nthD_setNth_same {α : Type} (l : List α) (i : Nat) (v d : α) (h : i < l.length) :
    nthD (setNth l i v) i d = v := by
  induction l generalizing i with
  | nil => cases h
  | cons x r ih =>
    cases i with
    | zero => rfl
    | succ n => exact ih n (Nat.lt_of_succ_lt_succ h)

theorem nthD_setNth_other {α : Type} (l : List α) {i j : Nat} (h : j ≠ i) (v d : α) :
    nthD (setNth l i v) j d = nthD l j d := by
  induction l generalizing i j with
  | nil => cases i <;> rfl
  | cons x r ih =>
    cases i with
    | zero => cases j with
      | zero => exact absurd rfl h
      | succ n => rfl
    | succ m => cases j with
      | zero => rfl
      | succ n => exact ih (fun e => h (by rw [e]))

theorem nthD_eq_getD {α : Type} (l : List α) (i : Nat) (d : α) : nthD l i d = (l[i]?).getD d := by
  induction l generalizing i with
  | nil => simp
  | cons x r ih => cases i with
    | zero => rfl
    | succ n => simpa using ih n

/-! ### Rising lists -/

/-- An element is in a set with `n` put in exactly when it is `n` or was there. -/
theorem mem_insSorted {l : List Nat} {n x : Nat} : x ∈ insSorted l n ↔ x = n ∨ x ∈ l := by
  induction l with
  | nil => simp [insSorted]
  | cons y r ih =>
    simp only [insSorted]
    split
    · simp
    · split
      · next h => subst h; simp
      · simp [ih]; tauto

/-- The value of a word from a number. -/
@[simp] theorem w64_toNat (n : Nat) : (w64 n).toNat = n % 2 ^ 64 := by simp [w64]

end Sys2Proof
end

