-- ==== Sys2Proof/Laws/State.lean ====
section
/-!
SUPPORT. Sys2Proof/Laws/State.lean: what each update of the state leaves, field by field, and the tables after an update.
-/
namespace Sys2Proof.Machine
open Sys2Proof


/-! ### State.setCore -/

@[simp] theorem State.setCore_clusters (s : State) (c : Nat) (x : Core) : (s.setCore c x).clusters = s.clusters := rfl
@[simp] theorem State.setCore_tenants (s : State) (c : Nat) (x : Core) : (s.setCore c x).tenants = s.tenants := rfl
@[simp] theorem State.setCore_mem (s : State) (c : Nat) (x : Core) : (s.setCore c x).mem = s.mem := rfl
@[simp] theorem State.setCore_regw (s : State) (c : Nat) (x : Core) : (s.setCore c x).regw = s.regw := rfl
@[simp] theorem State.setCore_dir (s : State) (c : Nat) (x : Core) : (s.setCore c x).dir = s.dir := rfl
@[simp] theorem State.setCore_dirq (s : State) (c : Nat) (x : Core) : (s.setCore c x).dirq = s.dirq := rfl
@[simp] theorem State.setCore_copies (s : State) (c : Nat) (x : Core) : (s.setCore c x).copies = s.copies := rfl
@[simp] theorem State.setCore_notices (s : State) (c : Nat) (x : Core) : (s.setCore c x).notices = s.notices := rfl
@[simp] theorem State.setCore_leases (s : State) (c : Nat) (x : Core) : (s.setCore c x).leases = s.leases := rfl
@[simp] theorem State.setCore_resident (s : State) (c : Nat) (x : Core) : (s.setCore c x).resident = s.resident := rfl
@[simp] theorem State.setCore_halves (s : State) (c : Nat) (x : Core) : (s.setCore c x).halves = s.halves := rfl
@[simp] theorem State.setCore_halfWait (s : State) (c : Nat) (x : Core) : (s.setCore c x).halfWait = s.halfWait := rfl
@[simp] theorem State.setCore_hostHeld (s : State) (c : Nat) (x : Core) : (s.setCore c x).hostHeld = s.hostHeld := rfl
@[simp] theorem State.setCore_addl (s : State) (c : Nat) (x : Core) : (s.setCore c x).addl = s.addl := rfl
@[simp] theorem State.setCore_hot (s : State) (c : Nat) (x : Core) : (s.setCore c x).hot = s.hot := rfl
@[simp] theorem State.setCore_walks (s : State) (c : Nat) (x : Core) : (s.setCore c x).walks = s.walks := rfl
@[simp] theorem State.setCore_flights (s : State) (c : Nat) (x : Core) : (s.setCore c x).flights = s.flights := rfl
@[simp] theorem State.setCore_migs (s : State) (c : Nat) (x : Core) : (s.setCore c x).migs = s.migs := rfl
@[simp] theorem State.setCore_objs (s : State) (c : Nat) (x : Core) : (s.setCore c x).objs = s.objs := rfl
@[simp] theorem State.setCore_reqs (s : State) (c : Nat) (x : Core) : (s.setCore c x).reqs = s.reqs := rfl
@[simp] theorem State.setCore_vreqs (s : State) (c : Nat) (x : Core) : (s.setCore c x).vreqs = s.vreqs := rfl
@[simp] theorem State.setCore_hashes (s : State) (c : Nat) (x : Core) : (s.setCore c x).hashes = s.hashes := rfl
@[simp] theorem State.setCore_net (s : State) (c : Nat) (x : Core) : (s.setCore c x).net = s.net := rfl
@[simp] theorem State.setCore_flits (s : State) (c : Nat) (x : Core) : (s.setCore c x).flits = s.flits := rfl
@[simp] theorem State.setCore_dies (s : State) (c : Nat) (x : Core) : (s.setCore c x).dies = s.dies := rfl
@[simp] theorem State.setCore_links (s : State) (c : Nat) (x : Core) : (s.setCore c x).links = s.links := rfl
@[simp] theorem State.setCore_hub (s : State) (c : Nat) (x : Core) : (s.setCore c x).hub = s.hub := rfl
@[simp] theorem State.setCore_axis (s : State) (c : Nat) (x : Core) : (s.setCore c x).axis = s.axis := rfl
@[simp] theorem State.setCore_boot (s : State) (c : Nat) (x : Core) : (s.setCore c x).boot = s.boot := rfl
@[simp] theorem State.setCore_nextId (s : State) (c : Nat) (x : Core) : (s.setCore c x).nextId = s.nextId := rfl
@[simp] theorem State.setCore_now (s : State) (c : Nat) (x : Core) : (s.setCore c x).now = s.now := rfl
@[simp] theorem State.setCore_tick (s : State) (c : Nat) (x : Core) : (s.setCore c x).tick = s.tick := rfl
@[simp] theorem State.setCore_next (s : State) (c : Nat) (x : Core) : (s.setCore c x).next = s.next := rfl
@[simp] theorem State.setCore_cur (s : State) (c : Nat) (x : Core) : (s.setCore c x).cur = s.cur := rfl
@[simp] theorem State.setCore_due (s : State) (c : Nat) (x : Core) : (s.setCore c x).due = s.due := rfl
@[simp] theorem State.setCore_arg (s : State) (c : Nat) (x : Core) : (s.setCore c x).arg = s.arg := rfl

/-! ### State.setCluster -/

@[simp] theorem State.setCluster_cores (s : State) (cl : Nat) (x : Cluster) : (s.setCluster cl x).cores = s.cores := rfl
@[simp] theorem State.setCluster_tenants (s : State) (cl : Nat) (x : Cluster) : (s.setCluster cl x).tenants = s.tenants := rfl
@[simp] theorem State.setCluster_mem (s : State) (cl : Nat) (x : Cluster) : (s.setCluster cl x).mem = s.mem := rfl
@[simp] theorem State.setCluster_regw (s : State) (cl : Nat) (x : Cluster) : (s.setCluster cl x).regw = s.regw := rfl
@[simp] theorem State.setCluster_dir (s : State) (cl : Nat) (x : Cluster) : (s.setCluster cl x).dir = s.dir := rfl
@[simp] theorem State.setCluster_dirq (s : State) (cl : Nat) (x : Cluster) : (s.setCluster cl x).dirq = s.dirq := rfl
@[simp] theorem State.setCluster_copies (s : State) (cl : Nat) (x : Cluster) : (s.setCluster cl x).copies = s.copies := rfl
@[simp] theorem State.setCluster_notices (s : State) (cl : Nat) (x : Cluster) : (s.setCluster cl x).notices = s.notices := rfl
@[simp] theorem State.setCluster_leases (s : State) (cl : Nat) (x : Cluster) : (s.setCluster cl x).leases = s.leases := rfl
@[simp] theorem State.setCluster_resident (s : State) (cl : Nat) (x : Cluster) : (s.setCluster cl x).resident = s.resident := rfl
@[simp] theorem State.setCluster_halves (s : State) (cl : Nat) (x : Cluster) : (s.setCluster cl x).halves = s.halves := rfl
@[simp] theorem State.setCluster_halfWait (s : State) (cl : Nat) (x : Cluster) : (s.setCluster cl x).halfWait = s.halfWait := rfl
@[simp] theorem State.setCluster_hostHeld (s : State) (cl : Nat) (x : Cluster) : (s.setCluster cl x).hostHeld = s.hostHeld := rfl
@[simp] theorem State.setCluster_addl (s : State) (cl : Nat) (x : Cluster) : (s.setCluster cl x).addl = s.addl := rfl
@[simp] theorem State.setCluster_hot (s : State) (cl : Nat) (x : Cluster) : (s.setCluster cl x).hot = s.hot := rfl
@[simp] theorem State.setCluster_walks (s : State) (cl : Nat) (x : Cluster) : (s.setCluster cl x).walks = s.walks := rfl
@[simp] theorem State.setCluster_flights (s : State) (cl : Nat) (x : Cluster) : (s.setCluster cl x).flights = s.flights := rfl
@[simp] theorem State.setCluster_migs (s : State) (cl : Nat) (x : Cluster) : (s.setCluster cl x).migs = s.migs := rfl
@[simp] theorem State.setCluster_objs (s : State) (cl : Nat) (x : Cluster) : (s.setCluster cl x).objs = s.objs := rfl
@[simp] theorem State.setCluster_reqs (s : State) (cl : Nat) (x : Cluster) : (s.setCluster cl x).reqs = s.reqs := rfl
@[simp] theorem State.setCluster_vreqs (s : State) (cl : Nat) (x : Cluster) : (s.setCluster cl x).vreqs = s.vreqs := rfl
@[simp] theorem State.setCluster_hashes (s : State) (cl : Nat) (x : Cluster) : (s.setCluster cl x).hashes = s.hashes := rfl
@[simp] theorem State.setCluster_net (s : State) (cl : Nat) (x : Cluster) : (s.setCluster cl x).net = s.net := rfl
@[simp] theorem State.setCluster_flits (s : State) (cl : Nat) (x : Cluster) : (s.setCluster cl x).flits = s.flits := rfl
@[simp] theorem State.setCluster_dies (s : State) (cl : Nat) (x : Cluster) : (s.setCluster cl x).dies = s.dies := rfl
@[simp] theorem State.setCluster_links (s : State) (cl : Nat) (x : Cluster) : (s.setCluster cl x).links = s.links := rfl
@[simp] theorem State.setCluster_hub (s : State) (cl : Nat) (x : Cluster) : (s.setCluster cl x).hub = s.hub := rfl
@[simp] theorem State.setCluster_axis (s : State) (cl : Nat) (x : Cluster) : (s.setCluster cl x).axis = s.axis := rfl
@[simp] theorem State.setCluster_boot (s : State) (cl : Nat) (x : Cluster) : (s.setCluster cl x).boot = s.boot := rfl
@[simp] theorem State.setCluster_nextId (s : State) (cl : Nat) (x : Cluster) : (s.setCluster cl x).nextId = s.nextId := rfl
@[simp] theorem State.setCluster_now (s : State) (cl : Nat) (x : Cluster) : (s.setCluster cl x).now = s.now := rfl
@[simp] theorem State.setCluster_tick (s : State) (cl : Nat) (x : Cluster) : (s.setCluster cl x).tick = s.tick := rfl
@[simp] theorem State.setCluster_next (s : State) (cl : Nat) (x : Cluster) : (s.setCluster cl x).next = s.next := rfl
@[simp] theorem State.setCluster_cur (s : State) (cl : Nat) (x : Cluster) : (s.setCluster cl x).cur = s.cur := rfl
@[simp] theorem State.setCluster_due (s : State) (cl : Nat) (x : Cluster) : (s.setCluster cl x).due = s.due := rfl
@[simp] theorem State.setCluster_arg (s : State) (cl : Nat) (x : Cluster) : (s.setCluster cl x).arg = s.arg := rfl

/-! ### State.setTenant -/

@[simp] theorem State.setTenant_cores (s : State) (t : Nat) (x : Tenant) : (s.setTenant t x).cores = s.cores := rfl
@[simp] theorem State.setTenant_clusters (s : State) (t : Nat) (x : Tenant) : (s.setTenant t x).clusters = s.clusters := rfl
@[simp] theorem State.setTenant_mem (s : State) (t : Nat) (x : Tenant) : (s.setTenant t x).mem = s.mem := rfl
@[simp] theorem State.setTenant_regw (s : State) (t : Nat) (x : Tenant) : (s.setTenant t x).regw = s.regw := rfl
@[simp] theorem State.setTenant_dir (s : State) (t : Nat) (x : Tenant) : (s.setTenant t x).dir = s.dir := rfl
@[simp] theorem State.setTenant_dirq (s : State) (t : Nat) (x : Tenant) : (s.setTenant t x).dirq = s.dirq := rfl
@[simp] theorem State.setTenant_copies (s : State) (t : Nat) (x : Tenant) : (s.setTenant t x).copies = s.copies := rfl
@[simp] theorem State.setTenant_notices (s : State) (t : Nat) (x : Tenant) : (s.setTenant t x).notices = s.notices := rfl
@[simp] theorem State.setTenant_leases (s : State) (t : Nat) (x : Tenant) : (s.setTenant t x).leases = s.leases := rfl
@[simp] theorem State.setTenant_resident (s : State) (t : Nat) (x : Tenant) : (s.setTenant t x).resident = s.resident := rfl
@[simp] theorem State.setTenant_halves (s : State) (t : Nat) (x : Tenant) : (s.setTenant t x).halves = s.halves := rfl
@[simp] theorem State.setTenant_halfWait (s : State) (t : Nat) (x : Tenant) : (s.setTenant t x).halfWait = s.halfWait := rfl
@[simp] theorem State.setTenant_hostHeld (s : State) (t : Nat) (x : Tenant) : (s.setTenant t x).hostHeld = s.hostHeld := rfl
@[simp] theorem State.setTenant_addl (s : State) (t : Nat) (x : Tenant) : (s.setTenant t x).addl = s.addl := rfl
@[simp] theorem State.setTenant_hot (s : State) (t : Nat) (x : Tenant) : (s.setTenant t x).hot = s.hot := rfl
@[simp] theorem State.setTenant_walks (s : State) (t : Nat) (x : Tenant) : (s.setTenant t x).walks = s.walks := rfl
@[simp] theorem State.setTenant_flights (s : State) (t : Nat) (x : Tenant) : (s.setTenant t x).flights = s.flights := rfl
@[simp] theorem State.setTenant_migs (s : State) (t : Nat) (x : Tenant) : (s.setTenant t x).migs = s.migs := rfl
@[simp] theorem State.setTenant_objs (s : State) (t : Nat) (x : Tenant) : (s.setTenant t x).objs = s.objs := rfl
@[simp] theorem State.setTenant_reqs (s : State) (t : Nat) (x : Tenant) : (s.setTenant t x).reqs = s.reqs := rfl
@[simp] theorem State.setTenant_vreqs (s : State) (t : Nat) (x : Tenant) : (s.setTenant t x).vreqs = s.vreqs := rfl
@[simp] theorem State.setTenant_hashes (s : State) (t : Nat) (x : Tenant) : (s.setTenant t x).hashes = s.hashes := rfl
@[simp] theorem State.setTenant_net (s : State) (t : Nat) (x : Tenant) : (s.setTenant t x).net = s.net := rfl
@[simp] theorem State.setTenant_flits (s : State) (t : Nat) (x : Tenant) : (s.setTenant t x).flits = s.flits := rfl
@[simp] theorem State.setTenant_dies (s : State) (t : Nat) (x : Tenant) : (s.setTenant t x).dies = s.dies := rfl
@[simp] theorem State.setTenant_links (s : State) (t : Nat) (x : Tenant) : (s.setTenant t x).links = s.links := rfl
@[simp] theorem State.setTenant_hub (s : State) (t : Nat) (x : Tenant) : (s.setTenant t x).hub = s.hub := rfl
@[simp] theorem State.setTenant_axis (s : State) (t : Nat) (x : Tenant) : (s.setTenant t x).axis = s.axis := rfl
@[simp] theorem State.setTenant_boot (s : State) (t : Nat) (x : Tenant) : (s.setTenant t x).boot = s.boot := rfl
@[simp] theorem State.setTenant_nextId (s : State) (t : Nat) (x : Tenant) : (s.setTenant t x).nextId = s.nextId := rfl
@[simp] theorem State.setTenant_now (s : State) (t : Nat) (x : Tenant) : (s.setTenant t x).now = s.now := rfl
@[simp] theorem State.setTenant_tick (s : State) (t : Nat) (x : Tenant) : (s.setTenant t x).tick = s.tick := rfl
@[simp] theorem State.setTenant_next (s : State) (t : Nat) (x : Tenant) : (s.setTenant t x).next = s.next := rfl
@[simp] theorem State.setTenant_cur (s : State) (t : Nat) (x : Tenant) : (s.setTenant t x).cur = s.cur := rfl
@[simp] theorem State.setTenant_due (s : State) (t : Nat) (x : Tenant) : (s.setTenant t x).due = s.due := rfl
@[simp] theorem State.setTenant_arg (s : State) (t : Nat) (x : Tenant) : (s.setTenant t x).arg = s.arg := rfl

/-! ### State.setDie -/

@[simp] theorem State.setDie_cores (s : State) (d : Nat) (x : Die) : (s.setDie d x).cores = s.cores := rfl
@[simp] theorem State.setDie_clusters (s : State) (d : Nat) (x : Die) : (s.setDie d x).clusters = s.clusters := rfl
@[simp] theorem State.setDie_tenants (s : State) (d : Nat) (x : Die) : (s.setDie d x).tenants = s.tenants := rfl
@[simp] theorem State.setDie_mem (s : State) (d : Nat) (x : Die) : (s.setDie d x).mem = s.mem := rfl
@[simp] theorem State.setDie_regw (s : State) (d : Nat) (x : Die) : (s.setDie d x).regw = s.regw := rfl
@[simp] theorem State.setDie_dir (s : State) (d : Nat) (x : Die) : (s.setDie d x).dir = s.dir := rfl
@[simp] theorem State.setDie_dirq (s : State) (d : Nat) (x : Die) : (s.setDie d x).dirq = s.dirq := rfl
@[simp] theorem State.setDie_copies (s : State) (d : Nat) (x : Die) : (s.setDie d x).copies = s.copies := rfl
@[simp] theorem State.setDie_notices (s : State) (d : Nat) (x : Die) : (s.setDie d x).notices = s.notices := rfl
@[simp] theorem State.setDie_leases (s : State) (d : Nat) (x : Die) : (s.setDie d x).leases = s.leases := rfl
@[simp] theorem State.setDie_resident (s : State) (d : Nat) (x : Die) : (s.setDie d x).resident = s.resident := rfl
@[simp] theorem State.setDie_halves (s : State) (d : Nat) (x : Die) : (s.setDie d x).halves = s.halves := rfl
@[simp] theorem State.setDie_halfWait (s : State) (d : Nat) (x : Die) : (s.setDie d x).halfWait = s.halfWait := rfl
@[simp] theorem State.setDie_hostHeld (s : State) (d : Nat) (x : Die) : (s.setDie d x).hostHeld = s.hostHeld := rfl
@[simp] theorem State.setDie_addl (s : State) (d : Nat) (x : Die) : (s.setDie d x).addl = s.addl := rfl
@[simp] theorem State.setDie_hot (s : State) (d : Nat) (x : Die) : (s.setDie d x).hot = s.hot := rfl
@[simp] theorem State.setDie_walks (s : State) (d : Nat) (x : Die) : (s.setDie d x).walks = s.walks := rfl
@[simp] theorem State.setDie_flights (s : State) (d : Nat) (x : Die) : (s.setDie d x).flights = s.flights := rfl
@[simp] theorem State.setDie_migs (s : State) (d : Nat) (x : Die) : (s.setDie d x).migs = s.migs := rfl
@[simp] theorem State.setDie_objs (s : State) (d : Nat) (x : Die) : (s.setDie d x).objs = s.objs := rfl
@[simp] theorem State.setDie_reqs (s : State) (d : Nat) (x : Die) : (s.setDie d x).reqs = s.reqs := rfl
@[simp] theorem State.setDie_vreqs (s : State) (d : Nat) (x : Die) : (s.setDie d x).vreqs = s.vreqs := rfl
@[simp] theorem State.setDie_hashes (s : State) (d : Nat) (x : Die) : (s.setDie d x).hashes = s.hashes := rfl
@[simp] theorem State.setDie_net (s : State) (d : Nat) (x : Die) : (s.setDie d x).net = s.net := rfl
@[simp] theorem State.setDie_flits (s : State) (d : Nat) (x : Die) : (s.setDie d x).flits = s.flits := rfl
@[simp] theorem State.setDie_links (s : State) (d : Nat) (x : Die) : (s.setDie d x).links = s.links := rfl
@[simp] theorem State.setDie_hub (s : State) (d : Nat) (x : Die) : (s.setDie d x).hub = s.hub := rfl
@[simp] theorem State.setDie_axis (s : State) (d : Nat) (x : Die) : (s.setDie d x).axis = s.axis := rfl
@[simp] theorem State.setDie_boot (s : State) (d : Nat) (x : Die) : (s.setDie d x).boot = s.boot := rfl
@[simp] theorem State.setDie_nextId (s : State) (d : Nat) (x : Die) : (s.setDie d x).nextId = s.nextId := rfl
@[simp] theorem State.setDie_now (s : State) (d : Nat) (x : Die) : (s.setDie d x).now = s.now := rfl
@[simp] theorem State.setDie_tick (s : State) (d : Nat) (x : Die) : (s.setDie d x).tick = s.tick := rfl
@[simp] theorem State.setDie_next (s : State) (d : Nat) (x : Die) : (s.setDie d x).next = s.next := rfl
@[simp] theorem State.setDie_cur (s : State) (d : Nat) (x : Die) : (s.setDie d x).cur = s.cur := rfl
@[simp] theorem State.setDie_due (s : State) (d : Nat) (x : Die) : (s.setDie d x).due = s.due := rfl
@[simp] theorem State.setDie_arg (s : State) (d : Nat) (x : Die) : (s.setDie d x).arg = s.arg := rfl

/-! ### State.post -/

@[simp] theorem State.post_cores (s : State) (es : List Event) : (s.post es).cores = s.cores := rfl
@[simp] theorem State.post_clusters (s : State) (es : List Event) : (s.post es).clusters = s.clusters := rfl
@[simp] theorem State.post_tenants (s : State) (es : List Event) : (s.post es).tenants = s.tenants := rfl
@[simp] theorem State.post_mem (s : State) (es : List Event) : (s.post es).mem = s.mem := rfl
@[simp] theorem State.post_regw (s : State) (es : List Event) : (s.post es).regw = s.regw := rfl
@[simp] theorem State.post_dir (s : State) (es : List Event) : (s.post es).dir = s.dir := rfl
@[simp] theorem State.post_dirq (s : State) (es : List Event) : (s.post es).dirq = s.dirq := rfl
@[simp] theorem State.post_copies (s : State) (es : List Event) : (s.post es).copies = s.copies := rfl
@[simp] theorem State.post_notices (s : State) (es : List Event) : (s.post es).notices = s.notices := rfl
@[simp] theorem State.post_leases (s : State) (es : List Event) : (s.post es).leases = s.leases := rfl
@[simp] theorem State.post_resident (s : State) (es : List Event) : (s.post es).resident = s.resident := rfl
@[simp] theorem State.post_halves (s : State) (es : List Event) : (s.post es).halves = s.halves := rfl
@[simp] theorem State.post_halfWait (s : State) (es : List Event) : (s.post es).halfWait = s.halfWait := rfl
@[simp] theorem State.post_hostHeld (s : State) (es : List Event) : (s.post es).hostHeld = s.hostHeld := rfl
@[simp] theorem State.post_addl (s : State) (es : List Event) : (s.post es).addl = s.addl := rfl
@[simp] theorem State.post_hot (s : State) (es : List Event) : (s.post es).hot = s.hot := rfl
@[simp] theorem State.post_walks (s : State) (es : List Event) : (s.post es).walks = s.walks := rfl
@[simp] theorem State.post_flights (s : State) (es : List Event) : (s.post es).flights = s.flights := rfl
@[simp] theorem State.post_migs (s : State) (es : List Event) : (s.post es).migs = s.migs := rfl
@[simp] theorem State.post_objs (s : State) (es : List Event) : (s.post es).objs = s.objs := rfl
@[simp] theorem State.post_reqs (s : State) (es : List Event) : (s.post es).reqs = s.reqs := rfl
@[simp] theorem State.post_vreqs (s : State) (es : List Event) : (s.post es).vreqs = s.vreqs := rfl
@[simp] theorem State.post_hashes (s : State) (es : List Event) : (s.post es).hashes = s.hashes := rfl
@[simp] theorem State.post_net (s : State) (es : List Event) : (s.post es).net = s.net := rfl
@[simp] theorem State.post_flits (s : State) (es : List Event) : (s.post es).flits = s.flits := rfl
@[simp] theorem State.post_dies (s : State) (es : List Event) : (s.post es).dies = s.dies := rfl
@[simp] theorem State.post_links (s : State) (es : List Event) : (s.post es).links = s.links := rfl
@[simp] theorem State.post_hub (s : State) (es : List Event) : (s.post es).hub = s.hub := rfl
@[simp] theorem State.post_axis (s : State) (es : List Event) : (s.post es).axis = s.axis := rfl
@[simp] theorem State.post_boot (s : State) (es : List Event) : (s.post es).boot = s.boot := rfl
@[simp] theorem State.post_nextId (s : State) (es : List Event) : (s.post es).nextId = s.nextId := rfl
@[simp] theorem State.post_now (s : State) (es : List Event) : (s.post es).now = s.now := rfl
@[simp] theorem State.post_tick (s : State) (es : List Event) : (s.post es).tick = s.tick := rfl
@[simp] theorem State.post_next (s : State) (es : List Event) : (s.post es).next = s.next := rfl
@[simp] theorem State.post_cur (s : State) (es : List Event) : (s.post es).cur = s.cur := rfl
@[simp] theorem State.post_arg (s : State) (es : List Event) : (s.post es).arg = s.arg := rfl

@[simp] theorem State.post_due (s : State) (es : List Event) : (s.post es).due = s.due ++ es := rfl

/-! ### The tables after an update -/

@[simp] theorem State.core_setCore_same (s : State) (i : Nat) (x : Core) : (s.setCore i x).core i = x :=
  SMap.get_set_same _ _ _ _
theorem State.core_setCore (s : State) (i j : Nat) (x : Core) : (s.setCore i x).core j = if j = i then x else s.core j :=
  SMap.get_set _ _ _ _ _
theorem State.core_setCore_other (s : State) (i j : Nat) (x : Core) (h : j ≠ i) : (s.setCore i x).core j = s.core j :=
  SMap.get_set_other _ h _ _
@[simp] theorem State.cluster_setCore (s : State) (i j : Nat) (x : Core) : (s.setCore i x).cluster j = s.cluster j := rfl
@[simp] theorem State.tenant_setCore (s : State) (i j : Nat) (x : Core) : (s.setCore i x).tenant j = s.tenant j := rfl
@[simp] theorem State.die_setCore (s : State) (i j : Nat) (x : Core) : (s.setCore i x).die j = s.die j := rfl
@[simp] theorem State.core_post (s : State) (es : List Event) (j : Nat) : (s.post es).core j = s.core j := rfl
theorem State.modCore_eq (s : State) (i : Nat) (g : Core → Core) : s.modCore i g = s.setCore i (g (s.core i)) := rfl
@[simp] theorem State.cluster_setCluster_same (s : State) (i : Nat) (x : Cluster) : (s.setCluster i x).cluster i = x :=
  SMap.get_set_same _ _ _ _
theorem State.cluster_setCluster (s : State) (i j : Nat) (x : Cluster) : (s.setCluster i x).cluster j = if j = i then x else s.cluster j :=
  SMap.get_set _ _ _ _ _
theorem State.cluster_setCluster_other (s : State) (i j : Nat) (x : Cluster) (h : j ≠ i) : (s.setCluster i x).cluster j = s.cluster j :=
  SMap.get_set_other _ h _ _
@[simp] theorem State.core_setCluster (s : State) (i j : Nat) (x : Cluster) : (s.setCluster i x).core j = s.core j := rfl
@[simp] theorem State.tenant_setCluster (s : State) (i j : Nat) (x : Cluster) : (s.setCluster i x).tenant j = s.tenant j := rfl
@[simp] theorem State.die_setCluster (s : State) (i j : Nat) (x : Cluster) : (s.setCluster i x).die j = s.die j := rfl
@[simp] theorem State.cluster_post (s : State) (es : List Event) (j : Nat) : (s.post es).cluster j = s.cluster j := rfl
theorem State.modCluster_eq (s : State) (i : Nat) (g : Cluster → Cluster) : s.modCluster i g = s.setCluster i (g (s.cluster i)) := rfl
@[simp] theorem State.tenant_setTenant_same (s : State) (i : Nat) (x : Tenant) : (s.setTenant i x).tenant i = x :=
  SMap.get_set_same _ _ _ _
theorem State.tenant_setTenant (s : State) (i j : Nat) (x : Tenant) : (s.setTenant i x).tenant j = if j = i then x else s.tenant j :=
  SMap.get_set _ _ _ _ _
theorem State.tenant_setTenant_other (s : State) (i j : Nat) (x : Tenant) (h : j ≠ i) : (s.setTenant i x).tenant j = s.tenant j :=
  SMap.get_set_other _ h _ _
@[simp] theorem State.core_setTenant (s : State) (i j : Nat) (x : Tenant) : (s.setTenant i x).core j = s.core j := rfl
@[simp] theorem State.cluster_setTenant (s : State) (i j : Nat) (x : Tenant) : (s.setTenant i x).cluster j = s.cluster j := rfl
@[simp] theorem State.die_setTenant (s : State) (i j : Nat) (x : Tenant) : (s.setTenant i x).die j = s.die j := rfl
@[simp] theorem State.tenant_post (s : State) (es : List Event) (j : Nat) : (s.post es).tenant j = s.tenant j := rfl
theorem State.modTenant_eq (s : State) (i : Nat) (g : Tenant → Tenant) : s.modTenant i g = s.setTenant i (g (s.tenant i)) := rfl
@[simp] theorem State.die_setDie_same (s : State) (i : Nat) (x : Die) : (s.setDie i x).die i = x :=
  SMap.get_set_same _ _ _ _
theorem State.die_setDie (s : State) (i j : Nat) (x : Die) : (s.setDie i x).die j = if j = i then x else s.die j :=
  SMap.get_set _ _ _ _ _
theorem State.die_setDie_other (s : State) (i j : Nat) (x : Die) (h : j ≠ i) : (s.setDie i x).die j = s.die j :=
  SMap.get_set_other _ h _ _
@[simp] theorem State.core_setDie (s : State) (i j : Nat) (x : Die) : (s.setDie i x).core j = s.core j := rfl
@[simp] theorem State.cluster_setDie (s : State) (i j : Nat) (x : Die) : (s.setDie i x).cluster j = s.cluster j := rfl
@[simp] theorem State.tenant_setDie (s : State) (i j : Nat) (x : Die) : (s.setDie i x).tenant j = s.tenant j := rfl
@[simp] theorem State.die_post (s : State) (es : List Event) (j : Nat) : (s.post es).die j = s.die j := rfl
theorem State.modDie_eq (s : State) (i : Nat) (g : Die → Die) : s.modDie i g = s.setDie i (g (s.die i)) := rfl

end Sys2Proof.Machine
end

