-- ==== Sys2Proof/Laws/Ops.lean ====
section
/-!
SUPPORT. Sys2Proof/Laws/Ops.lean: what the shared operations on threads and registers do, said once: a changed thread, a
written register, a completed instruction, an instruction whose checks pass.
-/
namespace Sys2Proof.Machine
open Sys2Proof

/-! ### One core changed -/

@[simp] theorem State.setCore_setCore (s : State) (c : Nat) (x y : Core) : (s.setCore c x).setCore c y = s.setCore c y := by
  simp [State.setCore]

theorem Core.slot_set_same (x : Core) (k : Nat) (v : Slot) :
    ({ x with slots := SMap.set x.slots k v } : Core).slot k = v := SMap.get_set_same _ _ _ _

theorem Core.slot_set_other (x : Core) {k j : Nat} (h : j ≠ k) (v : Slot) :
    ({ x with slots := SMap.set x.slots k v } : Core).slot j = x.slot j := SMap.get_set_other _ h _ _

/-- The thread of a slot is the occupant that is live. -/
theorem State.thread?_eq (s : State) (c k : Nat) :
    s.thread? c k = (match ((s.core c).slot k).occ with
      | .live t => some t
      | _ => none) := rfl

/-- Cores alike in a slot hold alike threads there. -/
theorem State.thread?_congr {s u : State} {c k : Nat} (h : ((s.core c).slot k) = ((u.core c).slot k)) :
    s.thread? c k = u.thread? c k := by rw [State.thread?_eq, State.thread?_eq, h]

@[simp] theorem State.withThread_thread? (s : State) (c k : Nat) (t : Thread) (rf : SMap TWord) :
    (s.withThread c k t rf).thread? c k = some t := by
  rw [State.thread?_eq]
  simp [State.withThread, Core.slot]

@[simp] theorem State.withThread_core_same (s : State) (c k : Nat) (t : Thread) (rf : SMap TWord) :
    (s.withThread c k t rf).core c =
      { s.core c with rf := rf, slots := SMap.set (s.core c).slots k ⟨((s.core c).slot k).inc, .live t⟩ } := by
  simp [State.withThread]

theorem State.withThread_core_other (s : State) {c d : Nat} (k : Nat) (t : Thread) (rf : SMap TWord) (h : d ≠ c) :
    (s.withThread c k t rf).core d = s.core d := State.core_setCore_other _ _ _ _ h

/-- A thread of another slot is as before. -/
theorem State.withThread_thread?_other (s : State) {c k d j : Nat} (t : Thread) (rf : SMap TWord) (h : (d, j) ≠ (c, k)) :
    (s.withThread c k t rf).thread? d j = s.thread? d j := by
  apply State.thread?_congr
  by_cases hd : d = c
  · subst hd
    have hj : j ≠ k := fun e => h (by rw [e])
    simp [Core.slot, SMap.get_set_other _ hj]
  · rw [State.withThread_core_other s k t rf hd]

/-- Changing the live thread of a slot. -/
theorem State.modThread_eq {s : State} {c k : Nat} {t : Thread} (h : s.thread? c k = some t) (g : Thread → Thread) :
    s.modThread c k g = s.withThread c k (g t) (s.core c).rf := by
  simp [State.modThread, h, State.setThread, State.setOcc, State.withThread]

theorem State.modThread_none {s : State} {c k : Nat} (h : s.thread? c k = none) (g : Thread → Thread) :
    s.modThread c k g = s := by simp [State.modThread, h]

@[simp] theorem State.withThread_modThread (s : State) (c k : Nat) (t : Thread) (rf : SMap TWord) (g : Thread → Thread) :
    (s.withThread c k t rf).modThread c k g = s.withThread c k (g t) rf := by
  rw [State.modThread_eq (State.withThread_thread? s c k t rf)]
  unfold State.withThread
  simp [Core.slot]

/-! ### General registers -/

/-- A written register as a change of the core's file. -/
theorem State.setG_eq (s : State) (c : Nat) (t : Thread) (n : Nat) (v : TWord) :
    s.setG c t n v = s.setCore c { s.core c with rf := t.putG (s.core c).rf n v } ∨
      (n = 0 ∧ s.setG c t n v = s) := by
  by_cases h : n = 0
  · exact .inr ⟨h, by simp [State.setG, h]⟩
  · exact .inl (by simp [State.setG, h, State.modCore, Thread.putG])

/-- A register written, then the thread changed. -/
theorem State.setG_modThread {s : State} {c k : Nat} {t : Thread} (h : s.thread? c k = some t) (u : Thread) (n : Nat)
    (v : TWord) (g : Thread → Thread) :
    (s.setG c u n v).modThread c k g = s.withThread c k (g t) (u.putG (s.core c).rf n v) := by
  by_cases hn : n = 0
  · subst hn
    simp only [State.setG, if_pos, Thread.putG]
    exact State.modThread_eq h g
  · simp only [State.setG, if_neg hn, Thread.putG, State.modCore]
    have h' : (s.setCore c { s.core c with rf := SMap.set (s.core c).rf (u.entry n) v }).thread? c k = some t := by
      rw [← h]; exact State.thread?_congr (by simp [Core.slot])
    rw [State.modThread_eq h']
    unfold State.withThread
    simp [Core.slot]

@[simp] theorem State.setG_next (s : State) (c : Nat) (t : Thread) (n : Nat) (v : TWord) :
    (s.setG c t n v).next = s.next := by
  unfold State.setG; split <;> rfl

/-- g0 reads zero. -/
@[simp] theorem State.getG_zero (s : State) (c : Nat) (t : Thread) : s.getG c t 0 = TWord.zero := rfl

/-! ### Completing an instruction -/

@[simp] theorem State.withThread_next (s : State) (c k : Nat) (t : Thread) (rf : SMap TWord) :
    (s.withThread c k t rf).next = s.next := rfl
@[simp] theorem State.withThread_mem (s : State) (c k : Nat) (t : Thread) (rf : SMap TWord) :
    (s.withThread c k t rf).mem = s.mem := rfl
@[simp] theorem State.withThread_tenants (s : State) (c k : Nat) (t : Thread) (rf : SMap TWord) :
    (s.withThread c k t rf).tenants = s.tenants := rfl
@[simp] theorem State.withThread_clusters (s : State) (c k : Nat) (t : Thread) (rf : SMap TWord) :
    (s.withThread c k t rf).clusters = s.clusters := rfl

/-- A completed instruction: the thread has settled and stands at `next`; its windows are one shorter. -/
theorem State.finish_shortened {s : State} {c k : Nat} {t : Thread} (h : s.thread? c k = some t) (pc n : Nat) :
    (s.finish c k).shortened c k pc n = s.withThread c k (t.done s.next n) (s.core c).rf := by
  unfold State.finish State.settle State.advance State.goto State.shortened
  rw [State.modThread_eq h]
  simp [Thread.done, Thread.afresh, shortOps]

/-- The same after a register has been written. -/
theorem State.setG_finish_shortened {s : State} {c k : Nat} {t : Thread} (h : s.thread? c k = some t) (u : Thread)
    (m : Nat) (v : TWord) (pc n : Nat) :
    ((s.setG c u m v).finish c k).shortened c k pc n = s.withThread c k (t.done s.next n) (u.putG (s.core c).rf m v) := by
  unfold State.finish State.settle State.advance State.goto State.shortened
  rw [State.setG_modThread h]
  simp [Thread.done, Thread.afresh, shortOps]

/-- A jump in place of the move to the next instruction. -/
theorem State.goto_shortened {s : State} {c k : Nat} {t : Thread} (h : s.thread? c k = some t) (to' pc n : Nat) :
    ((s.settle c k).goto c k to').shortened c k pc n = s.withThread c k (t.done to' n) (s.core c).rf := by
  unfold State.settle State.goto State.shortened
  rw [State.modThread_eq h]
  simp [Thread.done, Thread.afresh, shortOps]

theorem State.setG_goto_shortened {s : State} {c k : Nat} {t : Thread} (h : s.thread? c k = some t) (u : Thread)
    (m : Nat) (v : TWord) (to' pc n : Nat) :
    (((s.setG c u m v).settle c k).goto c k to').shortened c k pc n =
      s.withThread c k (t.done to' n) (u.putG (s.core c).rf m v) := by
  unfold State.settle State.goto State.shortened
  rw [State.setG_modThread h]
  simp [Thread.done, Thread.afresh, shortOps]

/-- A completed instruction, whatever its effect left: the thread that is there has settled and stands at the next. -/
theorem State.finish_completed (u : State) (c k pc n : Nat) :
    (u.finish c k).shortened c k pc n = u.completed c k u.next n := by
  rcases h : u.thread? c k with _ | t
  · simp [State.finish, State.settle, State.advance, State.goto, State.shortened, State.completed, State.modThread_none h]
  · rw [State.finish_shortened h, State.completed, State.modThread_eq h]

/-- The same for a jump. -/
theorem State.goto_completed (u : State) (c k to' pc n : Nat) :
    ((u.settle c k).goto c k to').shortened c k pc n = u.completed c k to' n := by
  rcases h : u.thread? c k with _ | t
  · simp [State.settle, State.goto, State.shortened, State.completed, State.modThread_none h]
  · rw [State.goto_shortened h, State.completed, State.modThread_eq h]

@[simp] theorem State.modThread_next (u : State) (c k : Nat) (g : Thread → Thread) : (u.modThread c k g).next = u.next := by
  unfold State.modThread; split <;> rfl

@[simp] theorem State.setGs_next (s : State) (c : Nat) (u : Thread) (n : Nat) (vs : List TWord) :
    (s.setGs c u n vs).next = s.next := by
  induction vs generalizing s n with
  | nil => rfl
  | cons v r ih => rw [State.setGs, ih, State.setG_next]

/-- Registers written one after the other, then the thread changed. -/
theorem State.setGs_thread? (s : State) (c k : Nat) (u : Thread) (n : Nat) (vs : List TWord) :
    (s.setGs c u n vs).thread? c k = s.thread? c k := by
  induction vs generalizing s n with
  | nil => rfl
  | cons v r ih =>
    rw [State.setGs, ih]
    unfold State.setG; split
    · rfl
    · exact State.thread?_congr (by simp [Core.slot, State.modCore])

/-! ### Running an instruction -/

theorem State.current_thread? {s : State} {c k : Nat} {t : Thread} (h : s.current = some (c, k, t)) :
    s.cur = some (c, k) ∧ s.thread? c k = some t := by
  unfold State.current at h
  split at h
  · cases h
  · next c' k' hc =>
    split at h
    · next t' ht =>
      simp only [Option.some.injEq, Prod.mk.injEq] at h
      obtain ⟨rfl, rfl, rfl⟩ := h
      exact ⟨hc, ht⟩
    · cases h

theorem Goes.thread? {i : Instr} {s : State} {c k : Nat} {t : Thread} (h : Goes i s c k t) : s.thread? c k = some t :=
  (State.current_thread? h.1).2

/-- An instruction whose checks pass has the effect of its body. -/
theorem issue_goes {i : Instr} {s : State} {c k : Nat} {t : Thread} (h : Goes i s c k t)
    (body : Nat → Nat → Thread → State → State) :
    issue i s body = .next ((body c k t s).shortened c k t.pc s.nextId) := by
  unfold issue
  rw [h.1]
  simp only [h.2]

/-- Everything `issue` can do: nothing without a thread; the body; a wait; a trap. -/
theorem issue_cases (i : Instr) (s : State) (body : Nat → Nat → Thread → State → State) :
    (s.current = none ∧ issue i s body = .next s) ∨
    (∃ c k t, s.current = some (c, k, t) ∧
      ((s.precheck i c k t = .go ∧ issue i s body = .next ((body c k t s).shortened c k t.pc s.nextId)) ∨
       (∃ w, s.precheck i c k t = .wait w ∧ issue i s body = .next ((s.askCredits c i.specialWrites).park c k w)) ∨
       (∃ code addr aux, s.precheck i c k t = .trap code addr aux ∧
          issue i s body = .next ((s.clearAborts i c k code).raise c k code addr aux)))) := by
  unfold issue
  rcases hc : s.current with _ | ⟨c, k, t⟩
  · exact .inl ⟨rfl, rfl⟩
  · refine .inr ⟨c, k, t, rfl, ?_⟩
    simp only
    rcases hp : s.precheck i c k t with _ | w | ⟨code, addr, aux⟩
    · exact .inl ⟨rfl, rfl⟩
    · exact .inr (.inl ⟨w, rfl, rfl⟩)
    · exact .inr (.inr ⟨code, addr, aux, rfl, rfl⟩)

/-- A value instruction whose checks pass: it reads its operands, writes its result and completes. -/
theorem compute_goes {i : Instr} {s : State} {c k : Nat} {t : Thread} (h : Goes i s c k t) (f : Fields)
    (g : Vals → TWord) :
    compute i f s g = .next ((((s.readVals i c k t f).2.writeD c k t f (g (s.readVals i c k t f).1)).finish c k).shortened
      c k t.pc s.nextId) := by
  unfold compute
  rw [issue_goes h]

/-- The same where no field names a special operand and the operands are read without a change of state. -/
theorem compute_plain {i : Instr} {s : State} {c k : Nat} {t : Thread} (h : Goes i s c k t) {f : Fields}
    (hf : plainFields f) (g : Vals → TWord) {v : Vals} (hr : s.readVals i c k t f = (v, s)) :
    compute i f s g = .next (s.wrote c k t f.d (g v) s.next) := by
  rw [compute_goes h, hr]
  simp only [State.writeD, hf.1, Bool.false_eq_true, if_false]
  rw [State.setG_finish_shortened h.thread?]
  rfl

/-! ### Traps -/

/-- A thread that turns from a wait for granules has at most asked for an admission. -/
@[simp] theorem State.leaveLine_core (s : State) (c : Nat) (t : Thread) (d : Nat) : (s.leaveLine c t).core d = s.core d := by
  unfold State.leaveLine; split <;> rfl
@[simp] theorem State.leaveLine_tenant (s : State) (c : Nat) (t : Thread) (n : Nat) :
    (s.leaveLine c t).tenant n = s.tenant n := by
  unfold State.leaveLine; split <;> rfl
@[simp] theorem State.leaveLine_mem (s : State) (c : Nat) (t : Thread) : (s.leaveLine c t).mem = s.mem := by
  unfold State.leaveLine; split <;> rfl

/-- What delivering a trap does (R238, R242): nothing without a thread; a double trap stops it; otherwise the handler. -/
theorem State.deliver_cases (s : State) (c k : Nat) (tr : Trap) :
    (s.thread? c k = none ∧ s.deliver c k tr = s) ∨
    (∃ t, s.thread? c k = some t ∧
      (((t.trap.tip = true ∨ (s.tenant t.tenant).trapvec = 0) ∧
          s.deliver c k tr = ((s.leaveLine c t).setThread c k { t with run := .stopped false }).faultRec t.tenant
            (recWord 7 (tr.code * 2 ^ 48)) ((s.leaveLine c t).tid c k t)) ∨
       (t.trap.tip = false ∧ (s.tenant t.tenant).trapvec ≠ 0 ∧
          s.deliver c k tr = (s.leaveLine c t).setThread c k { t.afresh with
            trap := { t.trap with pc := w64 t.pc, code := w64 tr.code, addr := tr.addr, aux := tr.aux, pk := t.priv,
                                  tip := true }
            priv := true, pc := (s.tenant t.tenant).trapvec.toNat / 2 * 2, run := .ready }))) := by
  unfold State.deliver
  rcases ht : s.thread? c k with _ | t
  · exact .inl ⟨rfl, rfl⟩
  · refine .inr ⟨t, rfl, ?_⟩
    simp only
    split
    · next h => exact .inl ⟨by simpa using h, rfl⟩
    · next h =>
      simp only [Bool.or_eq_true, decide_eq_true_eq, not_or, Bool.not_eq_true] at h
      exact .inr ⟨h.1, by simpa using h.2, rfl⟩

end Sys2Proof.Machine
end

