-- ==== Sys2Proof/Laws/Operands.lean ====
section
/-!
SUPPORT. Sys2Proof/Laws/Operands.lean: how operands that are no special operands are read: without a change of state.
-/
namespace Sys2Proof.Machine
open Sys2Proof

@[simp] theorem State.readField_rd (s : State) (c k : Nat) (t : Thread) (n : Nat) :
    s.readField c k t .rd n false = (s.getG c t n, s) := rfl
@[simp] theorem State.readField_wr (s : State) (c k : Nat) (t : Thread) (n : Nat) :
    s.readField c k t .wr n false = (s.getG c t n, s) := rfl
@[simp] theorem State.readField_rw (s : State) (c k : Nat) (t : Thread) (n : Nat) :
    s.readField c k t .rw n false = (s.getG c t n, s) := rfl
@[simp] theorem State.readField_base (s : State) (c k : Nat) (t : Thread) (n : Nat) :
    s.readField c k t .base n false = (s.getG c t n, s) := rfl
@[simp] theorem State.readField_wrp (s : State) (c k : Nat) (t : Thread) (n : Nat) :
    s.readField c k t .wrp n false = (s.getG c t n, s) := rfl
@[simp] theorem State.readField_rwp (s : State) (c k : Nat) (t : Thread) (n : Nat) :
    s.readField c k t .rwp n false = (s.getG c t n, s) := rfl
@[simp] theorem State.readField_ptr (s : State) (c k : Nat) (t : Thread) (n : Nat) :
    s.readField c k t .ptr n false = (nthD t.ptrs n TWord.zero, s) := rfl
@[simp] theorem State.readField_none (s : State) (c k : Nat) (t : Thread) (n : Nat) :
    s.readField c k t .none n false = (TWord.zero, s) := rfl

/-! ### The address of the next instruction stays as it is -/

@[simp] theorem State.popSpecial_next (s : State) (c k n : Nat) : (s.popSpecial c k n).2.next = s.next := by
  unfold State.popSpecial
  dsimp only
  split
  · split
    · rfl
    · simp
  · split
    · split
      · rfl
      · dsimp only; split <;> rfl
    · simp

@[simp] theorem State.sendStream_next (s : State) (tn c k p : Nat) (w : TWord) (last : Bool) (after : List Nat) :
    (s.sendStream tn c k p w last after).next = s.next := by
  unfold State.sendStream
  dsimp only
  split <;> rfl

@[simp] theorem State.pushSpecial_next (s : State) (tn c k n : Nat) (w : TWord) :
    (s.pushSpecial tn c k n w).next = s.next := by
  unfold State.pushSpecial
  dsimp only
  split
  · simp
  · split <;> rfl

@[simp] theorem State.writeReg_next (s : State) (c k : Nat) (t : Thread) (n : Nat) (sp : Bool) (v : TWord) :
    (s.writeReg c k t n sp v).next = s.next := by
  unfold State.writeReg; split <;> simp

@[simp] theorem State.writeD_next (s : State) (c k : Nat) (t : Thread) (f : Fields) (v : TWord) :
    (s.writeD c k t f v).next = s.next := State.writeReg_next s c k t f.d f.sd v

@[simp] theorem State.readField_next (s : State) (c k : Nat) (t : Thread) (r : Role) (n : Nat) (sp : Bool) :
    (s.readField c k t r n sp).2.next = s.next := by
  unfold State.readField
  split
  · split <;> simp
  · split <;> rfl

@[simp] theorem State.readVals_next (s : State) (i : Instr) (c k : Nat) (t : Thread) (f : Fields) :
    (s.readVals i c k t f).2.next = s.next := by
  unfold State.readVals
  split
  · rfl
  · dsimp only
    split <;> simp

@[simp] theorem State.modCore_next (s : State) (c : Nat) (g : Core → Core) : (s.modCore c g).next = s.next := rfl

/-- An instruction that answers: its effects, the result, and on. -/
theorem State.answers_eq {u s : State} (c k : Nat) (t : Thread) (f : Fields) (v : TWord) (h : u.next = s.next) :
    ((u.writeReg c k t f.d f.sd v).finish c k).shortened c k t.pc s.nextId = u.answers s c k t f v := by
  rw [State.finish_completed, State.writeReg_next, h, State.answers]

end Sys2Proof.Machine
end

