-- ==== Sys2Proof/Laws/Vector.lean ====
section
/-!
SUPPORT. Sys2Proof/Laws/Vector.lean: the lanes of a packed word and the flags of all of them.
-/
namespace Sys2Proof.Machine
open Sys2Proof

/-- Packed lanes stay within their bits. -/
theorem packLanes_lt (w n : Nat) (g : Nat → FRes) : (packLanes w n g).1 < 2 ^ (w * n) := by
  induction n with
  | zero => simp [packLanes]
  | succ k ih =>
    simp only [packLanes]
    have h : (g k).1 % 2 ^ w < 2 ^ w := Nat.mod_lt _ (Nat.two_pow_pos w)
    have : 2 ^ (w * (k + 1)) = 2 ^ (w * k) * 2 ^ w := by rw [Nat.mul_succ, Nat.pow_add]
    rw [this]
    nlinarith [Nat.two_pow_pos (w * k)]

/-- Lane `i` of packed lanes. -/
theorem laneOf_packLanes (w n : Nat) (g : Nat → FRes) (i : Nat) (h : i < n) :
    laneOf w i (packLanes w n g).1 = (g i).1 % 2 ^ w := by
  induction n with
  | zero => cases h
  | succ k ih =>
    simp only [packLanes, laneOf]
    have hk := packLanes_lt w k g
    by_cases hi : i = k
    · subst hi
      rw [Nat.add_mul_div_right _ _ (Nat.two_pow_pos _), Nat.div_eq_of_lt hk, Nat.zero_add, Nat.mod_mod]
    · have hik : i < k := by omega
      have e : (g k).1 % 2 ^ w * 2 ^ (w * k) = 2 ^ (w * i) * (2 ^ w * ((g k).1 % 2 ^ w * 2 ^ (w * (k - i - 1)))) := by
        have : w * k = w * i + (w + w * (k - i - 1)) := by
          have : k = i + (1 + (k - i - 1)) := by omega
          conv_lhs => rw [this, Nat.mul_add, Nat.mul_add, Nat.mul_one]
        rw [this, Nat.pow_add, Nat.pow_add]; ring
      rw [e, Nat.add_mul_div_left _ _ (Nat.two_pow_pos _), Nat.add_mul_mod_self_left]
      exact ih hik

/-- A flag of packed lanes is a flag of one of them. -/
theorem packLanes_flags (w n : Nat) (g : Nat → FRes) (b : Nat) :
    (packLanes w n g).2.testBit b = true ↔ ∃ i, i < n ∧ (g i).2.testBit b = true := by
  induction n with
  | zero => simp [packLanes]
  | succ k ih =>
    simp only [packLanes, flOr]
    rw [show Nat.lor (packLanes w k g).2 (g k).2 = (packLanes w k g).2 ||| (g k).2 from rfl, Nat.testBit_or,
      Bool.or_eq_true, ih]
    constructor
    · rintro (⟨i, hi, h⟩ | h)
      · exact ⟨i, by omega, h⟩
      · exact ⟨k, by omega, h⟩
    · rintro ⟨i, hi, h⟩
      by_cases e : i = k
      · subst e; exact .inr h
      · exact .inl ⟨i, by omega, h⟩

/-- The flags of a list of results. -/
theorem foldl_flags {α : Type} (l : List (α × Nat)) (m b : Nat) :
    (l.foldl (fun m r => flOr m r.2) m).testBit b = true ↔ m.testBit b = true ∨ ∃ r ∈ l, r.2.testBit b = true := by
  induction l generalizing m with
  | nil => simp
  | cons x r ih =>
    rw [List.foldl_cons, ih]
    rw [show flOr m x.2 = m ||| x.2 from rfl, Nat.testBit_or]
    simp [or_assoc]

end Sys2Proof.Machine
end

