-- ==== Sys2Proof/Laws/Access.lean ====
section
/-!
SUPPORT. Sys2Proof/Laws/Access.lean: beginning an operation, and the instructions with a global or a local operand.
-/
namespace Sys2Proof.Machine
open Sys2Proof

@[simp] theorem State.raiseFlags_next (s : State) (c k pc : Nat) (a : Word) (fl : Nat) :
    (s.raiseFlags c k pc a fl).next = s.next := by
  unfold State.raiseFlags State.raiseAtCycle; split
  · rfl
  · dsimp only; split <;> rfl

theorem State.raise_next (s : State) (c k code : Nat) (addr aux : Word) :
    s.raise c k code addr aux = (match s.thread? c k with
      | none => s
      | some t => s.raiseAt c k code addr aux t.pc) := rfl

/-- Shortening the windows of operations that are all older than `n`, and one that is not. -/
theorem shortOps_append (l : List Op) (o : Op) (n : Nat) (h : n ≤ o.id) : shortOps (l ++ [o]) n = shortOps l n ++ [o] := by
  simp [shortOps, Nat.not_lt.2 h]

/-- The thread changed after a settled instruction, with an operation added. -/
theorem State.finish_addOp {s : State} {c k : Nat} {t : Thread} (h : s.thread? c k = some t) (g : Thread → Thread)
    (hg : ∀ u, (g u).ops = u.ops) (hw : ∀ u, (g u).want = u.want) (o : Op) (ev : Instr) :
    (((((s.finish c k).modThread c k g).addOp c k o).2).post [evt ev [c, k, s.nextId]]).shortened c k t.pc s.nextId =
      (({ s.withThread c k
          { g { t with since := 0, want := none, answer := none, declined := none, part := [], pc := s.next } with
            ops := shortOps t.ops s.nextId ++ [{ o with id := s.nextId, born := s.now }] } (s.core c).rf with
          nextId := s.nextId + 1 } : State).post [evt ev [c, k, s.nextId]]) := by
  have e1 : (s.finish c k) = s.withThread c k
      { t with since := 0, want := none, answer := none, declined := none, part := [], pc := s.next } (s.core c).rf := by
    unfold State.finish State.settle State.advance State.goto
    rw [State.modThread_eq h]; simp [Thread.afresh]
  rw [e1, State.withThread_modThread]
  unfold State.addOp State.fresh State.shortened
  simp only
  have hn : ∀ (u : Thread) (rf : SMap TWord), (s.withThread c k u rf).nextId = s.nextId := fun _ _ => rfl
  have m1 : ∀ (u : Thread) (rf : SMap TWord) (n : Nat) (q : Thread → Thread),
      ({ s.withThread c k u rf with nextId := n } : State).modThread c k q =
        { s.withThread c k (q u) rf with nextId := n } := by
    intro u rf n q
    have h' : ({ s.withThread c k u rf with nextId := n } : State).thread? c k = some u := State.withThread_thread? s c k u rf
    rw [State.modThread_eq h']
    unfold State.withThread State.setCore State.core
    simp [Core.slot]
  have m2 : ∀ (u : Thread) (rf : SMap TWord) (n : Nat) (es : List Event) (q : Thread → Thread),
      (({ s.withThread c k u rf with nextId := n } : State).post es).modThread c k q =
        ({ s.withThread c k (q u) rf with nextId := n } : State).post es := by
    intro u rf n es q
    have h' : (({ s.withThread c k u rf with nextId := n } : State).post es).thread? c k = some u :=
      State.withThread_thread? s c k u rf
    rw [State.modThread_eq h']
    unfold State.withThread State.setCore State.post State.core
    simp [Core.slot]
  rw [hn, m1, m2]
  have hpw : ¬ ((g { t with since := 0, want := none, answer := none, declined := none, part := [], pc := s.next }).pc = t.pc ∧
      (g { t with since := 0, want := none, answer := none, declined := none, part := [], pc := s.next }).want.isSome) := by
    rw [hw]; simp
  simp only [Bool.and_eq_true, decide_eq_true_eq, hpw, if_false]
  rw [← shortOps]
  simp only [hg, List.map_append, shortOps, List.map_cons, List.map_nil, Nat.lt_irrefl, if_false]
  rfl

/-- An operation that is no store begins with its first request. -/
theorem State.startOp_started {s : State} {c k : Nat} {t : Thread} (h : s.thread? c k = some t) {o : Op}
    (ho : o.kind ≠ .store) : ((s.finish c k).startOp c k o).shortened c k t.pc s.nextId = s.started c k t o .l2Request := by
  have e : (s.finish c k).startOp c k o = (((s.finish c k).modThread c k id).addOp c k o).2.post
      [evt .l2Request [c, k, s.nextId]] := by
    have hid : (s.finish c k).modThread c k id = s.finish c k := by
      unfold State.finish State.settle State.advance State.goto
      rw [State.modThread_eq h]; simp [Thread.afresh]
    have hn : (s.finish c k).nextId = s.nextId := by
      unfold State.finish State.settle State.advance State.goto
      rw [State.modThread_eq h, State.withThread_modThread]; rfl
    rw [hid]
    unfold State.startOp State.addOp State.fresh
    simp only [hn]
  rw [e, State.finish_addOp h id (fun _ => rfl) (fun _ => rfl)]
  rfl

/-- A global operand's checks, then the body. -/
theorem globalOp_goes {i : Instr} {s : State} {c k : Nat} {t : Thread} (h : Goes i s c k t) (f : Fields) (size : Nat)
    (r : Char) (body : Nat → Nat → Thread → TWord → Nat → State → State) :
    (memG t f.hi (s.gOff c t f) size r = none →
      globalOp i f s size r body = .next ((body c k t (s.getG c t f.a) (s.gOff c t f) s).shortened c k t.pc s.nextId)) ∧
    (∀ code addr aux, memG t f.hi (s.gOff c t f) size r = some (code, addr, aux) →
      globalOp i f s size r body = .next (s.trapped c k t code addr aux)) := by
  unfold globalOp
  rw [issue_goes h]
  constructor
  · intro hm; simp only [State.gOff] at hm ⊢; simp only [hm]
  · intro code addr aux hm; simp only [State.gOff] at hm; simp only [hm]; rfl

/-- A local operand's checks, then the body. -/
theorem localOp_goes {i : Instr} {s : State} {c k : Nat} {t : Thread} (h : Goes i s c k t) (f : Fields) (size : Nat)
    (body : Nat → Nat → Thread → TWord → Nat → Nat → State → State) :
    (∀ tc off, s.memLAt t (t.ptr f.a).v size = .ok (tc, off) → (s.core tc).shut = false →
      localOp i f s size body = .next ((body c k t (t.ptr f.a) tc off s).shortened c k t.pc s.nextId)) ∧
    (∀ tc off, s.memLAt t (t.ptr f.a).v size = .ok (tc, off) → (s.core tc).shut = true →
      localOp i f s size body = .next ((s.park c k (.pool tc)).shortened c k t.pc s.nextId)) ∧
    (∀ code addr aux, s.memLAt t (t.ptr f.a).v size = .error (code, addr, aux) →
      localOp i f s size body = .next (s.trapped c k t code addr aux)) := by
  unfold localOp
  rw [issue_goes h]
  refine ⟨?_, ?_, ?_⟩
  · intro tc off hm hs; simp only [hm, hs]; rfl
  · intro tc off hm hs; simp only [hm, hs]; rfl
  · intro code addr aux hm; simp only [hm]; rfl

end Sys2Proof.Machine
end

