-- ==== Sys2Proof/Laws/Memory.lean ====
section
/-!
SUPPORT. Sys2Proof/Laws/Memory.lean: the laws of a memory: what a read gives after a write, and that every memory operation
keeps the canonical form.
-/
namespace Sys2Proof.Machine
open Sys2Proof

/-! ### The canonical form -/

/-- The canonical form of a byte list, said of its elements. -/
theorem cellsWf_iff {lo : Nat} {l : List Host.Cell} :
    cellsWf lo l = true ↔ l.Pairwise (fun p q => p.1 < q.1) ∧ ∀ p ∈ l, lo ≤ p.1 ∧ p.2 ≠ 0 := by
  induction l generalizing lo with
  | nil => simp [cellsWf]
  | cons x r ih =>
    obtain ⟨a, b⟩ := x
    simp only [cellsWf, Bool.and_eq_true, decide_eq_true_eq, ih, List.pairwise_cons, List.forall_mem_cons]
    constructor
    · rintro ⟨⟨h1, h2⟩, h3, h4⟩
      exact ⟨⟨fun q hq => (h4 q hq).1, h3⟩, ⟨h1, h2⟩, fun q hq => ⟨by have := (h4 q hq).1; omega, (h4 q hq).2⟩⟩
    · rintro ⟨⟨h1, h2⟩, ⟨h3, h4⟩, h5⟩
      exact ⟨⟨h3, h4⟩, h2, fun q hq => ⟨h1 q hq, (h5 q hq).2⟩⟩

/-- A rising list, said of its elements. -/
theorem risingFrom_iff {lo : Nat} {l : List Nat} :
    risingFrom lo l = true ↔ l.Pairwise (· < ·) ∧ ∀ x ∈ l, lo ≤ x := by
  induction l generalizing lo with
  | nil => simp [risingFrom]
  | cons x r ih =>
    simp only [risingFrom, Bool.and_eq_true, decide_eq_true_eq, ih, List.pairwise_cons, List.forall_mem_cons]
    constructor
    · rintro ⟨h1, h2, h3⟩
      exact ⟨⟨fun q hq => h3 q hq, h2⟩, h1, fun q hq => by have := h3 q hq; omega⟩
    · rintro ⟨⟨h1, h2⟩, h3, -⟩
      exact ⟨h3, h2, h1⟩

theorem cellsWf_cons {lo a : Nat} {b : Byte} {r : List Host.Cell} :
    cellsWf lo ((a, b) :: r) = true ↔ lo ≤ a ∧ b ≠ 0 ∧ cellsWf (a + 1) r = true := by
  simp only [cellsWf, Bool.and_eq_true, decide_eq_true_eq, and_assoc]

/-- Writing a byte keeps the canonical form of a byte list. -/
theorem cellSet_wf {l : List Host.Cell} {a : Nat} {b : Byte} {lo : Nat} (ha : lo ≤ a) (h : cellsWf lo l = true) :
    cellsWf lo (cellSet l a b) = true := by
  induction l generalizing lo with
  | nil =>
    simp only [cellSet]
    split
    · rfl
    · next hb => exact cellsWf_cons.2 ⟨ha, hb, rfl⟩
  | cons x r ih =>
    obtain ⟨y, c⟩ := x
    obtain ⟨h1, h2, h3⟩ := cellsWf_cons.1 h
    simp only [cellSet]
    split
    · next hlt =>
      split
      · exact h
      · next hb => exact cellsWf_cons.2 ⟨ha, hb, cellsWf_cons.2 ⟨hlt, h2, h3⟩⟩
    · next hlt =>
      split
      · next he =>
        subst he
        split
        · refine cellsWf_iff.2 ⟨(cellsWf_iff.1 h3).1, fun p hp => ?_⟩
          have := (cellsWf_iff.1 h3).2 p hp
          exact ⟨by omega, this.2⟩
        · next hb => exact cellsWf_cons.2 ⟨ha, hb, h3⟩
      · next he => exact cellsWf_cons.2 ⟨h1, h2, ih (by omega : y + 1 ≤ a) h3⟩

/-- A byte reads what was written at it, and the others read as before. -/
theorem cellGet_cellSet {l : List Host.Cell} {lo : Nat} (h : cellsWf lo l = true) (a x : Nat) (b : Byte) :
    cellGet (cellSet l a b) x = if x = a then b else cellGet l x := by
  induction l generalizing lo with
  | nil =>
    simp only [cellSet]
    split
    · next hb => subst hb; simp [cellGet]
    · by_cases hx : x = a
      · subst hx; simp [cellGet]
      · simp [cellGet, hx, Ne.symm hx]
  | cons p r ih =>
    obtain ⟨y, c⟩ := p
    obtain ⟨-, -, h3⟩ := cellsWf_cons.1 h
    have low : ∀ z, z ≤ y → cellGet r z = 0 := by
      intro z hz
      have hp := (cellsWf_iff.1 h3).2
      clear ih h3 h
      induction r with
      | nil => rfl
      | cons q r ih =>
        have := (hp q (List.mem_cons_self ..)).1
        simp only [cellGet]
        rw [if_neg (by omega)]
        exact ih (fun p hp' => hp p (List.mem_cons_of_mem _ hp'))
    simp only [cellSet]
    split
    · next hlt =>
      split
      · next hb =>
        subst hb
        split
        · next hx =>
          subst hx
          simp only [cellGet]
          rw [if_neg (by omega), low _ (by omega)]
        · rfl
      · by_cases hx : x = a
        · subst hx; simp [cellGet]
        · simp [cellGet, hx, Ne.symm hx]
    · split
      · next he =>
        subst he
        split
        · next hb =>
          subst hb
          by_cases hx : x = y
          · subst hx; simp [low]
          · simp [cellGet, hx, Ne.symm hx]
        · by_cases hx : x = y
          · subst hx; simp [cellGet]
          · simp [cellGet, hx, Ne.symm hx]
      · next he =>
        by_cases hx : y = x
        · subst hx; simp [cellGet, he]
        · simp [cellGet, hx, ih h3]

theorem insSorted_rising {l : List Nat} {n lo : Nat} (hn : lo ≤ n) (h : risingFrom lo l = true) :
    risingFrom lo (insSorted l n) = true := by
  induction l generalizing lo with
  | nil => simp [insSorted, risingFrom, hn]
  | cons x r ih =>
    simp only [risingFrom, Bool.and_eq_true, decide_eq_true_eq] at h
    simp only [insSorted]
    split
    · simp [risingFrom, hn, h.2]; omega
    · split
      · simp [risingFrom, h.1, h.2]
      · simp [risingFrom, h.1, ih (by omega : x + 1 ≤ n) h.2]

theorem rising_filter {l : List Nat} {lo : Nat} (p : Nat → Bool) (h : risingFrom lo l = true) :
    risingFrom lo (l.filter p) = true :=
  risingFrom_iff.2 ⟨(risingFrom_iff.1 h).1.filter p, fun x hx => (risingFrom_iff.1 h).2 x (List.mem_filter.1 hx).1⟩

theorem cells_filter {l : List Host.Cell} {lo : Nat} (p : Host.Cell → Bool) (h : cellsWf lo l = true) :
    cellsWf lo (l.filter p) = true :=
  cellsWf_iff.2 ⟨(cellsWf_iff.1 h).1.filter p, fun x hx => (cellsWf_iff.1 h).2 x (List.mem_filter.1 hx).1⟩

theorem setMember_rising {l : List Nat} {n : Nat} {on : Bool} (h : risingFrom 0 l = true) :
    risingFrom 0 (setMember l n on) = true := by
  unfold setMember
  split
  · exact insSorted_rising (Nat.zero_le _) h
  · exact rising_filter _ h

/-- The canonical form in its three parts. -/
theorem Mem.wf_iff {m : Mem} :
    m.wf = true ↔ cellsWf 0 m.bytes = true ∧ risingFrom 0 m.taint = true ∧ risingFrom 0 m.poison = true := by
  simp [Mem.wf, and_assoc]

theorem Mem.empty_wf : Mem.empty.wf = true := rfl

theorem Mem.setByte_wf {m : Mem} (h : m.wf = true) (a : Nat) (b : Byte) : (m.setByte a b).wf = true := by
  obtain ⟨h1, h2, h3⟩ := Mem.wf_iff.1 h
  exact Mem.wf_iff.2 ⟨cellSet_wf (Nat.zero_le _) h1, h2, h3⟩

theorem Mem.writeN_wf {m : Mem} (h : m.wf = true) (a n v : Nat) : (m.writeN a n v).wf = true := by
  induction n generalizing m a v with
  | zero => exact h
  | succ n ih => exact ih (Mem.setByte_wf h _ _) _ _

theorem Mem.setTaint_wf {m : Mem} (h : m.wf = true) (w : Nat) (t : Bool) : (m.setTaint w t).wf = true := by
  obtain ⟨h1, h2, h3⟩ := Mem.wf_iff.1 h
  exact Mem.wf_iff.2 ⟨h1, setMember_rising h2, h3⟩

theorem Mem.setPoison_wf {m : Mem} (h : m.wf = true) (l : Nat) (p : Bool) : (m.setPoison l p).wf = true := by
  obtain ⟨h1, h2, h3⟩ := Mem.wf_iff.1 h
  exact Mem.wf_iff.2 ⟨h1, h2, setMember_rising h3⟩

theorem Mem.setWord_wf {m : Mem} (h : m.wf = true) (w : Nat) (v : TWord) : (m.setWord w v).wf = true :=
  Mem.setTaint_wf (Mem.writeN_wf h _ _ _) _ _

theorem Mem.store_wf {m : Mem} (h : m.wf = true) (a n : Nat) (v : TWord) : (m.store a n v).wf = true := by
  unfold Mem.store
  split
  · exact h
  · exact Mem.setWord_wf h _ _

theorem Mem.zeroLine_wf {m : Mem} (h : m.wf = true) (l : Nat) : (m.zeroLine l).wf = true := by
  have h' := Mem.writeN_wf h (128 * l) 128 0
  unfold Mem.zeroLine
  generalize m.writeN (128 * l) 128 0 = m' at h' ⊢
  obtain ⟨h1, h2, h3⟩ := Mem.wf_iff.1 h'
  exact Mem.wf_iff.2 ⟨h1, rising_filter _ h2, setMember_rising (n := l) (on := false) h3⟩

/-- A fold of steps that keep the canonical form keeps it. -/
theorem Mem.foldl_wf {α : Type} (g : Mem → α → Mem) (hg : ∀ m x, m.wf = true → (g m x).wf = true) (l : List α) {m : Mem}
    (h : m.wf = true) : (l.foldl g m).wf = true := by
  induction l generalizing m with
  | nil => exact h
  | cons x r ih => exact ih (hg m x h)

theorem mergeWords_wf {m : Mem} (h : m.wf = true) (line : Nat) (ws : List TWord) (mask : List Nat) :
    (mergeWords m line ws mask).wf = true :=
  Mem.foldl_wf _ (fun _ _ h => Mem.setWord_wf h _ _) mask h

theorem State.gather_wf {s : State} (h : s.mem.wf = true) (line : Nat) : (s.gather line).mem.wf = true := by
  have h1 : ((s.regw.filter (fun p => p.1 / 16 = line)).foldl (fun m p => m.setWord p.1 p.2.w) s.mem).wf = true :=
    Mem.foldl_wf _ (fun _ _ h => Mem.setWord_wf h _ _) _ h
  unfold State.gather
  simp only
  split
  · exact mergeWords_wf h1 _ _ _
  · exact h1

theorem State.gatherShared_wf {s : State} (h : s.mem.wf = true) (line : Nat) : (s.gatherShared line).mem.wf = true := by
  unfold State.gatherShared
  split
  · exact h
  · split
    · exact mergeWords_wf h _ _ _
    · exact h

theorem State.settleWord_wf {s : State} (h : s.mem.wf = true) (w : Nat) : (s.settleWord w).mem.wf = true := by
  unfold State.settleWord
  simp only
  have h1 : ∀ b : Bool, (if b = true then s.gather (w / 16) else s).mem.wf = true := by
    intro b
    cases b
    · exact h
    · exact State.gather_wf h _
  split
  · exact Mem.setWord_wf (h1 _) _ _
  · exact h1 _

theorem State.writeHome_wf {s : State} (h : s.mem.wf = true) (sw : Bool) (a n : Nat) (v : TWord) :
    (s.writeHome sw a n v).mem.wf = true := by
  unfold State.writeHome
  apply Mem.store_wf
  cases sw
  · exact State.settleWord_wf h _
  · exact h

/-! ### A window whose banks change -/

/-- Entries keep their order when banks move, because the banks do. -/
theorem movedEntry_lt {old new : List Nat} (ho : old.Pairwise (· < ·)) (hn : new.Pairwise (· < ·)) {per a b x y : Nat}
    (hper : 0 < per) (hab : a < b) (ha : movedEntry old new per a = some x) (hb : movedEntry old new per b = some y) :
    x < y := by
  unfold movedEntry at ha hb
  split at ha
  · cases ha
  · next p hp =>
    split at hb
    · cases hb
    · next q hq =>
      split at ha
      · next i hi =>
        split at hb
        · next j hj =>
          cases ha; cases hb
          obtain ⟨hil, hpi, -⟩ := List.findIdx?_eq_some_iff_getElem.1 hi
          obtain ⟨hjl, hqj, -⟩ := List.findIdx?_eq_some_iff_getElem.1 hj
          simp only [decide_eq_true_eq] at hpi hqj
          obtain ⟨hal, hpa⟩ := List.getElem?_eq_some_iff.1 hp
          obtain ⟨hbl, hqb⟩ := List.getElem?_eq_some_iff.1 hq
          have hle : a / per ≤ b / per := Nat.div_le_div_right (Nat.le_of_lt hab)
          rcases Nat.lt_or_ge (a / per) (b / per) with hlt | hge
          · have hpq : p < q := by
              rw [← hpa, ← hqb]; exact List.pairwise_iff_getElem.1 ho _ _ hal hbl hlt
            have hij : i < j := by
              by_contra hc
              rcases Nat.lt_or_ge j i with h | h
              · have := List.pairwise_iff_getElem.1 hn _ _ hjl hil h
                omega
              · have : i = j := by omega
                subst this; omega
            have h1 : a % per < per := Nat.mod_lt _ hper
            have h2 : (i + 1) * per ≤ j * per := Nat.mul_le_mul_right _ hij
            have h3 : (i + 1) * per = i * per + per := by ring
            omega
          · have he : a / per = b / per := by omega
            have hpq : p = q := by
              have : old[a / per]? = old[b / per]? := by rw [he]
              rw [hp, hq] at this
              exact Option.some.inj this
            subst hpq
            have : i = j := by rw [hi] at hj; exact Option.some.inj hj
            subst this
            have h1 := Nat.div_add_mod a per
            have h2 := Nat.div_add_mod b per
            rw [he] at h1
            omega
        · cases hb
      · cases ha

theorem Mem.moved_wf {m : Mem} (h : m.wf = true) {old new : List Nat} (ho : old.Pairwise (· < ·))
    (hn : new.Pairwise (· < ·)) : (m.moved old new).wf = true := by
  obtain ⟨h1, h2, h3⟩ := Mem.wf_iff.1 h
  have hl : ∀ (l : List Nat) (per : Nat), 0 < per → l.Pairwise (· < ·) →
      risingFrom 0 (l.filterMap (movedEntry old new per)) = true := by
    intro l per hper hp
    refine risingFrom_iff.2 ⟨List.Pairwise.filterMap _ (S := (· < ·)) ?_ hp, fun _ _ => Nat.zero_le _⟩
    intro a b hab x hx y hy
    exact movedEntry_lt ho hn hper hab hx hy
  refine Mem.wf_iff.2 ⟨?_, hl _ _ (by decide) (risingFrom_iff.1 h2).1, hl _ _ (by decide) (risingFrom_iff.1 h3).1⟩
  refine cellsWf_iff.2 ⟨List.Pairwise.filterMap _ (S := fun (p q : Host.Cell) => p.1 < q.1) ?_ (cellsWf_iff.1 h1).1,
    fun p hp => ⟨Nat.zero_le _, ?_⟩⟩
  · intro a b hab x hx y hy
    simp only [Option.map_eq_some_iff] at hx hy
    obtain ⟨x', hx, rfl⟩ := hx
    obtain ⟨y', hy, rfl⟩ := hy
    exact movedEntry_lt ho hn (by decide) hab hx hy
  · obtain ⟨q, hq, hx⟩ := List.mem_filterMap.1 hp
    simp only [Option.map_eq_some_iff] at hx
    obtain ⟨x', -, rfl⟩ := hx
    exact ((cellsWf_iff.1 h1).2 q hq).2

/-! ### Reads after writes -/

/-- A byte of a memory in canonical form after a byte is written. -/
theorem Mem.byte_setByte {m : Mem} (h : m.wf = true) (a x : Nat) (b : Byte) :
    (m.setByte a b).byte x = if x = a then b else m.byte x :=
  cellGet_cellSet (Mem.wf_iff.1 h).1 a x b

/-- Bytes outside a written extent read as before. -/
theorem Mem.byte_writeN_other {m : Mem} (h : m.wf = true) {a n : Nat} (v : Nat) {x : Nat} (hx : x < a ∨ a + n ≤ x) :
    (m.writeN a n v).byte x = m.byte x := by
  induction n generalizing m a v with
  | zero => rfl
  | succ n ih =>
    simp only [Mem.writeN]
    rw [ih (Mem.setByte_wf h _ _) _ (by omega), Mem.byte_setByte h, if_neg (by omega)]

/-- A written extent reads back, modulo its width. -/
theorem Mem.readN_writeN {m : Mem} (h : m.wf = true) (a n v : Nat) : (m.writeN a n v).readN a n = v % 256 ^ n := by
  induction n generalizing m a v with
  | zero => simp [Mem.readN, Nat.mod_one]
  | succ n ih =>
    simp only [Mem.writeN, Mem.readN]
    rw [ih (Mem.setByte_wf h _ _), Mem.byte_writeN_other (Mem.setByte_wf h _ _) _ (by omega), Mem.byte_setByte h,
      if_pos rfl, Nat.pow_succ, Nat.mul_comm (256 ^ n) 256, Nat.mod_mul]
    simp

/-- An extent apart from a written one reads as before. -/
theorem Mem.readN_writeN_other {m : Mem} (h : m.wf = true) {a n b k : Nat} (v : Nat) (hd : b + k ≤ a ∨ a + n ≤ b) :
    (m.writeN a n v).readN b k = m.readN b k := by
  induction k generalizing b with
  | zero => rfl
  | succ k ih =>
    simp only [Mem.readN]
    rw [Mem.byte_writeN_other h _ (by omega), ih (by omega)]

/-- Bytes outside the word of a store read as before. -/
theorem Mem.byte_store_other {m : Mem} (h : m.wf = true) {a n : Nat} (v : TWord) {x : Nat} (hx : x / 8 ≠ a / 8) :
    (m.store a n v).byte x = m.byte x := by
  unfold Mem.store
  split
  · rfl
  · show (m.writeN (8 * (a / 8)) 8 _).byte x = m.byte x
    exact Mem.byte_writeN_other h _ (by omega)

end Sys2Proof.Machine
end

