-- ==== Sys2Proof/Laws/PerInstr.lean ====
section
/-!
SUPPORT. Sys2Proof/Laws/PerInstr.lean: what holds of every instruction as syntax, one lemma per constructor.
-/
namespace Sys2Proof.Laws.Coding
open Sys2Proof

/-- The opcode map at the page and op6 of a well-formed instruction, with its fields, is the instruction (R20, R28 to R34). -/
def Statement (i : Instr) : Prop :=
  ∀ f pg op, WellFormed i = true → i.fields = some f → i.opc = some (pg, op) →
    opMap pg op f = some i ∧ pg ≤ 6 ∧ 1 ≤ op ∧ op ≤ 57

theorem of_map {i : Instr} {g : Fields} {p q : Nat} (hf : i.fields = some g) (ho : i.opc = some (p, q))
    (hm : opMap p q g = some i) (hr : (Nat.ble p 6 && Nat.ble 1 q && Nat.ble q 57) = true) : Statement i := by
  intro f pg op _ h1 h2
  rw [hf] at h1; rw [ho] at h2
  cases h1; cases h2
  simp only [Bool.and_eq_true, Nat.ble_eq] at hr
  exact ⟨hm, hr.1.1, hr.1.2, hr.2⟩

theorem of_event {i : Instr} (h : i.opc = none) : Statement i := by
  intro f pg op _ _ h2
  rw [h] at h2
  cases h2

/-- The four fences share op6 51: the kind in d tells them apart. -/
theorem of_kind {i : Instr} {g : Fields} {n : Nat} (hf : i.fields = some g) (ho : i.opc = some (0, 51))
    (hd : WellFormed i = true → g.d = n) (hm : g.d = n → opMap 0 51 g = some i) : Statement i := by
  intro f pg op h h1 h2
  rw [hf] at h1; rw [ho] at h2
  cases h1; cases h2
  exact ⟨hm (hd h), by decide, by decide, by decide⟩

theorem nop (f : Fields) : Statement (.nop f) := of_map rfl rfl rfl rfl
theorem mov (f : Fields) : Statement (.mov f) := of_map rfl rfl rfl rfl
theorem movk (f : Fields) : Statement (.movk f) := of_map rfl rfl rfl rfl
theorem movkh (f : Fields) : Statement (.movkh f) := of_map rfl rfl rfl rfl
theorem add (f : Fields) : Statement (.add f) := of_map rfl rfl rfl rfl
theorem sub (f : Fields) : Statement (.sub f) := of_map rfl rfl rfl rfl
theorem addk (f : Fields) : Statement (.addk f) := of_map rfl rfl rfl rfl
theorem neg (f : Fields) : Statement (.neg f) := of_map rfl rfl rfl rfl
theorem mul (f : Fields) : Statement (.mul f) := of_map rfl rfl rfl rfl
theorem mulh (f : Fields) : Statement (.mulh f) := of_map rfl rfl rfl rfl
theorem div (f : Fields) : Statement (.div f) := of_map rfl rfl rfl rfl
theorem rem (f : Fields) : Statement (.rem f) := of_map rfl rfl rfl rfl
theorem andOp (f : Fields) : Statement (.andOp f) := of_map rfl rfl rfl rfl
theorem orOp (f : Fields) : Statement (.orOp f) := of_map rfl rfl rfl rfl
theorem xor (f : Fields) : Statement (.xor f) := of_map rfl rfl rfl rfl
theorem andn (f : Fields) : Statement (.andn f) := of_map rfl rfl rfl rfl
theorem notOp (f : Fields) : Statement (.notOp f) := of_map rfl rfl rfl rfl
theorem shl (f : Fields) : Statement (.shl f) := of_map rfl rfl rfl rfl
theorem shr (f : Fields) : Statement (.shr f) := of_map rfl rfl rfl rfl
theorem sar (f : Fields) : Statement (.sar f) := of_map rfl rfl rfl rfl
theorem shlk (f : Fields) : Statement (.shlk f) := of_map rfl rfl rfl rfl
theorem shrk (f : Fields) : Statement (.shrk f) := of_map rfl rfl rfl rfl
theorem sark (f : Fields) : Statement (.sark f) := of_map rfl rfl rfl rfl
theorem minOp (f : Fields) : Statement (.minOp f) := of_map rfl rfl rfl rfl
theorem maxOp (f : Fields) : Statement (.maxOp f) := of_map rfl rfl rfl rfl
theorem cmpeq (f : Fields) : Statement (.cmpeq f) := of_map rfl rfl rfl rfl
theorem cmpne (f : Fields) : Statement (.cmpne f) := of_map rfl rfl rfl rfl
theorem cmplt (f : Fields) : Statement (.cmplt f) := of_map rfl rfl rfl rfl
theorem cmple (f : Fields) : Statement (.cmple f) := of_map rfl rfl rfl rfl
theorem sel (f : Fields) : Statement (.sel f) := of_map rfl rfl rfl rfl
theorem clz (f : Fields) : Statement (.clz f) := of_map rfl rfl rfl rfl
theorem popc (f : Fields) : Statement (.popc f) := of_map rfl rfl rfl rfl
theorem bfx (f : Fields) : Statement (.bfx f) := of_map rfl rfl rfl rfl
theorem bfi (f : Fields) : Statement (.bfi f) := of_map rfl rfl rfl rfl
theorem sext (f : Fields) : Statement (.sext f) := of_map rfl rfl rfl rfl
theorem br (f : Fields) : Statement (.br f) := of_map rfl rfl rfl rfl
theorem call (f : Fields) : Statement (.call f) := of_map rfl rfl rfl rfl
theorem jr (f : Fields) : Statement (.jr f) := of_map rfl rfl rfl rfl
theorem bz (f : Fields) : Statement (.bz f) := of_map rfl rfl rfl rfl
theorem bnz (f : Fields) : Statement (.bnz f) := of_map rfl rfl rfl rfl
theorem bltz (f : Fields) : Statement (.bltz f) := of_map rfl rfl rfl rfl
theorem bgez (f : Fields) : Statement (.bgez f) := of_map rfl rfl rfl rfl
theorem ldg (f : Fields) : Statement (.ldg f) := of_map rfl rfl rfl rfl
theorem stg (f : Fields) : Statement (.stg f) := of_map rfl rfl rfl rfl
theorem ldl (f : Fields) : Statement (.ldl f) := of_map rfl rfl rfl rfl
theorem stl (f : Fields) : Statement (.stl f) := of_map rfl rfl rfl rfl
theorem ldlp (f : Fields) : Statement (.ldlp f) := of_map rfl rfl rfl rfl
theorem stlp (f : Fields) : Statement (.stlp f) := of_map rfl rfl rfl rfl
theorem ldacq (f : Fields) : Statement (.ldacq f) := of_map rfl rfl rfl rfl
theorem strel (f : Fields) : Statement (.strel f) := of_map rfl rfl rfl rfl
theorem fence (f : Fields) : Statement (.fence f) :=
  of_kind (n := 0) rfl rfl
    (fun h => by simp [WellFormed, Instr.form, Instr.fields, Instr.opc, wellFormedFields, Instr.roles, Role.ok] at h; omega)
    (fun h => by simp [opMap, page0, h])
theorem fenceX (f : Fields) : Statement (.fenceX f) :=
  of_kind (n := 1) rfl rfl
    (fun h => by simp [WellFormed, Instr.form, Instr.fields, Instr.opc, wellFormedFields, Instr.roles, Role.ok] at h; omega)
    (fun h => by simp [opMap, page0, h])
theorem fenceA (f : Fields) : Statement (.fenceA f) :=
  of_kind (n := 2) rfl rfl
    (fun h => by simp [WellFormed, Instr.form, Instr.fields, Instr.opc, wellFormedFields, Instr.roles, Role.ok] at h; omega)
    (fun h => by simp [opMap, page0, h])
theorem fenceS (f : Fields) : Statement (.fenceS f) :=
  of_kind (n := 3) rfl rfl
    (fun h => by simp [WellFormed, Instr.form, Instr.fields, Instr.opc, wellFormedFields, Instr.roles, Role.ok] at h; omega)
    (fun h => by simp [opMap, page0, h])
theorem pref (f : Fields) : Statement (.pref f) := of_map rfl rfl rfl rfl
theorem scopeo (f : Fields) : Statement (.scopeo f) := of_map rfl rfl rfl rfl
theorem scopec (f : Fields) : Statement (.scopec f) := of_map rfl rfl rfl rfl
theorem pset (f : Fields) : Statement (.pset f) := of_map rfl rfl rfl rfl
theorem pget (f : Fields) : Statement (.pget f) := of_map rfl rfl rfl rfl
theorem padd (f : Fields) : Statement (.padd f) := of_map rfl rfl rfl rfl
theorem vadd (f : Fields) : Statement (.vadd f) := of_map rfl rfl rfl rfl
theorem vsub (f : Fields) : Statement (.vsub f) := of_map rfl rfl rfl rfl
theorem vmul (f : Fields) : Statement (.vmul f) := of_map rfl rfl rfl rfl
theorem vfma (f : Fields) : Statement (.vfma f) := of_map rfl rfl rfl rfl
theorem vmin (f : Fields) : Statement (.vmin f) := of_map rfl rfl rfl rfl
theorem vmax (f : Fields) : Statement (.vmax f) := of_map rfl rfl rfl rfl
theorem vabs (f : Fields) : Statement (.vabs f) := of_map rfl rfl rfl rfl
theorem vneg (f : Fields) : Statement (.vneg f) := of_map rfl rfl rfl rfl
theorem vrcp (f : Fields) : Statement (.vrcp f) := of_map rfl rfl rfl rfl
theorem vrsq (f : Fields) : Statement (.vrsq f) := of_map rfl rfl rfl rfl
theorem vexp2 (f : Fields) : Statement (.vexp2 f) := of_map rfl rfl rfl rfl
theorem vlog2 (f : Fields) : Statement (.vlog2 f) := of_map rfl rfl rfl rfl
theorem vcvt (f : Fields) : Statement (.vcvt f) := of_map rfl rfl rfl rfl
theorem vcmp (f : Fields) : Statement (.vcmp f) := of_map rfl rfl rfl rfl
theorem vsel (f : Fields) : Statement (.vsel f) := of_map rfl rfl rfl rfl
theorem vradd (f : Fields) : Statement (.vradd f) := of_map rfl rfl rfl rfl
theorem vrmax (f : Fields) : Statement (.vrmax f) := of_map rfl rfl rfl rfl
theorem vbcst (f : Fields) : Statement (.vbcst f) := of_map rfl rfl rfl rfl
theorem vlane (f : Fields) : Statement (.vlane f) := of_map rfl rfl rfl rfl
theorem vperm (f : Fields) : Statement (.vperm f) := of_map rfl rfl rfl rfl
theorem vand (f : Fields) : Statement (.vand f) := of_map rfl rfl rfl rfl
theorem vor (f : Fields) : Statement (.vor f) := of_map rfl rfl rfl rfl
theorem vxor (f : Fields) : Statement (.vxor f) := of_map rfl rfl rfl rfl
theorem vshl (f : Fields) : Statement (.vshl f) := of_map rfl rfl rfl rfl
theorem vshr (f : Fields) : Statement (.vshr f) := of_map rfl rfl rfl rfl
theorem vldl (f : Fields) : Statement (.vldl f) := of_map rfl rfl rfl rfl
theorem vstl (f : Fields) : Statement (.vstl f) := of_map rfl rfl rfl rfl
theorem vldg (f : Fields) : Statement (.vldg f) := of_map rfl rfl rfl rfl
theorem vstg (f : Fields) : Statement (.vstg f) := of_map rfl rfl rfl rfl
theorem vgath (f : Fields) : Statement (.vgath f) := of_map rfl rfl rfl rfl
theorem vscat (f : Fields) : Statement (.vscat f) := of_map rfl rfl rfl rfl
theorem vscale (f : Fields) : Statement (.vscale f) := of_map rfl rfl rfl rfl
theorem vclamp (f : Fields) : Statement (.vclamp f) := of_map rfl rfl rfl rfl
theorem fadd (f : Fields) : Statement (.fadd f) := of_map rfl rfl rfl rfl
theorem fsub (f : Fields) : Statement (.fsub f) := of_map rfl rfl rfl rfl
theorem fmul (f : Fields) : Statement (.fmul f) := of_map rfl rfl rfl rfl
theorem ffma (f : Fields) : Statement (.ffma f) := of_map rfl rfl rfl rfl
theorem fmin (f : Fields) : Statement (.fmin f) := of_map rfl rfl rfl rfl
theorem fmax (f : Fields) : Statement (.fmax f) := of_map rfl rfl rfl rfl
theorem fcmp (f : Fields) : Statement (.fcmp f) := of_map rfl rfl rfl rfl
theorem fcvt (f : Fields) : Statement (.fcvt f) := of_map rfl rfl rfl rfl
theorem frcp (f : Fields) : Statement (.frcp f) := of_map rfl rfl rfl rfl
theorem frsq (f : Fields) : Statement (.frsq f) := of_map rfl rfl rfl rfl
theorem bpack (f : Fields) : Statement (.bpack f) := of_map rfl rfl rfl rfl
theorem bunpk (f : Fields) : Statement (.bunpk f) := of_map rfl rfl rfl rfl
theorem plxp (f : Fields) : Statement (.plxp f) := of_map rfl rfl rfl rfl
theorem pldot (f : Fields) : Statement (.pldot f) := of_map rfl rfl rfl rfl
theorem mfmt (f : Fields) : Statement (.mfmt f) := of_map rfl rfl rfl rfl
theorem mzero (f : Fields) : Statement (.mzero f) := of_map rfl rfl rfl rfl
theorem mma (f : Fields) : Statement (.mma f) := of_map rfl rfl rfl rfl
theorem mstore (f : Fields) : Statement (.mstore f) := of_map rfl rfl rfl rfl
theorem mstat (f : Fields) : Statement (.mstat f) := of_map rfl rfl rfl rfl
theorem mtest (f : Fields) : Statement (.mtest f) := of_map rfl rfl rfl rfl
theorem mfree (f : Fields) : Statement (.mfree f) := of_map rfl rfl rfl rfl
theorem vwnew (f : Fields) : Statement (.vwnew f) := of_map rfl rfl rfl rfl
theorem vwdup (f : Fields) : Statement (.vwdup f) := of_map rfl rfl rfl rfl
theorem vwsplit (f : Fields) : Statement (.vwsplit f) := of_map rfl rfl rfl rfl
theorem vwnarrow (f : Fields) : Statement (.vwnarrow f) := of_map rfl rfl rfl rfl
theorem vwdrop (f : Fields) : Statement (.vwdrop f) := of_map rfl rfl rfl rfl
theorem vwinfo (f : Fields) : Statement (.vwinfo f) := of_map rfl rfl rfl rfl
theorem ldv (f : Fields) : Statement (.ldv f) := of_map rfl rfl rfl rfl
theorem stv (f : Fields) : Statement (.stv f) := of_map rfl rfl rfl rfl
theorem sanew (f : Fields) : Statement (.sanew f) := of_map rfl rfl rfl rfl
theorem saadd (f : Fields) : Statement (.saadd f) := of_map rfl rfl rfl rfl
theorem saread (f : Fields) : Statement (.saread f) := of_map rfl rfl rfl rfl
theorem sainfo (f : Fields) : Statement (.sainfo f) := of_map rfl rfl rfl rfl
theorem saevict (f : Fields) : Statement (.saevict f) := of_map rfl rfl rfl rfl
theorem safree (f : Fields) : Statement (.safree f) := of_map rfl rfl rfl rfl
theorem amoadd (f : Fields) : Statement (.amoadd f) := of_map rfl rfl rfl rfl
theorem amoand (f : Fields) : Statement (.amoand f) := of_map rfl rfl rfl rfl
theorem amoor (f : Fields) : Statement (.amoor f) := of_map rfl rfl rfl rfl
theorem amoxor (f : Fields) : Statement (.amoxor f) := of_map rfl rfl rfl rfl
theorem amomin (f : Fields) : Statement (.amomin f) := of_map rfl rfl rfl rfl
theorem amomax (f : Fields) : Statement (.amomax f) := of_map rfl rfl rfl rfl
theorem amoswap (f : Fields) : Statement (.amoswap f) := of_map rfl rfl rfl rfl
theorem amocas (f : Fields) : Statement (.amocas f) := of_map rfl rfl rfl rfl
theorem amofadd (f : Fields) : Statement (.amofadd f) := of_map rfl rfl rfl rfl
theorem cflush (f : Fields) : Statement (.cflush f) := of_map rfl rfl rfl rfl
theorem cinv (f : Fields) : Statement (.cinv f) := of_map rfl rfl rfl rfl
theorem pghot (f : Fields) : Statement (.pghot f) := of_map rfl rfl rfl rfl
theorem pgmig (f : Fields) : Statement (.pgmig f) := of_map rfl rfl rfl rfl
theorem xlate (f : Fields) : Statement (.xlate f) := of_map rfl rfl rfl rfl
theorem setcoh (f : Fields) : Statement (.setcoh f) := of_map rfl rfl rfl rfl
theorem spawn (f : Fields) : Statement (.spawn f) := of_map rfl rfl rfl rfl
theorem yield (f : Fields) : Statement (.yield f) := of_map rfl rfl rfl rfl
theorem exit (f : Fields) : Statement (.exit f) := of_map rfl rfl rfl rfl
theorem tid (f : Fields) : Statement (.tid f) := of_map rfl rfl rfl rfl
theorem join (f : Fields) : Statement (.join f) := of_map rfl rfl rfl rfl
theorem leave (f : Fields) : Statement (.leave f) := of_map rfl rfl rfl rfl
theorem grpinfo (f : Fields) : Statement (.grpinfo f) := of_map rfl rfl rfl rfl
theorem syinit (f : Fields) : Statement (.syinit f) := of_map rfl rfl rfl rfl
theorem syacq (f : Fields) : Statement (.syacq f) := of_map rfl rfl rfl rfl
theorem sytry (f : Fields) : Statement (.sytry f) := of_map rfl rfl rfl rfl
theorem syrel (f : Fields) : Statement (.syrel f) := of_map rfl rfl rfl rfl
theorem sydlg (f : Fields) : Statement (.sydlg f) := of_map rfl rfl rfl rfl
theorem syarv (f : Fields) : Statement (.syarv f) := of_map rfl rfl rfl rfl
theorem sywait (f : Fields) : Statement (.sywait f) := of_map rfl rfl rfl rfl
theorem symode (f : Fields) : Statement (.symode f) := of_map rfl rfl rfl rfl
theorem hbarv (f : Fields) : Statement (.hbarv f) := of_map rfl rfl rfl rfl
theorem hbwait (f : Fields) : Statement (.hbwait f) := of_map rfl rfl rfl rfl
theorem hbcfg (f : Fields) : Statement (.hbcfg f) := of_map rfl rfl rfl rfl
theorem cpy (f : Fields) : Statement (.cpy f) := of_map rfl rfl rfl rfl
theorem cpy2d (f : Fields) : Statement (.cpy2d f) := of_map rfl rfl rfl rfl
theorem cpyq (f : Fields) : Statement (.cpyq f) := of_map rfl rfl rfl rfl
theorem sdesc (f : Fields) : Statement (.sdesc f) := of_map rfl rfl rfl rfl
theorem sdstop (f : Fields) : Statement (.sdstop f) := of_map rfl rfl rfl rfl
theorem swinit (f : Fields) : Statement (.swinit f) := of_map rfl rfl rfl rfl
theorem swwait (f : Fields) : Statement (.swwait f) := of_map rfl rfl rfl rfl
theorem qcfg (f : Fields) : Statement (.qcfg f) := of_map rfl rfl rfl rfl
theorem qstat (f : Fields) : Statement (.qstat f) := of_map rfl rfl rfl rfl
theorem nopen (f : Fields) : Statement (.nopen f) := of_map rfl rfl rfl rfl
theorem nsende (f : Fields) : Statement (.nsende f) := of_map rfl rfl rfl rfl
theorem nstat (f : Fields) : Statement (.nstat f) := of_map rfl rfl rfl rfl
theorem waitm (f : Fields) : Statement (.waitm f) := of_map rfl rfl rfl rfl
theorem msgrd (f : Fields) : Statement (.msgrd f) := of_map rfl rfl rfl rfl
theorem msgsend (f : Fields) : Statement (.msgsend f) := of_map rfl rfl rfl rfl
theorem msgcnt (f : Fields) : Statement (.msgcnt f) := of_map rfl rfl rfl rfl
theorem bkmode (f : Fields) : Statement (.bkmode f) := of_map rfl rfl rfl rfl
theorem bkinfo (f : Fields) : Statement (.bkinfo f) := of_map rfl rfl rfl rfl
theorem trap (f : Fields) : Statement (.trap f) := of_map rfl rfl rfl rfl
theorem rett (f : Fields) : Statement (.rett f) := of_map rfl rfl rfl rfl
theorem rdsr (f : Fields) : Statement (.rdsr f) := of_map rfl rfl rfl rfl
theorem wrsr (f : Fields) : Statement (.wrsr f) := of_map rfl rfl rfl rfl
theorem segld (f : Fields) : Statement (.segld f) := of_map rfl rfl rfl rfl
theorem segrd (f : Fields) : Statement (.segrd f) := of_map rfl rfl rfl rfl
theorem ctxsv (f : Fields) : Statement (.ctxsv f) := of_map rfl rfl rfl rfl
theorem ctxld (f : Fields) : Statement (.ctxld f) := of_map rfl rfl rfl rfl
theorem brk (f : Fields) : Statement (.brk f) := of_map rfl rfl rfl rfl
theorem tntrd (f : Fields) : Statement (.tntrd f) := of_map rfl rfl rfl rfl
theorem tntclr (f : Fields) : Statement (.tntclr f) := of_map rfl rfl rfl rfl
theorem perfrd (f : Fields) : Statement (.perfrd f) := of_map rfl rfl rfl rfl
theorem svcall (f : Fields) : Statement (.svcall f) := of_map rfl rfl rfl rfl
theorem pghash (f : Fields) : Statement (.pghash f) := of_map rfl rfl rfl rfl
theorem longLatencyComplete : Statement .longLatencyComplete := of_event rfl
theorem instructionWake : Statement .instructionWake := of_event rfl
theorem trapDelivery : Statement .trapDelivery := of_event rfl
theorem deferredTrap : Statement .deferredTrap := of_event rfl
theorem storeBufferDrain : Statement .storeBufferDrain := of_event rfl
theorem storeRegistration : Statement .storeRegistration := of_event rfl
theorem registrationAck : Statement .registrationAck := of_event rfl
theorem recallWord : Statement .recallWord := of_event rfl
theorem recallAnswer : Statement .recallAnswer := of_event rfl
theorem registrantWriteBack : Statement .registrantWriteBack := of_event rfl
theorem forwardedLoad : Statement .forwardedLoad := of_event rfl
theorem l2Request : Statement .l2Request := of_event rfl
theorem hbmFill : Statement .hbmFill := of_event rfl
theorem gets : Statement .gets := of_event rfl
theorem getm : Statement .getm := of_event rfl
theorem evictionNotice : Statement .evictionNotice := of_event rfl
theorem inv : Statement .inv := of_event rfl
theorem invAck : Statement .invAck := of_event rfl
theorem evack : Statement .evack := of_event rfl
theorem ownerRecall : Statement .ownerRecall := of_event rfl
theorem ownerRecallAnswer : Statement .ownerRecallAnswer := of_event rfl
theorem ownershipGrant : Statement .ownershipGrant := of_event rfl
theorem leaseHeartbeat : Statement .leaseHeartbeat := of_event rfl
theorem leaseExpiry : Statement .leaseExpiry := of_event rfl
theorem leasecheck : Statement .leasecheck := of_event rfl
theorem leasecheckTimeout : Statement .leasecheckTimeout := of_event rfl
theorem hostHalfRequest : Statement .hostHalfRequest := of_event rfl
theorem hostHalfResponse : Statement .hostHalfResponse := of_event rfl
theorem bridgeEntryFreed : Statement .bridgeEntryFreed := of_event rfl
theorem hostSnoop : Statement .hostSnoop := of_event rfl
theorem wcDrainTimeout : Statement .wcDrainTimeout := of_event rfl
theorem wcDrain : Statement .wcDrain := of_event rfl
theorem walkStart : Statement .walkStart := of_event rfl
theorem pageWalkDone : Statement .pageWalkDone := of_event rfl
theorem pfrespWrite : Statement .pfrespWrite := of_event rfl
theorem xinvWrite : Statement .xinvWrite := of_event rfl
theorem atsInvalidation : Statement .atsInvalidation := of_event rfl
theorem migrationCopy : Statement .migrationCopy := of_event rfl
theorem migrationDrainDone : Statement .migrationDrainDone := of_event rfl
theorem poisonDetected : Statement .poisonDetected := of_event rfl
theorem softErrorCorrected : Statement .softErrorCorrected := of_event rfl
theorem apexWindowShrink : Statement .apexWindowShrink := of_event rfl
theorem viewOpRequest : Statement .viewOpRequest := of_event rfl
theorem viewCacheFetch : Statement .viewCacheFetch := of_event rfl
theorem viewInvalidate : Statement .viewInvalidate := of_event rfl
theorem granuleFreeStart : Statement .granuleFreeStart := of_event rfl
theorem granuleDrainDone : Statement .granuleDrainDone := of_event rfl
theorem tuCommandAccept : Statement .tuCommandAccept := of_event rfl
theorem tuLineTransfer : Statement .tuLineTransfer := of_event rfl
theorem syncWordCount : Statement .syncWordCount := of_event rfl
theorem cpyqPush : Statement .cpyqPush := of_event rfl
theorem copydone : Statement .copydone := of_event rfl
theorem prefetchIssue : Statement .prefetchIssue := of_event rfl
theorem messageDepart : Statement .messageDepart := of_event rfl
theorem messageArrival : Statement .messageArrival := of_event rfl
theorem mxWriteWait : Statement .mxWriteWait := of_event rfl
theorem creditRequest : Statement .creditRequest := of_event rfl
theorem creditGrant : Statement .creditGrant := of_event rfl
theorem queueWordArrival : Statement .queueWordArrival := of_event rfl
theorem streamWordArrival : Statement .streamWordArrival := of_event rfl
theorem streamForceClose : Statement .streamForceClose := of_event rfl
theorem scopeSpaceGrant : Statement .scopeSpaceGrant := of_event rfl
theorem latticeCommandStart : Statement .latticeCommandStart := of_event rfl
theorem tileFetchLine : Statement .tileFetchLine := of_event rfl
theorem planePairExecute : Statement .planePairExecute := of_event rfl
theorem mxdone : Statement .mxdone := of_event rfl
theorem tileEccError : Statement .tileEccError := of_event rfl
theorem latticeSelfTest : Statement .latticeSelfTest := of_event rfl
theorem streamAddApply : Statement .streamAddApply := of_event rfl
theorem saovf : Statement .saovf := of_event rfl
theorem radiusSnapshot : Statement .radiusSnapshot := of_event rfl
theorem rowEviction : Statement .rowEviction := of_event rfl
theorem rowReload : Statement .rowReload := of_event rfl
theorem sadone : Statement .sadone := of_event rfl
theorem admission : Statement .admission := of_event rfl
theorem spawnRequestArrival : Statement .spawnRequestArrival := of_event rfl
theorem spawnAdmitTimeout : Statement .spawnAdmitTimeout := of_event rfl
theorem spawnAnswer : Statement .spawnAnswer := of_event rfl
theorem launchEntryTaken : Statement .launchEntryTaken := of_event rfl
theorem poolPlanReady : Statement .poolPlanReady := of_event rfl
theorem launchCreate : Statement .launchCreate := of_event rfl
theorem launchDone : Statement .launchDone := of_event rfl
theorem fpWindowEnd : Statement .fpWindowEnd := of_event rfl
theorem stopRequest : Statement .stopRequest := of_event rfl
theorem stopTakesEffect : Statement .stopTakesEffect := of_event rfl
theorem contextSaveComplete : Statement .contextSaveComplete := of_event rfl
theorem coreFatalError : Statement .coreFatalError := of_event rfl
theorem apexCoreRepair : Statement .apexCoreRepair := of_event rfl
theorem apexCoreFence : Statement .apexCoreFence := of_event rfl
theorem ltholdSet : Statement .ltholdSet := of_event rfl
theorem ltholdClear : Statement .ltholdClear := of_event rfl
theorem lockAttempt : Statement .lockAttempt := of_event rfl
theorem flagRetry : Statement .flagRetry := of_event rfl
theorem lockRelease : Statement .lockRelease := of_event rfl
theorem lockWithdrawal : Statement .lockWithdrawal := of_event rfl
theorem grant : Statement .grant := of_event rfl
theorem grantAck : Statement .grantAck := of_event rfl
theorem grantReturned : Statement .grantReturned := of_event rfl
theorem timeout : Statement .timeout := of_event rfl
theorem locusWindowEnd : Statement .locusWindowEnd := of_event rfl
theorem delegateAdmitted : Statement .delegateAdmitted := of_event rfl
theorem delegateBodyExit : Statement .delegateBodyExit := of_event rfl
theorem phaseArrival : Statement .phaseArrival := of_event rfl
theorem phaseWaitRequest : Statement .phaseWaitRequest := of_event rfl
theorem phaseLeave : Statement .phaseLeave := of_event rfl
theorem combinerForward : Statement .combinerForward := of_event rfl
theorem syncTimeoutExpiry : Statement .syncTimeoutExpiry := of_event rfl
theorem axisEpisodeComplete : Statement .axisEpisodeComplete := of_event rfl
theorem axisEpisodeTimeout : Statement .axisEpisodeTimeout := of_event rfl
theorem hashJobComplete : Statement .hashJobComplete := of_event rfl
theorem hashPeriodicTimer : Statement .hashPeriodicTimer := of_event rfl
theorem breakpointHit : Statement .breakpointHit := of_event rfl
theorem watchpointHit : Statement .watchpointHit := of_event rfl
theorem dres : Statement .dres := of_event rfl
theorem lqwp : Statement .lqwp := of_event rfl
theorem lqwaWordUpdate : Statement .lqwaWordUpdate := of_event rfl
theorem lqctl : Statement .lqctl := of_event rfl
theorem ringRpWrite : Statement .ringRpWrite := of_event rfl
theorem fcopenOpen : Statement .fcopenOpen := of_event rfl
theorem fcopenClose : Statement .fcopenClose := of_event rfl
theorem fswp : Statement .fswp := of_event rfl
theorem doorbellRegWrite : Statement .doorbellRegWrite := of_event rfl
theorem hostMemAccess : Statement .hostMemAccess := of_event rfl
theorem bisnp : Statement .bisnp := of_event rfl
theorem birsp : Statement .birsp := of_event rfl
theorem mxreq : Statement .mxreq := of_event rfl
theorem mxrsp : Statement .mxrsp := of_event rfl
theorem rd : Statement .rd := of_event rfl
theorem wr : Statement .wr := of_event rfl
theorem wrm : Statement .wrm := of_event rfl
theorem zeroLine : Statement .zeroLine := of_event rfl
theorem scrub : Statement .scrub := of_event rfl
theorem rdrsp : Statement .rdrsp := of_event rfl
theorem wrack : Statement .wrack := of_event rfl
theorem iord : Statement .iord := of_event rfl
theorem iowr : Statement .iowr := of_event rfl
theorem iorsp : Statement .iorsp := of_event rfl
theorem iomsg : Statement .iomsg := of_event rfl
theorem param : Statement .param := of_event rfl
theorem topord : Statement .topord := of_event rfl
theorem toprsp : Statement .toprsp := of_event rfl
theorem splErr : Statement .splErr := of_event rfl
theorem dieReset : Statement .dieReset := of_event rfl
theorem splCreditReturn : Statement .splCreditReturn := of_event rfl
theorem ucieLinkUp : Statement .ucieLinkUp := of_event rfl
theorem splParamTimeout : Statement .splParamTimeout := of_event rfl
theorem ucieReplayFail : Statement .ucieReplayFail := of_event rfl
theorem dataFrame : Statement .dataFrame := of_event rfl
theorem ackFrame : Statement .ackFrame := of_event rfl
theorem nackFrame : Statement .nackFrame := of_event rfl
theorem connect : Statement .connect := of_event rfl
theorem accept : Statement .accept := of_event rfl
theorem refuse : Statement .refuse := of_event rfl
theorem closeFrame : Statement .closeFrame := of_event rfl
theorem connectRetryTimer : Statement .connectRetryTimer := of_event rfl
theorem ackTimer : Statement .ackTimer := of_event rfl
theorem resendTimer : Statement .resendTimer := of_event rfl
theorem portLinkDown : Statement .portLinkDown := of_event rfl
theorem sendEntryTaken : Statement .sendEntryTaken := of_event rfl
theorem fsent : Statement .fsent := of_event rfl
theorem fabidAssign : Statement .fabidAssign := of_event rfl
theorem getVersion : Statement .getVersion := of_event rfl
theorem getCapabilities : Statement .getCapabilities := of_event rfl
theorem negotiateAlgorithms : Statement .negotiateAlgorithms := of_event rfl
theorem getDigests : Statement .getDigests := of_event rfl
theorem getCertificate : Statement .getCertificate := of_event rfl
theorem challenge : Statement .challenge := of_event rfl
theorem getMeasurements : Statement .getMeasurements := of_event rfl
theorem keyExchange : Statement .keyExchange := of_event rfl
theorem spdmFinish : Statement .spdmFinish := of_event rfl
theorem endSession : Statement .endSession := of_event rfl
theorem lockInterfaceRequest : Statement .lockInterfaceRequest := of_event rfl
theorem startInterfaceRequest : Statement .startInterfaceRequest := of_event rfl
theorem tdiUnlock : Statement .tdiUnlock := of_event rfl
theorem tdiError : Statement .tdiError := of_event rfl
theorem powerGood : Statement .powerGood := of_event rfl
theorem railTimeout : Statement .railTimeout := of_event rfl
theorem firmwareCheck : Statement .firmwareCheck := of_event rfl
theorem topologyWalk : Statement .topologyWalk := of_event rfl
theorem hbmTraining : Statement .hbmTraining := of_event rfl
theorem cxlLinkUp : Statement .cxlLinkUp := of_event rfl
theorem cxlConfigRequest : Statement .cxlConfigRequest := of_event rfl
theorem moduleReset : Statement .moduleReset := of_event rfl
theorem clusterPowerGate : Statement .clusterPowerGate := of_event rfl
theorem powerOverload : Statement .powerOverload := of_event rfl
theorem ucieTrainingFail : Statement .ucieTrainingFail := of_event rfl
theorem cxlLinkTrainingFail : Statement .cxlLinkTrainingFail := of_event rfl
theorem portLinkUp : Statement .portLinkUp := of_event rfl
theorem msixVectorUnmask : Statement .msixVectorUnmask := of_event rfl
theorem tenantCreated : Statement .tenantCreated := of_event rfl
theorem creditReturn : Statement .creditReturn := of_event rfl
theorem locusAnswer : Statement .locusAnswer := of_event rfl
theorem apexLatticeRepair : Statement .apexLatticeRepair := of_event rfl

end Sys2Proof.Laws.Coding
end

