-- ==== Sys2Proof/Laws/Schedule.lean ====
section
/-!
SUPPORT. Sys2Proof/Laws/Schedule.lean: what the choice of a slot and of a turn can answer (R225, R226).
-/
namespace Sys2Proof.Machine
open Sys2Proof

/-- A step that goes on has a next state behind it. -/
theorem endOut_next {o : Out} {t : State} (h : endOut o = .next t) : ∃ s, o = .next s ∧ t = s.endStep := by
  cases o with
  | next s => exact ⟨s, rfl, by simpa [endOut] using h.symm⟩
  | fault f => simp [endOut] at h
  | refused r => simp [endOut] at h

/-- The slot after another is one of the list. -/
theorem firstAfter_mem {l : List Nat} {n k : Nat} (h : firstAfter l n = some k) : k ∈ l := by
  unfold firstAfter at h
  split at h
  · next h' => cases h; exact List.mem_of_find?_eq_some h'
  · exact List.mem_of_mem_head? h

/-- The slot that has waited longest is one of the list. -/
theorem longest_mem {x : Core} {l : List Nat} {k : Nat} (h : x.longest l = some k) : k ∈ l := by
  have key : ∀ (l : List Nat) (b : Option Nat) (k : Nat),
      l.foldl (fun b k =>
        let r := fun k => match (x.slot k).readyThread with
          | some t => t.lastRun
          | none => 0
        match b with
        | none => some k
        | some j => if r k < r j then some k else some j) b = some k → k ∈ l ∨ b = some k := by
    intro l
    induction l with
    | nil => intro b k h; exact .inr h
    | cons a l ih =>
      intro b k h
      rcases ih _ _ h with h | h
      · exact .inl (List.mem_cons_of_mem _ h)
      · cases b with
        | none => simp at h; exact .inl (by simp [h])
        | some j =>
          simp only at h
          by_cases hc : (match (x.slot a).readyThread with
            | some t => t.lastRun
            | none => 0) < (match (x.slot j).readyThread with
            | some t => t.lastRun
            | none => 0)
          · rw [if_pos hc] at h; exact .inl (by simp at h; simp [h])
          · rw [if_neg hc] at h; exact .inr h
  rcases key l none k h with h | h
  · exact h
  · cases h

/-- A core of no deterministic launch issues only from a ready slot. -/
theorem issueSlot_ready {s : State} {c k : Nat} (hb : s.boundSlots c = none) (h : s.issueSlot c = some k) :
    k ∈ (s.core c).readySlots := by
  unfold State.issueSlot at h
  rw [hb] at h
  · simp only at h
    split at h
    · exact longest_mem h
    · have := firstAfter_mem h
      simp at this
      exact this.1

/-- A ready slot holds a ready thread. -/
theorem readySlots_thread {s : State} {c k : Nat} (h : k ∈ (s.core c).readySlots) :
    ∃ t, s.thread? c k = some t ∧ t.run = .ready := by
  have h := (List.mem_filter.1 h).2
  unfold State.thread?
  unfold Slot.readyThread at h
  generalize ((s.core c).slot k).occ = o at h ⊢
  cases o <;> simp at h ⊢
  exact h

/-- A core whose turn it may be is not dead, and unless it belongs to a deterministic launch its slot holds a ready thread. -/
theorem issuers_ready {s : State} {c k : Nat} (h : (c, k) ∈ s.issuers) :
    (s.core c).dead = false ∧ (s.boundSlots c = none → ∃ t, s.thread? c k = some t ∧ t.run = .ready) := by
  obtain ⟨p, -, h⟩ := List.mem_filterMap.1 h
  split at h
  · cases h
  · next hd =>
    rcases ho : s.issueSlot p.1 with _ | k'
    · simp [ho] at h
    · simp [ho] at h
      obtain ⟨rfl, rfl⟩ := h
      exact ⟨by simpa using hd, fun hb => readySlots_thread (issueSlot_ready hb ho)⟩

/-- A turn that is given is one of those that may be. -/
theorem choice_issue {s : State} {c k : Nat} (h : s.choice = .issue c k) : (c, k) ∈ s.issuers := by
  unfold State.choice at h
  simp only at h
  split at h
  · cases h
  · split at h
    · next h' => cases h; exact List.mem_of_getElem? h'
    · split at h <;> cases h

/-- The slot of a core that may issue is the one it issues from. -/
theorem issuers_slot {s : State} {c k : Nat} (h : (c, k) ∈ s.issuers) : s.issueSlot c = some k := by
  obtain ⟨p, -, h⟩ := List.mem_filterMap.1 h
  split at h
  · cases h
  · rcases ho : s.issueSlot p.1 with _ | k'
    · simp [ho] at h
    · simp [ho] at h
      obtain ⟨rfl, rfl⟩ := h
      exact ho

/-- The choice of a slot does not depend on whose turn it is. -/
theorem issueSlot_turn (s : State) (c : Nat) (r : Option (Nat × Nat)) (n : Nat) :
    ({ s with cur := r, tick := n } : State).issueSlot c = s.issueSlot c := rfl

end Sys2Proof.Machine
end

