-- ==== Sys2Proof/Tests/Slice0.lean ====
section
/-!
SUPPORT. Sys2Proof/Tests/Slice0.lean: words written out from the encoding tables of the specification, ill-formed instructions,
single steps with the specification's own values, and for each statement states that meet its hypotheses.
-/
namespace Sys2Proof.Tests
open Sys2Proof Sys2Proof.Machine

/-! ### Helpers -/

/-- The fields of an instruction that names no special operand. -/
def fl (d a b : Nat) (three : Bool) (fx la hi lo : Nat) (imm : Int) : Fields :=
  ⟨d, a, b, false, false, false, three, fx, la, hi, lo, imm⟩

/-- Every parcel sequence of the list decodes to the instruction beside it, whole. -/
def decodesTo (l : List (List Nat × Instr)) : Bool :=
  l.all (fun p => match decode p.1 with
    | .ok (i, n, r) => decide (i = p.2) && n == p.1.length && r.isEmpty
    | .error _ => false)

/-- Every parcel sequence of the list is refused for the reason beside it. -/
def refusesWith (l : List (List Nat × Reject)) : Bool :=
  l.all (fun p => match decode p.1 with
    | .ok _ => false
    | .error e => decide (e = p.2))

/-! ### Decoding: one word for each row of R28 to R35, written from R14 to R22 -/

/-- R28, rows 1 to 20. -/
theorem test_decode_page0_0 : decodesTo [
    ([0x0400], .nop (fl 0 0 0 false 0 0 0 0 0)),
    ([0x0A91], .mov (fl 20 17 0 false 0 0 0 0 0)),
    ([0x0E81], .movk (fl 20 0 0 false 0 0 0 0 1)),
    ([0x1281], .movkh (fl 20 0 0 false 0 0 0 0 1)),
    ([0xF802, 0xFC48, 0x1691], .add (fl 20 17 9 true 0 0 0 2 0)),
    ([0xF802, 0xFC48, 0x1A91], .sub (fl 20 17 9 true 0 0 0 2 0)),
    ([0xF802, 0x1E81], .addk (fl 20 0 0 false 0 0 0 2 1)),
    ([0xF802, 0x2291], .neg (fl 20 17 0 false 0 0 0 2 0)),
    ([0xF802, 0xFC48, 0x2691], .mul (fl 20 17 9 true 0 0 0 2 0)),
    ([0xF801, 0xFC48, 0x2A91], .mulh (fl 20 17 9 true 0 0 0 1 0)),
    ([0xF803, 0xFC48, 0x2E91], .div (fl 20 17 9 true 0 0 0 3 0)),
    ([0xF803, 0xFC48, 0x3291], .rem (fl 20 17 9 true 0 0 0 3 0)),
    ([0xFC48, 0x3691], .andOp (fl 20 17 9 true 0 0 0 0 0)),
    ([0xFC48, 0x3A91], .orOp (fl 20 17 9 true 0 0 0 0 0)),
    ([0xFC48, 0x3E91], .xor (fl 20 17 9 true 0 0 0 0 0)),
    ([0xFC48, 0x4291], .andn (fl 20 17 9 true 0 0 0 0 0)),
    ([0x4691], .notOp (fl 20 17 0 false 0 0 0 0 0)),
    ([0xF802, 0xFC48, 0x4A91], .shl (fl 20 17 9 true 0 0 0 2 0)),
    ([0xF802, 0xFC48, 0x4E91], .shr (fl 20 17 9 true 0 0 0 2 0)),
    ([0xF802, 0xFC48, 0x5291], .sar (fl 20 17 9 true 0 0 0 2 0))] = true := by decide

/-- R28, rows 21 to 40. -/
theorem test_decode_page0_1 : decodesTo [
    ([0xF802, 0x5681], .shlk (fl 20 0 0 false 0 0 0 2 1)),
    ([0xF802, 0x5A81], .shrk (fl 20 0 0 false 0 0 0 2 1)),
    ([0xF802, 0x5E81], .sark (fl 20 0 0 false 0 0 0 2 1)),
    ([0xF803, 0xFC48, 0x6291], .minOp (fl 20 17 9 true 0 0 0 3 0)),
    ([0xF803, 0xFC48, 0x6691], .maxOp (fl 20 17 9 true 0 0 0 3 0)),
    ([0xF802, 0xFC48, 0x6A91], .cmpeq (fl 20 17 9 true 0 0 0 2 0)),
    ([0xF802, 0xFC48, 0x6E91], .cmpne (fl 20 17 9 true 0 0 0 2 0)),
    ([0xF803, 0xFC48, 0x7291], .cmplt (fl 20 17 9 true 0 0 0 3 0)),
    ([0xF803, 0xFC48, 0x7691], .cmple (fl 20 17 9 true 0 0 0 3 0)),
    ([0xFC48, 0x7A91], .sel (fl 20 17 9 true 0 0 0 0 0)),
    ([0xF802, 0x7E91], .clz (fl 20 17 0 false 0 0 0 2 0)),
    ([0xF802, 0x8291], .popc (fl 20 17 0 false 0 0 0 2 0)),
    ([0xF000, 0xF205, 0x8691], .bfx (fl 20 17 0 false 0 0 0 0 517)),
    ([0xF000, 0xF205, 0x8A91], .bfi (fl 20 17 0 false 0 0 0 0 517)),
    ([0x8E81], .sext (fl 20 0 0 false 0 0 0 0 1)),
    ([0x93FE], .br (fl 0 0 0 false 0 0 0 0 (-2))),
    ([0x97FE], .call (fl 0 0 0 false 0 0 0 0 (-2))),
    ([0x9A91], .jr (fl 20 17 0 false 0 0 0 0 0)),
    ([0x9E81], .bz (fl 20 0 0 false 0 0 0 0 1)),
    ([0xA281], .bnz (fl 20 0 0 false 0 0 0 0 1))] = true := by decide

/-- R28, rows 41 to 60. -/
theorem test_decode_page0_2 : decodesTo [
    ([0xA681], .bltz (fl 20 0 0 false 0 0 0 0 1)),
    ([0xAA81], .bgez (fl 20 0 0 false 0 0 0 0 1)),
    ([0xF808, 0xF488, 0xADA1], .ldg (fl 20 17 0 false 0 6 1 0 0)),
    ([0xF808, 0xF488, 0xB1A1], .stg (fl 20 17 0 false 0 6 1 0 0)),
    ([0xF480, 0xB5A5], .ldl (fl 20 5 0 false 0 6 0 0 0)),
    ([0xF480, 0xB9A5], .stl (fl 20 5 0 false 0 6 0 0 0)),
    ([0xF480, 0xBDA5], .ldlp (fl 20 5 0 false 0 6 0 0 0)),
    ([0xF480, 0xC1A5], .stlp (fl 20 5 0 false 0 6 0 0 0)),
    ([0xF808, 0xF488, 0xC5A1], .ldacq (fl 20 17 0 false 0 6 1 0 0)),
    ([0xF808, 0xF488, 0xC9A1], .strel (fl 20 17 0 false 0 6 1 0 0)),
    ([0xCC00], .fence (fl 0 0 0 false 0 0 0 0 0)),
    ([0xCC20], .fenceX (fl 1 0 0 false 0 0 0 0 0)),
    ([0xCC51], .fenceA (fl 2 17 0 false 0 0 0 0 0)),
    ([0xCC60], .fenceS (fl 3 0 0 false 0 0 0 0 0)),
    ([0xF808, 0xF408, 0xD189], .pref (fl 1 17 0 false 0 6 1 0 0)),
    ([0xD401], .scopeo (fl 0 0 0 false 0 0 0 0 1)),
    ([0xD800], .scopec (fl 0 0 0 false 0 0 0 0 0)),
    ([0xDC71], .pset (fl 3 17 0 false 0 0 0 0 0)),
    ([0xE285], .pget (fl 20 5 0 false 0 0 0 0 0)),
    ([0xE461], .padd (fl 3 0 0 false 0 0 0 0 1))] = true := by decide

/-- R29, rows 1 to 20. -/
theorem test_decode_page1_0 : decodesTo [
    ([0xF840, 0xFC40, 0x0710], .vadd (fl 24 16 8 true 0 0 0 0 0)),
    ([0xF840, 0xFC40, 0x0B10], .vsub (fl 24 16 8 true 0 0 0 0 0)),
    ([0xF840, 0xFC40, 0x0F10], .vmul (fl 24 16 8 true 0 0 0 0 0)),
    ([0xF840, 0xFC40, 0x1310], .vfma (fl 24 16 8 true 0 0 0 0 0)),
    ([0xF840, 0xFC40, 0x1710], .vmin (fl 24 16 8 true 0 0 0 0 0)),
    ([0xF840, 0xFC40, 0x1B10], .vmax (fl 24 16 8 true 0 0 0 0 0)),
    ([0xF840, 0x1F10], .vabs (fl 24 16 0 false 0 0 0 0 0)),
    ([0xF840, 0x2310], .vneg (fl 24 16 0 false 0 0 0 0 0)),
    ([0xF840, 0x2710], .vrcp (fl 24 16 0 false 0 0 0 0 0)),
    ([0xF840, 0x2B10], .vrsq (fl 24 16 0 false 0 0 0 0 0)),
    ([0xF840, 0x2F10], .vexp2 (fl 24 16 0 false 0 0 0 0 0)),
    ([0xF840, 0x3310], .vlog2 (fl 24 16 0 false 0 0 0 0 0)),
    ([0xF840, 0xFC01, 0x3710], .vcvt (fl 24 16 0 true 1 0 0 0 0)),
    ([0xF840, 0xFC42, 0x3B10], .vcmp (fl 24 16 8 true 2 0 0 0 0)),
    ([0xF840, 0xFC40, 0x3F10], .vsel (fl 24 16 8 true 0 0 0 0 0)),
    ([0xF840, 0x4290], .vradd (fl 20 16 0 false 0 0 0 0 0)),
    ([0xF840, 0x4690], .vrmax (fl 20 16 0 false 0 0 0 0 0)),
    ([0xF840, 0x4B11], .vbcst (fl 24 17 0 false 0 0 0 0 0)),
    ([0xF840, 0x4E90], .vlane (fl 20 16 0 false 0 0 0 0 0)),
    ([0xF840, 0xFC40, 0x5310], .vperm (fl 24 16 8 true 0 0 0 0 0))] = true := by decide

/-- R29, rows 21 to 40. -/
theorem test_decode_page1_1 : decodesTo [
    ([0xF840, 0xFC40, 0x5710], .vand (fl 24 16 8 true 0 0 0 0 0)),
    ([0xF840, 0xFC40, 0x5B10], .vor (fl 24 16 8 true 0 0 0 0 0)),
    ([0xF840, 0xFC40, 0x5F10], .vxor (fl 24 16 8 true 0 0 0 0 0)),
    ([0xF858, 0xFC40, 0x6310], .vshl (fl 24 16 8 true 0 0 3 0 0)),
    ([0xF858, 0xFC40, 0x6710], .vshr (fl 24 16 8 true 0 0 3 0 0)),
    ([0xF840, 0xF4C0, 0x6985], .vldl (fl 24 5 0 false 0 6 0 0 0)),
    ([0xF840, 0xF4C0, 0x6D85], .vstl (fl 24 5 0 false 0 6 0 0 0)),
    ([0xF848, 0xF4C8, 0x7181], .vldg (fl 24 17 0 false 0 6 1 0 0)),
    ([0xF848, 0xF4C8, 0x7581], .vstg (fl 24 17 0 false 0 6 1 0 0)),
    ([0xF848, 0xF4C8, 0xFC40, 0x7981], .vgath (fl 24 17 8 true 0 6 1 0 0)),
    ([0xF848, 0xF4C8, 0xFC40, 0x7D81], .vscat (fl 24 17 8 true 0 6 1 0 0)),
    ([0xF840, 0xFC40, 0x8310], .vscale (fl 24 16 8 true 0 0 0 0 0)),
    ([0xF840, 0xFC40, 0x8710], .vclamp (fl 24 16 8 true 0 0 0 0 0)),
    ([0xF840, 0xFC48, 0x8A91], .fadd (fl 20 17 9 true 0 0 0 0 0)),
    ([0xF840, 0xFC48, 0x8E91], .fsub (fl 20 17 9 true 0 0 0 0 0)),
    ([0xF840, 0xFC48, 0x9291], .fmul (fl 20 17 9 true 0 0 0 0 0)),
    ([0xF840, 0xFC48, 0x9691], .ffma (fl 20 17 9 true 0 0 0 0 0)),
    ([0xF840, 0xFC48, 0x9A91], .fmin (fl 20 17 9 true 0 0 0 0 0)),
    ([0xF840, 0xFC48, 0x9E91], .fmax (fl 20 17 9 true 0 0 0 0 0)),
    ([0xF840, 0xFC4A, 0xA291], .fcmp (fl 20 17 9 true 2 0 0 0 0))] = true := by decide

/-- R29, rows 41 to 43. -/
theorem test_decode_page1_2 : decodesTo [
    ([0xF840, 0xFC01, 0xA691], .fcvt (fl 20 17 0 true 1 0 0 0 0)),
    ([0xF840, 0xAA91], .frcp (fl 20 17 0 false 0 0 0 0 0)),
    ([0xF840, 0xAE91], .frsq (fl 20 17 0 false 0 0 0 0 0))] = true := by decide

/-- R30, rows 1 to 11. -/
theorem test_decode_page2_0 : decodesTo [
    ([0xF883, 0x059D], .bpack (fl 3 5 0 false 0 6 0 3 0)),
    ([0xF883, 0x099D], .bunpk (fl 3 5 0 false 0 6 0 3 0)),
    ([0xF880, 0x0F10], .plxp (fl 24 16 0 false 0 0 0 0 0)),
    ([0xF880, 0xFC4A, 0x1291], .pldot (fl 20 17 9 true 2 0 0 0 0)),
    ([0xF880, 0x1680], .mfmt (fl 20 0 0 false 0 0 0 0 0)),
    ([0xF880, 0x1820], .mzero (fl 1 0 0 false 0 0 0 0 0)),
    ([0xF880, 0xFCAC, 0x1D8B], .mma (fl 1 3 21 true 4 6 0 0 0)),
    ([0xF888, 0xF408, 0x218B], .mstore (fl 1 19 0 false 0 6 1 0 0)),
    ([0xF880, 0x2680], .mstat (fl 20 0 0 false 0 0 0 0 0)),
    ([0xF880, 0x2800], .mtest (fl 0 0 0 false 0 0 0 0 0)),
    ([0xF880, 0x2C20], .mfree (fl 1 0 0 false 0 0 0 0 0))] = true := by decide

/-- R32, rows 1 to 20. -/
theorem test_decode_page3_0 : decodesTo [
    ([0xF8C0, 0x0691], .vwnew (fl 20 17 0 false 0 0 0 0 0)),
    ([0xF8C0, 0x0A91], .vwdup (fl 20 17 0 false 0 0 0 0 0)),
    ([0xF8C0, 0xFC48, 0x0E91], .vwsplit (fl 20 17 9 true 0 0 0 0 0)),
    ([0xF8C0, 0xFC48, 0x1291], .vwnarrow (fl 20 17 9 true 0 0 0 0 0)),
    ([0xF8C0, 0x1680], .vwdrop (fl 20 0 0 false 0 0 0 0 0)),
    ([0xF8C0, 0x1A91], .vwinfo (fl 20 17 0 false 0 0 0 0 0)),
    ([0xF8C0, 0xF488, 0xFC48, 0x1DA2], .ldv (fl 20 18 9 true 0 6 0 0 0)),
    ([0xF8C0, 0xF488, 0xFC48, 0x21A2], .stv (fl 20 18 9 true 0 6 0 0 0)),
    ([0xF8C8, 0x2691], .sanew (fl 20 17 0 false 0 0 1 0 0)),
    ([0xF8C8, 0x2B11], .saadd (fl 24 17 0 false 0 0 1 0 0)),
    ([0xF8C8, 0xF4C8, 0x2D81], .saread (fl 24 17 0 false 0 6 1 0 0)),
    ([0xF8C8, 0x3291], .sainfo (fl 20 17 0 false 0 0 1 0 0)),
    ([0xF8C8, 0x3691], .saevict (fl 20 17 0 false 0 0 1 0 0)),
    ([0xF8C8, 0x3811], .safree (fl 0 17 0 false 0 0 1 0 0)),
    ([0xF8C8, 0xF488, 0xFC48, 0x3DA1], .amoadd (fl 20 17 9 true 0 6 1 0 0)),
    ([0xF8C8, 0xF488, 0xFC48, 0x41A1], .amoand (fl 20 17 9 true 0 6 1 0 0)),
    ([0xF8C8, 0xF488, 0xFC48, 0x45A1], .amoor (fl 20 17 9 true 0 6 1 0 0)),
    ([0xF8C8, 0xF488, 0xFC48, 0x49A1], .amoxor (fl 20 17 9 true 0 6 1 0 0)),
    ([0xF8C8, 0xF488, 0xFC48, 0x4DA1], .amomin (fl 20 17 9 true 0 6 1 0 0)),
    ([0xF8C8, 0xF488, 0xFC48, 0x51A1], .amomax (fl 20 17 9 true 0 6 1 0 0))] = true := by decide

/-- R32, rows 21 to 29. -/
theorem test_decode_page3_1 : decodesTo [
    ([0xF8C8, 0xF488, 0xFC48, 0x55A1], .amoswap (fl 20 17 9 true 0 6 1 0 0)),
    ([0xF8C8, 0xF488, 0xFC48, 0x59A1], .amocas (fl 20 17 9 true 0 6 1 0 0)),
    ([0xF8CB, 0xF488, 0xFC48, 0x5DA1], .amofadd (fl 20 17 9 true 0 6 1 3 0)),
    ([0xF8C8, 0x6291], .cflush (fl 20 17 0 false 0 0 1 0 0)),
    ([0xF8C8, 0x6691], .cinv (fl 20 17 0 false 0 0 1 0 0)),
    ([0xF8C8, 0x6A91], .pghot (fl 20 17 0 false 0 0 1 0 0)),
    ([0xF8C8, 0x6E91], .pgmig (fl 20 17 0 false 0 0 1 0 0)),
    ([0xF8C8, 0x7291], .xlate (fl 20 17 0 false 0 0 1 0 0)),
    ([0xF8C8, 0x7691], .setcoh (fl 20 17 0 false 0 0 1 0 0))] = true := by decide

/-- R33, rows 1 to 18. -/
theorem test_decode_page4_0 : decodesTo [
    ([0xF900, 0xFC48, 0x0691], .spawn (fl 20 17 9 true 0 0 0 0 0)),
    ([0xF900, 0x0800], .yield (fl 0 0 0 false 0 0 0 0 0)),
    ([0xF900, 0x0E80], .exit (fl 20 0 0 false 0 0 0 0 0)),
    ([0xF900, 0x1280], .tid (fl 20 0 0 false 0 0 0 0 0)),
    ([0xF900, 0x1691], .join (fl 20 17 0 false 0 0 0 0 0)),
    ([0xF900, 0x1A91], .leave (fl 20 17 0 false 0 0 0 0 0)),
    ([0xF900, 0x1E91], .grpinfo (fl 20 17 0 false 0 0 0 0 0)),
    ([0xF908, 0x2291], .syinit (fl 20 17 0 false 0 0 1 0 0)),
    ([0xF908, 0x2411], .syacq (fl 0 17 0 false 0 0 1 0 0)),
    ([0xF908, 0x2A91], .sytry (fl 20 17 0 false 0 0 1 0 0)),
    ([0xF908, 0x2C11], .syrel (fl 0 17 0 false 0 0 1 0 0)),
    ([0xF908, 0x3291], .sydlg (fl 20 17 0 false 0 0 1 0 0)),
    ([0xF908, 0x3411], .syarv (fl 0 17 0 false 0 0 1 0 0)),
    ([0xF908, 0x3811], .sywait (fl 0 17 0 false 0 0 1 0 0)),
    ([0xF908, 0x3E91], .symode (fl 20 17 0 false 0 0 1 0 0)),
    ([0xF900, 0x4001], .hbarv (fl 0 0 0 false 0 0 0 0 1)),
    ([0xF900, 0x4681], .hbwait (fl 20 0 0 false 0 0 0 0 1)),
    ([0xF900, 0x4A81], .hbcfg (fl 20 0 0 false 0 0 0 0 1))] = true := by decide

/-- R34, rows 1 to 18. -/
theorem test_decode_page5_0 : decodesTo [
    ([0xF948, 0x0691], .cpy (fl 20 17 0 false 0 0 1 0 0)),
    ([0xF948, 0x0A91], .cpy2d (fl 20 17 0 false 0 0 1 0 0)),
    ([0xF948, 0x0E91], .cpyq (fl 20 17 0 false 0 0 1 0 0)),
    ([0xF940, 0x1291], .sdesc (fl 20 17 0 false 0 0 0 0 0)),
    ([0xF940, 0x1411], .sdstop (fl 0 17 0 false 0 0 0 0 0)),
    ([0xF940, 0x1871], .swinit (fl 3 17 0 false 0 0 0 0 0)),
    ([0xF940, 0x1E85], .swwait (fl 20 5 0 false 0 0 0 0 0)),
    ([0xF940, 0x2291], .qcfg (fl 20 17 0 false 0 0 0 0 0)),
    ([0xF940, 0x2691], .qstat (fl 20 17 0 false 0 0 0 0 0)),
    ([0xF940, 0x2A81], .nopen (fl 20 0 0 false 0 0 0 0 1)),
    ([0xF940, 0x2E81], .nsende (fl 20 0 0 false 0 0 0 0 1)),
    ([0xF940, 0x3281], .nstat (fl 20 0 0 false 0 0 0 0 1)),
    ([0xF940, 0x3400], .waitm (fl 0 0 0 false 0 0 0 0 0)),
    ([0xF940, 0x3A91], .msgrd (fl 20 17 0 false 0 0 0 0 0)),
    ([0xF940, 0xFC48, 0x3E91], .msgsend (fl 20 17 9 true 0 0 0 0 0)),
    ([0xF940, 0x4280], .msgcnt (fl 20 0 0 false 0 0 0 0 0)),
    ([0xF940, 0x4691], .bkmode (fl 20 17 0 false 0 0 0 0 0)),
    ([0xF940, 0x4A91], .bkinfo (fl 20 17 0 false 0 0 0 0 0))] = true := by decide

/-- R35, rows 1 to 14. -/
theorem test_decode_page6_0 : decodesTo [
    ([0xF980, 0x0401], .trap (fl 0 0 0 false 0 0 0 0 1)),
    ([0xF980, 0x0800], .rett (fl 0 0 0 false 0 0 0 0 0)),
    ([0xF980, 0x0E81], .rdsr (fl 20 0 0 false 0 0 0 0 1)),
    ([0xF980, 0x1281], .wrsr (fl 20 0 0 false 0 0 0 0 1)),
    ([0xF988, 0x1491], .segld (fl 4 17 0 false 0 0 1 0 0)),
    ([0xF980, 0xFC02, 0x1A85], .segrd (fl 20 5 0 true 2 0 0 0 0)),
    ([0xF980, 0x1E80], .ctxsv (fl 20 0 0 false 0 0 0 0 0)),
    ([0xF980, 0x2280], .ctxld (fl 20 0 0 false 0 0 0 0 0)),
    ([0xF980, 0x2401], .brk (fl 0 0 0 false 0 0 0 0 1)),
    ([0xF980, 0x2A91], .tntrd (fl 20 17 0 false 0 0 0 0 0)),
    ([0xF980, 0x2E80], .tntclr (fl 20 0 0 false 0 0 0 0 0)),
    ([0xF980, 0x3281], .perfrd (fl 20 0 0 false 0 0 0 0 1)),
    ([0xF980, 0x3401], .svcall (fl 0 0 0 false 0 0 0 0 1)),
    ([0xF988, 0x3A91], .pghash (fl 20 17 0 false 0 0 1 0 0))] = true := by decide

/-- The encodings printed beside the instructions: R150, R28, R62, R88, R89, R122, R107, R192. -/
theorem test_decode_printed : decodesTo [
    ([0xF803, 0xFC48, 0x2CE8], .div (fl 7 8 9 true 0 0 0 3 0)),
    ([0xF000, 0xF1C4, 0x84E8], .bfx (fl 7 8 0 false 0 0 0 0 452)),
    ([0xF808, 0xF488, 0xC831], .strel (fl 22 17 0 false 0 0 1 0 0)),
    ([0xF8C0, 0xFCC8, 0x1298], .vwnarrow (fl 20 24 25 true 0 0 0 0 0)),
    ([0xF8C0, 0xF488, 0xFCB8, 0x1CB4], .ldv (fl 22 20 23 true 0 2 0 0 0)),
    ([0xF8C8, 0x7690], .setcoh (fl 20 16 0 false 0 0 1 0 0)),
    ([0xF440, 0xB40B], .ldl (fl 9 3 0 false 0 0 0 0 0)),
    ([0xF803, 0xF480, 0xB862], .stl (fl 20 2 0 false 0 1 0 3 0)),
    ([0xF500, 0xBC13], .ldlp (fl 34 3 0 false 0 0 0 0 0)),
    ([0xF883, 0x0419], .bpack (fl 3 1 0 false 0 0 0 3 0)),
    ([0xF880, 0xFCAC, 0x1C03], .mma (fl 0 3 21 true 4 0 0 0 0)),
    ([0xF888, 0xF408, 0x2003], .mstore (fl 0 19 0 false 0 0 1 0 0)),
    ([0xF880, 0x2015], .mstore (fl 2 5 0 false 0 0 0 0 0))] = true := by decide

/-- What the decoder refuses (R27). -/
theorem test_decode_refused : refusesWith [
    ([], .truncated), ([0xF800], .truncated), ([0x0000], .noInstruction), ([0xE800], .noInstruction), ([0xF9C0, 0x0400], .badPage),
    ([0xF800, 0xF800, 0x0400], .repeated), ([0xF000, 0xF000, 0xF000, 0xF000, 0x0E81], .repeated),
    ([0xF000, 0xF000, 0xF000, 0xF400, 0xF800, 0x0E81], .fifthPrefix), ([0xF000, 0x0400], .badPrefix), ([0xF401, 0x0A91], .badPrefix),
    ([0xFC00, 0x0A91], .badPrefix), ([0x7A91], .missingXopd), ([0x0401], .baseField), ([0xF801, 0x1691], .badField),
    ([0xD400], .badField)] = true := by decide

/-! ### Ill-formed instructions: one for each check of WellFormed (R15 to R22, R27) -/

theorem test_ill_formed : [
    Instr.add (fl 128 0 0 false 0 0 0 0 0),                                    -- d above 127
    .add ⟨112, 4, 0, false, true, false, false, 0, 0, 0, 0, 0⟩,                -- a names a special operand below 112
    .add ⟨112, 116, 0, false, true, false, false, 0, 0, 0, 0, 0⟩,              -- with a special operand, g112 as a register
    .mov ⟨116, 4, 0, true, false, false, false, 0, 0, 0, 0, 0⟩,                -- an inbound queue as a destination
    .mov ⟨4, 120, 0, false, true, false, false, 0, 0, 0, 0, 0⟩,                -- an outbound queue as a source
    .ldg ⟨4, 112, 0, false, true, false, false, 0, 0, 1, 0, 0⟩,                -- an address as a special operand
    .vadd (fl 4 0 0 false 0 0 0 0 0),                                          -- a group not at a multiple of 8
    .ldl (fl 4 8 0 false 0 0 0 0 0),                                           -- p8
    .mzero (fl 2 0 0 false 0 0 0 0 0),                                         -- acc2
    .pref (fl 2 0 0 false 0 0 0 0 0),                                          -- level 2
    .fenceX (fl 2 0 0 false 0 0 0 0 0),                                        -- another kind's number
    .nop (fl 1 0 0 false 0 0 0 0 0),                                           -- a field that must be 0
    .mov (fl 1 2 3 true 0 0 0 0 0),                                            -- an XOPD it does not take
    .mov (fl 1 2 3 false 0 0 0 0 0),                                           -- b without an XOPD
    .sel (fl 1 2 0 false 0 0 0 0 0),                                           -- a required XOPD absent
    .add (fl 1 2 3 true 1 0 0 0 0),                                            -- fx outside its set
    .add (fl 1 2 0 false 1 0 0 0 0),                                           -- fx without an XOPD
    .vcmp (fl 8 16 24 true 3 0 3 0 0),                                         -- a fourth predicate of an integer type
    .add (fl 1 2 0 false 0 1 0 0 0),                                           -- la outside format L
    .ldg (fl 1 2 0 false 0 16 1 0 0),                                          -- la above 15
    .add (fl 1 2 0 false 0 0 0 1 0),                                           -- modifier .u of ADD
    .ldg (fl 1 2 0 false 0 0 0 4 0),                                           -- size code 100
    .stg (fl 1 2 0 false 0 0 0 5 0),                                           -- a sign-extending store
    .bpack (fl 1 2 0 false 0 0 0 0 0),                                         -- width 0
    .vradd (fl 1 8 0 false 0 0 0 5 0),                                         -- a rounding mode above 4
    .shlk (fl 1 0 0 false 0 0 0 0 64),                                         -- a shift by 64
    .shlk (fl 1 0 0 false 0 0 0 2 32),                                         -- a .w shift by 32
    .sext (fl 1 0 0 false 0 0 0 0 64),                                         -- bit 64
    .bfx (fl 1 2 0 false 0 0 0 0 (60 + 64 * 7)),                               -- a field past bit 63
    .scopeo (fl 0 0 0 false 0 0 0 0 0),                                        -- no granule
    .scopeo (fl 0 0 0 false 0 0 0 0 16),                                       -- sixteen granules
    .hbarv (fl 0 0 0 false 0 0 0 0 4),                                         -- context 4
    .nopen (fl 1 0 0 false 0 0 0 0 2),                                         -- port 2
    .trap (fl 0 0 0 false 0 0 0 0 65536),                                      -- a code above 16 bits
    .perfrd (fl 1 0 0 false 0 0 0 0 274),                                      -- counter 274
    .rdsr (fl 1 0 0 false 0 0 0 0 18),                                         -- a register number that is not given
    .vlane (fl 1 8 0 false 0 0 0 0 16),                                        -- lane 16 of FP32
    .msgrd (fl 5 5 0 false 0 0 0 0 0),                                         -- both words into one register
    .movk (fl 1 0 0 false 0 0 0 0 (2 ^ 35)),                                   -- an immediate of more than 35 bits
    .ldg (fl 1 2 0 false 0 0 1 0 (2 ^ 29)),                                    -- a displacement of more than 30 bits
    .ldacq (fl 20 17 0 false 0 0 1 4 0)].all (fun i => !WellFormed i) = true := by decide

theorem test_well_formed : [
    Instr.add (fl 127 127 127 true 0 0 0 2 0), .mov ⟨120, 116, 0, true, true, false, false, 0, 0, 0, 0, 0⟩,
    .movk (fl 1 0 0 false 0 0 0 0 (2 ^ 34 - 1)), .movk (fl 1 0 0 false 0 0 0 0 (-(2 ^ 34))),
    .ldg (fl 1 2 0 false 0 15 7 7 (2 ^ 19 - 1)), .scopeo (fl 0 0 0 false 0 0 0 0 15), .bfx (fl 1 2 0 false 0 0 0 0 (64 * 63)),
    .bpack (fl 7 7 0 false 0 15 1 7 0)].all WellFormed = true := by decide

/-- What the encoder writes for the printed cases. -/
theorem test_encode : encode (.div (fl 7 8 9 true 0 0 0 3 0)) = [0xF803, 0xFC48, 0x2CE8] ∧
    encode (.ldv (fl 22 20 23 true 0 2 0 0 0)) = [0xF8C0, 0xF488, 0xFCB8, 0x1CB4] ∧
    encode (.bfx (fl 7 8 0 false 0 0 0 0 452)) = [0xF000, 0xF1C4, 0x84E8] := by decide

/-! ### Small states -/

/-- The thread that runs a placed instruction. -/
def T0 : Thread := fetchThread 0

/-- Its state with registers written. -/
def W (l : List (Nat × Nat)) : State :=
  l.foldl (fun s p => s.setG 0 T0 p.1 ⟨w64 p.2, false⟩) (State.reset.withFetchWord 16 0x0400)

/-- The same with the thread changed. -/
def Wt (g : Thread → Thread) (l : List (Nat × Nat)) : State := (W l).setThread 0 0 (g T0)

/-- The state after an instruction, where it goes on. -/
def after (i : Instr) (s : State) : State :=
  match exec i s with
  | .next t => t
  | _ => State.reset

/-- Every instruction of the list passes its checks for the thread. -/
def okAll (l : List Instr) (s : State) (t : Thread) : Bool :=
  l.all (fun i => decide (s.current = some (0, 0, t)) && decide (s.precheck i 0 0 t = .go))

theorem okAll_goes {l : List Instr} {s : State} {t : Thread} (h : okAll l s t = true) : ∀ i ∈ l, Goes i s 0 0 t := by
  intro i hi
  have := List.all_eq_true.1 h i hi
  simpa [Goes] using this

/-- A pointer image of core 0's window (R133): width 12, offset 0. -/
def p12 : TWord := ⟨w64 (12 * 2 ^ 48), false⟩

/-- The state with numbers and words for an event. -/
def Wa (l : List Nat) (ws : List TWord) : State := { W [] with arg := ⟨l, ws⟩ }

/-! ### Single steps and values that the specification prints -/

/-- The register an instruction leaves. -/
def reg (i : Instr) (s : State) (n : Nat) : Nat := ((after i s).getG 0 T0 n).v.toNat

/-- R149: SHR.w of 0x8000_0000 by 4 and by 0. -/
theorem test_shr_w : reg (.shr (fl 3 4 5 true 0 0 0 2 0)) (W [(4, 0x80000000), (5, 4)]) 3 = 0x08000000 ∧
    reg (.shr (fl 3 4 5 true 0 0 0 2 0)) (W [(4, 0x80000000), (5, 0)]) 3 = 0xFFFFFFFF80000000 := by decide

/-- R152's table. -/
theorem test_div_corners :
    reg (.div (fl 3 4 5 true 0 0 0 0 0)) (W [(4, 9), (5, 0)]) 3 = 0xFFFFFFFFFFFFFFFF ∧
    reg (.div (fl 3 4 5 true 0 0 0 0 0)) (W [(4, 2 ^ 63), (5, 2 ^ 64 - 1)]) 3 = 2 ^ 63 ∧
    reg (.div (fl 3 4 5 true 0 0 0 2 0)) (W [(4, 0x80000000), (5, 2 ^ 64 - 1)]) 3 = 0xFFFFFFFF80000000 ∧
    reg (.div (fl 3 4 5 true 0 0 0 3 0)) (W [(4, 0xFFFFFFFF), (5, 1)]) 3 = 0xFFFFFFFFFFFFFFFF ∧
    reg (.div (fl 3 4 5 true 0 0 0 0 0)) (W [(4, 2 ^ 64 - 7), (5, 2)]) 3 = 2 ^ 64 - 3 ∧
    reg (.div (fl 3 4 5 true 0 0 0 1 0)) (W [(4, 2 ^ 64 - 7), (5, 2)]) 3 = 2 ^ 63 - 4 := by decide
theorem test_rem_corners :
    reg (.rem (fl 3 4 5 true 0 0 0 0 0)) (W [(4, 9), (5, 0)]) 3 = 9 ∧
    reg (.rem (fl 3 4 5 true 0 0 0 0 0)) (W [(4, 2 ^ 63), (5, 2 ^ 64 - 1)]) 3 = 0 ∧
    reg (.rem (fl 3 4 5 true 0 0 0 0 0)) (W [(4, 2 ^ 64 - 7), (5, 2)]) 3 = 2 ^ 64 - 1 ∧
    reg (.rem (fl 3 4 5 true 0 0 0 1 0)) (W [(4, 2 ^ 64 - 7), (5, 2)]) 3 = 1 := by decide

/-- R151: MOVK and MOVKH build a 64-bit constant (the example of the assembler's rules); BFX takes 8 bits from bit 4. -/
theorem test_movkh : reg (.movkh (fl 7 0 0 false 0 0 0 0 0x00081600)) (W [(7, 0)]) 7 = 0x0008160000000000 := by decide
theorem test_bfx : reg (.bfx (fl 7 8 0 false 0 0 0 0 452)) (W [(8, 0xABCD)]) 7 = 0xBC := by decide

/-- R129: a write of g0 is discarded. -/
theorem test_g0 : reg (.movk (fl 0 0 0 false 0 0 0 0 5)) (W []) 0 = 0 := by decide

/-- R151: the source that is also the destination. -/
theorem test_sub_self : reg (.sub (fl 3 3 4 true 0 0 0 0 0)) (W [(3, 5), (4, 7)]) 3 = 2 ^ 64 - 2 := by decide

/-- R153: CALL links the next address; JR to an odd address raises ALIGN, which with no handler stops the thread. -/
theorem test_call_link : ((after (.call (fl 0 0 0 false 0 0 0 0 4)) { W [] with next := 2 }).getG 0 T0 1).v = 2 := by decide
theorem test_jr_odd : ((after (.jr (fl 0 4 0 false 0 0 0 0 0)) (W [(4, 9)])).thread? 0 0).map (fun t => t.run) =
    some (.stopped false) := by decide

/-- R188's example: planes of two-bit mantissas. -/
theorem test_pldot : reg (.pldot (fl 3 4 5 true 0 0 0 0 0)) (W [(3, 0), (4, 3), (5, 3)]) 3 = 2 ∧
    reg (.pldot (fl 3 4 5 true 1 0 0 0 0)) (W [(3, 0), (4, 2), (5, 3)]) 3 = 2 := by decide

/-- R172's examples: b = 4, of 1.0, 0.5 and −0.5, and of 2.0, 1.0 and 1.0 (the shared exponents 128 and 129). -/
theorem test_quantise :
    (quantise 4 ([0x3F800000, 0x3F000000, 0xBF000000].map fp32.val)).1 = (128, [4, 2, -2]) ∧
    (quantise 4 ([0x40000000, 0x3F800000, 0x3F800000].map fp32.val)).1 = (129, [4, 2, 2]) := by decide

/-- R163: VRCP.fp32 of 2^−149 raises OF and NX, a division by zero DZ. -/
theorem test_rcp_flags : (rcpF fp32 0 1).2 = 5 ∧ (rcpF fp32 0 0).2 = 8 := by decide

/-- R156: 1 + 2^−24 is inexact and ties to even; an overflow returns ±∞ under RNE and the largest value under .rnes. -/
theorem test_add_round : addE 0 0 0x3F800000 0x33800000 = (0x3F800000, 1) ∧
    addE 0 0 0x7F7FFFFF 0x7F7FFFFF = (0x7F800000, 5) ∧ addE 0 4 0x7F7FFFFF 0x7F7FFFFF = (0x7F7FFFFF, 5) := by decide

/-- R157: a flag bit of FPSTAT is cleared by writing 1. -/
theorem test_fpstat : fpstatWrite 0x1F 0x201 = 0x21E := by decide

/-- R216's thread id. -/
theorem test_tid : mkTid 0 0 1 3 5 41 = 0x0016280000000029 := by decide

/-- R134: an advance wraps inside its window of 64 bytes. -/
theorem test_advance : ptrOff (advancePtr (w64 (6 * 2 ^ 48 + 60)) 8) = 4 ∧ ptrOff (advancePtr (w64 (6 * 2 ^ 48)) (-1)) = 63 := by
  decide

/-- R9: bytes are little-endian, and a zero byte is not listed. -/
theorem test_memory_bytes : (Mem.empty.writeN 8 4 0x00010203).bytes = [(8, 3), (9, 2), (10, 1)] ∧
    (Mem.empty.writeN 8 4 0x00010203).readN 8 4 = 0x10203 := by decide

/-- R61: a sign-extending byte load's value, and a narrow store into a word. -/
theorem test_extend : extend 5 0x80 = 0xFFFFFFFFFFFFFF80 ∧ extend 1 0x80 = 0x80 := by decide
theorem test_splice : spliceWord 0x1122334455667788 2 2 0xAABB = 0x11223344AABB7788 := by decide

/-- R37: the limit decides before the right, the right before the alignment. -/
theorem test_checks : memG T0 1 4 4 'R' = some (0x04, 4, 1) ∧ memG T0 0 2 4 'R' = some (0x13, 2, 0) ∧ memG T0 0 4 4 'R' = none ∧
    memG { T0 with segs := [⟨0, 64, 2⟩] } 0 2 4 'R' = some (0x05, 2, 0) := by decide

/-- The first step runs the placed instruction (R27): MOVK g3, 5 and then TID's encoding at K privilege. -/
theorem test_step_movk : (match step (State.reset.withFetchWord 16 (0x0C00 + 3 * 32 + 5)) with
    | .next s => (s.getG 0 T0 3).v.toNat
    | _ => 0) = 5 := by decide
theorem test_step_tid : (match step (State.reset.withFetchWord 32 (0x1060 * 65536 + 0xF900)) with
    | .next s => (s.getG 0 T0 3).v.toNat
    | _ => 0) = 1 := by decide
theorem test_step_illop : (match step (State.reset.withFetchWord 16 0) with
    | .next s => (s.thread? 0 0).map (fun t => t.run)
    | _ => none) = some (.stopped false) := by decide

/-! ### States that meet the hypotheses of the statements, clause by clause -/

/-- Plain three-address fields: d = g3, a = g4, b = g5. -/
def f3 : Fields := fl 3 4 5 true 0 0 0 0 0
/-- Plain two-address fields. -/
def f2 : Fields := fl 3 4 0 false 0 0 0 0 0
/-- Vector groups v1, v2, v3. -/
def fv : Fields := fl 8 16 24 true 0 0 0 0 0

theorem wit_plain : plainFields f3 ∧ f3.three = true ∧ plainFields f2 ∧ plainFields fv ∧ fv.three = true ∧ f3.d ≠ 0 := by
  unfold plainFields; decide

theorem wit_IntegerForms : okAll [.add f3, .sub f3, .mul f3, .mulh f3, .div f3, .rem f3, .andOp f3, .orOp f3, .xor f3, .andn f3,
    .shl f3, .shr f3, .sar f3, .minOp f3, .maxOp f3, .cmpeq f3, .cmpne f3, .cmplt f3, .cmple f3, .nop (fl 0 0 0 false 0 0 0 0 0),
    .mov f2, .movk f2, .movkh f2, .addk f2, .neg f2, .notOp f2, .shlk f2, .shrk f2, .sark f2, .clz f2, .popc f2, .bfx f2,
    .bfi f2, .sext f2, .sel f3] (W []) T0 = true := by decide

theorem wit_IntegerMeaning : red149 f3 0 = 0 ∧ modU { f3 with lo := 1 } = true ∧ red149 { f3 with lo := 1 } 3 ≠ 0 ∧
    modU f3 = false ∧ red149 f3 3 ≠ 0 := by decide

theorem wit_DivisionTable : okAll [.div f3, .rem f3] (W []) T0 = true ∧ red149 f3 0 = 0 ∧
    (modU f3 = false ∧ modW f3 = false) ∧ (modU { f3 with lo := 2 } = false ∧ modW { f3 with lo := 2 } = true) ∧
    (modU { f3 with lo := 3 } = true ∧ modW { f3 with lo := 3 } = true) ∧
    (modU { f3 with lo := 1 } = true ∧ modW { f3 with lo := 1 } = false) ∧ red149 f3 (-7) = -7 ∧ red149 f3 2 = 2 ∧
    BitVec.setWidth 32 (0x80000000 : Word) = 0x80000000#32 ∧ BitVec.setWidth 32 (0xFFFFFFFF : Word) = 0xFFFFFFFF#32 ∧
    BitVec.setWidth 32 (1 : Word) = 1#32 := by decide

theorem wit_ControlFlow : okAll [.br f2, .call f2, .jr f2, .bz f2, .bnz f2, .bltz f2, .bgez f2] (W [(4, 8)]) T0 = true ∧
    ((W [(4, 8)]).getG 0 T0 4).v.toNat % 2 = 0 ∧ okAll [.jr f2] (W [(4, 9)]) T0 = true ∧
    ((W [(4, 9)]).getG 0 T0 4).v.toNat % 2 = 1 := by decide

/-- A second thread of the core, with other granules. -/
def T1 : Thread := { T0 with window := [16], inc := 2 }
def W1 : State := (W []).setThread 0 1 T1

theorem wit_RegisterWrite : T0.window.Nodup ∧ 127 < T0.top ∧ 0 < T0.top ∧ W1.thread? 0 1 = some T1 ∧
    (∀ g ∈ T1.window, g ∉ T0.window) ∧ 7 < T1.top ∧ ((0, 1) : Nat × Nat) ≠ (0, 0) := by decide

theorem wit_ScalarFloat : okAll [.fadd f3, .fsub f3, .fmul f3, .ffma f3, .fmin f3, .fmax f3, .frcp f2, .frsq f2, .fcvt f2,
    .fcmp f3] (W []) T0 = true ∧ (W []).thread? 0 0 = some T0 := by decide

theorem wit_VectorLanes : okAll [.vadd fv, .vsub fv, .vmul fv, .vfma fv, .vmin fv, .vmax fv, .vabs fv, .vneg fv, .vrcp fv, .vrsq fv,
    .vexp2 fv, .vlog2 fv, .vscale fv, .vclamp fv, .vshl fv, .vshr fv, .vand fv, .vor fv, .vxor fv, .vcmp fv, .vsel fv] (W []) T0
    = true := by decide

theorem wit_VectorMoves : okAll [.vcvt fv, .vradd fv, .vradd { fv with hi := 3 }, .vrmax fv, .vperm fv, .vbcst fv, .vlane fv] (W []) T0
    = true ∧ tyInt 3 = true ∧ tyInt 0 = false ∧ fv.sd = false := by decide

theorem wit_ScalarIsLaneZero : T0.window.Nodup ∧ fv.d + 8 ≤ T0.top ∧ okAll [.fadd fv, .vadd fv, .fsub fv, .vsub fv, .fmul fv,
    .vmul fv, .ffma fv, .vfma fv, .fmin fv, .vmin fv, .fmax fv, .vmax fv, .frcp fv, .vrcp fv, .frsq fv, .vrsq fv] (W []) T0
    = true := by decide

/-- The core holds a word at inbound stream port 0, claimed by slot 0, and one in inbound queue 0. -/
def Wq : State := (W []).modCore 0 (fun x =>
  { x with inp := [⟨some 0, [⟨⟨7, false⟩, false, false, 0⟩], none, []⟩, InPort.reset],
           inq := [⟨true, 16, 11, 0, [⟨⟨8, false⟩, false⟩], 0, []⟩, InQ.reset, InQ.reset, InQ.reset] })
/-- d = g3, a the special operand 112 and 116. -/
def fs (n : Nat) : Fields := ⟨3, n, 0, false, true, false, false, 0, 0, 0, 0, 0⟩

theorem wit_SpecialOperands : okAll [.add (fs 112), .sub (fs 112), .mov (fs 112), .notOp (fs 116), .cmpeq (fs 116)] Wq T0 = true ∧
    (nthD (Wq.core 0).inp 0 InPort.reset).buf = [⟨⟨7, false⟩, false, false, 0⟩] ∧ 0 < (Wq.core 0).inp.length ∧
    (nthD (Wq.core 0).inq 0 InQ.reset).held = [⟨⟨8, false⟩, false⟩] ∧ 0 < (Wq.core 0).inq.length := by decide

/-- A check that passes with the value, and one that fails with the trap. -/
def okL {α : Type} [DecidableEq α] (e : Except (Nat × Word × Word) α) (p : α) : Bool :=
  match e with
  | .ok q => decide (q = p)
  | .error _ => false
def badL {α : Type} (e : Except (Nat × Word × Word) α) (p : Nat × Word × Word) : Bool :=
  match e with
  | .ok _ => false
  | .error q => decide (q = p)

theorem wit_AccessChecks : ((0 : Word).toNat : Int) + (-8) < 0 ∧ -(2 ^ 40) ≤ (-8 : Int) ∧ (T0.seg 0).limit ≤ 2 ^ 57 ∧
    (T0.seg 0).base % 128 = 0 ∧ gOffset 64 0 % 64 = 0 ∧ (64 : Nat) = 2 ^ 6 ∧ memG T0 1 4 4 'R' = some (0x04, 4, 1) ∧
    okL ((W []).memL 0 p12.v 8) (0, 0) = true ∧
    badL ((W []).memL 0 (w64 (22 * 2 ^ 48)) 8) (0x14, 0, 0) = true ∧
    badL ((W []).memL 0 (w64 (12 * 2 ^ 48 + 4)) 8) (0x13, 4, 0) = true ∧
    okL ((W []).memLAt T0 p12.v 8) (0, 0) = true ∧
    badL ((W []).memLAt { T0 with want := some (.lost 0) } p12.v 8) (0x14, 0, 0) = true := by decide

theorem wit_GlobalAccesses : okAll [.ldg f2, .ldacq f2, .vldg fv, .stg f2, .strel f2, .vstg fv] (W []) T0 = true ∧
    memG T0 0 ((W []).gOff 0 T0 f2) 8 'R' = none ∧ memG T0 0 ((W []).gOff 0 T0 f2) 8 'W' = none ∧
    memG T0 0 ((W []).gOff 0 T0 fv) 64 'R' = none ∧ memG T0 0 ((W []).gOff 0 T0 fv) 64 'W' = none ∧
    okAll [.ldg f2, .ldacq f2, .stg f2, .strel f2] (W [(4, 4)]) T0 = true ∧
    memG T0 0 ((W [(4, 4)]).gOff 0 T0 f2) 8 'R' = some (0x13, 4, 0) ∧ memG T0 0 ((W [(4, 4)]).gOff 0 T0 f2) 8 'W' = some (0x13, 4, 0) ∧
    okAll [.vldg fv, .vstg fv] (W [(16, 4)]) T0 = true ∧ memG T0 0 ((W [(16, 4)]).gOff 0 T0 fv) 64 'R' = some (0x13, 4, 0) ∧
    memG T0 0 ((W [(16, 4)]).gOff 0 T0 fv) 64 'W' = some (0x13, 4, 0) := by decide

theorem wit_StoreEntersBuffer : okAll [.stg f2] (W []) T0 = true ∧ memG T0 0 ((W []).gOff 0 T0 f2) 8 'W' = none ∧ T0.ops = [] ∧
    (W []).lookup 0 (vaOf T0 0 ((W []).gOff 0 T0 f2)) 1 = some ⟨0, fetchLeaf, 4⟩ ∧ T0.run = .ready ∧ Leaf.cl fetchLeaf = 0 ∧
    Leaf.wb fetchLeaf = false ∧ (W []).sbRoom 0 = true ∧
    ((W []).core 0).watchHit 0 (vaOf T0 0 ((W []).gOff 0 T0 f2)) 8 false true = none := by decide

theorem wit_AtomicsAndGroups : okAll [.amoadd f3, .amoand f3, .amoor f3, .amoxor f3, .amomin f3, .amomax f3, .amoswap f3, .amocas f3,
    .amofadd { f3 with lo := 3 }] (W []) T0 = true ∧ memG T0 0 ((W []).gOff 0 T0 f3) 8 'A' = none ∧
    okAll [.amoadd f3, .amoand f3, .amoor f3, .amoxor f3, .amomin f3, .amomax f3, .amoswap f3, .amocas f3,
      .amofadd { f3 with lo := 3 }] (W [(4, 2)]) T0 = true ∧ memG T0 0 ((W [(4, 2)]).gOff 0 T0 f3) 8 'A' = some (0x13, 2, 0) ∧
    memG T0 0 ((W [(4, 2)]).gOff 0 T0 f3) 4 'A' = some (0x13, 2, 0) ∧
    okAll [.vgath fv, .vscat fv] (W []) T0 = true ∧
    firstFail T0 0 8 'R' (laneOffs fv ((W []).getG 0 T0 16).v ((W []).getGs 0 T0 24 8)) = none ∧
    firstFail T0 0 8 'W' (laneOffs fv ((W []).getG 0 T0 16).v ((W []).getGs 0 T0 24 8)) = none ∧
    okAll [.vgath fv, .vscat fv] (W [(16, 4)]) T0 = true ∧
    firstFail T0 0 8 'R' (laneOffs fv ((W [(16, 4)]).getG 0 T0 16).v ((W [(16, 4)]).getGs 0 T0 24 8)) = some (0x13, 4, 0) ∧
    firstFail T0 0 8 'W' (laneOffs fv ((W [(16, 4)]).getG 0 T0 16).v ((W [(16, 4)]).getGs 0 T0 24 8)) = some (0x13, 4, 0) := by
  decide

/-- The thread with a pointer image in p4. -/
def Tp (v : Word) : Thread := { T0 with ptrs := setNth T0.ptrs 4 ⟨v, false⟩ }
def Wp (v : Word) : State := (W []).setThread 0 0 (Tp v)
/-- Core 0 changed. -/
def Wc (g : Core → Core) : State := (W []).modCore 0 g
def locals : List Instr := [.ldl f2, .stl f2, .ldlp f2, .stlp f2, .vldl { fv with a := 4 }, .vstl { fv with a := 4 }]
/-- An outstanding operation, and a store of slot 0 in the store buffer. -/
def op0 : Op := { Op.new (.stg f2) T0 .store .glob 6 with id := 1, acc := [Access.at 0 8 TWord.zero] }
def sb0 : SBEntry := ⟨1, 0, 1, false, 0, 0, 0, 8, [TWord.zero], .plain, 0, false, false, false, 0, 0, 0, false⟩

theorem wit_LocalAccesses : okAll locals (Wp p12.v) (Tp p12.v) = true ∧
    okL ((Wp p12.v).memL 0 ((Tp p12.v).ptr 4).v 8) (0, 0) = true ∧ okL ((Wp p12.v).memL 0 ((Tp p12.v).ptr 4).v 64) (0, 0) = true ∧
    okL ((Wp p12.v).memLAt (Tp p12.v) ((Tp p12.v).ptr 4).v 8) (0, 0) = true ∧
    okL ((Wp p12.v).memLAt (Tp p12.v) ((Tp p12.v).ptr 4).v 64) (0, 0) = true ∧ ((Wp p12.v).core 0).shut = false ∧
    okAll locals ((Wp p12.v).modCore 0 (fun x => { x with moving := true })) (Tp p12.v) = true ∧
    (((Wp p12.v).modCore 0 (fun x => { x with moving := true })).core 0).shut = true ∧
    okAll locals (Wp 0) (Tp 0) = true ∧ badL ((Wp 0).memLAt (Tp 0) ((Tp 0).ptr 4).v 8) (0x14, 0, 0) = true ∧
    badL ((Wp 0).memLAt (Tp 0) ((Tp 0).ptr 4).v 64) (0x14, 0, 0) = true := by decide

/-- The combine buffer holds a byte of a host half that the bridge does not own. -/
def Wwc : State := Wc (fun x => { x with wc := [⟨hostBase / 64, [(0, 1)], [], 0, fetchLeaf, [0]⟩] })

theorem wit_Fences : okAll [.fence f2, .fenceS f2, .fenceX f2, .fenceA f2, .pref f2] (W []) T0 = true ∧ T0.ops = [] ∧
    (W []).storesOf 0 0 = [] ∧ okAll [.fence f2] (Wt (fun t => { t with ops := [op0] }) []) { T0 with ops := [op0] } = true ∧
    okAll [.fence f2, .fenceX f2] (Wc (fun x => { x with sb := [sb0] })) T0 = true ∧
    (Wc (fun x => { x with sb := [sb0] })).storesOf 0 0 ≠ [] ∧
    (W []).lookup 0 (((W []).getG 0 T0 4).v.toNat % 2 ^ 57) 0 = some ⟨0, fetchLeaf, 4⟩ ∧
    ((W []).drainWC 0).wcEmpty 0 = true ∧
    (W []).gOff 0 T0 f2 < (T0.seg 0).limit ∧ (T0.seg 0).has 'R' = true ∧ okAll [.pref f2] (W [(4, 2 ^ 41)]) T0 = true ∧
    (T0.seg 0).limit ≤ (W [(4, 2 ^ 41)]).gOff 0 T0 f2 ∧ okAll [.fence f2, .fenceS f2] Wwc T0 = true ∧
    Wwc.storesOf 0 0 = [] ∧ (Wwc.drainWC 0).wcEmpty 0 = false := by decide

set_option maxRecDepth 8000 in
theorem wit_PointersAndScopes : okAll [.pset f2, .pget f2, .padd { f2 with imm := 8 }, .scopeo { f2 with imm := 1 }]
      (Wt (fun t => { t with window := [0], base := 1 }) []) { T0 with window := [0], base := 1 } = true ∧
    ptrW 0 < 6 ∧ 6 ≤ ptrW p12.v ∧ ptrW p12.v ≤ 21 ∧ 0 ≤ (ptrOff p12.v : Int) + 8 ∧ (ptrOff p12.v : Int) + 8 < 2 ^ ptrW p12.v ∧
    (0 : Nat) < 4 ∧ 1 + 15 ≤ 16 ∧ 15 ≤ ((Wt (fun t => { t with window := [0], base := 1 }) []).core 0).freeGran.length ∧
    ((Wt (fun t => { t with window := [0], base := 1 }) []).core 0).scopeAhead 0 0 = false ∧
    okAll [.scopeo { f2 with imm := 1 }, .scopec f2] (Wt (fun t => { t with scopes := [1, 1, 1, 1] }) [])
      { T0 with scopes := [1, 1, 1, 1] } = true ∧
    okAll [.scopeo { f2 with imm := 1 }, .scopec f2] (W []) T0 = true ∧ T0.scopes = [] ∧ 16 < T0.window.length + 1 := by decide

def m0 : Msg := ⟨0, 5, 0, TWord.zero, none, 0, 0⟩
def mk0 : Msg := { m0 with keyed := some 0, lane := 3 }
def Tm (l : List Msg) : Thread := { T0 with mail := l }
def Td (l : List Msg) : Thread := { Tm l with task := w64 (2 ^ 57) }
def net0 : NetMsg := ⟨1, m0, 0, []⟩

theorem wit_Messages : okAll [.msgsend f3, .msgrd f2, .msgcnt f2, .waitm f2] (W []) T0 = true ∧ ((W []).core 0).outbox.length < 16 ∧
    okAll [.msgsend f3] (Wc (fun x => { x with outbox := List.replicate 16 net0 })) T0 = true ∧ T0.nextMsg = none ∧
    okAll [.msgrd f2, .waitm f2] (Wt (fun _ => Tm [m0]) []) (Tm [m0]) = true ∧ (Tm [m0]).nextMsg = some m0 ∧
    taskDet T0.task = false ∧ taskDet (Td [m0]).task = true ∧ (∀ m ∈ (Td [m0]).mail, (Td [m0]).keyedFor m = false) ∧
    (∃ q ∈ (Td [mk0]).mail, (Td [mk0]).keyedFor q = true) ∧ (Td [mk0]).nextMsg = some mk0 := by decide

/-- QCFG's control words in g4 with V in g3. -/
theorem wit_QueueSetup :
    okAll [.qcfg f2] (W [(3, 2)]) T0 = true ∧ qcfgBad 0 2 = true ∧
    okAll [.qcfg f2] (W [(3, 1), (4, 64)]) T0 = true ∧ qcfgBad 64 1 = false ∧ Word.bits 64 2 2 = 0 ∧
    okAll [.qcfg f2] ((W [(3, 1), (4, 4)]).setThread 0 1 { T1 with want := some (.operands [120]) }) T0 = true ∧
    qcfgBad 4 1 = false ∧ Word.bits 4 2 2 = 1 ∧
    (((W [(3, 1), (4, 4)]).setThread 0 1 { T1 with want := some (.operands [120]) }).core 0).waits 0 120 = true ∧
    okAll [.qcfg f2] (W [(3, 1), (4, 4)]) T0 = true ∧ ((W [(3, 1), (4, 4)]).core 0).waits 0 120 = false ∧
    ((W [(3, 1), (4, 4)]).core 0).reserved 120 = 0 ∧
    (nthD ((W [(3, 1), (4, 4)]).core 0).outq 0 OutQ.reset).conf = false ∧ Word.bits 1 0 0 = 1 ∧
    (W [(3, 1), (4, 4)]).coreAt 0 0 0 0 = some 0 ∧ okAll [.qcfg f2] (W [(3, 1), (4, 2 ^ 63 + 4)]) T0 = true ∧
    qcfgBad (w64 (2 ^ 63 + 4)) 1 = false ∧ (W [(3, 1), (4, 2 ^ 63 + 4)]).coreAt 0 8 0 0 = none ∧
    okAll [.qstat f2] (W [(4, 8)]) T0 = true ∧ okAll [.qstat f2] (Wc (fun x => { x with inq := [⟨true, 16, 11, 0, [], 0, []⟩] })) T0
      = true ∧ okAll [.qstat f2] (W [(4, 4)]) T0 = true ∧ okAll [.qstat f2] ((W [(4, 4)]).modCore 0
      (fun x => { x with outq := [⟨true, 0, 0, 0, false, false⟩] })) T0 = true ∧ okAll [.qstat f2] (W []) T0 = true := by decide

def isTrap : Ready → Bool
  | .trap _ _ => true
  | _ => false
def isNo : Ready → Bool
  | .no => true
  | _ => false
/-- Outbound port 0, claimed and bound to the core itself: with a recorded abort, or with a receiver whose buffer is full. -/
def Wport (ab full : Bool) : State := Wc (fun x =>
  { x with outp := [⟨some 0, true, 0, 0, full, 0, ab⟩, OutPort.reset],
           inp := [⟨some 0, if full then List.replicate 64 ⟨TWord.zero, false, false, 0⟩ else [], none, []⟩, InPort.reset] })

theorem wit_StreamPorts :
    okAll [.nopen f2] (W [(3, 8)]) T0 = true ∧ nopenBad 8 = true ∧ nopenBad 1 = false ∧ nopenBad 3 = false ∧
    okAll [.nopen f2] ((W [(3, 1)]).modCore 0 (fun x => { x with inp := [⟨some 5, [], none, []⟩, InPort.reset] })) T0 = true ∧
    okAll [.nopen f2] (W [(3, 1)]) T0 = true ∧ (nthD ((W [(3, 1)]).core 0).inp 0 InPort.reset).owner = none ∧
    okAll [.nopen f2] (W [(3, 3)]) T0 = true ∧ (W [(3, 3)]).coreAt 0 0 0 0 = some 0 ∧
    (nthD ((W [(3, 3)]).core 0).outp 0 OutPort.reset).owner = none ∧ (nthD ((W [(3, 3)]).core 0).outp 0 OutPort.reset).opened = false ∧
    okAll [.nsende f2, .nstat f2] (Wc (fun x => { x with outp := [⟨some 0, true, 0, 0, false, 0, false⟩, OutPort.reset] })) T0 = true ∧
    (Wc (fun x => { x with outp := [⟨some 0, true, 0, 0, false, 0, false⟩, OutPort.reset] })).portReady 0 0 0 0 = .yes ∧
    okAll [.nsende f2] (W []) T0 = true ∧ isNo ((W []).portReady 0 0 0 0) = false ∧ isTrap ((W []).portReady 0 0 0 0) = true ∧
    okAll [.nsende f2] (Wport true false) T0 = true ∧ isTrap ((Wport true false).portReady 0 0 0 0) = true ∧
    okAll [.nopen f2] ((Wport true false).setG 0 T0 3 ⟨2, false⟩) T0 = true ∧
    (((Wport true false).setG 0 T0 3 ⟨2, false⟩).getG 0 T0 3).v.bits 1 1 = 1 ∧
    okAll [.nsende f2] (Wport false true) T0 = true ∧ isNo ((Wport false true).portReady 0 0 0 0) = true := by decide

theorem wit_BankModes :
    okAll [.bkmode f2] (W [(4, 64)]) T0 = true ∧ okAll [.bkmode f2] (W [(4, 0)]) T0 = true ∧ nthD ((W []).core 0).banks 0 .cache = modeOf 0 ∧
    okAll [.bkmode f2] (W [(4, 11)]) T0 = true ∧ nthD ((W []).core 0).banks 11 .cache ≠ modeOf 0 ∧ nthD ((W []).core 0).banks 8 .cache ≠ modeOf 0 ∧
    okAll [.bkmode f2] (W [(4, 16)]) T0 = true ∧ nthD ((W []).core 0).banks 0 .cache ≠ modeOf 1 ∧ (W []).windowBusy 0 = false ∧
    okAll [.bkmode f2] ((W [(4, 0)]).modCore 0 (fun x => { x with banks := [.fifo], inq := [⟨true, 16, 0, 0, [⟨TWord.zero, false⟩], 0, []⟩] })) T0
      = true ∧ (((W [(4, 0)]).modCore 0 (fun x =>
        { x with banks := [.fifo], inq := [⟨true, 16, 0, 0, [⟨TWord.zero, false⟩], 0, []⟩] })).core 0).bankBusy 0 = true ∧
    okAll [.bkinfo f2] (W [(4, 12)]) T0 = true ∧ okAll [.bkinfo f2] (W [(4, 13)]) T0 = true ∧ okAll [.bkinfo f2] (W [(4, 8)]) T0 = true ∧
    nthD ((W []).core 0).banks 8 .cache = .scratch ∧ okAll [.bkinfo f2] (W [(4, 11)]) T0 = true ∧
    nthD ((W []).core 0).banks 11 .cache = .fifo ∧ okAll [.bkinfo f2] (W []) T0 = true ∧ nthD ((W []).core 0).banks 0 .cache = .cache := by
  decide

def W2 (g : Tenant → Tenant) (l : List (Nat × Nat)) : State := (W l).modTenant 0 g

/-- Tenant 0 with region 0 live, its view 0 of both granules; the port holds the view and the frame of the first granule. -/
def R0 : Region := ⟨true, 0, 0, 2, false, 2, [(0, ⟨1, true, 0, 2⟩)], 1, [(0, 5), (1, 6)]⟩
def h0 : Nat := (mkHandle 0 0 0 1).toNat
def Wv (l : List (Nat × Nat)) : State :=
  let s := W l
  ({ s with clusters := SMap.set s.clusters 0 { s.cluster 0 with
      vcache := [⟨0, 0, 1, 0, 2, 0, 2⟩], tlb := [⟨mapKey 0 0, 5, 0, [(0, 4096 * 5)]⟩] } } : State).setTenant 0
    { s.tenant 0 with regions := [(0, R0)] }

theorem wit_Handles : hTenant (w64 (2 ^ 60)) ≠ 0 ∧ hTenant (w64 0) = 0 ∧ hTenant (w64 (h0 + 1)) = 0 ∧
    (w64 (h0 + 1)).bits 3 0 ≠ handleCheck (w64 (h0 + 1)) ∧
    (15 : Nat) < 16 := by decide
theorem wit_Handles_ok : ((Wv []).tenant 0).checkHandle 0 (w64 h0) = .ok ⟨1, true, 0, 2⟩ := by rfl
theorem wit_Handles_bad : ((Wv []).tenant 0).checkHandle 0 (w64 (h0 + 1)) = .bad 0x08 2 := by rfl

/-- A control word of VWNEW: `len` granules of the issuing die, DIE or MODULE. -/
def newW (sh len : Nat) : Word := w64 (4 * 2 ^ 28 + sh * 2 ^ 25 + len)
/-- Tenant 0 may have `q` granules of covered regions, and die 0 holds ten free frames. -/
def Wn (q : Nat) (rs : SMap Region) : State :=
  (W2 (fun x => { x with cvquota := w64 q, regions := rs }) []).setDie 0 { Die.reset with granules := List.range 10 }

theorem wit_ViewNew : (newW 2 0).bits 24 0 = 0 ∧ (newW 1 1).bits 27 25 = 1 ∧ 4 < (w64 (5 * 2 ^ 28)).bits 30 28 ∧
    (newW 3 2).bits 63 32 = 0 ∧ (newW 3 2).bits 24 0 = 2 ∧ (newW 3 2).bits 30 28 = 4 ∧ (newW 3 2).bits 27 25 = 3 ∧
    ((Wn 4 []).tenant 0).quads = [0] ∧ dieOfQuad 0 = 0 ∧ dieOfQuad 0 ≠ 1 ∧
    ((Wn 1 []).tenant 0).cvquota.toNat < ((Wn 1 []).tenant 0).coveredGranules + 2 ∧
    ((Wn 4 []).tenant 0).coveredGranules + 2 ≤ ((Wn 4 []).tenant 0).cvquota.toNat ∧
    2 ≤ ((Wn 4 []).die 0).granules.length ∧ (((Wn 4 []).tenant 0).region 0).live = false := by decide
theorem wit_ViewNew_pool : ((Wn 4 []).takeGranules 0 2).isSome = true := by rfl

theorem wit_ViewSlots : (R0.nextSlots 1 = [1]) ∧ R0.nextSlots 2 = [1, 2] ∧ (4096 : Nat) % 4096 = 0 ∧ 4096 * 0 < 4096 ∧
    4096 < 4096 * (0 + 2) ∧ (1 : Nat) < 2 ∧ hRegion (w64 h0) = 0 ∧ hView (w64 h0) = 0 := by decide

theorem wit_ViewNarrow : (2048 : Nat) % 4096 ≠ 0 ∧ ¬ (8192 ≤ 4096 * (0 + 1)) ∧ 4096 * 0 ≤ 4096 ∧ 4096 + 4096 ≤ 4096 * (0 + 2) ∧
    4096 * (0 + 2) < 4096 + 8192 := by decide

/-- With the access of an operation through the handle outstanding. -/
def opV : Op := { Op.new (.ldv f3) T0 .load .view 6 with id := 1, acc := [Access.at 0 8 TWord.zero], data := [⟨w64 h0, false⟩] }
def views : List Instr := [.vwnew f3, .vwdup f2, .vwsplit f3, .vwnarrow f3, .vwdrop f2, .vwinfo f2]

set_option maxRecDepth 8000 in
theorem wit_ViewInstructions : okAll views (Wv [(4, h0)]) T0 = true ∧
    (∀ i ∈ views, (viewHandle i ((Wv [(4, h0)]).readVals i 0 0 T0 f3).1).all (fun h => !(Wv [(4, h0)]).viewPending 0 0 T0 h) = true) ∧
    okAll views ((Wv [(4, h0)]).setThread 0 0 { T0 with ops := [opV] }) { T0 with ops := [opV] } = true ∧
    viewHandle (.vwdup f2) ((Wv [(4, h0)]).readVals (.vwdup f2) 0 0 T0 f2).1 = some (w64 h0) ∧
    ((Wv [(4, h0)]).setThread 0 0 { T0 with ops := [opV] }).viewPending 0 0 { T0 with ops := [opV] } (w64 h0) = true ∧
    okAll [.ldv f3, .stv f3] (Wv [(4, h0), (5, 8)]) T0 = true ∧
    okAll [.ldv f3, .stv f3] (Wv [(4, 2 ^ 60)]) T0 = true ∧ hTenant (w64 (2 ^ 60)) ≠ T0.tenant := by decide
theorem wit_ViewHit : (Wv [(4, h0), (5, 8)]).ViewHit 0 T0 f3 (4096 * 5) 2 := by
  refine ⟨by decide, by decide, by decide, by decide, by decide, ⟨0, 0, 1, 0, 2, 0, 2⟩, by decide⟩

/-- The thread in group 3, and with an empty task word. -/
def Tg : Thread := { T0 with task := taskSetGroup T0.task 3 }

set_option maxRecDepth 8000 in
theorem wit_Groups : okAll [.tid f2] (W []) T0 = true ∧ ((W []).tenant T0.tenant).logical (0 / 8) = (0, 0) ∧ T0.tenant < 16 ∧
    T0.inc < 2 ^ 32 ∧
    okAll [.join f2, .leave f2] (W [(4, 65536)]) T0 = true ∧ okAll [.join f2, .leave f2] (W [(4, 65535)]) T0 = true ∧
    (SMap.get? ((W [(4, 65535)]).tenant 0).groups 65535).isSome = false ∧
    okAll [.join f2] ((W []).setThread 0 0 Tg) Tg = true ∧ taskGroup Tg.task ≠ 0 ∧ taskGroup T0.task = 0 ∧
    okAll [.join f2, .leave f2] (W2 (fun x => { x with groups := [(65535, 1)] }) [(4, 65535)]) T0 = true ∧
    (SMap.get? ((W2 (fun x => { x with groups := [(65535, 1)] }) []).tenant 0).groups 65535).isSome = true ∧
    ((W []).newGroup 0 1).isSome = true ∧
    okAll [.leave f2] ((W2 (fun x => { x with groups := [(3, 1)] }) [(4, 3)]).setThread 0 0 Tg) Tg = true ∧ taskGroup Tg.task = 3 ∧
    okAll [.grpinfo f2] (W2 (fun x => { x with groups := [(0, 1)] }) []) T0 = true ∧ okAll [.grpinfo f2] (W []) T0 = true := by decide

theorem freeGroup_none (live : SMap Nat) (h : ∀ g, 0 < g → g ≤ 65535 → (SMap.get? live g).isSome = true) :
    ∀ n g, 0 < g → g ≤ 65535 → freeGroup live n g = none
  | 0, _, _, _ => rfl
  | n + 1, g, h0, h1 => by
    rw [freeGroup, if_pos (h g h0 h1)]
    exact freeGroup_none live h n _ (by omega) (by omega)

theorem get_range (m : Nat) : ∀ n b g : Nat, b < g → g ≤ b + n →
    (SMap.get? ((List.range' (b + 1) n).map (fun i => (i, m))) g).isSome = true
  | 0, b, g, h0, h1 => by omega
  | n + 1, b, g, h0, h1 => by
    rw [List.range'_succ]
    simp only [List.map_cons, SMap.get?]
    split
    · rfl
    · exact get_range m n (b + 1) g (by omega) (by omega)

/-- The groups `l` of tenant 0 are live. -/
def Wl (l : SMap Nat) : State := W2 (fun x => { x with nextGroup := 1, groups := l }) []

theorem join_reads (l : SMap Nat) : (Wl l).readVals (.join f2) 0 0 T0 f2 = (((Wl []).readVals (.join f2) 0 0 T0 f2).1, Wl l) := rfl
theorem join_goes (l : SMap Nat) : okAll [.join f2] (Wl l) T0 = true := rfl
theorem groups_of (l : SMap Nat) : ((Wl l).tenant 0).groups = l ∧ ((Wl l).tenant 0).nextGroup = 1 := ⟨rfl, rfl⟩

theorem wit_newGroup_none : ∃ l, okAll [.join f2] (Wl l) T0 = true ∧ ((Wl l).readVals (.join f2) 0 0 T0 f2).2.newGroup 0 1 = none := by
  refine ⟨(List.range' 1 65535).map (fun i => (i, 1)), join_goes _, ?_⟩
  have h : ∀ l, (∀ g, 0 < g → g ≤ 65535 → (SMap.get? l g).isSome = true) → (Wl l).newGroup 0 1 = none := by
    intro l hl
    simp only [State.newGroup, (groups_of l).1, (groups_of l).2, freeGroup_none l hl 65535 1 (by omega) (by omega)]
  rw [join_reads]
  exact h _ (fun g h0 h1 => get_range 1 65535 0 g h0 (by omega))


/-- Die 0 has the host-visible ranges `l` and no free granule. -/
def Wh (l : SMap Nat) : State := { Wn 4 [] with boot := { (Wn 4 []).boot with hdm := l } }.setDie 0 Die.reset
theorem Wh_hdm (l : SMap Nat) : (Wh l).boot.hdm = l ∧ ((Wh l).die 0).granules = [] := ⟨rfl, rfl⟩

theorem draw_none (s : State) (h : ∀ f, f < dieFrames → s.frameFree f = false) :
    ∀ m i n, i + m ≤ dieFrames → s.drawFrames 0 m i n = []
  | 0, _, _, _ => by rw [State.drawFrames]
  | m + 1, i, n, hi => by
    rw [State.drawFrames]
    by_cases h0 : n = 0
    · rw [if_pos h0]
    · simp only [h0, if_false, Nat.zero_mul, Nat.zero_add, h i (by omega), Bool.false_eq_true]
      exact draw_none s h m (i + 1) n (by omega)

theorem wit_ViewNew_short : ∃ l, (Wh l).takeGranules 0 2 = none := by
  refine ⟨(List.range 716).map (fun i => (i, i)), ?_⟩
  generalize hl : (List.range 716).map (fun i => ((i, i) : Nat × Nat)) = l
  have h : ∀ f, f < dieFrames → (Wh l).frameFree f = false := by
    intro f hf
    have : ((Wh l).boot.hdm.any (fun p => p.2 = f / 4096)) = true := by
      rw [(Wh_hdm l).1, ← hl, List.any_eq_true]
      exact ⟨(f / 4096, f / 4096), List.mem_map.2 ⟨f / 4096, List.mem_range.2 (by unfold dieFrames at hf; omega), rfl⟩, by simp⟩
    simp [State.frameFree, this]
  simp only [State.takeGranules, (Wh_hdm l).2, draw_none (Wh l) h dieFrames 0 _ (Nat.le_of_eq (Nat.zero_add _)), List.flatMap_nil,
    List.append_nil, List.length_nil, ite_self]
  exact if_pos (by decide)

/-- Thread states with an answer, a frame, a full inline stack, a deterministic task. -/
def Ta (code : Nat) : Thread := { T0 with answer := some ⟨code, TWord.zero, 0⟩ }
def Tf (n : Nat) : Thread := { T0 with frames := List.replicate n ⟨4, 0, 3, false, 1⟩ }
def Wth (t : Thread) (l : List (Nat × Nat)) : State := (W l).setThread 0 0 t
def Tdet (n : Nat) : Thread := { Tf n with task := w64 (2 ^ 57) }

/-- The thread has the answer `code`. -/
def answered (i : Instr) (code : Nat) (s : State) : Bool :=
  decide (s.current = some (0, 0, Ta code)) && decide ((Ta code).answer = some ⟨code, TWord.zero, 0⟩)
    && decide (joinReady (i.specialWrites.map (fun n => s.writeReady (Ta code).tenant 0 0 (Ta code).since n)) = .yes)
theorem answered_is {i : Instr} {code : Nat} {s : State} (h : answered i code s = true) :
    Answered i s 0 0 (Ta code) ⟨code, TWord.zero, 0⟩ := by
  simpa [answered, Answered, and_assoc] using h

set_option maxRecDepth 8000 in
theorem wit_Spawn : okAll [.spawn f3] (W [(5, 9)]) T0 = true ∧ okAll [.spawn f3] (W [(5, 8)]) T0 = true ∧ T0.answer = none ∧
    okAll [.spawn f3] (Wth (Tdet 4) [(5, 8)]) (Tdet 4) = true ∧ okAll [.spawn f3] (Wth (Tdet 3) [(5, 8)]) (Tdet 3) = true ∧
    taskDet (Tdet 4).task = true ∧ taskDet T0.task = false ∧ (W [(5, 8)]).coreAt 0 0 0 0 = some 0 ∧
    answered (.spawn f3) 1 (Wth (Ta 1) []) = true ∧ answered (.spawn f3) 0 (Wth (Ta 0) []) = true ∧
    (W []).thread? 0 0 = some T0 := by decide

theorem wit_YieldAndExit : okAll [.yield f2, .exit f2] (W []) T0 = true ∧ T0.frames = [] ∧ T0.locks = 0 ∧ T0.deleg = none ∧
    T0.ops = [] ∧ ((W []).core 0).fifo.length < 1024 ∧ plainFields f2 ∧ T0.reply = 0 ∧
    okAll [.exit f2] (Wth { T0 with reply := 5 } []) { T0 with reply := 5 } = true ∧ ((W []).core 0).outbox.length < 16 ∧
    okAll [.yield f2, .exit f2] (Wth (Tf 1) []) (Tf 1) = true ∧ (Tf 1).scopes.length = 0 ∧
    okAll [.exit f2] (Wth { Tf 1 with scopes := [1] } []) { Tf 1 with scopes := [1] } = true ∧
    okAll [.yield f2, .exit f2] (Wth { T0 with locks := 1 } []) { T0 with locks := 1 } = true ∧
    okAll [.yield f2] (Wth { T0 with ops := [op0] } []) { T0 with ops := [op0] } = true ∧ (W []).fifoRoom 0 0 = true := by
  unfold plainFields; decide
theorem wit_Yield_pool : ∀ tn, ((W []).tenant tn).pool = [] := by
  intro tn
  have e : (W []).tenants = [(0, (W []).tenant 0)] := rfl
  unfold State.tenant
  rw [e]
  by_cases h : 0 = tn
  · subst h; rfl
  · simp only [SMap.get, if_neg h]; rfl

/-- The page of address 0 as a SYNC page. -/
def sync (s : State) : State := { s with clusters := SMap.set s.clusters 0 { s.cluster 0 with tlb := [⟨0, 4, fetchLeaf + w64 (3 * 2 ^ 56), [(0, 0)]⟩] } }
def fy : Fields := fl 0 4 0 false 0 0 0 0 0
def objs : List Instr := [.syacq fy, .sytry fy, .syrel fy, .sydlg fy, .syarv fy, .sywait fy, .symode fy, .syinit fy]

theorem wit_ObjectAt : (sync (W [])).ObjectAt 0 T0 fy 'A' 0 ∧ (sync (W [])).ObjectAt 0 T0 fy 'R' 0 := by
  constructor <;> exact ⟨⟨0, fetchLeaf + w64 (3 * 2 ^ 56), 4⟩, by decide⟩

/-- A release by the thread on object line 0 has not been answered. -/
def Wask : State := { sync (W []) with reqs := [SyncReq.new 4 0 ((W []).tid 0 0 T0) 0 0] }

set_option maxRecDepth 8000 in
theorem wit_SyncRequests : okAll objs (sync (W [])) T0 = true ∧ T0.answer = none ∧ T0.locks ≠ 255 ∧ T0.deleg = none ∧
    (sync (W [])).asking ((sync (W [])).tid 0 0 T0) 0 = false ∧ plainFields fy ∧ ((sync (W [])).getG 0 T0 0).v.toNat % 2 = 0 ∧
    okAll [.syinit f2] (sync ((W []).modCore 0 (fun x => { x with sb := [sb0] }))) T0 = true ∧
    (sync ((W []).modCore 0 (fun x => { x with sb := [sb0] }))).storesOf 0 0 ≠ [] ∧ (sync (W [])).storesOf 0 0 = [] ∧
    syinitBad (w64 0) false = true ∧ syinitBad (w64 (2 ^ 60 + 2 ^ 56)) false = false ∧ taskDet T0.task = false ∧
    okAll [.syinit f2] (sync (W [(3, 2 ^ 60 + 2 ^ 56)])) T0 = true ∧ (sync (W [(3, 2 ^ 60 + 2 ^ 56)])).objBusy 0 = false ∧
    okAll [.syinit f2] ((sync (W [(3, 2 ^ 60 + 2 ^ 56)])).setHome 0 ⟨w64 (2 ^ 60 + 2 ^ 52), false⟩) T0 = true ∧
    ((sync (W [(3, 2 ^ 60 + 2 ^ 56)])).setHome 0 ⟨w64 (2 ^ 60 + 2 ^ 52), false⟩).objBusy 0 = true ∧
    okAll [.syinit f2] (sync (W [(3, 2 ^ 61 + 2 ^ 56 + 7)])) T0 = true ∧ syinitBad (w64 (2 ^ 61 + 2 ^ 56 + 7)) false = false ∧
    okAll [.sydlg f2] (sync (W [(3, 9)])) T0 = true ∧ ((sync (W [(3, 9)])).getG 0 T0 3).v.toNat % 2 = 1 ∧
    (sync (W [])).homeWaits 0 0 T0 0 = false ∧ okAll [.syinit fy] Wask T0 = true ∧ Wask.homeWaits 0 0 T0 0 = true ∧
    Wask.storesOf 0 0 = [] ∧
    Word.bits (w64 (2 ^ 61 + 2 ^ 56 + 7)) 63 60 = 2 ∧ (SMap.get? ((W []).tenant 0).groups 7).isSome = false := by
  unfold plainFields; decide

theorem wit_SyncAnswers : [Instr.syacq fy, .syacq f2, .sytry f2, .syrel fy, .syarv fy, .sywait fy, .sywait f2, .sydlg f2].all
      (fun i => answered i 5 (Wth (Ta 5) [])) = true ∧ answered (.sydlg f2) 6 (Wth (Ta 6) []) = true ∧
    answered (.syrel fy) 16 (Wth (Ta 16) []) = true ∧
    okAll [.syacq fy, .sytry fy, .syrel fy, .sydlg fy, .syarv fy, .sywait fy] (W []) T0 = true ∧
    memG T0 0 ((W []).gOff 0 T0 fy) 128 'A' = none ∧
    (W []).lookup 0 (vaOf T0 0 ((W []).gOff 0 T0 fy)) 2 = some ⟨0, fetchLeaf, 4⟩ ∧ Leaf.cl fetchLeaf ≠ 3 := by decide

/-- Axis context 0 held by tenant `tn`, of cluster 0. -/
def Wx (tn ep : Nat) (l : List (Nat × Nat)) : State := (W l).setAxis 0 { Axis.reset with held := true, tenant := tn, p := 1, ep := ep }
def fx0 : Fields := fl 3 0 0 false 0 0 0 0 0
def Tw (n : Nat) : Thread := { T0 with axis := setNth T0.axis 0 (some n) }

theorem wit_AxisWires : okAll [.hbarv fx0, .hbwait fx0] (Wx 0 0 []) T0 = true ∧ (Wx 0 0 []).axisValid 0 0 0 = true ∧
    okAll [.hbarv fx0, .hbwait fx0] (W []) T0 = true ∧ (W []).axisValid 0 0 0 = false ∧ T0.answer = none ∧
    (nthD T0.axis 0 none).getD ((Wx 0 0 []).axisCtx 0).ep = 0 ∧ (0 : Nat) < ((W []).cluster 0).axis.length ∧
    answered (.hbwait fx0) 0 (Wth (Ta 0) []) = true ∧ answered (.hbwait fx0) 1 (Wth (Ta 1) []) = true ∧
    okAll [.hbcfg fx0] (W [(3, 2 ^ 31 + 1)]) T0 = true ∧ hbcfgBad (w64 1) = true ∧ hbcfgBad (w64 (2 ^ 31 + 1)) = false ∧
    okAll [.hbcfg fx0] (W [(3, 1)]) T0 = true ∧ okAll [.hbcfg fx0] (Wx 1 0 [(3, 2 ^ 31 + 1)]) T0 = true ∧
    okAll [.hbcfg fx0] ((Wx 0 0 [(3, 2 ^ 31 + 1)]).modCluster 0 (fun x => { x with axis := [1, 0, 0, 0] })) T0 = true ∧
    (((Wx 0 0 []).modCluster 0 (fun x => { x with axis := [1, 0, 0, 0] })).axisRect ((Wx 0 0 []).axisCtx 0)).any (fun cl =>
      ((Wx 0 0 []).modCluster 0 (fun x => { x with axis := [1, 0, 0, 0] })).axisCount 0 cl ≠ 0) = true ∧
    ((W []).axisCtx 0).held = false ∧
    ((W []).axisRect { (W []).axisCtx 0 with held := true, tenant := 0, p := 1 }).length = 1 := by decide

/-- The fields of a control word of HBCFG. -/
def hbW (y1 x1 p : Nat) : Word := w64 (y1 * 2 ^ 52 + x1 * 2 ^ 48 + p * 2 ^ 31 + 1)
def axisOf (w : Word) : Axis := { Axis.reset with held := true, tenant := 0, y0 := w.bits 63 60, x0 := w.bits 59 56,
                                                  y1 := w.bits 55 52, x1 := w.bits 51 48, tmo := w.bits 43 40, p := w.bits 39 31 }
/-- Context 0 with two arrivals per episode, whose first wire rose at `a`. -/
def Wx2 (a : Option Nat) : State := (W []).setAxis 0 { Axis.reset with held := true, tenant := 0, p := 2, start := a }

theorem wit_AxisTimes : (Wx 0 0 []).axisEnds 0 = none ∧ (Wx2 (some 0)).axisEnds 0 = some 4096 ∧ (Wx2 (some 0)).now < 4096 ∧
    okAll [.hbarv fx0] (Wx2 (some 0)) T0 = true ∧ (Wx2 (some 0)).axisValid 0 0 0 = true ∧
    (Wx2 (some 0)).axisCount 0 0 + 1 ≠ ((Wx2 (some 0)).axisCtx 0).p ∧
    okAll [.hbwait fx0] ((Wx 0 1 []).setThread 0 0 (Tw 0)) (Tw 0) = true ∧
    (nthD (Tw 0).axis 0 none).getD ((Wx 0 1 []).axisCtx 0).ep = 0 ∧ ((Wx 0 1 []).axisCtx 0).ep = 1 ∧
    hbcfgBad (hbW 15 15 1) = false ∧ okAll [.hbcfg fx0] (W [(3, (hbW 15 15 1).toNat)]) T0 = true ∧
    ((W []).axisRect (axisOf (hbW 15 15 1))).length ≠ 16 * 16 ∧ okAll [.hbcfg fx0] (W []) T0 = true ∧
    okAll [.hbcfg fx0] (Wx 0 0 []) T0 = true ∧ ((Wx 0 0 []).axisRect ((Wx 0 0 []).axisCtx 0)).any (fun cl =>
      (Wx 0 0 []).axisCount 0 cl ≠ 0) = false := by decide

/-- p3 and p4 within the window of core 0. -/
def Tq : Thread := { T0 with ptrs := setNth (setNth T0.ptrs 4 ⟨w64 (18 * 2 ^ 48), false⟩) 3 ⟨w64 (18 * 2 ^ 48 + 65536), false⟩ }
def okB {α : Type} (e : Except (Nat × Word × Word) (List α)) (n : Nat) : Bool :=
  match e with
  | .ok l => l.length == n
  | .error _ => false

set_option maxRecDepth 8000 in
theorem wit_PlanesAndBlocks : okAll [.plxp fv, .plxp { fv with lo := 1 }, .pldot f3, .mfmt f2] (W []) T0 = true ∧
    okAll [.bpack f2, .bunpk f2] (Wth Tq []) Tq = true ∧
    okB (blocksAt ((Wth Tq []).memLAt Tq) (Tq.ptr 4).v (4096 * packSize 0)) (64 * packSize 0) = true ∧
    okB (blocksAt ((Wth Tq []).memLAt Tq) (Tq.ptr 3).v (panelBytes 1)) (panelBytes 1 / 64) = true ∧
    okB (blocksAt ((Wth Tq []).memLAt Tq) (Tq.ptr 4).v (panelBytes 1)) (panelBytes 1 / 64) = true ∧
    okB (blocksAt ((Wth Tq []).memLAt Tq) (Tq.ptr 3).v (4096 * packSize 0)) (64 * packSize 0) = true ∧ ((Wth Tq []).core 0).shut = false ∧
    okAll [.mfmt f2] (W [(3, 0x7FFF)]) T0 = true ∧ fmtOk (w64 0x7FFF) = true ∧ fmtOk (w64 (2 ^ 63)) = false ∧
    okAll [.mfmt f2] (W [(3, 2 ^ 63)]) T0 = true := by decide

/-- The thread's tile, and a queued command of its own. -/
def tid0 : Word := (W []).tid 0 0 T0
def Wtile (y : Tile) (l : List (Nat × Nat)) : State := (W l).modCore 0 (fun x => { x with tiles := [y, Tile.reset] })
def mine : Tile := { Tile.reset with owner := some tid0 }
def other : Tile := { Tile.reset with owner := some 5 }
def fz : Fields := fl 0 0 0 false 0 0 0 0 0
/-- MMA t0, p0, [0, g5 …]: b = g5 the K register. -/
def fmm : Fields := fl 0 4 6 true 0 0 0 0 0

theorem wit_LatticeInstructions : okAll [.mzero fz, .mfree fz, .mstore fz, .mstat f2, .mtest fz] (W []) T0 = true ∧
    ((W []).core 0).lqWait = [] ∧ ((W []).core 0).lq.length < 8 ∧ T0.run = .ready ∧ (((W []).core 0).tile 0).rel = none ∧ (((W []).core 0).tile 0).owner = none ∧ ((W []).core 0).tileEarlier 0 0 T0.since = false ∧
    okAll [.mzero fz, .mfree fz, .mma fmm, .mstore fz] (Wtile mine []) T0 = true ∧
    okAll [.mzero fz, .mfree fz, .mma fmm, .mstore fz] (Wtile other []) T0 = true ∧ (5 : Word) ≠ tid0 ∧
    (W []).tileCheck 0 0 tid0 = some 1 ∧ (Wtile mine []).tileCheck 0 0 tid0 = none ∧
    kBad ((Wtile mine []).getG 0 T0 6).v.toNat = true ∧ okAll [.mma fmm] (Wtile mine [(6, 64)]) T0 = true ∧
    kBad 64 = false ∧ kBad 4096 = false ∧ kBad 4160 = true ∧ plainFields fmm ∧ fmm.three = true ∧
    okAll [.mtest fz] ((Wth { T0 with want := some (.selftest 0) } []).modCluster 0 (fun x => { x with ran := 1 }))
      { T0 with want := some (.selftest 0) } = true ∧ T0.want = none := by
  unfold plainFields; decide

/-- The queue of core 0 is full. -/
def Wfull : State := (Wtile mine [(6, 64)]).modCore 0 (fun x => { x with lq := List.replicate 8 (LCmd.new 3 5 1 1 0 false) })

theorem wit_LatticeQueue : okAll [.mma fmm, .mstore fz] Wfull T0 = true ∧ 8 ≤ (Wfull.core 0).lq.length ∧
    Wfull.tileCheck 0 0 tid0 = none ∧ ((Wtile mine [(6, 64)]).core 0).lqWait = [] ∧
    ((Wtile mine [(6, 64)]).core 0).lq.length < 8 ∧ (((Wtile mine []).core 0).tile 0).owner = some tid0 ∧
    okAll [.mzero fz, .mfree fz] (Wtile { Tile.reset with rel := some 3 } []) T0 = true ∧
    (((Wtile { Tile.reset with rel := some 3 } []).core 0).tile 0).owner = none := by decide

/-- An MMA of the thread in the queue of core 0, begun, of the least context and K = 64, with units fetched. -/
def lcm (k b : Nat) (ctx : Word) (p : Word) (got : List Nat) : LCmd :=
  { LCmd.new 0 tid0 0 0 ctx false with id := 7, aform := 1, aPtr := p, bPtr := p, kreg := k, began := b, got := got }
def pw : Word := w64 (18 * 2 ^ 48)
def Wm (m : LCmd) (y : Tile) : State := (Wa [0, 7] []).modCore 0 (fun x => { x with lq := [m], tiles := [y, Tile.reset] })
def most : List Nat := (List.range 18).map (fun i => 2 * i) ++ ((List.range 8).map (fun i => 2 * i + 3))

theorem wit_LatticeStart : (Wm (lcm 64 0 0 pw []) mine).nextQueue 0 = some (0, false) ∧
    ((Wm (lcm 64 0 0 pw []) mine).core 0).startable = some (lcm 64 0 0 pw []) ∧ (W []).nextQueue 0 = none := by decide

def gotM (s : State) (m : LCmd) (u : Nat) : Nat :=
  match s.fetchUnit 0 m u with
  | .got _ _ => 1
  | .fail _ _ => 2
  | .wait _ => 3
theorem gotM_one {s : State} {m : LCmd} {u : Nat} (h : gotM s m u = 1) : ∃ m' s', s.fetchUnit 0 m u = .got m' s' := by
  unfold gotM at h; split at h <;> simp_all
theorem gotM_two {s : State} {m : LCmd} {u : Nat} (h : gotM s m u = 2) : ∃ n s', s.fetchUnit 0 m u = .fail n s' := by
  unfold gotM at h; split at h <;> simp_all

theorem wit_LatticeFetch (n : Nat) (p : Word) (h : p = pw ∨ p = 0) :
    ((lcm 64 1 0 p most).units.filter (fun u => !(lcm 64 1 0 p most).got.contains u))[Config.choose n %
      max 1 ((lcm 64 1 0 p most).units.filter (fun u => !(lcm 64 1 0 p most).got.contains u)).length]? = some 1 := by
  have e : (lcm 64 1 0 p most).units.filter (fun u => !(lcm 64 1 0 p most).got.contains u) = [1] := by
    rcases h with rfl | rfl <;> decide
  rw [e]; simp [Nat.mod_one]
theorem wit_LatticeFetched : (Wm (lcm 64 1 0 pw most) mine).lcmd? 0 7 = some (0, lcm 64 1 0 pw most) ∧
    (∃ m' s', (Wm (lcm 64 1 0 pw most) mine).fetchUnit 0 (lcm 64 1 0 pw most) 1 = .got m' s') ∧
    (Wm (lcm 64 1 0 0 most) mine).lcmd? 0 7 = some (0, lcm 64 1 0 0 most) ∧
    (∃ n s', (Wm (lcm 64 1 0 0 most) mine).fetchUnit 0 (lcm 64 1 0 0 most) 1 = .fail n s') :=
  ⟨by decide, gotM_one (by decide), by decide, gotM_two (by decide)⟩

/-- The command may execute: it is the first of its cluster and nothing blocks it. -/
def execs (m : LCmd) (y : Tile) : Bool :=
  decide ((Wm m y).lcmd? 0 7 = some (0, m)) && decide (m.began ≠ 0) && !m.fin && m.kind == 0 && !((Wm m y).core 0).blocked m
    && !m.parked && (Wm m y).isFirst 0 Core.readyMma m.began
/-- One pair executed: the number of the next pair. -/
def pairs (m : LCmd) : Nat :=
  let p := m.skipPairs (m.ta * m.tb) (m.exec + m.skip - m.kdone * (m.ta * m.tb))
  let q := if p.2 < m.ta * m.tb then (({ p.1 with exec := p.1.exec + 1 } : LCmd), p.2 + 1) else p
  (q.1.skipPairs (m.ta * m.tb) q.2).2
def mm (k : Nat) : LCmd := { lcm k 1 0 pw [] with got := (lcm k 1 0 pw []).units }
/-- Two planes of A, both live, and one of B. -/
def mp : LCmd :=
  { lcm 64 1 (w64 (2 ^ 12 + 2 ^ 9)) pw [] with
      got := (lcm 64 1 (w64 (2 ^ 12 + 2 ^ 9)) pw []).units,
      abuf := [(0, 128), (8, 1), (72, 1)], bbuf := [(0, 128), (8, 1)] }

set_option maxRecDepth 16000 in
theorem wit_LatticeExecute : execs (mm 64) { mine with poison := true } = true ∧ ({ mine with poison := true } : Tile).poison = true ∧
    execs (mm 64) mine = true ∧ mine.poison = false ∧ (Wm (mm 64) mine).cluster 0 = (W []).cluster 0 ∧
    ((W []).cluster 0).fence % 256 ≠ 255 ∧ (mm 64).blockReady 0 = true ∧ pairs (mm 64) = 1 ∧ (mm 64).ta * (mm 64).tb = 1 ∧
    (mm 64).nk = 1 ∧ execs (mm 128) mine = true ∧ (mm 128).blockReady 0 = true ∧ pairs (mm 128) = 1 ∧ (mm 128).nk = 2 ∧
    (0 : Nat) < ((W []).core 0).tiles.length ∧ execs mp mine = true ∧ mp.blockReady 0 = true ∧ pairs mp = 1 ∧ mp.ta * mp.tb = 2 := by
  decide

theorem wit_LatticeEnds : (Wm { mm 64 with fin := true } mine).lcmd? 0 7 = some (0, { mm 64 with fin := true }) ∧
    (((Wm { mm 64 with fin := true } mine).core 0).lqBefore 7).any (fun y => y.owner = tid0) = false ∧
    (1 : Nat) < ((W []).core 0).tiles.length ∧ (W []).inCommand 0 = false ∧ (Wm { mm 64 with exec := 1 } mine).inCommand 0 = true := by
  decide

/-- Page tables of tenant 0 at address 0x10000: 1 GiB of ordinary device pages at 0, and 1 GiB of class `cl` at 2^30. -/
def tables (cl : Nat) (s : State) : State :=
  let s := s.modTenant 0 (fun x => { x with ttroot := 0x10000, window := [(0, 0), (1, 1), (16384, 2)] })
  [(0x10000, 2 ^ 63 + 0x11000), (0x11000, 2 ^ 63 + 0x12000), (0x12000, fetchLeaf.toNat),
   (0x12008, fetchLeaf.toNat + cl * 2 ^ 56 + 2 ^ 30)].foldl (fun s p => s.setHome (p.1 / 8) ⟨w64 p.2, false⟩) s
  |>.fillTlb 0 (2 ^ 30) 4 (fetchLeaf + w64 (cl * 2 ^ 56)) 131072

/-- The parameter block of a region of one row of 64 elements at 0x1000: gains at 0x2000, slots at 0x3000. -/
def block (s : State) : State :=
  [(0x1008, 64), (0x1020, 0x2000), (0x1028, 0x3000)].foldl (fun s p => s.setHome (p.1 / 8) ⟨w64 p.2, false⟩) s
/-- A live region of one row at 2^30, and the row with its element 0 at 1 (F = 0). -/
def g1 (rw : SMap Row) : SRegion := ⟨2 ^ 30, 1, 64, 0, 0, [(0, 0x3F80)], 0, true, false, 0, 0x3000, rw⟩
def row1 : Row := { Row.new with x := [(0, 1)], ss := 1, adds := 1, res := true }
def Wst (rw : SMap Row) (l : List (Nat × Nat)) : State := (W l).modTenant 0 (fun x => { x with streams := [(0, g1 rw)] })

def wordsThat (w : WordsTry) (p : List TWord → Bool) : Bool :=
  match w with
  | .ok l => p l
  | _ => false

def readSanew (r : SanewRead) (p : List TWord → Bool) : Bool :=
  match r with
  | .words l => p l
  | _ => false
def statusIs (r : ParamCheck) (n : Nat) : Bool :=
  match r with
  | .status m => m == n
  | _ => false
def p1 : SParam := ⟨1, 64, 0, false, false, 0, 0, 0x2000, 0x3000⟩
/-- SANEW of that region, with the page of class `cl` at 2^30. -/
def Wnew (cl : Nat) : State := block (tables cl (W [(3, 0x1000), (4, 2 ^ 30)]))

set_option maxRecDepth 16000 in
theorem wit_Sanew : plainFields f2 ∧ okAll [.sanew f2] (W [(3, 5)]) T0 = true ∧ okAll [.sanew f2] (Wnew 2) T0 = true ∧
    okAll [.sanew f2] (tables 2 (W [(3, 0x1000), (4, 2 ^ 30)])) T0 = true ∧
    okAll [.sanew f2] (W [(4, 2 ^ 40)]) T0 = true ∧ memG T0 0 ((W [(4, 2 ^ 40)]).gOff 0 T0 f2) 1 'R' = some (0x04, w64 (2 ^ 40), 0) ∧
    memG T0 0 ((Wnew 2).gOff 0 T0 f2) 1 'R' = none ∧ memG T0 0 ((W [(3, 5)]).gOff 0 T0 f2) 1 'R' = none ∧
    readSanew ((tables 2 (W [(3, 0x1000), (4, 2 ^ 30)])).sanewRead 0 0 T0 0 0x1000 8) (fun ws =>
      decide (paramOf (ws.map (fun w => w.v)) = none)) = true ∧
    readSanew ((Wnew 2).sanewRead 0 0 T0 0 0x1000 8) (fun ws => decide (paramOf (ws.map (fun w => w.v)) = some p1)) = true ∧
    readSanew ((Wnew 2).sanewRead 0 0 T0 0 0x2000 16) (fun gw => (gainsOf gw).all (fun b => (bf16.val b).finite)) = true ∧
    statusIs ((Wnew 2).sanewStatus 0 0 T0 0 (2 ^ 30) p1) 0 = true ∧ okAll [.sanew f2] (Wnew 1) T0 = true ∧
    statusIs ((Wnew 1).sanewStatus 0 0 T0 0 (2 ^ 30) p1) 2 = true ∧ ((Wnew 2).tenant 0).freeStream = some 0 := by
  unfold plainFields; decide

def fr2 : Fields := { f2 with lo := 2 }
def Tp3 : Thread := { T0 with ptrs := setNth T0.ptrs 3 ⟨pw, false⟩ }

set_option maxRecDepth 16000 in
theorem wit_StreamInstructions : okAll [.saadd fv] (W []) T0 = true ∧ memG T0 0 ((W []).gOff 0 T0 fv) 64 'W' = none ∧
    okAll [.saadd fv] (W [(16, 4)]) T0 = true ∧ memG T0 0 ((W [(16, 4)]).gOff 0 T0 fv) 64 'W' = some (0x13, 4, 0) ∧
    okAll [.saread fv, .saread { fv with lo := 1 }] (W []) T0 = true ∧ memG T0 0 ((W []).gOff 0 T0 fv) 128 'R' = none ∧
    okAll [.saread fr2] (Wth Tp3 []) Tp3 = true ∧ memG Tp3 0 ((Wth Tp3 []).gOff 0 Tp3 fr2) (sareadAlign 2) 'R' = none ∧
    okB (blocksAt ((Wth Tp3 []).memLAt Tp3) (Tp3.ptr 3).v (panelBytes (fmtAw ((Wth Tp3 []).core 0).fmt + 1)))
      (panelBytes (fmtAw ((Wth Tp3 []).core 0).fmt + 1) / 64) = true ∧
    okAll [.sainfo f2, .saevict f2, .safree f2] (Wst [] [(4, 2 ^ 30)]) T0 = true ∧
    memG T0 0 ((Wst [] [(4, 2 ^ 30)]).gOff 0 T0 f2) 4 'R' = none ∧ memG T0 0 ((Wst [] [(4, 2 ^ 30)]).gOff 0 T0 f2) 1 'R' = none ∧
    ((Wst [] [(4, 2 ^ 30)]).tenant 0).streamAt (vaOf T0 0 ((Wst [] [(4, 2 ^ 30)]).gOff 0 T0 f2) % 2 ^ 57) = some (0, g1 []) ∧
    (Wst [] [(4, 2 ^ 30)]).addsPending 0 0 (Wst [] [(4, 2 ^ 30)]).nextId (g1 []) = false ∧
    okAll [.saevict f2] (Wst [] [(3, 1), (4, 2 ^ 30)]) T0 = true ∧ okAll [.saevict f2] (Wst [] [(3, 65536), (4, 2 ^ 30)]) T0 = true ∧
    okAll [.saevict f2] (Wst [] [(3, 65537), (4, 2 ^ 30)]) T0 = true ∧
    okAll [.safree f2] (Wst [(0, row1)] [(4, 2 ^ 30)]) T0 = true ∧ row1.fmt = none := by decide

def Wsi (n : Nat) : State := Wst [(0, row1)] [(3, n), (4, 2 ^ 30)]
/-- An add of the thread to the region has not been performed. -/
def Wadd : State := { (Wst [(0, row1)] [(4, 2 ^ 30)]).modCore 0 (fun x =>
  { x with sb := [{ sb0 with kind := .streamAdd 0 false, va := 2 ^ 30 }] }) with nextId := 5 }

set_option maxRecDepth 16000 in
theorem wit_StreamCases : [0, 1, 5, 6, 7].all (fun n => okAll [.sainfo f2] (Wsi n) T0 && ((Wsi n).getG 0 T0 3).v.toNat == n) = true ∧
    ((Wsi 0).tenant 0).streamAt (vaOf T0 0 ((Wsi 0).gOff 0 T0 f2) % 2 ^ 57) = some (0, g1 [(0, row1)]) ∧
    (Wsi 0).addsPending 0 0 (Wsi 0).nextId (g1 [(0, row1)]) = false ∧
    okAll [.sainfo f2, .safree f2] Wadd T0 = true ∧ Wadd.addsPending 0 0 Wadd.nextId (g1 [(0, row1)]) = true ∧
    okAll [.sainfo f2, .saevict f2, .safree f2] (Wst [] []) T0 = true ∧
    ((Wst [] []).tenant 0).streamAt (vaOf T0 0 ((Wst [] []).gOff 0 T0 f2) % 2 ^ 57) = none ∧
    okAll [.safree f2] (Wst [(0, { row1 with fmt := some 1 })] [(4, 2 ^ 30)]) T0 = true ∧
    okAll [.saevict f2] (Wst [] [(3, 1), (4, 2 ^ 30 + 128)]) T0 = true ∧ (2 ^ 30 + 128 - (g1 []).base) % (4 * (g1 []).len) ≠ 0 ∧
    ((Wth Tp3 []).core 0).shut = false := by decide

/-- An add of a thread that is gone, in flight to the region, and the same region with a row to write out or to bring in. -/
def flight : Flight := ⟨3, 0, { sb0 with inc := 9, kind := .streamAdd 3 false, va := 2 ^ 30, size := 4, data := [⟨5, false⟩] }, 0, []⟩
def Wsw (rw : Row) (l : List Nat) (fl : List Flight) : State :=
  { tables 0 (Wst [(0, rw)] []) with arg := ⟨l, []⟩, flights := fl, resident := (List.range 5).map (fun i => (96 + i, 0)) }
def applied (a : AddTry) : Bool :=
  match a with
  | .applied _ none _ => true
  | _ => false
def opS : Op := { Op.new (.saread fv) T0 .saread .glob 6 with id := 4, acc := [Access.at (2 ^ 30) 64 TWord.zero] }
def readied (r : RowTry) (p : State → Bool) : Bool :=
  match r with
  | .ready s => p s
  | .later _ => false
def lined (e : Except EngineTry (List Nat)) (p : List Nat → Bool) : Bool :=
  match e with
  | .ok l => p l
  | .error _ => false

def noGate (o : Option State) : Bool :=
  match o with
  | none => true
  | some _ => false

set_option maxRecDepth 16000 in
theorem wit_StreamWork : (Wsw row1 [3] [flight]).flights.find? (fun f => f.id = 3) = some flight ∧
    flight.entry.kind = .streamAdd 3 false ∧ (Wsw row1 [3] [flight]).sameThread 0 0 9 = none ∧
    applied ((Wsw row1 [3] [flight]).streamAdd ((Wsw row1 [3] [flight]).tenantOn 0) (2 ^ 30) 3 (flight.entry.deltas 3)
      (flight.entry.data.any (fun d => d.t)) false 3) = true ∧
    (Wsw row1 [3] []).flights.find? (fun f => f.id = 3) = none ∧
    (Wa [0, 0, 1] [TWord.zero, TWord.zero]).sameThread 0 0 1 = some T0 ∧ T0.saovf = none ∧
    ((Wth { T0 with ops := [opS] } []).opOf 0 0 4) = some ({ T0 with ops := [opS] }, opS) ∧ fv.lo = 0 ∧
    readied ((Wsw row1 [0, 0, 4] []).rowReady 0 0 0 (g1 [(0, row1)]) false 4) (fun s => !(s.rowOf 0 0 0).p && (s.rowOf 0 0 0).res
      && orFlags ((portLanes fp32 ((g1 []).port (s.rowOf 0 0 0).snap 0 16) 16).map Prod.snd) == 0) = true ∧
    ((g1 [(0, { row1 with fmt := some 1 })]).rowAt 0).fmt = some 1 ∧
    lined ((Wsw { row1 with fmt := some 1 } [0, 0, 0] []).engineLines 0 3 0 (rowSlot 0 0 0) ((g1 []).slotVa 0) 5
      (slotBytes 64 / 128)) (fun l => l == List.range' 96 5) = true ∧
    (List.range' 96 5).all (fun l => noGate ((Wsw row1 [] []).homeGate (128 * l) 128 true)
      && noGate ((Wsw row1 [] []).homeGate (128 * l) 128 false)) = true ∧
    (row1.wait.filter (Wsw row1 [] []).awaits).head? = none ∧
    ({ row1 with wait := [9, 3] }.wait.filter (Wsw row1 [] [flight]).awaits).head? = some 3 ∧
    (g1 []).len = 64 ∧ ((Wsw row1 [0, 0, 0] []).tenant 0).rowHome 0 0 (g1 []) = 0 ∧
    ((Wsw { Row.new with img := true } [0, 0, 0] []).tenant 0).roomFor 0 0 (g1 []) = true ∧
    lined ((Wsw { Row.new with img := true } [0, 0, 0] []).engineLines 0 3 0 (rowSlot 0 0 0) ((g1 []).slotVa 0) 4
      (slotBytes 64 / 128)) (fun l => l.all (fun x => !(Wsw row1 [] []).mem.poisoned x)) = true ∧
    ([⟨2, 0, 0, [], 0, 0⟩] : List Evict).find? (fun e => e.id = 2) = some ⟨2, 0, 0, [], 0, 0⟩ := by decide

/-- The thread with trap registers; the handler's address set. -/
def Tt (pc : Nat) (tip : Bool) : Thread := { T0 with trap := { T0.trap with pc := w64 pc, tip := tip } }
def fi (n : Int) : Fields := fl 3 0 0 false 0 0 0 0 n

theorem wit_Traps : (Wth (Tt 0 true) []).thread? 0 0 = some (Tt 0 true) ∧ (Tt 0 true).trap.tip = true ∧
    (W []).thread? 0 0 = some T0 ∧ ((W []).tenant 0).trapvec = 0 ∧ T0.trap.tip = false ∧
    ((W2 (fun x => { x with trapvec := 8 }) []).tenant 0).trapvec ≠ 0 ∧
    (W2 (fun x => { x with trapvec := 8 }) []).thread? 0 0 = some T0 ∧
    okAll [.trap (fl 0 0 0 false 0 0 0 0 7), .svcall (fl 0 0 0 false 0 0 0 0 7)] (W []) T0 = true ∧ T0.ops = [] ∧
    (Wth { T0 with ops := [op0] } []).thread? 0 0 = some { T0 with ops := [op0] } ∧
    okAll [.rett fz] (Wth (Tt 9 true) []) (Tt 9 true) = true ∧ (Tt 9 true).trap.pc.toNat % 2 = 1 ∧
    okAll [.rett fz] (Wth (Tt 8 true) []) (Tt 8 true) = true ∧ (Tt 8 true).trap.pc.toNat % 2 = 0 := by decide

theorem wit_SystemRegisters :
    okAll ((List.range 18).map (fun n => .rdsr (fi n)) ++ [.rdsr (fi 21), .rdsr (fi 24), .rdsr (fi 25)]) (W []) T0 = true ∧
    okAll ((List.range 18).map (fun n => .wrsr (fi n))) (W []) T0 = true ∧ plainFields (fi 10) ∧
    ((W []).getG 0 T0 3).v.getLsbD 0 = false ∧ okAll [.wrsr (fi 13)] (W [(3, 0x11000)]) T0 = true ∧
    okAll [.wrsr (fi 13)] (W [(3, 0x10000)]) T0 = true := by
  unfold plainFields; decide

/-- Page tables of 64 KiB pages: page 0 with leaf bits `x` added, page 1 the tables themselves, page 2 free. -/
def tables4 (x : Nat) (s : State) : State :=
  let s := s.modTenant 0 (fun y => { y with ttroot := 0x10000, window := [(0, 0), (1, 1), (2, 2)] })
  [(0x10000, 2 ^ 63 + 0x11000), (0x11000, 2 ^ 63 + 0x12000), (0x12000, 2 ^ 63 + 0x13000), (0x13000, 2 ^ 63 + 0x14000),
   (0x14000, fetchLeaf.toNat + x), (0x14008, fetchLeaf.toNat + 0x10000)].foldl
    (fun s p => s.setHome (p.1 / 8) ⟨w64 p.2, false⟩) s

/-- A thread to be saved in slot 1, stopped. -/
def Tsv (st : Nat) (run : Run) (lim n : Nat) : Thread :=
  { T1 with stopReq := st, run := run, segs := setNth T1.segs 7 ⟨0, lim, 31⟩, mail := List.replicate n m0 }
def Wsv (t : Thread) : State := { (tables4 0 (W [])).setThread 0 1 t with arg := ⟨[0, 1], []⟩ }
/-- Slot 5 reserved for a thread with its image at 0x1000: one granule, everything else zero. -/
def Wrs (b : Nat) : State :=
  ((tables4 0 (W [(3, 0x1000 + 5 * 64 + b)])).setHome (0x1020 / 8) ⟨w64 (2 ^ 63 + 2 ^ 40), false⟩).setOcc 0 5 (.reserved T1 0x1000 0)
def isReady (t : ImageTry) : Bool :=
  match t with
  | .ready => true
  | _ => false
def isTr (t : EngineTry) : Bool :=
  match t with
  | .tr _ => true
  | _ => false

set_option maxRecDepth 16000 in
theorem wit_ContextSave : plainFields f2 ∧ okAll [.ctxsv f2] (W []) T0 = true ∧
    (W []).saveSlot 0 0 0 ((W []).getG 0 T0 3).v = none ∧
    okAll [.ctxsv f2] (W1.setG 0 T0 3 ⟨W1.tid 0 1 T1, false⟩) T0 = true ∧
    (W1.setG 0 T0 3 ⟨W1.tid 0 1 T1, false⟩).saveSlot 0 0 0 (W1.tid 0 1 T1) = some (1, T1) ∧
    answered (.ctxsv f2) 0 (Wth (Ta 0) []) = true ∧
    (Wsv (Tsv 1 (.stopped false) 0 0)).thread? 0 1 = some (Tsv 1 (.stopped false) 0 0) ∧ (Tsv 1 (.stopped false) 0 0).beingSaved = true ∧
    (Wsv (Tsv 1 (.stopped false) 0 0)).saveQuiet 0 1 (Tsv 1 (.stopped false) 0 0) = true ∧
    (Wsv (Tsv 1 (.stopped true) 0x10800 17)).thread? 0 1 = some (Tsv 1 (.stopped true) 0x10800 17) ∧
    (Wsv (Tsv 1 (.stopped true) 0x10800 17)).saveQuiet 0 1 (Tsv 1 (.stopped true) 0x10800 17) = true ∧
    (Wsv (Tsv 1 (.stopped true) 0x10800 16)).thread? 0 1 = some (Tsv 1 (.stopped true) 0x10800 16) ∧
    (Wsv (Tsv 1 (.stopped true) 0x10800 16)).saveQuiet 0 1 (Tsv 1 (.stopped true) 0x10800 16) = true ∧
    isTr ((Wsv (Tsv 1 (.stopped true) 0x10800 16)).savePages 0 0 1 0 (imagePages false false)) = true ∧
    ((Wsv (Tsv 1 (.stopped true) 0x10800 16)).core 0).owns 0 ((Wsv (Tsv 1 (.stopped true) 0x10800 16)).tid 0 1
      (Tsv 1 (.stopped true) 0x10800 16)) = false ∧
    (Wsv (Tsv 1 .ready 0 0)).thread? 0 1 = some (Tsv 1 .ready 0 0) := by
  unfold plainFields; decide
set_option maxRecDepth 16000 in
theorem wit_ContextLoad : okAll [.ctxld f2] (W [(3, 2)]) T0 = true ∧ okAll [.ctxld f2] (W [(3, 0)]) T0 = true ∧
    (((W [(3, 0)]).core 0).slot 0).occ = .live T0 ∧ okAll [.ctxld f2] (Wrs 1) T0 = true ∧ okAll [.ctxld f2] (Wrs 0) T0 = true ∧
    (((Wrs 0).core 0).slot 5).occ = .reserved T1 0x1000 0 ∧ (((Wrs 1).core 0).slot 5).occ = .reserved T1 0x1000 0 ∧
    ((Wrs 0).core 0).sb = [] ∧ ((Wrs 0).core 0).parked = [] ∧ (Wrs 0).flights = [] ∧
    isReady ((Wrs 0).imageTry 0 0 T0 0x1000 [0]) = true ∧ (Wrs 0).imageOk 0 0x1000 5 false = true ∧
    ownedTiles ((Wrs 0).imageN 0 0x1000 0x20) = [] ∧ bitsOf ((Wrs 0).imageN 0 0x1000 0x20) 47 40 = 1 ∧
    1 ≤ ((Wrs 0).core 0).freeGran.length ∧ ((Wrs 0).core 0).scopeAhead 0 T0.since = false ∧
    ((W []).core 0).dead = false ∧ ((Wc (fun x => { x with dead := true })).core 0).dead = true ∧
    ((Wc (fun x => { x with dead := true })).core 0).fenced = false := by decide

def job (b : Bool) (p : Option Nat) (n : Nat) : HashJob := ⟨2, 0, 0, 0, 1, p, 0, b, n⟩

set_option maxRecDepth 16000 in
theorem wit_TaintAndDebug : plainFields f2 ∧ okAll [.tntrd f2, .tntclr fx0, .brk (fl 0 0 0 false 0 0 0 0 7), .perfrd (fi 273)] (W []) T0 = true ∧
    ((W []).tenant 0).tntctl.getLsbD 1 = false ∧ ((W2 (fun x => { x with tntctl := 2 }) []).tenant 0).tntctl.getLsbD 1 = true ∧
    okAll [.brk (fl 0 0 0 false 0 0 0 0 7)] (W2 (fun x => { x with tntctl := 2 }) []) T0 = true ∧
    okAll [.pghash fy] (W [(4, 4)]) T0 = true ∧ vaOf T0 0 ((W [(4, 4)]).gOff 0 T0 fy) % 2 ^ 57 % 65536 ≠ 0 ∧
    okAll [.pghash f2] (tables4 0 (W [(3, 1), (4, 0)])) T0 = true ∧
    ((tables4 0 (W [(3, 1), (4, 0)])).getG 0 T0 4).v.toNat % 64 = 0 ∧
    (tables4 0 (W [(3, 1), (4, 0)])).hashOutOk 0 0 (treeBytes 1) = true ∧
    ([job true none 0].find? (fun j => j.id = 2)) = some (job true none 0) ∧
    ([job false (some 5) 9].find? (fun j => j.id = 2)) = some (job false (some 5) 9) := by
  unfold plainFields; decide

def walked (w : WalkRes) : Bool :=
  match w with
  | .leaf _ _ _ => true
  | _ => false
def valued (r : ReadTry) (p : TWord → Bool) : Bool :=
  match r with
  | .val v => p v
  | _ => false
/-- What SETCOH finds of its pages: 0 they pass, 100 it waits, otherwise the status. -/
def pages (e : PagesRes) : Nat :=
  match e with
  | .ok => 0
  | .bad n => n
  | .parked _ => 100
/-- What CFLUSH finds: the number of dirty lines plus 1, or 0 where it waits. -/
def flushed (e : Flushed) : Nat :=
  match e with
  | .done q _ => q + 1
  | .parked _ => 0
  | .declined _ _ _ => 0
/-- Words 0 and 1 of memory. -/
def Wsg (a b : Nat) : State := ((W []).setHome 0 ⟨w64 a, false⟩).setHome 1 ⟨w64 b, false⟩
/-- The tables, with the leaf of page 0 in the port's cache. -/
def Wpg (x : Nat) (l : List (Nat × Nat)) : State := (tables4 x (W l)).fillTlb 0 0 4 (fetchLeaf + w64 x) 0
/-- The walk for page 1, which the cache does not hold, has ended with cause 1. -/
def Tdc : Thread := { T0 with declined := some (pageOf 65536, 1) }
def Wdc (l : List (Nat × Nat)) : State := Wth Tdc ((4, 65536) :: l)
def Tpt (p : List Nat) : Thread := { T0 with part := p }

set_option maxRecDepth 16000 in
theorem wit_SegmentsAndPages : plainFields f2 ∧ okAll [.segld f2, .segrd f2, .segrd { f2 with fx := 2 }] (Wsg 128 5) T0 = true ∧
    T0.ops = [] ∧ (Wsg 128 5).gOff 0 T0 f2 = 0 ∧ memG T0 0 0 8 'R' = none ∧ memG T0 0 8 8 'R' = none ∧
    valued ((Wsg 128 5).readWord 0 0 T0 (vaOf T0 0 0)) (fun w => w.v = 128) = true ∧
    valued ((Wsg 128 5).readWord 0 0 T0 (vaOf T0 0 8)) (fun w => w.v = 5) = true ∧
    okAll [.segld f2] (Wsg 129 5) T0 = true ∧ valued ((Wsg 129 5).readWord 0 0 T0 (vaOf T0 0 0)) (fun w => w.v = 129) = true ∧
    okAll [.segld f2] (Wsg (2 ^ 57 - 128) 129) T0 = true ∧
    valued ((Wsg (2 ^ 57 - 128) 129).readWord 0 0 T0 (vaOf T0 0 0)) (fun w => w.v = w64 (2 ^ 57 - 128)) = true ∧
    (Wsg 128 5).lookup 0 0 0 = some ⟨0, fetchLeaf, 4⟩ ∧ Leaf.cl fetchLeaf = 0 ∧ (Wsg 128 5).poisoned 0 = false ∧
    okAll [.xlate f2, .pghot f2] (W [(4, 2 ^ 40)]) T0 = true ∧ okAll [.xlate f2, .pghot f2, .pgmig f2] (W []) T0 = true ∧
    (W []).lookup 0 0 6 = some ⟨0, fetchLeaf, 4⟩ ∧ okAll [.xlate f2, .pghot f2, .pgmig f2] (Wdc []) Tdc = true ∧
    (Wdc []).lookup 0 65536 6 = none ∧ Tdc.declined = some (pageOf 65536, 1) ∧ okAll [.xlate f2] (W [(4, 65536)]) T0 = true ∧
    T0.declined = none := by
  unfold plainFields; decide

set_option maxRecDepth 16000 in
theorem wit_PagePlacement : okAll [.pghot f2] (W [(3, 2)]) T0 = true ∧ okAll [.pghot f2] (Wpg (2 ^ 54) [(3, 1)]) T0 = true ∧
    (Wpg (2 ^ 54) []).lookup 0 0 6 = some ⟨0, fetchLeaf + w64 (2 ^ 54), 4⟩ ∧ Leaf.ht (fetchLeaf + w64 (2 ^ 54)) = true ∧
    Leaf.h fetchLeaf = false ∧ Leaf.ht fetchLeaf = false ∧ T0.part = [] ∧
    okAll [.pgmig f2] (Wpg 0 [(3, 0x20000)]) T0 = true ∧ (Wpg 0 [(3, 0x20000)]).lookup 0 0 6 = some ⟨0, fetchLeaf, 4⟩ ∧
    (Wpg 0 [(3, 0x20000)]).pgmigStatus 0 ⟨0, fetchLeaf, 4⟩ 0x20000 = 0 ∧ (W []).pgmigStatus 0 ⟨0, fetchLeaf, 4⟩ 0 = 3 ∧
    (Wpg 0 [(3, 0x20000)]).walk 0 0 6 = .leaf 4 0x14000 fetchLeaf ∧
    ((Wpg 0 [(3, 0x20000)]).beginMig 0 0 0 4 0x14000 fetchLeaf 0x20000).pageBusy 0 0 65536 = false ∧
    (((Wpg 0 [(3, 0x20000)]).modCore 0 (fun x => { x with sb := [sb0] })).beginMig 0 0 0 4 0x14000 fetchLeaf 0x20000).pageBusy 0 0
      65536 = true ∧
    okAll [.pgmig f2] (Wth (Tpt [1, 0, 65536]) []) (Tpt [1, 0, 65536]) = true ∧
    (Wth (Tpt [1, 0, 65536]) []).pageBusy 0 0 65536 = false := by decide

set_option maxRecDepth 16000 in
theorem wit_CacheControl : okAll [.cflush f2, .cinv f2] (W []) T0 = true ∧ okAll [.cflush f2, .cinv f2] (W [(3, 2 ^ 24 + 1)]) T0 = true ∧
    okAll [.cflush f2, .cinv f2] (W [(3, 200), (4, 2 ^ 40)]) T0 = true ∧ okAll [.cflush f2, .cinv f2] (W [(3, 128)]) T0 = true ∧
    (W [(3, 128)]).gOff 0 T0 f2 = 0 ∧ (T0.seg 0).has 'R' = true ∧
    okAll [.cflush f2, .cinv f2] ((W [(3, 128)]).setThread 0 0 { T0 with ops := [op0] }) { T0 with ops := [op0] } = true ∧
    okAll [.cflush f2, .cinv f2] ((W [(3, 128)]).modCore 0 (fun x => { x with sb := [sb0] })) T0 = true ∧
    ((W [(3, 128)]).modCore 0 (fun x => { x with sb := [sb0] })).storesOf 0 0 ≠ [] ∧ (W [(3, 128)]).storesOf 0 0 = [] ∧
    flushed ((W [(3, 128)]).flushFrom 0 0 T0 0 false 1 0 0) = 1 ∧ flushed ((W [(3, 128)]).flushFrom 0 0 T0 0 true 1 0 0) = 1 ∧
    flushed ((W [(3, 128)]).flushFrom 0 0 T0 65536 false 1 0 0) = 0 ∧
    ((W [(3, 128)]).flushGate 0 0).1 = true := by decide

set_option maxRecDepth 16000 in
theorem wit_Setcoh : okAll [.setcoh f2] (W [(3, 1), (4, 2 ^ 40)]) T0 = true ∧
    okAll [.setcoh f2] ((W [(3, 128)]).setThread 0 0 { T0 with segs := [⟨0, 2 ^ 40, 1⟩] }) { T0 with segs := [⟨0, 2 ^ 40, 1⟩] } = true ∧
    okAll [.setcoh f2] (W []) T0 = true ∧ okAll [.setcoh f2] (W [(3, 128)]) T0 = true ∧
    pages ((W [(3, 128)]).pagesOf 0 0 T0 1 0 128) = 1 ∧ okAll [.setcoh f2] (Wpg 0 [(3, 65536)]) T0 = true ∧
    pages ((Wpg 0 [(3, 65536)]).pagesOf 0 0 T0 17 0 65536) = 0 ∧ (Wpg 0 [(3, 65536)]).walk 0 0 6 = .leaf 4 0x14000 fetchLeaf ∧
    Leaf.wb fetchLeaf = false ∧
    okAll [.setcoh f2] ((Wpg 0 [(3, 65536)]).setThread 0 0 (Tpt [1, 0, 65536, 0, 0, 1])) (Tpt [1, 0, 65536, 0, 0, 1]) = true ∧
    okAll [.setcoh f2] ((Wpg 0 [(3, 131072)]).setThread 0 0 (Tpt [1, 0, 131072, 0, 0, 1])) (Tpt [1, 0, 131072, 0, 0, 1]) = true ∧
    (Wpg 0 [(3, 65536)]).pageBusy 0 0 (pageSize 4) = false ∧
    (((Wpg 0 [(3, 65536)]).tenant 0).linesOf fetchLeaf (Leaf.frame fetchLeaf) (pageSize 4)).length = 512 ∧
    (Wpg 0 [(3, 65536)]).dir = [] ∧ (Wpg 0 [(3, 65536)]).lineBusy 0 = false ∧
    ((Wpg 0 [(3, 65536)]).modCore 0 (fun x => { x with sb := [sb0] })).pageBusy 0 0 (pageSize 4) = true := by decide

def wk (va : Nat) (busy : Bool) (r : Option Nat) : Walk := ⟨3, 0, 0, 0, 0, va, 0, busy, r, 0, false⟩
def Wwk (w : Walk) (v : Nat) : State := { tables4 0 (W []) with walks := [w], arg := ⟨[3], [⟨w64 v, false⟩]⟩ }
def mg (c : Bool) (n : Nat) : Mig := ⟨3, 0, 0, 0, 4, 0x14000, 0, 0x20000, n, c⟩

set_option maxRecDepth 16000 in
theorem wit_PageWork : (Wwk (wk 0 false none) 0).walk? 3 = some (wk 0 false none) ∧ ((W []).die (wk 0 false none).die).walks < 128 ∧
    128 ≤ (((W []).modDie 0 (fun d => { d with walks := 128 })).die 0).walks ∧
    (Wwk (wk 0 true none) 0).walk? 3 = some (wk 0 true none) ∧ (Wwk (wk 0 true none) 0).walk 0 0 0 = .leaf 4 0x14000 fetchLeaf ∧
    (wk 0 true none).who < 7 ∧ (wk 0 true none).acc ≠ 6 ∧
    ((Wwk (wk 0 true none) 0).tenant 0).physical fetchLeaf (Leaf.frame fetchLeaf + 0 % pageSize 4) = some 0 ∧
    (Wwk (wk 0x20000 true none) 0).walk? 3 = some (wk 0x20000 true none) ∧ (Wwk (wk 0x20000 true none) 0).walk 0 0x20000 0 = .fault 1 4 0 ∧
    (Wwk { wk 0x20000 true none with acc := 6 } 0).walk? 3 = some { wk 0x20000 true none with acc := 6 } ∧
    (Wwk { wk 0x20000 true none with acc := 6 } 0).walk 0 0x20000 6 = .fault 1 4 0 ∧
    [wk 0 false (some 5)].find? (fun w => w.tenant = 0 && w.record = some (Word.bits 5 31 0)) = some (wk 0 false (some 5)) ∧
    (w64 5).getLsbD 63 = false ∧ (w64 (2 ^ 63 + 5)).getLsbD 63 = true ∧ Word.bits (w64 (2 ^ 63 + 5)) 31 0 = 5 ∧
    (Wa [0, 4096, 3, 0] []).argN 3 = 0 ∧ (Wa [0, 4096, 3, 1] []).argN 3 ≠ 0 ∧
    SMap.get? ((W2 (fun x => { x with hostMap := [(1, 9)] }) []).tenant 0).hostMap (4096 / 4096) = some 9 ∧
    [mg false 0].find? (fun m => m.id = 3) = some (mg false 0) ∧ [mg true 0].find? (fun m => m.id = 3) = some (mg true 0) ∧
    (tables4 0 (W [])).pageBusy 0 0 (pageSize 4) = false ∧ (mg false 511).next * 128 < pageSize 4 ∧
    ((tables4 0 (W [])).tenant 0).second (0 + 128 * 511) = some 65408 ∧ ((tables4 0 (W [])).tenant 0).second (0x20000 + 128 * 511) = some 196480 ∧
    (tables4 0 (W [])).lineBusy 511 = false ∧ ({ W [] with dir := [(511, .recalling 0 0 true)] } : State).lineBusy 511 = true ∧
    pageSize 4 ≤ (mg false 512).next * 128 ∧
    (Wc (fun x => { x with sb := [{ sb0 with loc := false, handle := 0 }] })).pageBusy 0 0 (pageSize 4) = true := by decide

set_option maxRecDepth 16000 in
theorem wit_PageFaults : ((Wa [2 ^ 33 - 1, 3] []).argN 0 < 2 ^ 34) ∧ (2 ^ 34 ≤ (Wa [2 ^ 34, 3] []).argN 0) ∧
    (W []).ownerOf ((poolLine (2 ^ 34)).1 / 8) = some 0 ∧
    SMap.get? ((tables4 0 (W [])).tenant 0).window 2 = some 2 ∧
    ((tables4 0 (W [])).forgetPhysical 0 131072 196608).frameBusy 2 = false ∧
    ((Wc (fun x => { x with sb := [{ sb0 with addr := 0x20000 }] })).forgetPhysical 0 131072 196608).frameBusy 2 = true ∧
    ((tables4 0 (W [])).forgetPhysical 0 131072 196608).mem.wf = true := by decide

/-- Slot 5 vacant, with an image of a new thread at 0x1000. -/
def Wvc : State := (tables4 0 (W [(3, 0x1000 + 5 * 64)])).setHome (0x1020 / 8) ⟨w64 (2 ^ 63 + 2 ^ 40), false⟩

set_option maxRecDepth 16000 in
theorem wit_ContextNew : okAll [.ctxld f2] Wvc T0 = true ∧ ((Wvc.core 0).slot 5).occ = .vacant ∧ (Wvc.core 0).sb = [] ∧
    (Wvc.core 0).parked = [] ∧ Wvc.flights = [] ∧ isReady (Wvc.imageTry 0 0 T0 0x1000 [0]) = true ∧
    Wvc.imageOk 0 0x1000 5 true = true ∧ Wvc.imageN 0 0x1000 0 = 0 ∧ ownedTiles (Wvc.imageN 0 0x1000 0x20) = [] ∧
    bitsOf (Wvc.imageN 0 0x1000 0x20) 47 40 = 1 ∧ 1 ≤ (Wvc.core 0).freeGran.length ∧ (Wvc.core 0).scopeAhead 0 T0.since = false := by
  decide

/-- A job of tenant 0 over a unit at `va`, whose line 0 is in a transition where `b`. -/
def Whj (b : Bool) : State :=
  { tables4 0 (W []) with dir := if b then [(0, .recalling 0 0 true)] else [] }

set_option maxRecDepth 16000 in
theorem wit_HashWaits : (Whj true).hashWaits 0 (job true none 0) = true ∧ (W []).hashWaits 0 (job true none 0) = false ∧
    Word.bits (w64 (3 * 2 ^ 62)) 63 62 = 3 ∧ okAll [.pghash f2] (W [(3, 3 * 2 ^ 62)]) T0 = true := by decide

/-- A copy of eight bytes from p4's place to another of the window, as registers g4 to g7 ask for it. -/
def lcopy : List (Nat × Nat) := [(4, 18 * 2 ^ 48), (5, 18 * 2 ^ 48 + 65536), (6, 2 ^ 62 + 2 ^ 60 + 8)]
/-- The same thread in slot 63, which has the turn. -/
def W63 (l : List (Nat × Nat)) : State := { (W l).setOcc 0 63 (.live T0) with cur := some (0, 63) }
def ok63 (l : List Instr) (s : State) : Bool :=
  l.all (fun i => decide (s.current = some (0, 63, T0)) && decide (s.precheck i 0 63 T0 = .go))
def cm : TUCmd := { (W lcopy).copyCmd 1 f2 0 0 T0 TWord.zero with id := 7, checked := true }
def Wtu (l : List TUCmd) : State := { (W []).modCore 0 (fun x => { x with tu := l }) with arg := ⟨[0, 7, 0], []⟩ }
/-- Registers of a descriptor: offset 0, stride 128, extent 4, lead 2. -/
def desc : List (Nat × Nat) := [(4, 0), (5, 128), (6, 4), (7, 2)]
def pd (st : Int) (c : Nat) : PDesc := ⟨c, ⟨0, 2 ^ 40, 31⟩, 0, st, 4, false, 0, 2, 0, 1⟩
def Wpd (d : PDesc) : State :=
  { (W63 []).modCluster 0 (fun x => { x with pdesc := SMap.set x.pdesc 0 d }) with arg := ⟨[0, 0], []⟩ }

def elsewhere (e : Except (Nat × Word × Word) (Nat × Nat)) : Bool :=
  match e with
  | .ok (tc, _) => tc != 0
  | .error _ => false

/-- A local store of the thread to its sync word is on its way. -/
def Wif : State := (Wth Tp3 []).modCore 0 (fun x => { x with sb := [{ sb0 with loc := true }] })

set_option maxRecDepth 16000 in
theorem wit_CopyInstructions : ok63 [.cpy f2, .cpy2d f2, .cpyq f2] (W63 lcopy) = true ∧ ((W63 lcopy).core 0).tu.length < 32 ∧
    cm.skind = 1 ∧ cm.dkind = 1 ∧ ok63 [.cpy f2] ((W63 lcopy).modCore 0 (fun x => { x with tu := List.replicate 32 cm })) = true ∧
    okAll [.swinit f2] (Wth Tp3 []) Tp3 = true ∧ okL ((Wth Tp3 []).memL 0 (Tp3.ptr 3).v 16) (0, 0) = true ∧
    ((Wth Tp3 []).core 0).shut = false ∧ (Wth Tp3 []).initFollows 0 0 Tp3 0 0 = false ∧
    okAll [.swinit f2] Wif Tp3 = true ∧ Wif.initFollows 0 0 Tp3 0 0 = true ∧ okL (Wif.memLAt Tp3 (Tp3.ptr 3).v 16) (0, 0) = true ∧
    okAll [.swinit f2, .swwait f2] (W []) T0 = true ∧ badL ((W []).memL 0 (T0.ptr 3).v 16) (0x14, 0, 0) = true ∧
    okAll [.swwait f2] (Wp pw) (Tp pw) = true ∧ okL ((Wp pw).memL 0 ((Tp pw).ptr 4).v 16) (0, 0) = true ∧
    ((Wp pw).core 0).win.readN 8 4 = 0 ∧
    okAll [.swwait f2] ((Wp pw).setG 0 (Tp pw) 3 ⟨1, false⟩) (Tp pw) = true ∧
    okAll [.swwait f2] (Wp (pw + w64 (2 ^ 53))) (Tp (pw + w64 (2 ^ 53))) = true ∧
    elsewhere ((Wp (pw + w64 (2 ^ 53))).memL 0 ((Tp (pw + w64 (2 ^ 53))).ptr 4).v 16) = true ∧
    ok63 [.sdesc f2, .sdstop f2] (W63 desc) = true ∧ ok63 [.sdesc f2, .sdstop f2] (W63 []) = true ∧
    sdescFail (T0.seg 0) 0 128 4 (w64 2) (some 0) = none ∧ sdescFail (T0.seg 0) 0 0 0 0 (some 0) = some 1 ∧
    ok63 [.sdstop f2] ({ Wpd (pd 128 0) with cur := some (0, 63) } : State) = true ∧ SMap.get? ((Wpd (pd 128 0)).cluster 0).pdesc 0 = some (pd 128 0) ∧
    SMap.get? ((W []).cluster 0).pdesc 0 = none := by decide

def moves (s : State) (m : TUCmd) (j o len : Nat) : Bool :=
  match s.gatherParts 0 m j (cuts (cutOf m.skind m.src) (cutStart m.skind m.srcBase m.src m.sstride j) o (o + len)) ⟨[], none, false⟩ with
  | .got g s' => (match s'.putPiece 0 m j o g with
    | .done _ _ _ => true
    | .wait _ => false)
  | .wait _ => false

set_option maxRecDepth 16000 in
theorem wit_CopyWork : ((Wtu [cm]).core 0).tuCmd? 7 = some cm ∧ cm.checked = true ∧
    ((Wtu [{ cm with checked := false }]).core 0).tuCmd? 7 = some { cm with checked := false } ∧
    ((Wtu [{ cm with left := [0] }]).core 0).tuCmd? 7 = some { cm with left := [0] } ∧ cm.pieces = [0] ∧
    (cm.rowPieces 0)[0]? = some (0, 8) ∧ moves (Wtu [{ cm with left := [0] }]) { cm with left := [0] } 0 0 8 = true ∧
    ((Wtu [cm]).core 0).tuHeld cm = false ∧ cm.target = 0 ∧
    ((Wtu [{ cm with target := 5 }]).core 0).tuHeld { cm with target := 5 } = false ∧
    ((Wtu [{ cm with id := 6 }, { cm with ord := true }]).core 0).tuCmd? 7 = some { cm with ord := true } ∧
    ((Wtu [{ cm with id := 6 }, { cm with ord := true }]).core 0).tuHeld { cm with ord := true } = true ∧
    okL ((Wtu [{ cm with credit := true }]).memL (tidTenant cm.owner) (rowPtr cm.dst 0 0 0) 1) (0, 65536) = true ∧
    (syncStep 4 3 (2 ^ 32 - 1) 2) = (1, 0) ∧ SMap.get? ((Wpd (pd 128 0)).cluster 0).pdesc 0 = some (pd 128 0) ∧
    SMap.get? ((Wpd (pd (-128) 0)).cluster 0).pdesc 0 = some (pd (-128) 0) ∧ (pd 128 0).issued < 4 ∧ (pd 128 0).issued < 0 + 2 ∧
    (Wpd (pd 128 0)).lookup 0 128 6 = some ⟨128, fetchLeaf, 4⟩ ∧ loadRefusal ⟨128, fetchLeaf, 4⟩ 1 = 0 ∧
    (Wpd (pd 128 0)).poisoned 128 = false ∧ (Wpd (pd 128 0)).portFull 0 = false ∧ (Wpd (pd 128 0)).descLoad 0 < 1024 ∧
    ({ Wpd (pd 128 0) with mem := (Wpd (pd 128 0)).mem.setPoison 1 true } : State).poisoned 128 = true ∧
    (Wpd (pd 65536 0)).lookup 0 65536 6 = none ∧ (Wpd (pd 65536 0)).walks = [] := by
  decide

/-- A request of the thread to Chord; the region with two granules, to split; a granule being freed. -/
def vr (i : Instr) (d : Bool) (h : Nat) : ViewReq := ⟨7, 0, 0, i, 4, d, [], 0, 0, [⟨w64 h, false⟩, ⟨w64 h, false⟩]⟩
def Wvr (r : ViewReq) (l : List (Nat × Nat)) : State := { Wv l with vreqs := [r], arg := ⟨[7], []⟩ }
def viewed (o : ViewOut) : Nat :=
  match o with
  | .ok _ none _ => 1
  | .ok _ (some _) _ => 2
  | .trap _ _ _ => 3
def Rs : Region := ⟨true, 0, 0, 0, false, 2, [(0, ⟨1, true, 0, 2⟩)], 1, [(0, 5), (1, 6)]⟩
def fre (g fr op : Nat) (r : Bool) : Free := ⟨0, 0, 0, 0, g, fr, r, false, op, op, false⟩
def frs (l : List Free) : State := { (W []).modDie 0 (fun d => { d with frees := l }) with arg := ⟨[0, 5], []⟩ }
def Tgr (n : Nat) : Thread := { T1 with run := .wait (.granules n), want := some (.granules n) }

set_option maxRecDepth 16000 in
theorem wit_ViewWork : (Wvr (vr (.vwinfo f2) false h0) []).vreqs.find? (fun r => r.id = 7) = some (vr (.vwinfo f2) false h0) ∧
    (Wvr (vr (.vwinfo f2) false h0) []).thread? 0 0 = some T0 ∧ (Instr.vwinfo f2).fields = some f2 ∧
    viewed ((Wvr (vr (.vwinfo f2) false h0) []).viewOp 7 (.vwinfo f2) 0 0 (vr (.vwinfo f2) false h0).read) = 1 ∧
    viewed ((Wvr (vr (.vwdrop f2) false h0) []).viewOp 7 (.vwdrop f2) 0 0 (vr (.vwdrop f2) false h0).read) = 2 ∧
    viewed ((Wvr (vr (.vwdrop f2) false 0) []).viewOp 7 (.vwdrop f2) 0 0 (vr (.vwdrop f2) false 0).read) = 3 ∧
    (Wvr (vr (.vwdrop f2) true h0) []).invalidating 0 0 0 = false ∧ (frs []).mem.wf = true ∧
    ({ Wvr (vr (.vwdrop f2) true h0) [] with due := [evt .viewInvalidate [0, 0, 0]] } : State).invalidating 0 0 0 = true ∧
    Rs.nextSlots 2 = [1, 2] ∧ (1 : Nat) < 2 ∧ hView (w64 h0) = 0 ∧
    (W []).ownerOf 0 = some 0 ∧ ({ (W []).setTenant 0 { (W []).tenant 0 with regions := [(0, R0)] } with
      arg := ⟨[0], [⟨w64 h0, false⟩]⟩ } : State).viewEntry 0 (w64 h0) = none ∧
    ((frs [fre 0 5 3 false]).die 0).frees.find? (fun x => x.frame = 5 && !x.retired) = some (fre 0 5 3 false) ∧
    ((frs [fre 0 6 3 false, fre 1 5 3 false]).die 0).frees.any (fun x => x.op = 3 && x.granule < 1 && !x.retired) = true ∧
    ((frs [fre 0 5 3 true]).die 0).frees.find? (fun x => x.frame = 5 && x.retired && !x.done) = some (fre 0 5 3 true) ∧
    (frs []).granuleBusy 5 = false ∧ ((frs []).setThread 0 0 { T0 with ops := [{ opV with acc := [Access.at 20480 8 TWord.zero] }] }).granuleBusy 5 = true ∧
    ((W []).setThread 0 1 (Tgr 236)).thread? 0 1 = some (Tgr 236) ∧ (((W []).setThread 0 1 (Tgr 235)).core 0).freeGran.length = 235 ∧
    (((W []).setThread 0 1 (Tgr 235)).core 0).scopeAhead 1 (Tgr 235).since = false := by decide
theorem wit_ViewSplit : (((W []).setTenant 0 { (W []).tenant 0 with regions := [(0, Rs)] }).tenant 0).checkHandle 0 (w64 h0) = .ok ⟨1, true, 0, 2⟩ := by rfl

/-- A word and the head of a packet on their way from core 1, and a message. -/
def fq0 (id kind : Nat) : Flit := ⟨id, kind, 0, 0, ⟨TWord.zero, true, false, 0⟩, false, 1, 0, []⟩
def Wf (l : List Flit) (g : Core → Core) : State := { (W []).modCore 0 g with flits := l, arg := ⟨[7], []⟩ }

/-- An operation of the thread is outstanding. -/
def Wop : State := Wth { T0 with ops := [op0] } []

set_option maxRecDepth 16000 in
theorem wit_QueueWork : ((W []).core 0).dead = false ∧ (nthD (Wq.core 0).inq 0 InQ.reset).conf = true ∧
    ((Wc (fun x => { x with dead := true })).core 0).dead = true ∧
    (Wf [fq0 7 0] id).flits.find? (fun f => f.id = 7 && f.kind = 0) = some (fq0 7 0) ∧ (Wf [fq0 7 0] id).flitAhead (fq0 7 0) = false ∧
    (fq0 7 0).release = true ∧ ({ fq0 7 0 with srcP := 4 } : Flit).release = false ∧
    ((Wf [fq0 7 0] id).flitReady (fq0 7 0)).1 = true ∧ ((Wf [fq0 7 1] id).flitReady (fq0 7 1)).1 = true ∧
    (Wop.flitReady { fq0 7 0 with srcC := 0, after := [1] }).1 = false ∧ (W []).performed 1 [] = true ∧ Wop.performed 0 [1] = false ∧ (Wf [fq0 6 0, fq0 7 0] id).flitAhead (fq0 7 0) = true ∧
    (Wf [fq0 7 1] id).flits.find? (fun f => f.id = 7 && f.kind = 1) = some (fq0 7 1) ∧
    (nthD ((Wf [fq0 7 1] (fun x => { x with inp := [⟨some 0, [], some (1, 0), []⟩, InPort.reset] })).core 0).inp 0 InPort.reset).rx
      = some (1, 0) ∧
    ((W []).setThread 0 1 { T1 with run := .wait (.operands [124]) }).thread? 0 1 = some { T1 with run := .wait (.operands [124]) } ∧
    ((W []).setThread 0 1 { T1 with run := .wait (.operands [124]) }).writeReady 0 0 1 T1.since 124 = .yes ∧
    [net0].find? (fun m => m.id = 1) = some net0 ∧ ({ W [] with net := [net0] } : State).msgAhead net0 = false ∧
    (W []).performed 0 net0.after = true ∧ ({ W [] with net := [{ net0 with id := 0 }, net0] } : State).msgAhead net0 = true ∧
    ((Wc (fun x => { x with outbox := [net0] })).core 0).outbox.find? (fun n => (Wc (fun x => { x with outbox := [net0] })).performed 0 n.after
      && !((Wc (fun x => { x with outbox := [net0] })).core 0).outbox.any (fun m => m.id < n.id && m.msg.src = n.msg.src)) = some net0 := by
  decide

theorem wit_QueueGrant : ∃ z : OutQ, z.conf = true ∧ z.core = 5 / 4 ∧ z.tq = 5 % 4 ∧ z.asked = true := ⟨⟨true, 1, 1, 0, true, false⟩, by decide⟩

theorem pick_some (l : List Nat) (n : Nat) (h : 0 < l.length) : ∃ k, l[n % max 1 l.length]? = some k := by
  have : n % max 1 l.length < l.length := by rw [Nat.max_eq_right h]; exact Nat.mod_lt _ h
  exact ⟨_, List.getElem?_eq_getElem this⟩

/-- A continuation, of a deterministic task of lane 1 and of one that is not, and a spawn request that has arrived. -/
def ct (det : Bool) : Cont := ⟨8, [], mkTask 0 0 det 15 1 0 0, 0, 0, 0, false, 0⟩
def sq : SpawnReq := ⟨7, 0, 0, 1, ct false, false, true, [], 0⟩
def Wad (g : Core → Core) : State := { (W []).modCore 0 g with arg := ⟨[0, 7], []⟩ }

set_option maxRecDepth 16000 in
theorem wit_AdmissionWork : ((Wad (fun x => { x with launch := some (0, 0), fifo := [(ct true, 0)] })).refill 0).pickFifo 0 = some 0 ∧
    ((Wad (fun x => { x with launch := some (0, 0), fifo := [(ct true, 0)] })).refill 0).slotFor 0 (ct true) = some 1 ∧
    (((Wad (fun x => { x with launch := some (0, 0), fifo := [(ct true, 0)] })).refill 0).core 0).scopeWaiter = none ∧
    (((Wad (fun x => { x with launch := some (0, 0), fifo := [(ct true, 0)] })).refill 0).core 0).spawns.find? (fun q => q.arrived) = none ∧
    ((Wad (fun x => { x with launch := some (0, 0), fifo := [(ct true, 0)] })).refill 0).ownerOf 0 = some 0 ∧
    ((Wad (fun x => { x with launch := some (0, 0), fifo := [(ct true, 0)] })).refill 0).serves 0 = true ∧
    ((Wad (fun x => { x with spawns := [sq] })).refill 0).serves 0 = true ∧
    (((Wad (fun x => { x with spawns := [sq] })).refill 0).core 0).scopeWaiter = none ∧
    ((Wad (fun x => { x with spawns := [sq] })).drainWC 0).wcEmpty 0 = true ∧
    (Wad (fun x => { x with spawns := [sq], fenced := true })).couldAdmit 0 sq = false ∧ sq.since + 64 ≤ 64 ∧
    ((Wc (fun x => { x with spawns := [sq] })).core 0).spawns.find? (fun q => q.id = 7) = some sq ∧
    (Wx2 (some 0)).now < 0 + 2 ^ (12 + ((Wx2 (some 0)).axisCtx 0).tmo) ∧
    (((Wad (fun x => { x with spawns := [sq] })).refill 0).core 0).spawns.find? (fun q => q.arrived) = some sq ∧
    (((Wad (fun x => { x with spawns := [sq] })).refill 0).core 0).launch = none ∧
    taskGran sq.cont.task + 1 ≤ (((Wad (fun x => { x with spawns := [sq] })).refill 0).core 0).freeGran.length ∧
    (ct true).origin ≠ 2 ∧ (ct true).origin ≠ 3 ∧ (W []).performed 0 sq.after = true ∧
    Wop.performed 0 [1] = false ∧
    ((W []).setThread 0 1 { T1 with run := .wait (.spawn 7) }).thread? 0 1 = some { T1 with run := .wait (.spawn 7) } ∧
    ((Wx 0 0 []).axisCtx 0).held = true ∧ (Wx 0 0 []).axisRect ((Wx 0 0 []).axisCtx 0) = [0] ∧ (Wx 0 0 []).axisCount 0 0 < ((Wx 0 0 []).axisCtx 0).p ∧
    (((Wx 0 0 []).modCluster 0 (fun x => { x with axis := [1, 0, 0, 0] })).axisCtx 0).p
      ≤ ((Wx 0 0 []).modCluster 0 (fun x => { x with axis := [1, 0, 0, 0] })).axisCount 0 0 := by decide
theorem wit_SpawnPlaced : ∃ k, ((Wad (fun x => { x with spawns := [sq] })).refill 0).slotFor 0 sq.cont = some k := by
  obtain ⟨k, hk⟩ := pick_some (((Wad (fun x => { x with spawns := [sq] })).refill 0).core 0).vacant
    (Config.free ((Wad (fun x => { x with spawns := [sq] })).refill 0).tick).toNat (by decide)
  exact ⟨k, hk⟩

/-- The device ready, and launch queue 0 of tenant 0. -/
def Wring (r : Ring) : State :=
  { (W2 (fun x => { x with lq := [r, Ring.reset, Ring.reset, Ring.reset] }) []) with
    boot := { Boot.reset with rdy := true, hdm := [(0, 0)] }, arg := ⟨[0, 0, 0], []⟩ }

theorem wit_HostRings : (W []).doorOpen 0 = false ∧ (Wring Ring.reset).doorOpen 0 = true ∧ ctlSrc ((Wring Ring.reset).tenant 0).nq.ctl = false ∧
    ctlSrc (((Wring Ring.reset).tenant 0).ring 0).ctl = false ∧ ctlEn (((Wring Ring.reset).tenant 0).ring 0).ctl = false ∧
    ctlSrc (((Wring ⟨0, w64 (2 ^ 62), 0, 0, 0, 0⟩).tenant 0).ring 0).ctl = true ∧
    ctlEn (((Wring ⟨0, w64 (2 ^ 63 + 4), 0, 0, 0, 0⟩).tenant 0).ring 0).ctl = true ∧
    ctlSrc (((Wring ⟨0, w64 (2 ^ 63 + 4), 0, 0, 0, 0⟩).tenant 0).ring 0).ctl = false ∧ (16 + 2 ^ 32 - 0) % 2 ^ 32 ≤ ctlSize (w64 (2 ^ 63 + 4)) ∧
    (16 + 2 ^ 32 - 0) % 2 ^ 32 ≤ 2 ^ 31 ∧ ((Wring Ring.reset).tenant 0).nq.waiting = [] ∧ (8 : Nat) % 8 = 0 ∧ (9 : Nat) % 8 = 1 ∧
    (Wring Ring.reset).hdmPa 0x50000 = some 0x50000 ∧ populated 0x50000 = true ∧ (Wring Ring.reset).windowOwner 0x50000 = none ∧
    (W []).flights = [] := by decide

/-- Inbound queue 0 with a request waiting; outbound port 0 with a packet open since cycle 0, at cycle `n`. -/
def Wqr (held : Nat) : State := Wc (fun x => { x with inq := [⟨true, 4, 11, 0, List.replicate held ⟨TWord.zero, false⟩, 0, [(1, 0)]⟩] })
def Wop0 (n : Nat) : State := { Wc (fun x => { x with outp := [⟨some 0, true, 0, 0, true, 0, false⟩] }) with now := n, arg := ⟨[0, 0], []⟩ }

theorem wit_QueueCases : (nthD ((Wqr 0).core 0).inq 0 InQ.reset).free = 16 ∧ (nthD ((Wqr 16).core 0).inq 0 InQ.reset).free = 0 ∧
    (Wop0 65535).now < 0 + 2 ^ 16 ∧ 0 + 2 ^ 16 ≤ (Wop0 65536).now ∧ (nthD ((Wop0 0).core 0).outp 0 OutPort.reset).opened = true ∧
    ((Wc (fun x => { x with outbox := [net0] })).drainWC 0).wcEmpty 0 = true := by decide

/-- The host accesses line 2560, which lies in no window, or in one of tenant 0. -/
def Wha (r : List Nat) (d : SMap Dir) : State := { Wring Ring.reset with resident := r.map (fun l => (l, 0)), dir := d, arg := ⟨[0x50000, 1], []⟩ }
def hasLine (o : Option State) : Bool :=
  match o with
  | some _ => false
  | none => true

theorem wit_HostCases : (Wha [2560] []).lineBusy 2560 = false ∧ (Wha [] [(2560, .recalling 0 0 true)]).lineBusy 2560 = true ∧
    (Wha [2560] []).pinned 2560 = false ∧ ((Wha [2560] []).applyAdds (0x50000 / 128 * 128) 128).poisoned 0x50000 = false ∧
    hasLine (((Wha [2560] []).applyAdds (0x50000 / 128 * 128) 128).needLine 2560) = true ∧
    ({ (Wring Ring.reset).modTenant 0 (fun x => { x with window := [(0, 5)], tdi := 3 }) with arg := ⟨[0x50000, 1], []⟩ } : State).windowOwner
      0x50000 = some 0 := by decide

/-- A load of the thread, pending at address 0, performed, and refused. -/
def opL (k : OpKind) : Op := { Op.new (.ldg f2) T0 k .glob 6 with id := 7, acc := [Access.at 0 8 TWord.zero], pend := [3] }
def opEnd : Op := { opL .load with acc := [{ Access.at 0 8 TWord.zero with done := true }] }
def opRef : Op := { opL .load with acc := [{ Access.at 0 8 TWord.zero with refuse := 0x10 }] }
def To (o : Op) : Thread := { T0 with ops := [o] }
def Wo (o : Op) (rw : SMap RegWord) : State := { Wth (To o) [] with arg := ⟨[0, 0, 7], []⟩, resident := [0], regw := rw }
def reached (a : AtHome) (p : State → Bool) : Bool :=
  match a with
  | .now s => p s
  | .later _ => false
def isDone (w : Written) : Bool :=
  match w with
  | .done _ => true
  | _ => false
def trL : Tr := ⟨0, fetchLeaf, 4⟩
/-- Word 0 registered to core 5, with a recall pending where `n` is given. -/
def rw5 (n : Option Nat) : SMap RegWord := [(0, ⟨5, TWord.zero, n⟩)]
/-- A load through a handle, of the granule frame 5. -/
def opLv : Op := { opL .load with space := .view, seg := 2, acc := [Access.at 20480 8 TWord.zero] }

set_option maxRecDepth 16000 in
theorem wit_OperationWork : [OpKind.load, .loadAcq, .amo, .bpack, .saread, .pref].all (fun k =>
      decide ((Wo (opL k) []).opOf 0 0 7 = some (To (opL k), opL k)) && decide ((opL k).refusal = none)) = true ∧
    (Wo (opL .load) []).argN 1 ≠ 64 ∧ ({ W [] with arg := ⟨[0, 64, 0, 0], [TWord.zero]⟩ } : State).argN 1 = 64 ∧
    (opL .load).pendingAcc = some (0, Access.at 0 8 TWord.zero) ∧
    (Wo (opL .load) []).mustFollow 0 (To (opL .load)) (opL .load) (Access.at 0 8 TWord.zero) = false ∧
    (Wo (opL .load) []).placeOf 0 (opL .load) (Access.at 0 8 TWord.zero) 0 = some trL ∧
    opLv.pendingAcc = some (0, Access.at 20480 8 TWord.zero) ∧
    (Wo opLv []).placeOf 0 opLv (Access.at 20480 8 TWord.zero) 0 = some ⟨20480, viewLeaf 2, 5⟩ ∧ (Wo opLv []).retired 20480 = false ∧
    (Wo opLv []).mustFollow 0 (To opLv) opLv (Access.at 20480 8 TWord.zero) = false ∧
    ((Wo opLv []).modDie 0 (fun d => { d with frees := [⟨0, 0, 0, 0, 0, 5, true, false, 3, 3, false⟩] })).retired 20480 = true ∧
    (Wo (opL .load) []).poisoned 0 = false ∧ ({ Wo (opL .load) [] with mem := (W []).mem.setPoison 0 true } : State).poisoned 0 = true ∧
    (Wo (opL .load) []).servedHere 0 0 (opL .load) trL 8 = false ∧ (Wo (opL .load) []).addsDue 0 8 = false ∧
    ((Wo (opL .load) []).modCore 0 (fun x => { x with sb := [{ sb0 with id := 0 }] })).servedHere 0 0 (opL .load) trL 8 = true ∧
    (opL .load).sent = false ∧ (Wo (opL .load) []).portFull 0 = false ∧
    reached (((Wo (opL .load) (rw5 none)).modThread 0 0 (fun t => t.setOp { opL .load with sent := true })).reach 0 trL 8)
      (fun u => u.elsewhere 0 0 && !u.recalling 0 && !u.addsDue 0 8) = true ∧
    reached (((Wo (opL .load) []).modThread 0 0 (fun t => t.setOp { opL .load with sent := true })).reach 0 trL 8)
      (fun u => !u.elsewhere 0 0 && !u.recalling 0 && !u.addsDue 0 8) = true ∧
    (Wo (opL .load) (rw5 (some 3))).recalling 0 = true ∧ (Wo (opL .load) (rw5 none)).recalling 0 = false ∧
    (Wo opEnd []).opOf 0 0 7 = some (To opEnd, opEnd) ∧ opEnd.ended = true ∧ opEnd.refusal = none ∧
    isDone ((Wo opEnd []).writeResults 0 0 (To opEnd) opEnd) = true ∧ (Wo opRef []).opOf 0 0 7 = some (To opRef, opRef) ∧
    opRef.refusal = some { Access.at 0 8 TWord.zero with refuse := 0x10 } ∧ opRef.kind ≠ .store ∧
    (Wo opRef []).thread? 0 0 = some (To opRef) ∧ ((W []).inSet 0 0).length < 16 := by decide
theorem port_due (s : State) (n : Nat) (e : Event)
    (h : (e.ev = .l2Request && nthD e.arg.nums 1 0 = 64 && nthD e.arg.nums 0 0 / 8 = 0) = true) :
    n ≤ ({ s with due := List.replicate n e } : State).portLoad 0 := by
  have hl : ((List.replicate n e).filter (fun e =>
      e.ev = .l2Request && nthD e.arg.nums 1 0 = 64 && nthD e.arg.nums 0 0 / 8 = 0)).length = n := by
    rw [List.filter_replicate, if_pos h, List.length_replicate]
  exact Nat.le_trans (Nat.le_of_eq hl.symm) (Nat.le_add_right _ _)
theorem wit_PortFull : ∃ s : State, s.portFull 0 = true ∧ s.opOf 0 0 7 = some (To (opL .load), opL .load) := by
  have h : ∀ l : List Event, ({ Wo (opL .load) [] with due := l } : State).opOf 0 0 7 = some (To (opL .load), opL .load) := fun _ => rfl
  exact ⟨{ Wo (opL .load) [] with due := List.replicate 1536 (evt .l2Request [0, 64]) },
    decide_eq_true (port_due (Wo (opL .load) []) 1536 (evt .l2Request [0, 64]) (by decide)), h _⟩
theorem wit_OrdinaryPage : ∀ n, loadRefusal trL n = 0 := fun _ => rfl
def someRoom (o : Option State) : Bool :=
  match o with
  | some _ => true
  | none => false
theorem wit_HbmFill : someRoom ((W []).makeRoom ((W []).homeOf 0) 0) = true := by decide

/-- The store buffer of core 0 and a store in flight, of a thread that is gone. -/
def sbk (loc : Bool) (addr : Nat) : SBEntry := { sb0 with inc := 9, loc := loc, addr := addr }
def Wsb (l : List SBEntry) (hold : Bool) : State := { Wc (fun x => { x with sb := l, lthold := hold }) with arg := ⟨[0], []⟩ }
def flt (e : SBEntry) (id st : Nat) : Flight := ⟨id, 0, e, st, []⟩
def Wfl (l : List Flight) : State := { W [] with flights := l, arg := ⟨[7], []⟩ }

set_option maxRecDepth 16000 in
theorem wit_StoreWork : ((Wsb [sb0] true).core 0).sb = [sb0] ∧ ((Wsb [sb0] true).core 0).lthold = true ∧ (Wsb [sb0] true).holdLifted 0 = false ∧
    ((Wsb [sb0] true).core 0).dead = false ∧ ((Wsb [sb0] true).core 0).parked = [] ∧ ((Wsb [sb0] false).core 0).lthold = false ∧
    (Wsb [sb0] false).portFull 0 = false ∧
    ((Wsb [sb0] true).setThread 0 0 { T0 with run := .wait .drained }).holdLifted 0 = true ∧
    (Wsb [sb0] false).migrating ((Wsb [sb0] false).tenantOn 0) sb0 = false ∧
    (tables4 (2 ^ 53) (Wsb [sb0] false)).migrating ((Wsb [sb0] false).tenantOn 0) sb0 = true ∧
    (Wfl [flt (sbk false 0) 7 0]).flights.find? (fun f => f.id = 7) = some (flt (sbk false 0) 7 0) ∧
    (Wfl [flt (sbk false 0) 6 0, flt (sbk false 0) 7 0]).storeMustFollow (flt (sbk false 0) 7 0) = true ∧
    (Wfl [flt (sbk false 0) 7 0]).storeMustFollow (flt (sbk false 0) 7 0) = false ∧
    ({ sbk false 0 with kind := .release } : SBEntry).kind = .release ∧
    (Wfl [flt { sbk false 0 with kind := .release } 7 0]).storeMustFollow (flt { sbk false 0 with kind := .release } 7 0) = false ∧
    (Wfl [flt { sbk false 0 with kind := .release } 7 0, flt (sbk false 64) 6 0]).olderOf 0 { sbk false 0 with kind := .release, id := 9 } ≠ [] ∧
    (Wfl []).sameThread 0 0 9 = none ∧ (Wfl [flt (sbk true 0) 7 0]).storeMustFollow (flt (sbk true 0) 7 0) = false ∧
    ((Wfl []).core 0).pubWin < 0x60000 + 8 ∧ 0 + 8 ≤ ((Wfl []).core 0).pubWin ∧ ((Wfl []).core 0).dead = false ∧
    (Wfl []).barred 0 7 = false ∧ (Wc (fun x => { x with late := [7] })).barred 0 7 = true ∧
    (Wfl [flt (sbk false 0) 7 1]).flights.find? (fun f => f.id = 7) = some (flt (sbk false 0) 7 1) ∧ (flt sb0 7 2).stage = 2 := by decide

theorem wit_StoreCases : (sbk false 0).host = false ∧ (sbk false 0).sw = false ∧ (sbk false 0).sh ≤ 2 ∧
    noGate ((Wfl []).homeGate 0 8 true) = false ∧ noGate (({ Wfl [] with resident := [(0, 0)] } : State).homeGate 0 8 true) = true ∧
    (Wo (opL .load) (rw5 (some 3))).recalling 0 = true ∧ (Wo (opL .load) (rw5 none)).elsewhere 0 0 = true ∧ (Wo (opL .load) []).elsewhere 0 0 = false ∧
    ((W []).core 0).wc.find? (fun e => e.half = hostBase / 64 + 0) = none ∧
    (Wwc.core 0).wc.find? (fun e => e.half = hostBase / 64 + 0) = some ⟨hostBase / 64, [(0, 1)], [], 0, fetchLeaf, [0]⟩ ∧ Wwc.now < 0 + 1024 := by
  decide

/-- Slot 1 with a thread; a waiting one, one with a trap to be delivered, one asked to stop, one at a breakpoint. -/
def Ws1 (t : Thread) : State := { (W []).setThread 0 1 t with arg := ⟨[0, 1], [⟨2, false⟩]⟩ }
def trp : Trap := ⟨0x0A, 0, 0, false⟩
def Tpe (l : List Op) : Thread := { T1 with pend := some trp, run := .wait .opsDone, ops := l }
def Tdf (r : Run) : Thread := { T1 with defers := [⟨trp, 1⟩], run := r, stopReq := 1 }
def fpe : FPEntry := ⟨1, 2, 5, 0, 4, 8⟩

set_option maxRecDepth 16000 in
theorem wit_ThreadWork : (Ws1 { T1 with run := .wait .opsDone }).thread? 0 1 = some { T1 with run := .wait .opsDone } ∧ T1.ops = [] ∧
    (Ws1 { T1 with run := .wait .opsDone, ops := [op0] }).thread? 0 1 = some { T1 with run := .wait .opsDone, ops := [op0] } ∧
    (Ws1 T1).thread? 0 1 = some T1 ∧ T1.run = .ready ∧ (Ws1 (Tpe [op0])).thread? 0 1 = some (Tpe [op0]) ∧
    (Ws1 (Tpe [])).thread? 0 1 = some (Tpe []) ∧ (Tpe []).dueTrap = some (trp, { Tpe [] with pend := none }) ∧
    ({ T1 with defers := [⟨trp, 1⟩] } : Thread).trap.tip = false ∧ T1.defers = [] ∧ T1.saovf = none ∧ T1.fpx = none ∧
    (Ws1 { T1 with stopReq := 2 }).thread? 0 1 = some { T1 with stopReq := 2 } ∧
    ((Ws1 { T1 with stopReq := 2 }).core 0).mayStop 1 { T1 with stopReq := 2 } = true ∧
    ((Ws1 (Tdf .ready)).core 0).mayStop 1 (Tdf .ready) = false ∧ (Ws1 (Tdf .ready)).thread? 0 1 = some (Tdf .ready) ∧
    (Ws1 (Tdf (.wait .mail))).thread? 0 1 = some (Tdf (.wait .mail)) ∧ ((Ws1 (Tdf (.wait .mail))).core 0).mayStop 1 (Tdf (.wait .mail)) = false ∧
    (Tdf (.wait .mail)).atBoundary = true ∧ (Tdf (.wait .mail)).dueTrap = some (trp, { Tdf (.wait .mail) with defers := [] }) ∧
    ((Ws1 T1).core 0).converting 0 = false ∧
    (((W []).setThread 0 1 { T1 with ops := [{ opL .saread with born := 5 }] }).core 0).converting 0 = true ∧
    ((Ws1 { T1 with watch := some 2 }).core 0).mayStop 1 { T1 with watch := some 2 } = true ∧ T1.answer = none ∧ T1.stopReq = 0 ∧
    (Ws1 { T1 with run := .stopped true }).thread? 0 1 = some { T1 with run := .stopped true } ∧ T1.deleg = none ∧
    firstEntry [fpe] = some fpe ∧ (0 : Nat) / 64 ≤ fpe.cycle / 64 ∧ fpe.cycle / 64 < 64 / 64 ∧ (Ws1 T1).sameThread 0 1 2 = some T1 := by
  decide

/-- Line 0 in a directory state, of another cluster 5 than its home. -/
def Wdir (d : Option Dir) (l : List Nat) : State :=
  { W [] with dir := (match d with
      | some x => [(l.getD 1 0, x)]
      | none => []), arg := ⟨l, []⟩ }
def cpy (o : Bool) : Copy := ⟨List.replicate 16 TWord.zero, [], o, false⟩

theorem busyLru (l : SMap Half) (h : ∀ p ∈ l, p.2.busy = true) (s : State) (b : Option Nat) :
    l.foldl (fun b p =>
      if p.2.busy || p.2.st = 0 || s.lineBusy (lineOfHalf p.1) then b
      else
        match b with
        | none => some p.1
        | some h => if p.2.used < (s.half h).used then some p.1 else some h) b = b := by
  induction l generalizing b with
  | nil => rfl
  | cons x r ih =>
    rw [List.foldl_cons, h x List.mem_cons_self]
    exact ih (fun p hp => h p (List.mem_cons_of_mem _ hp)) _

theorem getReplicate (k n : Nat) (v : Half) (h : k ≠ 0) : SMap.get? (List.replicate n (k, v)) 0 = none := by
  induction n with
  | zero => rfl
  | succ n ih => rw [List.replicate_succ, SMap.get?, if_neg h]; exact ih

theorem allocNone (s : State) (h1 : SMap.get? s.halves 0 = none) (h2 : 131072 ≤ s.halves.length) (h3 : s.lruHalf = none) :
    s.allocHalf 0 = none := by
  simp [State.allocHalf, h1, Nat.not_lt.2 h2, h3]

theorem allBusy (s : State) (n : Nat) (h : 131072 ≤ n) :
    ({ s with halves := List.replicate n (1, ⟨1, 0, true, 0, 0, []⟩) } : State).allocHalf 0 = none :=
  allocNone _ (getReplicate 1 n _ (by decide)) (Nat.le_trans h (Nat.le_of_eq List.length_replicate.symm))
    (busyLru _ (fun p hp => by rw [(List.mem_replicate.1 hp).2]) _ _)

theorem wit_HostHalf : ∃ s : State, s.allocHalf 0 = none := ⟨_, allBusy (W []) 131072 (Nat.le_refl _)⟩

theorem wit_CoherenceWork : (Wdir none [5, 0]).notices.contains (5, 0) = false ∧ (W []).homeOf 0 ≠ 5 ∧ (Wdir none [5, 0]).dirOf 0 = none ∧
    (Wdir (some (.ptr [1, 2, 3])) [5, 0]).dirOf 0 = some (.ptr [1, 2, 3]) ∧ [1, 2, 3].contains 5 = false ∧
    (Wdir (some (.owned 7)) [5, 0]).dirOf 0 = some (.owned 7) ∧ [1, 2, 3].filter (fun x => x ≠ 5) ≠ [] ∧
    (Wdir (some (.waiting 1 5 [3])) [3, 0]).dirOf 0 = some (.waiting 1 5 [3]) ∧ 3 ∈ [3] ∧
    (Wdir (some (.waiting 2 5 [3, 4])) [3, 0]).dirOf 0 = some (.waiting 2 5 [3, 4]) ∧
    ({ Wdir (some (.owned 7)) [7, 0] with copies := [(copyKey 0 7, cpy false)] } : State).copy? 0 7 = some (cpy false) ∧
    (Wdir (some (.recalling 7 5 true)) [7, 0]).dirOf 0 = some (.recalling 7 5 true) ∧ ((W []).cluster 0).gated = false ∧
    (((W []).modCluster 7 (fun x => { x with gated := true })).cluster 7).gated = true ∧ (W []).halves.length < 131072 ∧
    SMap.get? (({ W [] with halves := [(5, ⟨1, 0, false, 0, 0, []⟩)] } : State).halves) 5 = some ⟨1, 0, false, 0, 0, []⟩ ∧
    SMap.get? (Wo (opL .load) (rw5 (some 3))).regw 0 = some ⟨5, TWord.zero, some 3⟩ ∧ (W []).mem.wf = true := by
  decide

/-- A launch queue with one entry at 0x1000, whose header at 0x2000 is of one thread of 128 registers and the plan 8, 3, 1. -/
def hdr0 : List Word := [1, 8, w64 (1 + 128 * 2 ^ 21 + 8 * 2 ^ 29 + 3 * 2 ^ 33 + 2 ^ 37), 0, 0, 0, 0, 0, 0, 0, 0, 0, 0, 0, 0, 0]
def Wlq : State :=
  let s := tables4 0 (W2 (fun x => { x with lq := [⟨0x1000, w64 (2 ^ 63 + 4), 1, 0, 0, 1⟩, Ring.reset, Ring.reset, Ring.reset] }) [])
  { (hdr0.zipIdx.foldl (fun (s : State) p => s.setHome (0x2000 / 8 + p.2) ⟨p.1, false⟩) s).setHome (0x1000 / 8) ⟨0x2000, false⟩ with
    arg := ⟨[0, 0], []⟩, resident := [(32, 0), (64, 0)] }
def readsTo (h : HeaderTry) (p : List Word → State → Bool) : Bool :=
  match h with
  | .ok ws s => p ws s
  | _ => false
def la0 (h : List Word) (cr : Bool) : Launch := ⟨h, 0, 0, 0, cr, 0, 0, [0], false⟩
def Wla (h : List Word) (cr : Bool) : State := { W2 (fun x => { x with launches := [(5, la0 h cr)] }) [] with arg := ⟨[0, 5, 0], []⟩ }

set_option maxRecDepth 16000 in
theorem wit_LaunchWork : hdrRegs [] = 0 ∧ 128 < hdrRegs [0, 0, w64 (129 * 2 ^ 21)] ∧ hdrRegs [0, 0, w64 (128 * 2 ^ 21)] = 128 ∧
    hdrFault hdr0 1 = none ∧ (Wlq.tenant 0).tdi ≠ 3 ∧ (Wlq.tenant 0).queueReady 0 = true ∧ (Wlq.tenant 0).launches.length < 4096 ∧
    (List.range 4).all (fun p => decide (p = 0) || !(Wlq.tenant 0).queueReady p) = true ∧
    readsTo (Wlq.dispatcherRead 0 0x1000 1) (fun ws s1 => decide (ws = [0x2000]) &&
      readsTo (s1.dispatcherRead 0 (0x2000 / 128 * 128) 16) (fun h s2 => decide (h = hdr0) &&
        decide (hdrFault hdr0 (s2.coresOf 0).length = none))) = true ∧
    hdrFault hdr0 (Wlq.coresOf 0).length = none ∧
    SMap.get? ((Wla hdr0 false).tenant 0).launches 5 = some (la0 hdr0 false) ∧ ((Wla hdr0 false).core 0).banks = planBanks hdr0 ∧
    ((Wla [] false).core 0).banks ≠ planBanks [] ∧ (Wla [] false).planFree 0 5 0 (planBanks []) = false ∧
    ((Wla [] false).setOcc 0 0 .vacant).planFree 0 5 0 (planBanks []) = true ∧ ((Wla [] false).setOcc 0 0 .vacant).windowBusy 0 = false ∧
    (Wla hdr0 false).coresOf 0 ≠ [] ∧ ((Wla hdr0 false).coresOf 0).all (fun c => decide (((Wla hdr0 false).core c).banks = planBanks hdr0)) = true ∧
    hdrDet hdr0 = false ∧ ((Wla hdr0 false).newGroup 0 1).isSome = true ∧ hdrN hdr0 = 1 ∧ (Wla hdr0 true).carried 0 5 = false ∧
    (Wla hdr0 true).addl = [] ∧ (Wla hdr0 true).cores.all (fun p => decide (p.2.launch ≠ some (0, 5))) = true ∧
    (la0 hdr0 true).lost = false ∧ (Wla hdr0 true).fifoRoom 0 0 = true ∧ ((la0 hdr0 true).cores.length) = 1 ∧
    ({ la0 hdr0 false with group := 3 } : Launch).group ≠ 0 := by decide

/-- An object on line 100 with word 0 and word 3; a request to it, and the thread that waits. -/
def rq (kind ans ref : Nat) : SyncReq := { SyncReq.new kind 100 tid0 0 0 with id := 7, ans := ans, ref := ref }
def Wob (w0 w3 : Nat) (o : SyncObj) (q : SyncReq) (r : Run) : State :=
  let s := ((Wth { T0 with run := r } []).setHome 1600 ⟨w64 w0, false⟩).setHome 1603 ⟨w64 w3, false⟩
  { s with reqs := [q], arg := ⟨[7], []⟩, objs := [(100, o)] }
def lock : Nat := 2 ^ 60 + 2 * 2 ^ 56
def ph : Nat := 2 ^ 61 + 2 ^ 56
def oo (tid : Word) : SyncObj := { SyncObj.new with owner := tid }
/-- The group-3 thread's arrival. -/
def Wph (t : Thread) : State :=
  let s := ((Wth { t with run := .wait (.home 7) } []).setHome 1600 ⟨w64 ph, false⟩).setHome 1603 ⟨3, false⟩
  { s with reqs := [rq 8 0 0], arg := ⟨[7], []⟩, objs := [(100, SyncObj.new)] }

set_option maxRecDepth 16000 in
theorem wit_LocusWork : (Wob lock 0 SyncObj.new (rq 0 0 0) .ready).req? 7 = some (rq 0 0 0) ∧ (Wob lock 0 SyncObj.new (rq 0 0 0) .ready).performed 0 [] = true ∧
    (Wob ph 0 SyncObj.new (rq 0 0 0) .ready).oKind 100 ≠ 1 ∧ (Wob lock 0 SyncObj.new (rq 0 0 0) .ready).oKind 100 = 1 ∧
    (Wob lock 0 SyncObj.new (rq 0 0 0) .ready).oMode 100 = 2 ∧ (Wob lock 0 SyncObj.new (rq 0 0 0) .ready).oH 100 = false ∧
    (Wob (lock + 2 ^ 52) 0 (oo tid0) (rq 0 0 0) .ready).oH 100 = true ∧ (Wob (lock + 2 ^ 52) 0 (oo tid0) (rq 0 0 0) .ready).oKind 100 = 1 ∧
    ((Wob (lock + 2 ^ 52) 0 (oo tid0) (rq 0 0 0) .ready).obj 100).owner = tid0 ∧
    ((Wob (lock + 2 ^ 52) 0 (oo 5) (rq 1 0 0) .ready).obj 100).owner ≠ tid0 ∧ (Wob (lock + 2 ^ 52) 0 (oo 5) (rq 1 0 0) .ready).oMode 100 = 2 := by decide

def spins (l : List Spin) (qs : List QEnt) : SyncObj := { SyncObj.new with spin := l, queue := qs }

set_option maxRecDepth 16000 in
theorem wit_LocusAnswers :
    ((Wob lock 0 (spins [⟨tid0, 7, 0, 0⟩] []) (rq 0 0 0) .ready).obj 100).spin.any (fun x => x.req = 7) = true ∧
    ((Wob lock 0 (spins [] [⟨tid0, 0, 7, false⟩]) (rq 0 0 0) .ready).obj 100).queue.any (fun e => e.req = 7) = true ∧
    (Wob lock 0 (spins [] [⟨tid0, 0, 7, false⟩]) (rq 0 0 0) .ready).headOf 100 = some ⟨tid0, 0, 7, false⟩ ∧
    (Wob lock 0 SyncObj.new (rq 4 0 0) .ready).headOf 100 = none ∧ (Wob lock 0 SyncObj.new (rq 4 0 0) .ready).oSP 100 = false ∧
    ((Wob (lock + 2 ^ 52) 0 (oo tid0) (rq 4 0 0) .ready).drainWC 0).oH 100 = true ∧
    (((Wob (lock + 2 ^ 52) 0 (oo tid0) (rq 4 0 0) .ready).drainWC 0).obj 100).owner = tid0 ∧
    ((Wob lock 0 SyncObj.new (rq 4 0 0) .ready).drainWC 0).oH 100 = false ∧
    (Wob lock 0 SyncObj.new (rq 4 0 0) .ready).reqs.any (fun x => x.kind = 6 && x.tid = tid0 && x.obj = 100) = false ∧
    (Wob lock 0 (spins [] [⟨tid0, 0, 3, false⟩]) (rq 5 0 3) .ready).requestDue 3 = false ∧
    (((Wob lock 0 (spins [] [⟨tid0, 0, 3, false⟩]) (rq 5 0 3) .ready).dropReq 7).obj 100).queue.any (fun x => x.req = 3) = true ∧
    ((Wob (lock + 2 ^ 51) 0 (oo tid0) (rq 6 0 0) .ready).dropReq 7).oGF 100 = true ∧
    ((Wob (lock + 2 ^ 52) 0 (oo tid0) (rq 7 0 0) .ready).dropReq 7).oH 100 = true ∧
    [1, 3].all (fun a => decide ((Wob lock 0 SyncObj.new (rq 0 a 0) (.wait (.locus 7))).waiting (rq 0 a 0) = some (.locus 7))) = true ∧
    (Wob lock 0 SyncObj.new (rq 4 1 0) (.wait (.home 7))).waiting (rq 4 1 0) = some (.home 7) ∧
    ((Wob lock 0 SyncObj.new (rq 9 0 0) (.wait (.locus 7))).dropReq 7).waiting (rq 9 0 0) = some (.locus 7) ∧
    ((Wob lock 0 SyncObj.new (rq 0 0 0) (.wait (.locus 7))).dropReq 7).waiting (rq 0 0 0) = some (.locus 7) ∧
    (Wob lock 0 SyncObj.new (rq 0 0 0) (.wait (.locus 7))).reqs.any (fun q => q.kind = 5 && q.ref = 7) = false ∧
    ((Wc (fun x => { x with slots := [(1, ⟨2, .live { T1 with deleg := some ⟨100, 0, 0, 0, 0, true, 0⟩ }⟩)] })).core 0).slots
      = [(1, ⟨2, .live { T1 with deleg := some ⟨100, 0, 0, 0, 0, true, 0⟩ }⟩)] ∧
    (Wob lock 0 SyncObj.new (rq 4 0 0) .ready).storesOf 0 0 = [] := by decide

set_option maxRecDepth 16000 in
theorem wit_LocusPhases : ((Wph T0).drainWC 0).waiting (rq 8 0 0) = some (.home 7) ∧ ((Wph T0).drainWC 0).oKind 100 = 2 ∧
    taskGroup T0.task ≠ (((Wph T0).drainWC 0).objW 100 3).bits 15 0 ∧ ((Wph Tg).drainWC 0).waiting (rq 8 0 0) = some (.home 7) ∧
    taskGroup Tg.task = (((Wph Tg).drainWC 0).objW 100 3).bits 15 0 ∧ (((Wph Tg).drainWC 0).obj 100).joined.contains tid0 = false ∧
    (Wob (ph + 5) 0 SyncObj.new (rq 9 0 5) .ready).oC 100 = 5 ∧ (Wob (ph + 5) 0 SyncObj.new (rq 9 0 0) .ready).oC 100 = 5 ∧
    ((Wob (ph + 5) 0 SyncObj.new (rq 10 0 5) .ready).dropReq 7).oC 100 = 5 ∧
    ([⟨100, 2⟩, ⟨2 ^ 60 + 100, 1⟩] : List Combine).find? (fun y => y.obj = 2 ^ 60 + 100) = some ⟨2 ^ 60 + 100, 1⟩ := by decide

def xf (a : Bool) (k : Nat) : Xfer := ⟨[if a then w64 (2 ^ 63) else 0, 0, 0, 4096], 1, 1, k, 0⟩
def cn (l : List Xfer) : Conn := { Conn.reset with xfers := l }
/-- A tenant with connection 0 in the table at 0x2000: its entry in a state, EN of FCCTL, and what PV-X1 keeps for it. -/
def Wfab (st : Nat) (en : Bool) (c : Conn) (l : List Nat) : State :=
  let s := (tables4 0 (W [])).modTenant 0 (fun y => { y with
    fcbase := 0x2000
    fcctl := if en then w64 (2 ^ 63 + 1) else 0
    conns := [(0, c)] })
  let s := ((s.setHome (0x2000 / 8) ⟨w64 (2 ^ 63 + st * 2 ^ 61 + 2 ^ 49 + 5 * 2 ^ 28 + 7 * 2 ^ 16), false⟩).setHome (0x2008 / 8)
    ⟨0x3000, false⟩).setHome (0x2010 / 8) ⟨4096, false⟩
  { s with
    boot := { s.boot with rdy := true, fabid := some 3 }
    arg := ⟨l, []⟩
    resident := [(96, 0), (97, 0)] }
/-- The state on which the events of connection 0 decide: the pending adds of its entry are applied (R301). -/
def Wfa (st : Nat) (en : Bool) : State := (Wfab st en (cn []) []).fabAdds 0 0
def recvd (r : RecvTry) (n : Nat) : Bool :=
  match r with
  | .lines l => l.length == n
  | _ => false

set_option maxRecDepth 16000 in
theorem wit_FabricWork : State.reset.boot.fabid = none ∧ (Wfab 0 true (cn []) []).boot.fabid ≠ none ∧
    SMap.get? (Wfab 0 true (cn []) []).tenants 4 = none ∧ SMap.get? (Wfab 0 true (cn []) []).tenants 0 ≠ none ∧
    ((Wfa 0 true).discards 0).isNone = true ∧ (Wfa 2 true).isOpen 0 0 = true ∧
    (Wfa 1 true).isOpen 0 0 = false ∧ (Wfa 2 false).fabricOn 0 = false ∧ (Wfa 2 true).fabricOn 0 = true ∧
    2 ^ 31 ≤ ((2 ^ 32 - 1) + 2 ^ 32 - (cn []).expect % 2 ^ 32) % 2 ^ 32 ∧ (0 + 2 ^ 32 - (cn []).expect % 2 ^ 32) % 2 ^ 32 = 0 ∧
    0 + 256 ≤ ((Wfa 2 true).peekVa 0 ((Wfa 2 true).fabVa 0 0 + 16)).v.bits 39 0 ∧
    recvd ((Wfa 2 true).recvPages 0 0 ((((Wfa 2 true).peekVa 0
      ((Wfa 2 true).fabVa 0 0 + 8)).v.bits 56 0 + 0) % 2 ^ 57) 256 34) 2 = true ∧
    entV ((Wfa 1 true).fabWord 0 0) = true ∧ entState ((Wfa 1 true).fabWord 0 0) = 1 ∧
    entMod ((Wfa 1 true).fabWord 0 0) = 5 ∧ entTen ((Wfa 1 true).fabWord 0 0) = 1 ∧
    entCon ((Wfa 1 true).fabWord 0 0) = 7 ∧ (Wfa 0 true).doorOpen 0 = true ∧
    entV ((Wfa 0 true).fabWord 0 0) = true ∧ entState ((Wfa 0 true).fabWord 0 0) = 0 ∧
    ((Wfab 2 true (cn [xf false 0]) []).conn 0 0).xfers = [xf false 0] ∧ (cn []).xfers = [] ∧ (xf false 1).ended = true ∧
    (xf false 1).flagA = false ∧ (xf true 1).ended = true ∧ (xf true 1).flagA = true ∧ (xf false 0).ended = false ∧
    ((Wfab 2 true { cn [] with window := [[1]] } []).conn 0 0).window ≠ [] ∧
    (Wfab 2 true { cn [] with window := [[1]] } []).now < ({ cn [] with window := [[1]] } : Conn).prog + 26000 ∧
    ({ cn [] with window := [[1]] } : Conn).prog + 26000 ≤ ({ Wfab 2 true (cn []) [] with now := 26000 } : State).now ∧
    ((Wfab 2 true { cn [] with unack := 1 } []).conn 0 0).unack ≠ 0 ∧ (Wfab 1 true (cn []) []).now < (cn []).since + 2 ^ 24 ∧
    (cn []).since + 2 ^ 24 ≤ ({ Wfab 1 true (cn []) [] with now := 2 ^ 24 } : State).now ∧
    8 ≤ ((Wfab 1 true { cn [] with tries := 8 } []).conn 0 0).tries ∧ (cn []).window.length < (1 + 2 ^ 32 - (cn []).acked % 2 ^ 32) % 2 ^ 32 ∧
    (1 + 2 ^ 32 - ({ cn [] with window := [[1]] } : Conn).acked % 2 ^ 32) % 2 ^ 32 = 1 := by decide

/-- Links of edges 0 and 2, up or down, with credits. -/
def lk (up ok : Bool) (r n : Nat) : Link := { Link.reset with up := up, ok := ok, retrain := r, credits := (List.range 5).map (fun c => (c, n)) }
def Wlk (l : Link) (a : List Nat) : State := { W [] with links := [(0, l), (2, l)], arg := ⟨a, []⟩ }
def credits8 : Nat := 8 + 8 * 2 ^ 10 + 8 * 2 ^ 30 + 8 * 2 ^ 40
/-- The descriptor of die `i` of R1, its last word the CRC of the rest (R326). -/
def descBody (i : Nat) : List Nat :=
  [0x58, 0x44, 0x54, 0x53, 1, 0, dieKind i, if i < 4 then 4 else 0] ++ List.replicate 16 0 ++ [1, 1, 2, 3] ++
    List.replicate 480 0
def descOf (i : Nat) : List Nat := descBody i ++ leBytes 4 (crc32c ((descBody i).map (fun x => BitVec.ofNat 8 x)))
def Wat (s : State) : State :=
  { s with
    boot := { s.boot with desc := (List.range 10).map (fun i => (i, (descBody i).map (fun x => BitVec.ofNat 8 x))) }
    links := (List.range 16).map (fun e => (e, { Link.reset with kind := edgeKind e })) }
def Wtw (s : State) : State :=
  { s with
    boot := { s.boot with stage := 6, desc := (List.range 10).map (fun i => (i, [])) } }

set_option maxRecDepth 16000 in
theorem wit_LinkWork : ((Wlk (lk true true 0 8) [0, 5, 3]).link 0).ok = true ∧ ((Wlk (lk true true 0 8) [0, 5, 3]).link 0).up = true ∧
    SMap.get ((Wlk (lk true true 0 8) [0, 5, 3]).link 0).credits 0 0 = 7 + 1 ∧ ((Wlk (lk false true 0 8) [0]).link 0).up = false ∧
    SMap.get ((Wlk (lk true true 0 0) [0]).link 0).credits 0 0 = 0 ∧ ((Wlk (lk true true 0 8) [0, 5, 3]).takeCredit 0 3).isSome = true ∧
    ((Wlk (lk true true 0 8) [0, 5, 3]).takeCredit 2 1).isSome = true ∧ populated (0 * 2 ^ 38 + 5 % 2 ^ 38) = true ∧
    (Wlk (lk true true 0 8) [0, 5, 3]).mem.wf = true ∧ (lk true false 0 8).since + 2 ^ 20 ≤ ({ Wlk (lk true false 0 8) [] with now := 2 ^ 20 } : State).now ∧ (lk true true 0 8).refused = false ∧ (lk false true 0 8).refused = false ∧
    paramOk 1 credits8 = true ∧ paramOk 2 credits8 = false ∧ (lk true false 0 8).ok = false ∧ (lk true true 0 8).retrain < 3 ∧
    3 ≤ (lk true true 3 8).retrain ∧ (W []).boot.rdy = false ∧ descGood [] = false ∧ (Wat (W [])).attached = true ∧ (Wtw (W [])).boot.stage = 6 ∧
    (Wtw (W [])).boot.err = 0 ∧ (∀ i, i < 10 → SMap.get? (Wtw (W [])).boot.desc i ≠ none) ∧ (Wtw (W [])).attached = false ∧
    (⟨3, 0, 0x21, 0, [], false⟩ : HubMsg).op = 0x21 ∧ (⟨3, 0, 0x22, 0, [], false⟩ : HubMsg).op = 0x22 := by decide

theorem crcStep_lt (k c : Nat) (h : c < 2 ^ 32) : crcStep c k < 2 ^ 32 := by
  induction k generalizing c with
  | zero => exact h
  | succ k ih =>
    refine ih _ ?_
    split
    · exact Nat.xor_lt_two_pow (by omega) (by decide)
    · omega

theorem crc32c_lt (l : List Byte) : crc32c l < 2 ^ 32 := by
  refine Nat.xor_lt_two_pow ?_ (by decide)
  suffices h : ∀ c, c < 2 ^ 32 → l.foldl (fun c b => crcStep (Nat.xor c b.toNat) 8) c < 2 ^ 32 from h _ (by decide)
  induction l with
  | nil => exact fun _ h => h
  | cons b l ih => exact fun c h => ih _ (crcStep_lt _ _ (Nat.xor_lt_two_pow h (by have := b.isLt; omega)))

theorem fromLe_leBytes4 (v : Nat) (h : v < 2 ^ 32) : fromLe (leBytes 4 v) = v := by
  simp only [leBytes, fromLe, List.foldr]; omega

set_option maxRecDepth 32000 in
theorem wit_descriptor : descGood (descOf 0) = true := by
  have hl : (descBody 0).length = 508 := by decide
  have ht : ∀ n, n ≤ 508 → (descOf 0).take n = (descBody 0).take n := fun n h => by
    rw [descOf, List.take_append_of_le_length (by omega)]
  have hd : ∀ o n, o + n ≤ 508 → descField (descOf 0) o n = descField (descBody 0) o n := fun o n h => by
    rw [descField, descField, descOf, List.drop_append_of_le_length (by omega), List.take_append_of_le_length (by simp; omega)]
  have hx : descField (descOf 0) 508 4 = crc32c ((descBody 0).map (fun x => BitVec.ofNat 8 x)) := by
    rw [descField, descOf, List.drop_left' hl]
    exact fromLe_leBytes4 _ (crc32c_lt _)
  have h0 : ((descOf 0).drop 0x070).take 396 = ((descBody 0).drop 0x070).take 396 := by
    rw [descOf, List.drop_append_of_le_length (by omega), List.take_append_of_le_length (by simp; omega)]
  rw [descGood, hd 0 4 (by decide), hd 4 2 (by decide), hd 0x024 4 (by decide), hx, ht 0x1FC (by decide), h0,
    List.take_of_length_le (Nat.le_of_eq hl)]
  simp only [Bool.and_eq_true, decide_eq_true_eq]
  refine ⟨⟨⟨⟨⟨?_, by decide⟩, by decide⟩, by decide⟩, by decide⟩, trivial⟩
  rw [descOf, List.length_append, hl]; rfl

/-- A fuse version of 2, a stage of the boot, a session, and the numbers of an event. -/
def Wbt (st ses : Nat) (a : List Nat) : State :=
  { W [] with
    boot := { (W []).boot with stage := st, fuseVer := 2, session := ses }
    arg := ⟨a, []⟩ }
def Wtdi (n : Nat) : State := { W2 (fun x => { x with tdi := n }) [] with arg := ⟨[0], []⟩ }

set_option maxRecDepth 16000 in
theorem wit_BringUp : measured ((Wbt 0 0 [1]).argN 0) = true ∧ (Wbt 0 1 []).boot.session = 1 ∧ (Wbt 0 1 []).boot.session ≠ 0 ∧
    [0, 1, 2].all (fun n => decide (((Wtdi n).tenant ((Wtdi n).argN 0)).tdi = n)) = true ∧ (Wbt 0 0 []).boot.stage = 0 ∧
    (Wbt 0 0 []).boot.err = 0 ∧ (Wbt 3 0 [0, 0, 0, 1, 2]).boot.stage = 3 ∧
    (let s := Wbt 3 0 [0, (Wbt 3 0 []).boot.fuseEd, (Wbt 3 0 []).boot.fuseMl, 1, 2]
     s.argN 1 = s.boot.fuseEd ∧ s.argN 2 = s.boot.fuseMl ∧ s.argN 3 = 1 ∧ s.boot.fuseVer ≤ s.argN 4) ∧
    (Wbt 3 0 [0, 0, 0, 1, 1]).argN 4 < (Wbt 3 0 [0, 0, 0, 1, 1]).boot.fuseVer ∧ (Wbt 7 0 [7, 96000000000]).argN 0 < 8 ∧
    (Wbt 7 0 [8, 95999999999]).argN 1 < 96000000000 ∧ 8 ≤ (Wbt 7 0 [8, 96000000000]).argN 0 ∧
    96000000000 ≤ (Wbt 7 0 [8, 96000000000]).argN 1 ∧ (Wbt 8 0 []).boot.stage < 9 ∧ 9 ≤ (Wbt 9 0 []).boot.stage ∧
    (Wbt 0 0 []).mem.wf = true ∧ (Wbt 0 0 []).halves = [] ∧ (Wbt 0 0 [0]).argN 0 ≠ 1 ∧ (Wbt 0 0 [1]).argN 0 = 1 ∧
    (Wbt 0 0 [1]).halves.any (fun p => (Wbt 0 0 [1]).lineBusy (lineOfHalf p.1)) = false ∧
    (let s : State := { Wbt 0 0 [1] with halves := [(5, ⟨1, 0, false, 0, 0, []⟩)], dir := [(lineOfHalf 5, .waiting 1 5 [3])] }
     s.halves.any (fun p => s.lineBusy (lineOfHalf p.1)) = true) ∧ (Wbt 0 0 [255]).ownerOf ((Wbt 0 0 [255]).argN 0) = none ∧
    (Wbt 0 0 [255]).clusterIdle ((Wbt 0 0 [255]).argN 0) = true ∧ (Wbt 0 0 [0]).ownerOf 0 ≠ none ∧
    (Wbt 0 0 [0]).clusterIdle 0 = false ∧ (Wbt 0 0 [5, 1]).argN 0 < 16 ∧ (Wbt 0 0 [5, 1]).arg.nums.drop 1 ≠ [] ∧
    (∀ q ∈ (Wbt 0 0 [5, 1]).arg.nums.drop 1, q < 16) ∧ (∀ p ∈ (Wbt 0 0 [5, 1]).tenants, p.1 ≠ (Wbt 0 0 [5, 1]).argN 0 ∧
      ∀ q ∈ p.2.quads, q ∉ (Wbt 0 0 [5, 1]).arg.nums.drop 1) := by decide

theorem wit_EncodeDecode : WellFormed (.div (fl 7 8 9 true 0 0 0 3 0)) = true ∧ (Instr.div (fl 7 8 9 true 0 0 0 3 0)).opc ≠ none := by
  decide

def fetched (f : Fetched) (l : List Nat) : Bool :=
  match f with
  | .ok ps => ps == l
  | _ => false
def decodesOk (l : List Nat) : Bool :=
  match decode l with
  | .ok _ => true
  | .error _ => false
def goesOn (o : Host.Outcome State Fault Refusal) : Bool :=
  match o with
  | .next _ => true
  | _ => false
def paged (p : Found) (pa : Nat) : Bool :=
  match p with
  | .tr tr => tr.pa == pa
  | _ => false

set_option maxRecDepth 16000 in
theorem wit_StepRunsDecoded : (W []).cur = some (0, 0) ∧ ((W []).turned 0).thread? 0 0 = some T0 ∧ T0.run = .ready ∧
    (((W []).turned 0).boundary 0 0 T0).isNone = true ∧ fetched (((W []).turned 0).fetch 0 0 T0) [0x0400] = true ∧
    ((W []).turned 0).mustWait 0 0 T0 = none ∧ T0.answer = none ∧ T0.midway = false ∧ decodesOk [0x0400] = true ∧
    (let s : State := { W [] with walks := [{ wk 0 false (some 1) with who := 0 }] }
     s.cur = some (0, 0) ∧ (s.turned 0).thread? 0 0 = some T0 ∧ ((s.turned 0).boundary 0 0 T0).isNone = true ∧
     (s.turned 0).mustWait 0 0 T0 = some .fault) ∧
    fetched ((State.reset.withFetchWord 16 0).fetch 0 0 T0) [0] = true ∧ decodesOk [0] = false ∧ (T0.seg 0).limit < 2 ^ 40 + 2 ∧
    0 + 2 ≤ (T0.seg 0).limit ∧ (T0.seg 0).has 'X' = true ∧ (Seg.has ⟨0, 2 ^ 40, 1⟩ 'X') = false ∧
    paged ((W []).pageFor 0 0 T0 ((T0.seg 0).base + 0) 3) 0 = true ∧ (W []).poisoned 0 = false ∧ ({ W [] with mem := (W []).mem.setPoison 0 true } : State).poisoned 0 = true ∧ State.reset.cur = none := by decide

theorem wit_StepRunsDecoded_event : ∃ (s : State) (e : Event) (u : State), s.cur = none ∧ s.choice = .event e u := by
  let s : State := { State.reset with due := List.replicate (Config.choose State.reset.tick + 1) (evt .getVersion []) }
  have h : ∀ n, Config.choose State.reset.tick % n < Config.choose State.reset.tick + 1 := fun n =>
    Nat.lt_succ_of_le (Nat.mod_le _ _)
  have hd : ∀ n, s.due[Config.choose s.tick % n]? = some (evt .getVersion []) := fun n => List.getElem?_replicate_of_lt (h n)
  refine ⟨s, evt .getVersion [], { s with due := s.due.eraseIdx (Config.choose s.tick % (s.due.length + s.issuers.length + 1)), arg := (evt .getVersion []).arg }, rfl, ?_⟩
  rw [State.choice]
  simp only [hd]

theorem wit_StepRunsDecoded_issue : ∃ s : State, s.cur = none ∧ s.choice = .issue 0 0 := by
  let s : State := { W [] with
    due := List.replicate (Config.choose (W []).tick) (evt .getVersion [])
    cur := none }
  have hi : s.issuers = [(0, 0)] := by
    show (W []).issuers = _
    decide
  refine ⟨s, rfl, ?_⟩
  have hl : s.due.length = Config.choose s.tick := List.length_replicate
  have hn : (Config.choose s.tick % (s.due.length + [((0 : Nat), (0 : Nat))].length + 1)) = s.due.length := by
    rw [hl]; exact Nat.mod_eq_of_lt (by simp)
  rw [State.choice, hi]
  simp only [hn, List.getElem?_eq_none_iff.2 (Nat.le_refl _), Nat.sub_self]
  rfl

theorem wit_TurnKept : goesOn (step (W [])) = true := by decide

set_option maxRecDepth 16000 in
theorem wit_ResetState : (⟨8, [TWord.zero, TWord.zero, TWord.zero, TWord.zero], mkTask 0 0 false 15 0 0 0, 0, 0, 0, false, 0⟩ : Cont).origin ≠ 3 ∧
    (⟨8, [TWord.zero, TWord.zero, TWord.zero, TWord.zero], mkTask 0 0 false 15 0 0 0, 0, 0, 0, false, 0⟩ : Cont).args.length = 4 ∧
    taskGran (mkTask 0 0 false 15 0 0 0) + 1 ≤ (State.reset.core 0).freeGran.length := by decide

/-- Core 0 with threads in slots 0 and 1 of one class, in a cycle, with its turn. -/
def Wis (now rot : Nat) (l : Option (Nat × Nat)) : State :=
  let s := ((Wla [1, 8, w64 (2 ^ 18 + 1)] false).setThread 0 1 T1).modCore 0 (fun x => { x with
    launch := l
    lastIss := [0, 0, 0, 0]
    rot := rot })
  { s with now := now }

set_option maxRecDepth 16000 in
theorem wit_IssueOrder : (Wis 0 0 none).boundSlots 0 = none ∧ ((Wis 0 0 none).core 0).readySlots = [0, 1] ∧ (Wis 0 0 none).issueSlot 0 = some 1 ∧
    (Wis 0 0 none).now % 16 ≠ 15 ∧ (Wis 15 0 none).boundSlots 0 = none ∧ (Wis 15 0 none).now % 16 = 15 ∧
    ((Wis 15 0 none).issueSlot 0).isSome = true ∧ ((Wis 0 0 none).core 0).classOf 1 = ((Wis 0 0 none).core 0).classOf 0 ∧
    nthD ((Wis 0 0 none).core 0).lastIss (((Wis 0 0 none).core 0).classOf 1) 63 < 1 ∧ (Wis 0 0 (some (0, 5))).boundSlots 0 = some 1 ∧
    (Wis 0 0 (some (0, 5))).issueSlot 0 = some 0 ∧ (Wis 0 1 (some (0, 5))).issueSlot 0 = some 63 ∧
    (Wis 0 0 none).issuers = [(0, 1)] := by decide

theorem wit_MemoryKept : Mem.empty.wf = true ∧ (Mem.empty.setWord 4 ⟨5, true⟩).wf = true ∧ (6 : Nat) + 2 ≤ 8 ∧ (2 : Nat) < 8 ∧
    (∀ a, Mem.empty.byte a = Mem.empty.byte a) := ⟨by decide, by decide, by decide, by decide, fun _ => rfl⟩

set_option maxRecDepth 16000 in
theorem wit_Prechecks : Instr.form (.ldg f2) ≠ none ∧ (W []).current = some (0, 0, T0) ∧ T0.answer = none ∧
    (Wth { T0 with window := [0] } []).precheck (.add { f3 with d := 9 }) 0 0 { T0 with window := [0] } = .trap 0x03 (w64 T0.pc) 9 ∧
    (Wth { T0 with ops := [{ op0 with left := 0 }] } []).precheck (.add f3) 0 0 { T0 with ops := [{ op0 with left := 0 }] } = .wait .window ∧
    (∀ o ∈ [op0], o.left ≠ 0) ∧ (Instr.rdsr (fi 16)).mayRun false false = false ∧ (Instr.add f3).mayRun false false = true ∧
    (Instr.cpy f2).wrongSlot 0 = true ∧ (Instr.add f3).wrongSlot 0 = false ∧ (∃ n ∈ (Instr.add { f3 with d := 9 }).named false, ({ T0 with window := [0] } : Thread).top ≤ n) ∧
    (∀ n ∈ (Instr.add f3).named false, n < T0.top) ∧ (∃ n ∈ (Instr.add f3).named false, n ≠ 0 ∧ ∃ o ∈ [{ op0 with pend := [4] }], n ∈ o.pend) := by
  decide

/-- A state with flag 'some', as a Bool. -/
def someS (o : Option State) : Bool := o.isSome

/-- A line owned by cluster 7, its lease begun at 0, in a cycle; cluster 7 may be power-gated. -/
def Wls (now : Nat) (g : Bool) (l : List Nat) : State :=
  let s := if g then (W []).modCluster 7 (fun x => { x with gated := true }) else W []
  { s with dir := [(0, .owned 7)], leases := [(0, 0)], copies := [(copyKey 0 7, cpy true)], now := now, arg := ⟨l, []⟩ }

/-- A half of the bridge in a state, its line in transition or not, with requests that wait. -/
def Whf (st : Nat) (busy : Bool) (w l : List Nat) : State :=
  { W [] with halves := [(5, ⟨st, 0, false, 0, 0, []⟩)], halfWait := w, arg := ⟨l, []⟩,
              dir := if busy then [(lineOfHalf 5, .waiting 1 5 [3])] else [] }

set_option maxRecDepth 16000 in
theorem wit_CoherenceCases : (Wdir none [5, 0]).alive 5 = true ∧ someS ((Wdir none [5, 0]).makeRoom 5 0) = true ∧
    (Wdir none [5, 0]).homeOf 0 ≠ 5 ∧ ({ W [] with copies := [(copyKey 0 7, cpy false)] } : State).heldBy 0 7 = [cpy false] ∧
    (cpy false).sw = false ∧ ({ W [] with copies := [(copyKey 0 7, { cpy false with sw := true })] } : State).heldBy 0 7
      = [{ cpy false with sw := true }] ∧
    (Wls 0 false [0, 0]).leaseOf 0 0 = some (7, 0) ∧ 0 + 2 ^ 22 ≤ (Wls (2 ^ 22) false [0, 0]).now ∧ (Wls 0 false [0, 0]).alive 7 = true ∧
    (Wls 0 true [0, 0, 9]).alive 7 = false ∧ (Wls 0 true [0, 0, 9]).leaseOf 0 0 = some (7, 0) ∧
    (Wls 0 true [0, 0, 9]).now < (Wls 0 true [0, 0, 9]).argN 2 ∧ (Wls 9 true [0, 0, 9]).argN 2 ≤ (Wls 9 true [0, 0, 9]).now ∧
    (Whf 2 false [] [5, 1]).leaseOf 5 1 = some ((Whf 2 false [] [5, 1]).homeOf (lineOfHalf 5), 0) ∧
    (Whf 1 false [] [5, 1]).halfWait = [] ∧ someS ((Whf 1 false [] [5, 1]).allocHalf 5) = true ∧ (Whf 1 false [11] [5, 1]).halfWait ≠ [] ∧
    (Whf 1 false [11] [5]).halfWait = 11 :: [] ∧ someS ((Whf 1 false [11] [5]).allocHalf (11 / 2)) = true ∧
    SMap.get? (Whf 1 true [] [5, 1]).halves 5 = some ⟨1, 0, false, 0, 0, []⟩ ∧ (Whf 1 true [] [5, 1]).lineBusy (lineOfHalf 5) = true ∧
    (Whf 2 false [] [5, 0]).lineBusy (lineOfHalf 5) = false ∧ (Whf 2 false [] [5, 0]).argN 1 ≠ 1 ∧ (Whf 2 false [] [5, 1]).argN 1 = 1 ∧
    (Whf 2 false [] [5, 1]).arg.vals = [] := by decide

/-- A store of core 0 to word 0 whose flight 3 has caused a recall of the word from core 5. -/
def Wrc : State := { W [] with flights := [⟨3, 0, sb0, 1, [0]⟩], regw := rw5 (some 3), arg := ⟨[0], []⟩ }

theorem wit_CoherenceRecall : SMap.get? Wrc.regw 0 = some ⟨5, TWord.zero, some 3⟩ ∧
    Wrc.flights.find? (fun f => some 3 = some f.id && f.left.contains 0) = some ⟨3, 0, sb0, 1, [0]⟩ ∧
    (∀ f ∈ ({ Wrc with flights := [] } : State).flights, some 3 ≠ some f.id) ∧ Wrc.mem.wf = true ∧
    [0].filter (fun x => x ≠ 0) = [] ∧ [0, 1].filter (fun x => x ≠ 0) ≠ [] := by decide

def didRelease (r : Bool × State) (b : Bool) (p : State → Bool) : Bool := r.1 == b && p r.2

/-- A LOCK on line 100 whose window ends at a cycle, in cycle 5. -/
def Wwe (e : Nat) (kind : Nat) (a : List Nat) : State :=
  { Wob lock 0 { SyncObj.new with winEnd := e } (rq kind 0 0) .ready with now := 5, arg := ⟨a, []⟩ }

/-- A delegate in slot 1 of core 0, idle, on the object on line 100. -/
def Wdl : State :=
  { Wob lock 0 SyncObj.new (rq 2 0 0) (.wait (.locus 7)) with
    arg := ⟨[100, 0, 1], []⟩ } |>.setThread 0 1 { T1 with deleg := some ⟨100, 0, 0, 0, 0, true, 0⟩ }

set_option maxRecDepth 16000 in
theorem wit_LocusCases : (Wwe 5 0 [7]).windowOver 100 = true ∧ (Wwe 0 0 [7]).windowOver 100 = false ∧ (Wwe 6 0 [7]).windowOver 100 = false ∧
    (rq 0 0 0).kind ≠ 2 ∧ (rq 2 0 0).kind = 2 ∧ didRelease ((Wwe 0 2 [7]).released 0 []) true (fun s => !s.windowOver 100) = true ∧
    didRelease (({ Wwe 0 2 [7] with flights := [⟨3, 0, sb0, 1, [0]⟩] } : State).released 0 [1]) false (fun _ => true) = true ∧
    (Wwe 0 0 [7, 9]).now < (Wwe 0 0 [7, 9]).argN 1 ∧ (Wwe 0 0 [7, 5]).argN 1 ≤ (Wwe 0 0 [7, 5]).now ∧
    didRelease ((Wob (lock + 2 ^ 52) 0 (oo tid0) (rq 4 0 0) .ready).released 0 []) true (fun s =>
      !s.windowOver 100 && !s.reqs.any (fun x => x.kind = 6 && x.tid = tid0 && x.obj = 100) && s.oKind 100 == 1 && s.oH 100
        && (s.obj 100).owner == tid0) = true ∧
    didRelease ((Wob lock 0 SyncObj.new (rq 4 0 0) .ready).released 0 []) true (fun s => s.oKind 100 == 1 && !s.oH 100) = true ∧
    (Wwe 5 0 [100]).oKind 100 = 1 ∧ ((Wwe 5 0 [100]).obj 100).winEnd ≠ 0 ∧ ((Wwe 5 0 [100]).obj 100).winEnd ≤ (Wwe 5 0 [100]).now ∧
    (Wwe 6 0 [100]).now < ((Wwe 6 0 [100]).obj 100).winEnd ∧
    (Wob lock 0 (spins [] []) (rq 5 0 3) .ready).requestDue 3 = false ∧
    (((Wob lock 0 (spins [] []) (rq 5 0 3) .ready).dropReq 7).obj 100).spin = [] ∧
    (((Wob lock 0 (spins [] []) (rq 5 0 3) .ready).dropReq 7).obj 100).queue = [] ∧
    (((Wob lock 0 (spins [] []) (rq 5 0 3) .ready).dropReq 7).obj 100).wait = [] ∧
    (let s : State := { Wob lock 0 SyncObj.new (rq 0 0 0) (.wait (.locus 7)) with now := 5, arg := ⟨[0, 0, 7, 9], []⟩ }
     s.now < s.argN 3) ∧
    (let s : State := { Wob lock 0 SyncObj.new (rq 0 0 0) (.wait (.locus 7)) with now := 9, arg := ⟨[0, 0, 7, 9], []⟩ }
     s.argN 3 ≤ s.now) := by decide

set_option maxRecDepth 16000 in
theorem wit_LocusDelegate : Wdl.thread? 0 1 = some { T1 with deleg := some ⟨100, 0, 0, 0, 0, true, 0⟩ } ∧ Wdl.windowOver 100 = false ∧
    (Wdl.obj 100).delTid ≠ some (Wdl.tid 0 1 { T1 with deleg := some ⟨100, 0, 0, 0, 0, true, 0⟩ }) ∧
    (let s : State := { Wdl with arg := ⟨[100, 7], []⟩ }
     didRelease (s.released (s.delegateAt 100).1 (s.storesOf (s.delegateAt 100).1 (s.delegateAt 100).2)) true (fun s1 =>
       !s1.windowOver 100 && decide (s1.req? 7 = some (rq 2 0 0)) && decide (s1.waiting (rq 2 0 0) = some (.locus 7))) = true) := by decide

theorem fifoFull (s : State) (c tn : Nat) (h1 : 1024 ≤ (s.core c).fifo.length) (h2 : Config.poolSize ≤ (s.tenant tn).pool.length) :
    s.fifoRoom c tn = false := by
  simp [State.fifoRoom, Nat.not_lt.2 h1, Nat.not_lt.2 h2]

def cont0 : Cont := ⟨8, [], mkTask 0 0 false 0 0 0 0, 0, 0, 0, false, 0⟩

theorem wit_LaunchRoom : ∃ s : State, s.fifoRoom 0 0 = false :=
  ⟨{ W [] with cores := [(0, { Core.reset with fifo := List.replicate 1024 (cont0, 0) })],
               tenants := [(0, { Tenant.reset with pool := List.replicate Config.poolSize (0, cont0) })] },
   fifoFull _ 0 0 (Nat.le_of_eq List.length_replicate.symm) (Nat.le_of_eq List.length_replicate.symm)⟩

/-- The thread in slot 63, of a window of four granules. -/
def Wmv : State := { W [] with cur := some (0, 63) } |>.setThread 0 63 { T0 with window := [0, 1, 2, 3] }

theorem wit_ScopeMove : Wmv.current = some (0, 63, { T0 with window := [0, 1, 2, 3] }) ∧
    Wmv.precheck (.scopeo { f2 with imm := 1 }) 0 63 { T0 with window := [0, 1, 2, 3] } = .go ∧ T0.scopes.length < 4 ∧
    (0 : Nat) ≠ 63 := by decide

/-- A target coordinate of row 15, which quadrant 0 does not have, in g4 and an even address in g5. -/
def far : List (Nat × Nat) := [(4, 15 * 2 ^ 56), (5, 8)]

set_option maxRecDepth 8000 in
theorem wit_SpawnAway : okAll [.spawn f3] (Wth T0 far) T0 = true ∧ okAll [.spawn f3] (Wth (Tf 4) far) (Tf 4) = true ∧
    (let v := (Wth (Tf 4) far).readVals (.spawn f3) 0 0 (Tf 4) f3
     v.1.b.v.toNat % 2 = 0 ∧ (Wth (Tf 4) far).coreAt 0 (v.1.a.v.bits 59 56) (v.1.a.v.bits 55 52) (v.1.a.v.bits 51 49) = none) ∧
    (let v := (Wth T0 far).readVals (.spawn f3) 0 0 T0 f3
     v.1.b.v.toNat % 2 = 0 ∧ (Wth T0 far).coreAt 0 (v.1.a.v.bits 59 56) (v.1.a.v.bits 55 52) (v.1.a.v.bits 51 49) = none) ∧
    taskDet T0.task = false ∧ taskDet (Tf 4).task = false ∧ 4 ≤ (Tf 4).frames.length ∧ T0.frames.length < 4 := by decide

/-- A thread that runs a body under a lock: as the object's delegate or in its own slot, for request `q`, with `n` scopes. -/
def Tb (remote : Bool) (q n : Nat) : Thread :=
  { T0 with deleg := some ⟨100, 0, 8, 0, 0, remote, q⟩, scopes := List.replicate n 1 }

/-- An acquire of the thread in flight to the object. -/
def WaskB (t : Thread) : State := { Wth t [] with reqs := [{ SyncReq.new 0 100 ((W []).tid 0 0 T0) 0 0 with id := 7 }] }

theorem wit_ExitWaits : okAll [.exit f2] (Wth { T0 with ops := [op0] } []) { T0 with ops := [op0] } = true ∧
    okAll [.exit f2] (Wc (fun x => { x with outbox := List.replicate 16 net0 }) |>.setThread 0 0 { T0 with reply := 5 })
      { T0 with reply := 5 } = true ∧
    16 ≤ ((Wc (fun x => { x with outbox := List.replicate 16 net0 }) |>.setThread 0 0 { T0 with reply := 5 }).core 0).outbox.length ∧
    (5 : Word) ≠ 0 := by decide

theorem wit_ExitBody : plainFields f2 ∧ okAll [.exit f2] (Wth (Tb true 0 1) []) (Tb true 0 1) = true ∧
    okAll [.exit f2] (Wth (Tb true 0 0) []) (Tb true 0 0) = true ∧ okAll [.exit f2] (Wth (Tb true 9 0) []) (Tb true 9 0) = true ∧
    okAll [.exit f2] (Wth { Tb true 9 0 with ops := [op0] } []) { Tb true 9 0 with ops := [op0] } = true ∧
    okAll [.exit f2] (Wth (Tb false 9 0) []) (Tb false 9 0) = true ∧ okAll [.exit f2] (WaskB (Tb false 9 0)) (Tb false 9 0) = true ∧
    (Tb true 9 0).frames.length = 0 ∧ (Tb true 9 0).scopes.length = 0 ∧ (Tb true 0 1).scopes.length ≠ 0 ∧
    (Tb true 9 0).deleg = some ⟨100, 0, 8, 0, 0, true, 9⟩ ∧ (Tb false 9 0).deleg = some ⟨100, 0, 8, 0, 0, false, 9⟩ ∧
    (Wth (Tb false 9 0) []).asking ((Wth (Tb false 9 0) []).tid 0 0 (Tb false 9 0)) 100 = false ∧
    (WaskB (Tb false 9 0)).asking ((WaskB (Tb false 9 0)).tid 0 0 (Tb false 9 0)) 100 = true := by
  unfold plainFields; decide

/-- The same thread with the home's answer. -/
def Tba (code : Nat) : Thread := { Tb false 9 0 with answer := some ⟨code, TWord.zero, 0⟩ }

theorem wit_ExitAnswered : ∀ code ∈ [1, 20], (Wth (Tba code) []).current = some (0, 0, Tba code) ∧
    (Tba code).answer = some ⟨code, TWord.zero, 0⟩ ∧ (Tba code).deleg = some ⟨100, 0, 8, 0, 0, false, 9⟩ ∧
    joinReady ((Instr.exit f2).specialWrites.map (fun n => (Wth (Tba code) []).writeReady (Tba code).tenant 0 0 (Tba code).since n))
      = .yes := by decide

end Sys2Proof.Tests
end

section
/-!
SUPPORT. The addresses and checks of global and local operands (R37, R50, R134, R136, R248), and O10.
-/
namespace Sys2Proof.Machine
open Sys2Proof

/-! ### The address of a global operand (R50) -/

/-- The offset is the register's value plus the displacement, modulo 2^64. -/
theorem gOffset_cast (x : Word) (imm : Int) : (gOffset x imm : Int) = ((x.toNat : Int) + imm) % 2 ^ 64 := by
  have hi : ((BitVec.ofInt 64 imm).toNat : Int) = imm % 2 ^ 64 := by
    rw [BitVec.toNat_ofInt, Int.toNat_of_nonneg (Int.emod_nonneg _ (by decide))]; rfl
  rw [gOffset, w64i, BitVec.toNat_add, Int.natCast_emod, Int.natCast_add, hi]
  exact Int.add_emod_emod _ _ _

/-- A sum that is negative by at most 2^40 wraps to an offset of at least 2^64 - 2^40. -/
theorem gOffset_of_negative {x : Word} {imm : Int} (hneg : (x.toNat : Int) + imm < 0) (himm : -(2 ^ 40) ≤ imm) :
    2 ^ 64 - 2 ^ 40 ≤ gOffset x imm := by
  have h := gOffset_cast x imm
  omega

/-- An aligned block of a size that divides the line size lies within one line: at both its ends, the line number is the block
number divided by the number of blocks in a line. -/
theorem aligned_within_line {va size : Nat} (hdvd : size ∣ 128) (halign : size ∣ va) :
    va / 128 = (va + size - 1) / 128 := by
  have hpos : 0 < size := Nat.pos_of_dvd_of_pos hdvd (by decide)
  obtain ⟨perLine, hline⟩ := hdvd
  obtain ⟨block, rfl⟩ := halign
  have hlast : (size * block + size - 1) / size = block := by
    rw [Nat.add_sub_assoc hpos, Nat.mul_add_div hpos, Nat.div_eq_of_lt (Nat.sub_lt hpos Nat.one_pos), Nat.add_zero]
  rw [hline, ← Nat.div_div_eq_div_mul, ← Nat.div_div_eq_div_mul, hlast, Nat.mul_div_cancel_left _ hpos]

/-- With a base on a line boundary, an aligned access of up to a line does not cross one. -/
theorem vaOf_within_line {t : Thread} {sn off n : Nat} (hbase : (t.seg sn).base % 128 = 0) (hn : n ≤ 7)
    (halign : off % 2 ^ n = 0) : vaOf t sn off / 128 = (vaOf t sn off + 2 ^ n - 1) / 128 := by
  have hdvd : 2 ^ n ∣ 128 := pow_dvd_pow 2 hn
  refine aligned_within_line hdvd (Dvd.dvd.add ?_ (Nat.dvd_of_mod_eq_zero halign))
  exact hdvd.trans (Nat.dvd_of_mod_eq_zero hbase)

/-! ### The checks of a global operand (R37) -/

/-- The limit is checked first. -/
theorem memG_of_limit {t : Thread} {sn off size : Nat} {r : Char} (h : (t.seg sn).limit < off + size) :
    memG t sn off size r = some (tSEGLIM, w64 off, w64 sn) := by
  simp [memG, h]

/-- Within the limit, the right is checked next. -/
theorem memG_of_right {t : Thread} {sn off size : Nat} {r : Char} (hl : off + size ≤ (t.seg sn).limit)
    (hr : (t.seg sn).has r = false) : memG t sn off size r = some (tSEGRIGHT, w64 off, w64 sn) := by
  simp [memG, Nat.not_lt.2 hl, hr]

/-- Within the limit and with the right, the alignment decides. -/
theorem memG_of_allowed {t : Thread} {sn off size : Nat} {r : Char} (hl : off + size ≤ (t.seg sn).limit)
    (hr : (t.seg sn).has r = true) :
    memG t sn off size r = if off % size = 0 then none else some (tALIGN, w64 off, w64 sn) := by
  simp [memG, Nat.not_lt.2 hl, hr]

/-- An access passes exactly when it lies within the segment, the right is held and it is aligned. -/
theorem memG_eq_none_iff {t : Thread} {sn off size : Nat} {r : Char} :
    memG t sn off size r = none ↔
      off + size ≤ (t.seg sn).limit ∧ (t.seg sn).has r = true ∧ off % size = 0 := by
  rcases Nat.lt_or_ge (t.seg sn).limit (off + size) with hl | hl
  · simp [memG_of_limit hl, Nat.not_le.2 hl]
  · cases hr : (t.seg sn).has r with
    | false => simp [memG_of_right hl hr]
    | true => simp [memG_of_allowed hl hr, hl]

/-- The trap of a failed access names the first check that fails, with the offset and the segment number. -/
theorem memG_eq_some {t : Thread} {sn off size code : Nat} {r : Char} {addr aux : Word}
    (h : memG t sn off size r = some (code, addr, aux)) :
    addr = w64 off ∧ aux = w64 sn ∧
      ((code = tSEGLIM ∧ (t.seg sn).limit < off + size) ∨
       (code = tSEGRIGHT ∧ off + size ≤ (t.seg sn).limit ∧ (t.seg sn).has r = false) ∨
       (code = tALIGN ∧ off + size ≤ (t.seg sn).limit ∧ (t.seg sn).has r = true ∧ off % size ≠ 0)) := by
  rcases Nat.lt_or_ge (t.seg sn).limit (off + size) with hl | hl
  · rw [memG_of_limit hl] at h; cases h
    exact ⟨rfl, rfl, .inl ⟨rfl, hl⟩⟩
  · cases hr : (t.seg sn).has r with
    | false =>
      rw [memG_of_right hl hr] at h; cases h
      exact ⟨rfl, rfl, .inr (.inl ⟨rfl, hl, rfl⟩)⟩
    | true =>
      rw [memG_of_allowed hl hr] at h
      split at h
      · cases h
      · next ha => cases h; exact ⟨rfl, rfl, .inr (.inr ⟨rfl, hl, rfl, ha⟩)⟩

/-- A negative sum fails the limit of every segment within the 57-bit address space. -/
theorem memG_of_negative {t : Thread} {x : Word} {imm : Int} {sn size : Nat} {r : Char}
    (hneg : (x.toNat : Int) + imm < 0) (himm : -(2 ^ 40) ≤ imm) (hlim : (t.seg sn).limit ≤ 2 ^ 57) :
    memG t sn (gOffset x imm) size r = some (tSEGLIM, w64 (gOffset x imm), w64 sn) := by
  have hoff := gOffset_of_negative hneg himm
  exact memG_of_limit (by omega)

/-! ### The checks of a local operand (R134, R136, R248) -/

/-- A pointer at a core outside the partition is refused. -/
theorem State.memL_of_no_target {s : State} {tn size : Nat} {p : Word}
    (hc : s.coreAt tn (ptrY p) (ptrX p) (ptrC p) = none) :
    s.memL tn p size = .error (tPTRRANGE, w64 (ptrOff p), 0) := by
  simp [State.memL, hc]

/-- A width outside 6 to 21, or an extent past the target's public window, is refused. -/
theorem State.memL_of_range {s : State} {tn size tc : Nat} {p : Word}
    (hc : s.coreAt tn (ptrY p) (ptrX p) (ptrC p) = some tc)
    (hr : ptrW p < 6 ∨ 21 < ptrW p ∨ (s.core tc).pubWin < ptrOff p + size) :
    s.memL tn p size = .error (tPTRRANGE, w64 (ptrOff p), 0) := by
  simp [State.memL, hc, or_assoc, hr]

/-- Within the public window, the alignment decides. -/
theorem State.memL_of_in_window {s : State} {tn size tc : Nat} {p : Word}
    (hc : s.coreAt tn (ptrY p) (ptrX p) (ptrC p) = some tc) (hlo : 6 ≤ ptrW p) (hhi : ptrW p ≤ 21)
    (hwin : ptrOff p + size ≤ (s.core tc).pubWin) :
    s.memL tn p size =
      if ptrOff p % size = 0 then .ok (tc, ptrOff p) else .error (tALIGN, w64 (ptrOff p), 0) := by
  simp [State.memL, hc, Nat.not_lt.2 hlo, Nat.not_lt.2 hhi, Nat.not_lt.2 hwin]

/-- The three outcomes of a local operand's first checks: no target, a bad range, or an extent within the window. -/
theorem State.memL_cases (s : State) (tn : Nat) (p : Word) (size : Nat) :
    s.coreAt tn (ptrY p) (ptrX p) (ptrC p) = none ∨
    ∃ tc, s.coreAt tn (ptrY p) (ptrX p) (ptrC p) = some tc ∧
      ((ptrW p < 6 ∨ 21 < ptrW p ∨ (s.core tc).pubWin < ptrOff p + size) ∨
       (6 ≤ ptrW p ∧ ptrW p ≤ 21 ∧ ptrOff p + size ≤ (s.core tc).pubWin)) := by
  cases hc : s.coreAt tn (ptrY p) (ptrX p) (ptrC p) with
  | none => exact .inl rfl
  | some tc => exact .inr ⟨tc, rfl, by omega⟩

/-- A local access passes exactly when its target, width, window and alignment pass. -/
theorem State.memL_eq_ok_iff {s : State} {tn size tc off : Nat} {p : Word} :
    s.memL tn p size = .ok (tc, off) ↔
      s.coreAt tn (ptrY p) (ptrX p) (ptrC p) = some tc ∧ off = ptrOff p ∧ 6 ≤ ptrW p ∧ ptrW p ≤ 21 ∧
        ptrOff p + size ≤ (s.core tc).pubWin ∧ ptrOff p % size = 0 := by
  constructor
  · intro h
    obtain hc | ⟨tc', hc, hr | ⟨hlo, hhi, hwin⟩⟩ := s.memL_cases tn p size
    · rw [State.memL_of_no_target hc] at h; cases h
    · rw [State.memL_of_range hc hr] at h; cases h
    · rw [State.memL_of_in_window hc hlo hhi hwin] at h
      split at h
      · next ha => cases h; exact ⟨hc, rfl, hlo, hhi, hwin, ha⟩
      · cases h
  · rintro ⟨hc, rfl, hlo, hhi, hwin, ha⟩
    rw [State.memL_of_in_window hc hlo hhi hwin, if_pos ha]

/-- The trap of a refused local access, with the offset: PTRRANGE for its target, width or window, and only then ALIGN. -/
theorem State.memL_eq_error {s : State} {tn size code : Nat} {p addr aux : Word}
    (h : s.memL tn p size = .error (code, addr, aux)) :
    addr = w64 (ptrOff p) ∧ aux = 0 ∧
      ((code = tPTRRANGE ∧ (s.coreAt tn (ptrY p) (ptrX p) (ptrC p) = none ∨
          ∃ tc, s.coreAt tn (ptrY p) (ptrX p) (ptrC p) = some tc ∧
            (ptrW p < 6 ∨ 21 < ptrW p ∨ (s.core tc).pubWin < ptrOff p + size))) ∨
       (code = tALIGN ∧ ptrOff p % size ≠ 0 ∧ ∃ tc, s.coreAt tn (ptrY p) (ptrX p) (ptrC p) = some tc ∧
          6 ≤ ptrW p ∧ ptrW p ≤ 21 ∧ ptrOff p + size ≤ (s.core tc).pubWin)) := by
  obtain hc | ⟨tc, hc, hr | ⟨hlo, hhi, hwin⟩⟩ := s.memL_cases tn p size
  · rw [State.memL_of_no_target hc] at h; cases h
    exact ⟨rfl, rfl, .inl ⟨rfl, .inl hc⟩⟩
  · rw [State.memL_of_range hc hr] at h; cases h
    exact ⟨rfl, rfl, .inl ⟨rfl, .inr ⟨tc, hc, hr⟩⟩⟩
  · rw [State.memL_of_in_window hc hlo hhi hwin] at h
    split at h
    · cases h
    · next ha => cases h; exact ⟨rfl, rfl, .inr ⟨rfl, ha, tc, hc, hlo, hhi, hwin⟩⟩

/-- A thread's local access that passes the checks is refused exactly when its thread has lost the target core. -/
theorem State.memLAt_of_ok {s : State} {t : Thread} {p : Word} {size tc off : Nat}
    (h : s.memL t.tenant p size = .ok (tc, off)) :
    s.memLAt t p size = if t.want = some (.lost tc) then .error (tPTRRANGE, w64 off, 0) else .ok (tc, off) := by
  simp [State.memLAt, h]

/-- A thread's local access that fails the checks fails alike. -/
theorem State.memLAt_of_error {s : State} {t : Thread} {p : Word} {size : Nat} {e : Nat × Word × Word}
    (h : s.memL t.tenant p size = .error e) : s.memLAt t p size = .error e := by
  simp [State.memLAt, h]

/-- A thread's local access passes exactly when the checks pass and its thread has not lost the target core (R248). -/
theorem State.memLAt_eq_ok_iff {s : State} {t : Thread} {p : Word} {size tc off : Nat} :
    s.memLAt t p size = .ok (tc, off) ↔ s.memL t.tenant p size = .ok (tc, off) ∧ t.want ≠ some (.lost tc) := by
  cases hm : s.memL t.tenant p size with
  | error e => simp [State.memLAt_of_error hm]
  | ok q =>
    obtain ⟨tc', off'⟩ := q
    rw [State.memLAt_of_ok hm]
    split
    · next hw => simp only [reduceCtorEq, false_iff]; rintro ⟨⟨⟩, hn⟩; exact hn hw
    · next hw =>
      constructor
      · rintro ⟨⟩; exact ⟨rfl, hw⟩
      · exact And.left

/-- A thread's local access is refused by the checks, or as one outside the window where its thread lost the target core. -/
theorem State.memLAt_eq_error_iff {s : State} {t : Thread} {p : Word} {size code : Nat} {addr aux : Word} :
    s.memLAt t p size = .error (code, addr, aux) ↔ s.memL t.tenant p size = .error (code, addr, aux) ∨
      ∃ tc off, s.memL t.tenant p size = .ok (tc, off) ∧ t.want = some (.lost tc) ∧ code = tPTRRANGE ∧
        addr = w64 off ∧ aux = 0 := by
  cases hm : s.memL t.tenant p size with
  | error e => simp [State.memLAt_of_error hm]
  | ok q =>
    obtain ⟨tc', off'⟩ := q
    rw [State.memLAt_of_ok hm]
    split
    · next hw =>
      constructor
      · rintro ⟨⟩; exact .inr ⟨tc', off', rfl, hw, rfl, rfl, rfl⟩
      · rintro (⟨⟨⟩⟩ | ⟨tc, off, ⟨⟩, -, rfl, rfl, rfl⟩); rfl
    · next hw =>
      constructor
      · rintro ⟨⟩
      · rintro (⟨⟨⟩⟩ | ⟨tc, off, ⟨⟩, hl, -⟩); exact absurd hl hw

/-- Settles O10, from the address arithmetic of a global operand and the outcomes of `memG`, `memL` and `memLAt`. -/
theorem accessChecks : Obligations.AccessChecks := by
  unfold Obligations.AccessChecks
  refine ⟨fun t x imm sn size n r => ⟨gOffset_cast x imm, rfl, memG_of_negative, ?_⟩,
    fun t sn off size r => ⟨memG_eq_none_iff, fun _ _ _ => memG_eq_some⟩,
    fun s tn p size tc off => State.memL_eq_ok_iff, fun s tn p size code addr aux => State.memL_eq_error,
    fun s t p size tc off => State.memLAt_eq_ok_iff, fun s t p size code addr aux => State.memLAt_eq_error_iff⟩
  rintro hbase hn rfl halign
  exact vaOf_within_line hbase hn halign

end Sys2Proof.Machine
end

section
/-!
SUPPORT. How a two- or three-address instruction reads its operands, the reductions of R149 as truncation and extension,
quotient and remainder as the library's divisions (R152), and O60.
-/
namespace Sys2Proof.Machine
open Sys2Proof

/-! ### Two- and three-address instructions (R149) -/

/-- Without special operands, an instruction of the row rw, rd, rd reads the registers of its fields and changes nothing. -/
theorem State.readVals_of_twoThree {i : Instr} {fo : Form} {f : Fields} (hform : i.form = some fo)
    (hroles : i.roles fo f = (if f.three then .wr else .rw, .rd, .rd)) (hf : plainFields f)
    (s : State) (c k : Nat) (t : Thread) :
    s.readVals i c k t f =
      (⟨s.getG c t f.d, s.getG c t f.a, if f.three then s.getG c t f.b else TWord.zero⟩, s) := by
  obtain ⟨hd, ha, hb⟩ := hf
  cases h3 : f.three <;> simp [State.readVals, hform, hroles, hd, ha, hb, h3]

/-- An instruction of the row rw, rd, rd whose result is `g` of its operands x and y, with both taints, is a value form. -/
theorem computes2_of_compute {mk : Fields → Instr} {g : Fields → Word → Word → Word} {fo : Form}
    (hform : ∀ f, (mk f).form = some fo)
    (hroles : ∀ f, (mk f).roles fo f = (if f.three then .wr else .rw, .rd, .rd))
    (hexec : ∀ f s, exec (mk f) s = compute (mk f) f s (fun v => ⟨g f (v.x f).v (v.y f).v, (v.x f).t || (v.y f).t⟩)) :
    Computes2 mk g := by
  intro f s c k t hf hgo
  rw [hexec, compute_plain hgo hf _ (State.readVals_of_twoThree (hform f) (hroles f) hf s c k t)]
  cases h3 : f.three <;> simp [Vals.x, Vals.y, State.opX, State.opY, h3]

/-- The roles of a row rw, rd, rd with an optional third operand. -/
theorem Form.rolesOf_twoThree (fmt : Fmt) (md : Mods) (imm : ImmK) (three : Bool) :
    (Form.mk fmt .opt md .rw .rd .rd imm).rolesOf three = (if three then .wr else .rw, .rd, .rd) := by
  cases three <;> rfl

/-- R152: DIV completes with the quotient, and never traps. -/
theorem computes2_div : Computes2 .div divW :=
  computes2_of_compute Instr.form_div (fun f => (Instr.roles_div f f _).trans (Form.rolesOf_twoThree _ _ _ f.three)) exec_div

/-- R152: REM completes with the remainder, and never traps. -/
theorem computes2_rem : Computes2 .rem remW :=
  computes2_of_compute Instr.form_rem (fun f => (Instr.roles_rem f f _).trans (Form.rolesOf_twoThree _ _ _ f.three)) exec_rem

/-! ### The reductions of .w and .u (R149) -/

/-- The signed value of the low 32 bits. -/
theorem sgn32_toNat (x : Word) : sgn 32 x.toNat = (x.setWidth 32).toInt := by
  simp only [sgn, BitVec.toInt_eq_toNat_cond, BitVec.toNat_setWidth]
  split <;> split <;> omega

theorem low32s_eq_low32 (x : Word) : low32s x = low32 true x := by
  rw [low32s, sgn32_toNat]
  rfl

theorem low32u_eq_low32 (x : Word) : low32u x = low32 false x := by
  apply BitVec.eq_of_toNat_eq
  simp [low32u, low32, w64]

theorem reduceW_eq_red149 (f : Fields) (x : Word) : reduceW f x = red149 f x := by
  unfold reduceW red149
  cases modU f with
  | true => rw [low32u_eq_low32]; rfl
  | false => rw [low32s_eq_low32]; rfl

theorem resultW_eq_res149 (f : Fields) (x : Word) : resultW f x = res149 f x := by
  rw [resultW, res149, low32s_eq_low32]

/-- Without .w an operand and a result stay as they are. -/
theorem red149_of_not_w {f : Fields} (hw : modW f = false) (x : Word) : red149 f x = x := by simp [red149, hw]
theorem res149_of_not_w {f : Fields} (hw : modW f = false) (x : Word) : res149 f x = x := by simp [res149, hw]

/-- With .w and without .u an operand is the sign extension of its low 32 bits; with both, their zero extension. -/
theorem red149_of_signed_w {f : Fields} {x : Word} {lo : BitVec 32} (hu : modU f = false) (hw : modW f = true)
    (hx : x.setWidth 32 = lo) : red149 f x = lo.signExtend 64 := by simp [red149, low32, hu, hw, hx]
theorem red149_of_unsigned_w {f : Fields} {x : Word} {lo : BitVec 32} (hu : modU f = true) (hw : modW f = true)
    (hx : x.setWidth 32 = lo) : red149 f x = lo.setWidth 64 := by simp [red149, low32, hu, hw, hx]

/-- With .w a result is the sign extension of its low 32 bits. -/
theorem res149_of_w {f : Fields} (hw : modW f = true) (x : Word) : res149 f x = (x.setWidth 32).signExtend 64 := by
  simp [res149, low32, hw]

/-- A word that is the sign extension of its low half is written as it is, with .w and without. -/
theorem res149_of_narrow (f : Fields) {x : Word} (hx : (x.setWidth 32).signExtend 64 = x) : res149 f x = x := by
  cases hw : modW f with
  | false => exact res149_of_not_w hw x
  | true => rw [res149_of_w hw, hx]

/-! ### Quotient and remainder (R152) -/

theorem asInt_of_signed {f : Fields} (hu : modU f = false) (x : Word) : asInt f x = x.toInt := by simp [asInt, hu]
theorem asInt_of_unsigned {f : Fields} (hu : modU f = true) (x : Word) : asInt f x = (x.toNat : Int) := by simp [asInt, hu]

/-- An operand is zero as an integer, signed or not, exactly when it is the zero word. -/
theorem asInt_eq_zero_iff (f : Fields) (x : Word) : asInt f x = 0 ↔ x = 0 := by
  cases hu : modU f with
  | false => rw [asInt_of_signed hu, ← BitVec.toInt_inj]; rfl
  | true => rw [asInt_of_unsigned hu, Int.natCast_eq_zero, ← BitVec.toNat_inj]; rfl

/-- A zero divisor, in any form: all ones, and the reduced dividend. -/
theorem divW_of_zero {f : Fields} {y : Word} (hy : red149 f y = 0) (x : Word) : divW f x y = allOnes := by
  simp only [divW, reduceW_eq_red149, (asInt_eq_zero_iff f _).2 hy, if_true]
theorem remW_of_zero {f : Fields} {y : Word} (hy : red149 f y = 0) (x : Word) : remW f x y = res149 f (red149 f x) := by
  simp only [remW, reduceW_eq_red149, resultW_eq_res149, (asInt_eq_zero_iff f _).2 hy, if_true]

/-- Another divisor: the integer quotient and remainder of the reduced operands, truncated toward zero. -/
theorem divW_of_ne_zero {f : Fields} {y : Word} (hy : red149 f y ≠ 0) (x : Word) :
    divW f x y = res149 f (w64i ((asInt f (red149 f x)).tdiv (asInt f (red149 f y)))) := by
  simp only [divW, reduceW_eq_red149, resultW_eq_res149, mt (asInt_eq_zero_iff f _).1 hy, if_false]
theorem remW_of_ne_zero {f : Fields} {y : Word} (hy : red149 f y ≠ 0) (x : Word) :
    remW f x y = res149 f (w64i ((asInt f (red149 f x)).tmod (asInt f (red149 f y)))) := by
  simp only [remW, reduceW_eq_red149, resultW_eq_res149, mt (asInt_eq_zero_iff f _).1 hy, if_false]

/-- The truncated quotient and remainder of signed values are those of the library's signed division. -/
theorem w64i_tdiv_toInt (x y : Word) : w64i (x.toInt.tdiv y.toInt) = x.sdiv y := by
  rw [← BitVec.toInt_inj, BitVec.toInt_sdiv, w64i, BitVec.toInt_ofInt]
theorem w64i_tmod_toInt (x y : Word) : w64i (x.toInt.tmod y.toInt) = x.srem y := by
  rw [← BitVec.toInt_srem, w64i, BitVec.ofInt_toInt]

/-- The quotient and remainder of unsigned values are those of the library's unsigned division. -/
theorem w64i_tdiv_toNat (x y : Word) : w64i ((x.toNat : Int).tdiv y.toNat) = x / y := by
  rw [← Int.ofNat_tdiv, w64i, BitVec.ofInt_natCast, ← BitVec.toNat_udiv, BitVec.ofNat_toNat, BitVec.setWidth_eq]
theorem w64i_tmod_toNat (x y : Word) : w64i ((x.toNat : Int).tmod y.toNat) = x % y := by
  rw [← Int.ofNat_tmod, w64i, BitVec.ofInt_natCast, ← BitVec.toNat_umod, BitVec.ofNat_toNat, BitVec.setWidth_eq]

/-- Signed forms divide the reduced operands as signed words. -/
theorem divW_of_signed {f : Fields} (hu : modU f = false) {y : Word} (hy : red149 f y ≠ 0) (x : Word) :
    divW f x y = res149 f ((red149 f x).sdiv (red149 f y)) := by
  rw [divW_of_ne_zero hy, asInt_of_signed hu, asInt_of_signed hu, w64i_tdiv_toInt]
theorem remW_of_signed {f : Fields} (hu : modU f = false) {y : Word} (hy : red149 f y ≠ 0) (x : Word) :
    remW f x y = res149 f ((red149 f x).srem (red149 f y)) := by
  rw [remW_of_ne_zero hy, asInt_of_signed hu, asInt_of_signed hu, w64i_tmod_toInt]

/-- The forms with .u divide them as unsigned words. -/
theorem divW_of_unsigned {f : Fields} (hu : modU f = true) {y : Word} (hy : red149 f y ≠ 0) (x : Word) :
    divW f x y = res149 f (red149 f x / red149 f y) := by
  rw [divW_of_ne_zero hy, asInt_of_unsigned hu, asInt_of_unsigned hu, w64i_tdiv_toNat]
theorem remW_of_unsigned {f : Fields} (hu : modU f = true) {y : Word} (hy : red149 f y ≠ 0) (x : Word) :
    remW f x y = res149 f (red149 f x % red149 f y) := by
  rw [remW_of_ne_zero hy, asInt_of_unsigned hu, asInt_of_unsigned hu, w64i_tmod_toNat]

/-- A signed form at reduced operands `a` and `b`, `b` not zero. -/
theorem divRem_of_signed {f : Fields} (hu : modU f = false) {x y a b : Word} (hx : red149 f x = a) (hy : red149 f y = b)
    (hb : b ≠ 0) : divW f x y = res149 f (a.sdiv b) ∧ remW f x y = res149 f (a.srem b) := by
  subst hx hy
  exact ⟨divW_of_signed hu hb x, remW_of_signed hu hb x⟩

/-- A form with .u at reduced operands `a` and `b`, `b` not zero. -/
theorem divRem_of_unsigned {f : Fields} (hu : modU f = true) {x y a b : Word} (hx : red149 f x = a) (hy : red149 f y = b)
    (hb : b ≠ 0) : divW f x y = res149 f (a / b) ∧ remW f x y = res149 f (a % b) := by
  subst hx hy
  exact ⟨divW_of_unsigned hu hb x, remW_of_unsigned hu hb x⟩

/-! ### The rows of the table -/

/-- −2^63 divided by −1 wraps. -/
theorem divRem_intMin {f : Fields} (hu : modU f = false) (hw : modW f = false) :
    divW f 0x8000000000000000 0xFFFFFFFFFFFFFFFF = 0x8000000000000000 ∧
      remW f 0x8000000000000000 0xFFFFFFFFFFFFFFFF = 0 := by
  obtain ⟨hq, hr⟩ := divRem_of_signed hu (red149_of_not_w hw 0x8000000000000000)
    (red149_of_not_w hw 0xFFFFFFFFFFFFFFFF) (by decide)
  rw [hq, hr, res149_of_not_w hw, res149_of_not_w hw]
  decide

/-- With .w, −2^31 divided by −1 wraps in 32 bits, and the sign is extended. -/
theorem divRem_intMin_w {f : Fields} {x y : Word} (hu : modU f = false) (hw : modW f = true)
    (hx : x.setWidth 32 = 0x80000000#32) (hy : y.setWidth 32 = 0xFFFFFFFF#32) :
    divW f x y = 0xFFFFFFFF80000000 ∧ remW f x y = 0 := by
  obtain ⟨hq, hr⟩ := divRem_of_signed hu (red149_of_signed_w hu hw hx) (red149_of_signed_w hu hw hy) (by decide)
  rw [hq, hr, res149_of_w hw, res149_of_w hw]
  decide

/-- With .u and .w, the largest dividend divided by 1: the 32-bit quotient is written sign-extended. -/
theorem divRem_max_one_uw {f : Fields} {x y : Word} (hu : modU f = true) (hw : modW f = true)
    (hx : x.setWidth 32 = 0xFFFFFFFF#32) (hy : y.setWidth 32 = 1#32) :
    divW f x y = 0xFFFFFFFFFFFFFFFF ∧ remW f x y = 0 := by
  obtain ⟨hq, hr⟩ := divRem_of_unsigned hu (red149_of_unsigned_w hu hw hx) (red149_of_unsigned_w hu hw hy) (by decide)
  rw [hq, hr, res149_of_w hw, res149_of_w hw]
  decide

/-- −7 divided by 2, signed: the quotient is rounded toward zero, the remainder has the sign of the dividend. -/
theorem divRem_neg_seven_two {f : Fields} {x y : Word} (hu : modU f = false) (hx : red149 f x = -7)
    (hy : red149 f y = 2) : divW f x y = -3 ∧ remW f x y = -1 := by
  obtain ⟨hq, hr⟩ := divRem_of_signed hu hx hy (by decide)
  rw [hq, hr, res149_of_narrow f (by decide), res149_of_narrow f (by decide)]
  decide

/-- 2^64 − 7 divided by 2, unsigned. -/
theorem divRem_neg_seven_two_u {f : Fields} (hu : modU f = true) (hw : modW f = false) :
    divW f (-7) 2 = 0x7FFFFFFFFFFFFFFC ∧ remW f (-7) 2 = 1 := by
  obtain ⟨hq, hr⟩ := divRem_of_unsigned hu (red149_of_not_w hw (-7)) (red149_of_not_w hw 2) (by decide)
  rw [hq, hr, res149_of_not_w hw, res149_of_not_w hw]
  decide

/-- Settles O60: DIV and REM are value forms, and each row of the table is the library's division at the reduced operands. -/
theorem divisionTable : Obligations.DivisionTable := by
  unfold Obligations.DivisionTable
  refine ⟨computes2_div, computes2_rem, fun f x y =>
    ⟨fun hy => ⟨divW_of_zero hy x, remW_of_zero hy x⟩, ?_, divRem_intMin_w, divRem_max_one_uw, divRem_neg_seven_two, ?_⟩⟩
  · rintro hu hw rfl rfl
    exact divRem_intMin hu hw
  · rintro hu hw rfl rfl
    exact divRem_neg_seven_two_u hu hw

end Sys2Proof.Machine
end

section
/-!
SUPPORT. What changes of a group's members keep (R228, R271), the outcomes of TID, JOIN, LEAVE and GRPINFO (R233 to R235), the
fields of a thread id (R216), and O20.
-/
namespace Sys2Proof.Machine
open Sys2Proof

/-! ### What a change of membership keeps -/

/-- A part of the state that every turn of a loop keeps, the loop keeps. -/
theorem State.foldl_keeps {α β : Type} (part : State → β) {g : State → α → State} (hg : ∀ s x, part (g s x) = part s)
    (l : List α) (s : State) : part (l.foldl g s) = part s :=
  List.foldlRecOn (motive := fun u => part u = part s) l g rfl (fun u hu x _ => (hg u x).trans hu)

@[simp] theorem State.modObj_next (s : State) (l : Nat) (g : SyncObj → SyncObj) : (s.modObj l g).next = s.next := rfl
@[simp] theorem State.modObj_tenant (s : State) (l : Nat) (g : SyncObj → SyncObj) (n : Nat) :
    (s.modObj l g).tenant n = s.tenant n := rfl
@[simp] theorem State.setObj_next (s : State) (l : Nat) (o : SyncObj) : (s.setObj l o).next = s.next := rfl
@[simp] theorem State.sendReq_next (s : State) (q : SyncReq) : (s.sendReq q).2.next = s.next := rfl
@[simp] theorem State.setThread_next (s : State) (c k : Nat) (t : Thread) : (s.setThread c k t).next = s.next := rfl
@[simp] theorem State.modTenant_next (s : State) (n : Nat) (g : Tenant → Tenant) : (s.modTenant n g).next = s.next := rfl
@[simp] theorem State.tenant_modTenant_same (s : State) (n : Nat) (g : Tenant → Tenant) :
    (s.modTenant n g).tenant n = g (s.tenant n) := by rw [State.modTenant_eq, State.tenant_setTenant_same]
@[simp] theorem State.tenant_modThread (s : State) (c k : Nat) (g : Thread → Thread) (n : Nat) :
    (s.modThread c k g).tenant n = s.tenant n := by
  unfold State.modThread; split <;> rfl

/-- Changing sync objects one after the other keeps the next address and the tenants. -/
@[simp] theorem State.modObjs_next (s : State) (ls : List Nat) (g : SyncObj → SyncObj) :
    (ls.foldl (fun u l => u.modObj l g) s).next = s.next :=
  State.foldl_keeps State.next (fun u l => State.modObj_next u l g) ls s
@[simp] theorem State.modObjs_tenant (s : State) (ls : List Nat) (g : SyncObj → SyncObj) (n : Nat) :
    (ls.foldl (fun u l => u.modObj l g) s).tenant n = s.tenant n :=
  State.foldl_keeps (fun u => u.tenant n) (fun u l => State.modObj_tenant u l g n) ls s

@[simp] theorem State.rearm_next (s : State) (tn g : Nat) : (s.rearm tn g).next = s.next := by
  refine State.foldl_keeps State.next (fun u l => ?_) _ s
  split <;> rfl

theorem State.newGroup_next {s u : State} {tn count g : Nat} (h : s.newGroup tn count = some (g, u)) : u.next = s.next := by
  unfold State.newGroup at h
  dsimp only at h
  split at h
  · cases h
  · cases h; simp

@[simp] theorem State.leaveGroup_next (s : State) (c k : Nat) : (s.leaveGroup c k).next = s.next := by
  unfold State.leaveGroup
  split
  · rfl
  · dsimp only
    split
    · rfl
    · rw [State.foldl_keeps State.next]
      · simp
      · intro u l
        split
        · rfl
        · split <;> rfl

/-! ### The outcomes of the instructions -/

/-- An instruction whose body ends with an answer after effects that have led to `u`. -/
theorem issue_answers {i : Instr} {s u : State} {c k : Nat} {t : Thread} {f : Fields} {w : TWord} (h : Goes i s c k t)
    {body : Nat → Nat → Thread → State → State} (hbody : body c k t s = (u.writeReg c k t f.d f.sd w).finish c k)
    (hnext : u.next = s.next) : issue i s body = .next (u.answers s c k t f w) := by
  rw [issue_goes h, hbody, State.answers_eq c k t f w hnext]

/-- TID answers with the thread's id, untainted. -/
theorem exec_tid_goes {f : Fields} {s : State} {c k : Nat} {t : Thread} (h : Goes (.tid f) s c k t) :
    exec (.tid f) s = .next (s.answers s c k t f ⟨s.tid c k t, false⟩) := by
  rw [exec_tid, execTid]
  exact issue_answers h rfl rfl

section
variable {f : Fields} {s u : State} {c k : Nat} {t : Thread} {v : Vals}

theorem next_of_readVals {i : Instr} (hr : s.readVals i c k t f = (v, u)) : u.next = s.next := by
  rw [← State.readVals_next s i c k t f, hr]

/-- JOIN of an id that is out of range, or neither zero nor live. -/
theorem exec_join_of_dead (h : Goes (.join f) s c k t) (hr : s.readVals (.join f) c k t f = (v, u))
    (hg : 65535 < v.a.v.toNat ∨
      (v.a.v.toNat ≠ 0 ∧ (SMap.get? (u.tenant t.tenant).groups v.a.v.toNat).isSome = false)) :
    exec (.join f) s = .next (u.answers s c k t f (groupFail 2)) := by
  rw [exec_join, execJoin]
  refine issue_answers h ?_ (next_of_readVals hr)
  simp only [hr]
  rw [if_pos (by simpa using hg)]

/-- JOIN by a thread that has a group. -/
theorem exec_join_of_member (h : Goes (.join f) s c k t) (hr : s.readVals (.join f) c k t f = (v, u))
    (hle : v.a.v.toNat ≤ 65535)
    (hg : v.a.v.toNat = 0 ∨ (SMap.get? (u.tenant t.tenant).groups v.a.v.toNat).isSome = true)
    (hmember : taskGroup t.task ≠ 0) : exec (.join f) s = .next (u.answers s c k t f (groupFail 1)) := by
  rw [exec_join, execJoin]
  refine issue_answers h ?_ (next_of_readVals hr)
  simp only [hr]
  rw [if_neg (by rcases hg with hg | hg <;> simp [Nat.not_lt.2 hle, hg]), if_pos hmember]

/-- JOIN with id 0 where every id is live. -/
theorem exec_join_of_full (h : Goes (.join f) s c k t) (hr : s.readVals (.join f) c k t f = (v, u))
    (hg : v.a.v.toNat = 0) (hfree : taskGroup t.task = 0) (hfull : u.newGroup t.tenant 1 = none) :
    exec (.join f) s = .next (u.answers s c k t f (groupFail 3)) := by
  rw [exec_join, execJoin]
  refine issue_answers h ?_ (next_of_readVals hr)
  simp [hr, hg, hfree, hfull]

/-- JOIN with id 0 makes the thread the one member of a new group. -/
theorem exec_join_of_new (h : Goes (.join f) s c k t) (hr : s.readVals (.join f) c k t f = (v, u))
    (hg : v.a.v.toNat = 0) (hfree : taskGroup t.task = 0) {n : Nat} {u' : State}
    (hnew : u.newGroup t.tenant 1 = some (n, u')) :
    exec (.join f) s = .next ((u'.modThread c k (fun t => { t with task := taskSetGroup t.task n })).answers s c k t f
      ⟨w64 n, false⟩) := by
  rw [exec_join, execJoin]
  refine issue_answers h ?_ ?_
  · simp [hr, hg, hfree, hnew]
  · rw [State.modThread_next, State.newGroup_next hnew, next_of_readVals hr]

/-- The state after a thread of core `c` and slot `k` has joined the live group `g`: the PHASE objects bound to the group note
the thread (R271), the group has one member more, and the task word names the group. -/
def State.joined (u : State) (c k : Nat) (t : Thread) (g : Nat) : State :=
  (((u.boundObjs t.tenant g).foldl
    (fun s l => s.modObj l (fun o => { o with joined := o.joined ++ [u.tid c k t] })) u).modTenant t.tenant
      (fun x => { x with groups := SMap.set x.groups g (SMap.get x.groups g 0 + 1) })).modThread c k
        (fun t => { t with task := taskSetGroup t.task g })

@[simp] theorem State.joined_next (u : State) (c k : Nat) (t : Thread) (g : Nat) : (u.joined c k t g).next = u.next := by
  simp [State.joined]

/-- Joining raises the group's count by one. -/
theorem State.joined_count (u : State) (c k : Nat) (t : Thread) (g : Nat) :
    SMap.get ((u.joined c k t g).tenant t.tenant).groups g 0 = SMap.get (u.tenant t.tenant).groups g 0 + 1 := by
  simp [State.joined]

/-- JOIN of a live group by a thread that has none. -/
theorem exec_join_of_live (h : Goes (.join f) s c k t) (hr : s.readVals (.join f) c k t f = (v, u))
    (hpos : v.a.v.toNat ≠ 0) (hle : v.a.v.toNat ≤ 65535)
    (hlive : (SMap.get? (u.tenant t.tenant).groups v.a.v.toNat).isSome = true) (hfree : taskGroup t.task = 0) :
    exec (.join f) s =
      .next ((u.joined c k t v.a.v.toNat).answers s c k t f ⟨w64 v.a.v.toNat, false⟩) := by
  rw [exec_join, execJoin]
  refine issue_answers h ?_ ((State.joined_next ..).trans (next_of_readVals hr))
  simp only [hr]
  rw [if_neg (by simp [Nat.not_lt.2 hle, hlive]), if_neg (not_not.2 hfree), if_neg hpos, State.joined]

/-- LEAVE of an id that is out of range or not live. -/
theorem exec_leave_of_dead (h : Goes (.leave f) s c k t) (hr : s.readVals (.leave f) c k t f = (v, u))
    (hg : 65535 < v.a.v.toNat ∨ (SMap.get? (u.tenant t.tenant).groups v.a.v.toNat).isSome = false) :
    exec (.leave f) s = .next (u.answers s c k t f (groupFail 2)) := by
  rw [exec_leave, execLeave]
  refine issue_answers h ?_ (next_of_readVals hr)
  simp only [hr]
  rw [if_pos (by simpa using hg)]

/-- LEAVE of a live group that is not the thread's. -/
theorem exec_leave_of_other (h : Goes (.leave f) s c k t) (hr : s.readVals (.leave f) c k t f = (v, u))
    (hle : v.a.v.toNat ≤ 65535) (hlive : (SMap.get? (u.tenant t.tenant).groups v.a.v.toNat).isSome = true)
    (hother : v.a.v.toNat ≠ taskGroup t.task) : exec (.leave f) s = .next (u.answers s c k t f (groupFail 1)) := by
  rw [exec_leave, execLeave]
  refine issue_answers h ?_ (next_of_readVals hr)
  simp only [hr]
  rw [if_neg (by simp [Nat.not_lt.2 hle, hlive]), if_pos hother]

/-- LEAVE of the thread's own live group. -/
theorem exec_leave_of_own (h : Goes (.leave f) s c k t) (hr : s.readVals (.leave f) c k t f = (v, u))
    (hle : v.a.v.toNat ≤ 65535) (hlive : (SMap.get? (u.tenant t.tenant).groups v.a.v.toNat).isSome = true)
    (hown : v.a.v.toNat = taskGroup t.task) :
    exec (.leave f) s = .next ((u.leaveGroup c k).answers s c k t f TWord.zero) := by
  rw [exec_leave, execLeave]
  refine issue_answers h ?_ ((State.leaveGroup_next u c k).trans (next_of_readVals hr))
  simp only [hr]
  rw [if_neg (by simp [Nat.not_lt.2 hle, hlive]), if_neg (not_not.2 hown)]

/-- The group that GRPINFO asks for: the thread's own where the operand is zero (R235). -/
def askedGroup (t : Thread) (x : Word) : Nat := if x = 0 then taskGroup t.task else x.toNat

/-- GRPINFO of a live group: V, the id and the count. -/
theorem exec_grpinfo_of_live (h : Goes (.grpinfo f) s c k t) (hr : s.readVals (.grpinfo f) c k t f = (v, u)) {n : Nat}
    (hlive : SMap.get? (u.tenant t.tenant).groups (askedGroup t v.a.v) = some n) :
    exec (.grpinfo f) s =
      .next (u.answers s c k t f ⟨w64 (2 ^ 63 + askedGroup t v.a.v * 2 ^ 32 + n), true⟩) := by
  rw [exec_grpinfo, execGrpinfo]
  refine issue_answers h ?_ (next_of_readVals hr)
  rw [askedGroup] at hlive ⊢
  simp only [hr, hlive]

/-- GRPINFO of a group that is not live: the id cut to 16 bits. -/
theorem exec_grpinfo_of_dead (h : Goes (.grpinfo f) s c k t) (hr : s.readVals (.grpinfo f) c k t f = (v, u))
    (hdead : SMap.get? (u.tenant t.tenant).groups (askedGroup t v.a.v) = none) :
    exec (.grpinfo f) s = .next (u.answers s c k t f ⟨w64 (askedGroup t v.a.v % 65536 * 2 ^ 32), true⟩) := by
  rw [exec_grpinfo, execGrpinfo]
  refine issue_answers h ?_ (next_of_readVals hr)
  rw [askedGroup] at hdead ⊢
  simp only [hr, hdead]

end

/-! ### The layout of a thread id (R216) -/

/-- Each field of a thread id lies at its bits. -/
theorem mkTid_fields {tn y x c k inc : Nat} (htn : tn < 16) (hy : y < 16) (hx : x < 16) (hc : c < 8) (hk : k < 64)
    (hinc : inc < 2 ^ 32) :
    let w := mkTid tn y x c k inc
    w.bits 63 60 = tn ∧ w.bits 59 56 = y ∧ w.bits 55 52 = x ∧ w.bits 51 49 = c ∧ w.bits 48 43 = k ∧
      w.bits 42 32 = 0 ∧ w.bits 31 0 = inc := by
  have hw : (mkTid tn y x c k inc).toNat =
      tn * 2 ^ 60 + y * 2 ^ 56 + x * 2 ^ 52 + c * 2 ^ 49 + k * 2 ^ 43 + inc := by
    rw [mkTid, w64_toNat, Nat.mod_eq_of_lt (by omega)]
  simp only [Word.bits, bitsOf, hw]
  omega

/-- Settles O20: each case of JOIN, LEAVE and GRPINFO ends with an answer, and the fields of a thread id lie within their bits. -/
theorem groups : Obligations.Groups := by
  unfold Obligations.Groups
  refine ⟨fun f s c k t h => exec_tid_goes h, ?_, ?_, ?_, ?_⟩
  · intro s c k t y x hyx htn hy hx hk hinc
    have hid : s.tid c k t = mkTid t.tenant y x (c % 8) k t.inc := by rw [State.tid, State.tidAt, hyx]
    obtain ⟨h1, h2, h3, h4, h5, h6, h7⟩ := mkTid_fields htn hy hx (Nat.mod_lt c (by decide)) hk hinc
    rw [← hid] at h1 h2 h3 h4 h5 h6 h7
    exact ⟨h1, h2, h3, h4, h5, h6, h7, fun _ => rfl⟩
  · intro f s c k t h
    exact ⟨exec_join_of_dead h rfl, exec_join_of_member h rfl, exec_join_of_full h rfl,
      fun _ _ hg hfree hnew => exec_join_of_new h rfl hg hfree hnew,
      fun hpos hle hlive hfree => ⟨_, exec_join_of_live h rfl hpos hle hlive hfree, State.joined_count ..⟩⟩
  · intro f s c k t h
    exact ⟨exec_leave_of_dead h rfl, exec_leave_of_other h rfl, exec_leave_of_own h rfl⟩
  · intro f s c k t h
    exact ⟨fun _ hlive => exec_grpinfo_of_live h rfl hlive, exec_grpinfo_of_dead h rfl⟩

end Sys2Proof.Machine
end

section
/-!
SUPPORT. The turn after every step (R225, R226, R248), and O55.
-/
namespace Sys2Proof.Machine
open Sys2Proof

/-- After a step in which no core has been given the turn, none has it. -/
theorem State.endStep_turnOk (s : State) : s.endStep.TurnOk := by
  intro c k h
  cases h

/-- The outcome of an instruction or event leaves no turn. -/
theorem endOut_turnOk {o : Out} {t : State} (h : endOut o = .next t) : t.TurnOk := by
  obtain ⟨s, -, rfl⟩ := endOut_next h
  exact s.endStep_turnOk

/-- The turn that a choice gives is one that the core may take in this cycle. -/
theorem State.turnOk_of_choice {s : State} {c k : Nat} (h : s.choice = .issue c k) (n : Nat) :
    ({ s with cur := some (c, k), tick := n } : State).TurnOk := by
  intro c' k' h'
  cases h'
  have hm := choice_issue h
  obtain ⟨hd, hr⟩ := issuers_ready hm
  exact ⟨hd, hr, (issueSlot_turn s c _ n).trans (issuers_slot hm)⟩

/-- Settles O55: a step either ends with no turn given, or gives the one that the choice has made. -/
theorem turnKept : Obligations.TurnKept := by
  unfold Obligations.TurnKept
  intro s t h
  unfold step at h
  split at h
  · split at h
    · exact endOut_turnOk h
    · cases h; exact State.endStep_turnOk _
  · split at h
    · exact endOut_turnOk h
    · next hc => cases h; exact State.turnOk_of_choice hc _
    · cases h; exact State.endStep_turnOk _

end Sys2Proof.Machine
end

section
/-!
SUPPORT. The encoder as prefixes and a base parcel, how the decoder takes them apart again (R14 to R22), and O53.
-/
namespace Sys2Proof

/-! ### The rows of the opcode map -/

/-- A selector's bound lies within the register fields. -/
def Role.small (r : Role) : Bool :=
  match r with
  | .sel m | .is m => m < 128
  | _ => true

/-- The roles a format has room for: its selectors are small, and a field that it does not hold is unused (R15, R18). -/
def rolesFit (fm : Fmt) (r : Role × Role × Role) : Bool :=
  r.1.small && r.2.1.small && r.2.2.small &&
    match fm with
    | .N | .J => r.1 = .none && r.2.1 = .none
    | .K => r.2.1 = .none
    | _ => true

/-- A row as the encoder needs it: its roles fit its format, and a format without register fields takes no XOPD. -/
def Form.fits (fo : Form) : Bool :=
  rolesFit fo.fmt (fo.rd, fo.ra, fo.rb) &&
    match fo.fmt with
    | .N | .J => fo.x = .no
    | _ => true

/-- Every row of the opcode map fits. -/
theorem Instr.form_fits {i : Instr} {fo : Form} (h : i.form = some fo) : fo.fits = true := by
  cases i <;> cases h <;> rfl

theorem Form.rolesFit_rolesOf {fo : Form} (h : fo.fits = true) (three : Bool) :
    rolesFit fo.fmt (fo.rolesOf three) = true := by
  obtain ⟨fm, x, md, d, a, b, imm⟩ := fo
  simp only [Form.rolesOf]
  split
  · cases fm <;> simp_all [Form.fits, rolesFit, Role.small]
  · cases fm <;> simp_all [Form.fits, rolesFit, Role.small]
  · simp_all [Form.fits]

/-- The roles of an instruction fit its format. -/
theorem Instr.roles_fit {i : Instr} {fo : Form} (h : i.form = some fo) (f : Fields) :
    rolesFit fo.fmt (i.roles fo f) = true := by
  cases i
  case mma g => cases h; simp only [Instr.roles]; split <;> split <;> rfl
  case mstore g => cases h; simp only [Instr.roles]; split <;> rfl
  case saread g => cases h; simp only [Instr.roles]; split <;> rfl
  all_goals exact Form.rolesFit_rolesOf (Instr.form_fits h) f.three

/-- What has an encoding has a row and fields. -/
theorem Instr.form_fields_of_opc {i : Instr} {p : Nat × Nat} (h : i.opc = some p) :
    ∃ fo f, i.form = some fo ∧ i.fields = some f := by
  cases i <;> cases h <;> exact ⟨_, _, rfl, rfl⟩

/-- The opcode map at the page and op6 of a well-formed instruction (R28 to R34). -/
theorem opMap_of_opc (i : Instr) : Laws.Coding.Statement i := by
  cases i
  case fence f => exact Laws.Coding.fence f
  case fenceX f => exact Laws.Coding.fenceX f
  case fenceA f => exact Laws.Coding.fenceA f
  case fenceS f => exact Laws.Coding.fenceS f
  any_goals exact Laws.Coding.of_event rfl
  all_goals exact Laws.Coding.of_map rfl rfl rfl rfl

/-- The opcode map answers with one row, whatever the fields; op6 51 of page 0, the fences, looks at d. -/
theorem opMap_row {i : Instr} {f g : Fields} {pg op : Nat} (h : opMap pg op f = some i) (hd : pg = 0 ∧ op = 51 → g.d = f.d) :
    ∃ j, opMap pg op g = some j ∧ j.form = i.form ∧ ∀ fo x, j.roles fo x = i.roles fo x := by
  unfold opMap at h ⊢
  split at h
  · unfold page0 at h ⊢
    split at h
    case h_51 =>
      rw [hd ⟨rfl, rfl⟩]
      split at h <;> cases h <;> exact ⟨_, rfl, rfl, fun _ _ => rfl⟩
    all_goals cases h <;> exact ⟨_, rfl, rfl, fun _ _ => rfl⟩
  · unfold page1 at h ⊢; split at h <;> cases h <;> exact ⟨_, rfl, rfl, fun _ _ => rfl⟩
  · unfold page2 at h ⊢; split at h <;> cases h <;> exact ⟨_, rfl, rfl, fun _ _ => rfl⟩
  · unfold page3 at h ⊢; split at h <;> cases h <;> exact ⟨_, rfl, rfl, fun _ _ => rfl⟩
  · unfold page4 at h ⊢; split at h <;> cases h <;> exact ⟨_, rfl, rfl, fun _ _ => rfl⟩
  · unfold page5 at h ⊢; split at h <;> cases h <;> exact ⟨_, rfl, rfl, fun _ _ => rfl⟩
  · unfold page6 at h ⊢; split at h <;> cases h <;> exact ⟨_, rfl, rfl, fun _ _ => rfl⟩
  · cases h

/-! ### The legal fields -/

theorem Mods.ok_lt {m : Mods} {hi lo : Nat} (h : m.ok hi lo = true) : hi < 8 ∧ lo < 8 := by
  cases m <;> simp [Mods.ok] at h <;> omega

theorem Role.ok_lt {r : Role} {n : Nat} {s anyS : Bool} (hr : r.small = true) (h : r.ok n s anyS = true) : n < 128 := by
  cases r <;> cases s <;> simp [Role.ok, Role.small] at h hr <;> omega

theorem Role.ok_none {n : Nat} {s anyS : Bool} (h : Role.none.ok n s anyS = true) : n = 0 ∧ s = false := by
  simpa [Role.ok] using h

/-- With the S bit as the fields ask for it, the decoder finds the special operands that the fields name (R19). -/
theorem namesSpecial_of_ok {r : Role} {n : Nat} {s anyS : Bool} (h : r.ok n s anyS = true) (hs : s = true → anyS = true) :
    namesSpecial anyS r n = s := by
  cases r <;> cases s <;> cases anyS <;> simp [Role.ok, namesSpecial] at h hs ⊢ <;> omega

/-! ### The immediate (R17) -/

theorem toSigned_of_fitsS {w : Nat} {z : Int} (h : fitsS w z = true) : toSigned w (z % (2 ^ w : Int)).toNat = z := by
  unfold fitsS at h
  unfold toSigned
  split at h
  · next hw => subst hw; simp at h; simp [h]
  · next hw =>
    obtain ⟨m, rfl⟩ := Nat.exists_eq_succ_of_ne_zero hw
    have e : (2 ^ (m + 1) : Int) = 2 * 2 ^ m := by ring
    have hp : (0 : Int) < 2 ^ m := by positivity
    have c : ((2 ^ m : Nat) : Int) = 2 ^ m := by push_cast; rfl
    simp only [Nat.succ_eq_add_one, Nat.add_sub_cancel, Bool.and_eq_true, decide_eq_true_eq] at h
    simp only [Nat.succ_eq_add_one, Nat.add_sub_cancel, if_neg (Nat.succ_ne_zero m), e]
    generalize (2 ^ m : Int) = p at *
    rcases lt_or_ge z 0 with hz | hz
    · have hm : z % (2 * p) = z + 2 * p := by
        rw [← Int.add_emod_right]; exact Int.emod_eq_of_lt (by omega) (by omega)
      rw [hm, if_neg (by omega)]; omega
    · rw [Int.emod_eq_of_lt hz (by omega), if_pos (by omega)]; omega

theorem emod_of_fitsU {w : Nat} {z : Int} (h : fitsU w z = true) : ((z % (2 ^ w : Int)).toNat : Int) = z := by
  simp only [fitsU, Bool.and_eq_true, decide_eq_true_eq] at h
  rw [Int.emod_eq_of_lt h.1 h.2]; omega

/-- What the number of XIMM parcels says of the immediate. -/
theorem immParcels_cases {i : Instr} {fo : Form} {z : Int} (hi : i.form = some fo) (h : immParcels i fo z < 4) :
    (fo.imm = .signed ∧ fitsS (10 * immParcels i fo z + fo.fmt.immBits) z = true) ∨
    (fo.imm = .unsigned ∧ fitsU (10 * immParcels i fo z + fo.fmt.immBits) z = true) ∨
    (fo.imm = .short ∧ immParcels i fo z = 0 ∧ fitsU fo.fmt.immBits z = true) ∨
    (fo.imm = .none ∧ immParcels i fo z = 0 ∧ z = 0) := by
  unfold immParcels at h ⊢
  split at h
  · cases hi
    split at h
    · next hz => exact .inl ⟨rfl, by rw [if_pos hz]; exact hz⟩
    · omega
  · cases hi
    split at h
    · next hz => exact .inl ⟨rfl, by rw [if_pos hz]; exact hz⟩
    · omega
  · rcases hm : fo.imm with _ | _ | _ | _ <;> simp only [hm] at h ⊢
    · split at h <;> simp_all
    · left
      split at h <;> (try split at h) <;> (try split at h) <;> (try split at h) <;> simp_all [Nat.add_comm]
    · right; left
      split at h <;> (try split at h) <;> (try split at h) <;> (try split at h) <;> simp_all [Nat.add_comm]
    · split at h <;> simp_all

/-! ### Prefixes (R14, R16) -/

/-- The digits of `v` to the base 1,024, most significant of `n` first: the payloads of its XIMM parcels (R17). -/
def digits1024 (n v : Nat) : List Nat :=
  match n with
  | 0 => []
  | m + 1 => v / 1024 ^ m % 1024 :: digits1024 m v

theorem digits1024_length (n v : Nat) : (digits1024 n v).length = n := by
  induction n with
  | zero => rfl
  | succ n ih => simp [digits1024, ih]

theorem foldl_digits1024 (n v acc : Nat) :
    (digits1024 n v).foldl (fun v p => v * 1024 + p) acc = acc * 1024 ^ n + v % 1024 ^ n := by
  induction n generalizing acc with
  | zero => simp [digits1024, Nat.mod_one]
  | succ n ih =>
    rw [digits1024, List.foldl_cons, ih, Nat.pow_succ, Nat.mod_mul, Nat.add_mul]
    ring

/-- The payloads with the base field give the immediate back. -/
theorem concatImm_digits1024 {n w v : Nat} (h : v < 2 ^ (10 * n + w)) :
    concatImm (digits1024 n (v / 2 ^ w)) w (v % 2 ^ w) = v := by
  have hq : v / 2 ^ w < 1024 ^ n := by
    rw [Nat.div_lt_iff_lt_mul (Nat.two_pow_pos w), show (1024 : Nat) = 2 ^ 10 from rfl, ← Nat.pow_mul, ← Nat.pow_add]
    exact h
  rw [concatImm, foldl_digits1024, Nat.zero_mul, Nat.zero_add, Nat.mod_eq_of_lt hq, Nat.mul_comm, Nat.div_add_mod]

/-- A prefix word of kind `k` with payload `x` (R14, R16). -/
def prefixWord (k x : Nat) : Nat := 0xF000 + k * 1024 + x

theorem isPrefix_prefixWord {k x : Nat} (hk : k < 4) (hx : x < 1024) : isPrefix (prefixWord k x) = true := by
  unfold isPrefix prefixWord; exact decide_eq_true (by omega)

theorem payloads_append (l m : List Nat) (j : Nat) : payloads (l ++ m) j = payloads l j ++ payloads m j := by
  simp [payloads]

/-- The payloads of an optional prefix: found under its kind, under no other. -/
theorem payloads_optional (b : Bool) {k x : Nat} (hk : k < 4) (hx : x < 1024) (j : Nat) :
    payloads (if b then [prefixWord k x] else []) j = if j = k then (if b then [x] else []) else [] := by
  have h1 : prefixWord k x / 1024 % 4 = k := by unfold prefixWord; omega
  have h2 : prefixWord k x % 1024 = x := by unfold prefixWord; omega
  by_cases hj : j = k
  · cases b <;> simp [payloads, h1, h2, hj]
  · cases b <;> simp [payloads, h1, hj, Ne.symm hj]

theorem payloads_ximms (n v j : Nat) : payloads (ximms n v) j = if j = 0 then digits1024 n v else [] := by
  induction n with
  | zero => simp [ximms, digits1024, payloads]
  | succ n ih =>
    have hd : v / 1024 ^ n % 1024 < 1024 := Nat.mod_lt _ (by decide)
    have h1 := payloads_optional true (k := 0) (by decide) hd j
    have e : ximms (n + 1) v = (if true then [prefixWord 0 (v / 1024 ^ n % 1024)] else []) ++ ximms n v := rfl
    rw [e, payloads_append, ih, h1]
    split <;> rfl

theorem isPrefix_ximms {n v w : Nat} (h : w ∈ ximms n v) : isPrefix w = true := by
  induction n with
  | zero => cases h
  | succ n ih =>
    rcases List.mem_cons.1 h with rfl | h
    · have hd : v / 1024 ^ n % 1024 < 1024 := Nat.mod_lt _ (by decide)
      simp only [isPrefix, decide_eq_true_eq]; omega
    · exact ih h

theorem ximms_length (n v : Nat) : (ximms n v).length = n := by
  induction n with
  | zero => rfl
  | succ n ih => simp [ximms, ih]

/-- Prefixes in front of a base parcel are split off, as many as the fuel allows. -/
theorem splitParcels_prefixes {pre : List Nat} {fuel base : Nat} (hp : ∀ w ∈ pre, isPrefix w = true) (hl : pre.length ≤ fuel)
    (hb : isPrefix base = false) (rest : List Nat) : splitParcels fuel (pre ++ base :: rest) = .ok (pre, base, rest) := by
  induction pre generalizing fuel with
  | nil => cases fuel <;> simp [splitParcels, hb]
  | cons w pre ih =>
    cases fuel with
    | zero => simp at hl
    | succ n =>
      simp only [List.cons_append, splitParcels, hp w (List.mem_cons_self ..), if_true]
      rw [ih (fun x hx => hp x (List.mem_cons_of_mem _ hx)) (by simpa using hl)]

/-! ### The parcels of an instruction -/

/-- The payloads of XPAGE, XREG and XOPD (R16, R18 to R21). -/
def pageBits (page : Nat) (f : Fields) : Nat := page * 64 + f.hi * 8 + f.lo
def regBits (fm : Fmt) (f : Fields) : Nat :=
  f.d / 2 ^ fm.dBits * 64 + f.a / 2 ^ fm.aBits * 4 + (if f.anyS then 2 else 0)
def opdBits (f : Fields) : Nat := f.b * 8 + f.fx

/-- The immediate as the parcels hold it, modulo its bits (R17). -/
def immBitsOf (i : Instr) (fo : Form) (z : Int) : Nat := (z % (2 ^ (10 * immParcels i fo z + fo.fmt.immBits) : Int)).toNat

/-- The prefixes that the encoder writes. -/
def prefixesOf (i : Instr) (fo : Form) (page : Nat) (f : Fields) : List Nat :=
  (if needsPage page f then [prefixWord 2 (pageBits page f)] else []) ++
    ((if needsReg fo f then [prefixWord 1 (regBits fo.fmt f)] else []) ++
      ((if f.three then [prefixWord 3 (opdBits f)] else []) ++
        ximms (immParcels i fo f.imm) (immBitsOf i fo f.imm / 2 ^ fo.fmt.immBits)))

/-- The encoding is its prefixes and its base parcel (R16). -/
theorem encode_eq {i : Instr} {fo : Form} {f : Fields} {page op : Nat} (hi : i.form = some fo) (hf : i.fields = some f)
    (ho : i.opc = some (page, op)) :
    encode i = prefixesOf i fo page f ++ [baseParcel fo op f (immBitsOf i fo f.imm % 2 ^ fo.fmt.immBits)] := by
  simp only [encode, hi, hf, ho, prefixesOf, prefixWord, pageBits, regBits, opdBits, immBitsOf, List.append_assoc, Nat.reduceMul,
    Nat.reduceAdd, ← Nat.add_assoc]

/-- What of the legality of an instruction the decoder's arithmetic rests on: the fields fit their places (R15 to R22). -/
structure Legal (i : Instr) (fo : Form) (page : Nat) (f : Fields) : Prop where
  roleD : (i.roles fo f).1.ok f.d f.sd f.anyS = true
  roleA : (i.roles fo f).2.1.ok f.a f.sa f.anyS = true
  roleB : f.three = true → (i.roles fo f).2.2.ok f.b f.sb f.anyS = true
  noB : f.three = false → f.b = 0 ∧ f.sb = false ∧ f.fx = 0
  xopd : fo.x = .no → f.three = false
  xopdReq : fo.x = .req → f.three = true
  fx : f.fx < 8
  la : f.la < 16 ∧ (fo.fmt = .L ∨ f.la = 0)
  mods : f.hi < 8 ∧ f.lo < 8
  immOk : i.immOk f = true
  ximm : immParcels i fo f.imm < 4
  prefixes : prefixCount i fo page f ≤ 4

theorem legal_of_wellFormed {i : Instr} {fo : Form} {f : Fields} {page op : Nat} (hi : i.form = some fo)
    (hf : i.fields = some f) (ho : i.opc = some (page, op)) (h : WellFormed i = true) : Legal i fo page f := by
  simp only [WellFormed, hi, hf, ho, wellFormedFields, Bool.and_eq_true, decide_eq_true_eq, Bool.or_eq_true] at h
  obtain ⟨⟨⟨⟨⟨⟨⟨⟨⟨⟨⟨hd, ha⟩, hb⟩, hx⟩, hfx⟩, hfo⟩, hla⟩, hlaL⟩, hm⟩, him⟩, hp⟩, hc⟩ := h
  constructor
  case roleD => exact hd
  case roleA => exact ha
  case roleB => intro h3; rw [if_pos h3] at hb; exact hb
  case noB =>
    intro h3
    rw [h3] at hb hfo
    simp at hb hfo
    exact ⟨hb.1, hb.2, hfo⟩
  case xopd => intro e; rw [e] at hx; simpa using hx
  case xopdReq => intro e; rw [e] at hx; exact hx
  case fx => exact hfx
  case la => exact ⟨hla, hlaL⟩
  case mods => exact Mods.ok_lt hm
  case immOk => exact him
  case ximm => exact hp
  case prefixes => exact hc

section
variable {i : Instr} {fo : Form} {f : Fields} {page op : Nat}

/-- The register fields lie within 7 bits. -/
theorem Legal.lt (h : Legal i fo page f) (hi : i.form = some fo) : f.d < 128 ∧ f.a < 128 ∧ f.b < 128 := by
  have hr := Instr.roles_fit hi f
  simp only [rolesFit, Bool.and_eq_true] at hr
  obtain ⟨⟨⟨hd, ha⟩, hb⟩, -⟩ := hr
  refine ⟨Role.ok_lt hd h.roleD, Role.ok_lt ha h.roleA, ?_⟩
  cases h3 : f.three
  · rw [(h.noB h3).1]; decide
  · exact Role.ok_lt hb (h.roleB h3)

/-- A format without register fields names no register and takes no XOPD. -/
theorem Legal.bare (h : Legal i fo page f) (hi : i.form = some fo) (hfm : fo.fmt = .N ∨ fo.fmt = .J) :
    f.d = 0 ∧ f.a = 0 ∧ f.anyS = false ∧ f.three = false := by
  have hr := Instr.roles_fit hi f
  have hx := Instr.form_fits hi
  have hx : fo.x = .no := by
    simp only [Form.fits, Bool.and_eq_true] at hx
    rcases hfm with e | e <;> · rw [e] at hx; simpa using hx.2
  have hr : (i.roles fo f).1 = .none ∧ (i.roles fo f).2.1 = .none := by
    simp only [rolesFit, Bool.and_eq_true] at hr
    rcases hfm with e | e <;> · rw [e] at hr; simpa using hr.2
  have h3 := h.xopd hx
  have hd := h.roleD
  have ha := h.roleA
  rw [hr.1] at hd
  rw [hr.2] at ha
  obtain ⟨hd, hsd⟩ := Role.ok_none hd
  obtain ⟨ha, hsa⟩ := Role.ok_none ha
  exact ⟨hd, ha, by simp [Fields.anyS, hsd, hsa, (h.noB h3).2.1], h3⟩

/-- The format K has no field a. -/
theorem Legal.noA (h : Legal i fo page f) (hi : i.form = some fo) (hfm : fo.fmt = .K) : f.a = 0 := by
  have hr := Instr.roles_fit hi f
  have ha := h.roleA
  simp only [rolesFit, hfm, Bool.and_eq_true, decide_eq_true_eq] at hr
  rw [hr.2] at ha
  exact (Role.ok_none ha).1

/-- The high bits of d and a fit the XREG (R18). -/
theorem Legal.high_lt (h : Legal i fo page f) (hi : i.form = some fo) :
    f.d / 2 ^ fo.fmt.dBits < 16 ∧ f.a / 2 ^ fo.fmt.aBits < 16 := by
  obtain ⟨hd, ha, -⟩ := h.lt hi
  cases hm : fo.fmt
  case N => obtain ⟨h0, h1, -⟩ := h.bare hi (.inl hm); simp [h0, h1]
  case J => obtain ⟨h0, h1, -⟩ := h.bare hi (.inr hm); simp [h0, h1]
  case K => simp only [h.noA hi hm, Fmt.dBits, Fmt.aBits]; omega
  all_goals simp only [Fmt.dBits, Fmt.aBits]; omega

theorem Legal.pageBits_lt (h : Legal i fo page f) (hp : page ≤ 6) : pageBits page f < 1024 := by
  have := h.mods
  unfold pageBits; omega

theorem Legal.regBits_lt (h : Legal i fo page f) (hi : i.form = some fo) : regBits fo.fmt f < 1024 := by
  have := h.high_lt hi
  unfold regBits; split <;> omega

theorem Legal.opdBits_lt (h : Legal i fo page f) (hi : i.form = some fo) : opdBits f < 1024 := by
  have := h.lt hi
  have := h.fx
  unfold opdBits; omega

/-- Where no XPAGE, XREG or XOPD is needed its bits are zero. -/
theorem pageBits_of_not (h : needsPage page f = false) : pageBits page f = 0 := by
  simp only [needsPage, ne_eq, Bool.or_eq_false_iff, decide_eq_false_iff_not, not_not] at h
  obtain ⟨⟨h1, h2⟩, h3⟩ := h
  simp [pageBits, h1, h2, h3]

theorem regBits_of_not (h : needsReg fo f = false) : regBits fo.fmt f = 0 := by
  simp only [needsReg, ne_eq, Bool.or_eq_false_iff, decide_eq_false_iff_not, not_not] at h
  obtain ⟨⟨h1, h2⟩, h3⟩ := h
  simp [regBits, h1, h2, h3]

theorem Legal.opdBits_of_not (h : Legal i fo page f) (h3 : f.three = false) : opdBits f = 0 := by
  simp [opdBits, h.noB h3]

/-- What the XREG holds is read back (R18, R19). -/
theorem Legal.regBits_read (h : Legal i fo page f) (hi : i.form = some fo) :
    regBits fo.fmt f % 2 = 0 ∧ regBits fo.fmt f / 64 = f.d / 2 ^ fo.fmt.dBits ∧
      regBits fo.fmt f / 4 % 16 = f.a / 2 ^ fo.fmt.aBits ∧ decide (regBits fo.fmt f / 2 % 2 = 1) = f.anyS := by
  have := h.high_lt hi
  unfold regBits
  generalize f.d / 2 ^ fo.fmt.dBits = x at *
  generalize f.a / 2 ^ fo.fmt.aBits = y at *
  cases f.anyS <;> simp <;> omega

/-- The base parcel's fields below op6. -/
def baseLow (fm : Fmt) (f : Fields) (m : Nat) : Nat :=
  match fm with
  | .N => 0
  | .A => f.d % 32 * 32 + f.a % 32
  | .K => f.d % 32 * 32 + m
  | .L => f.la * 64 + f.d % 8 * 8 + f.a % 8
  | .J => m

theorem baseParcel_eq (fo : Form) (op : Nat) (f : Fields) (m : Nat) : baseParcel fo op f m = op * 1024 + baseLow fo.fmt f m := rfl

theorem Legal.baseLow_lt (h : Legal i fo page f) {m : Nat} (hm : m < 2 ^ fo.fmt.immBits) : baseLow fo.fmt f m < 1024 := by
  have := h.la
  cases e : fo.fmt <;> simp only [e, Fmt.immBits, baseLow] at hm ⊢ <;> omega

/-- What the base parcel holds is read back (R15, R17). -/
theorem Legal.baseFields_read (h : Legal i fo page f) (hi : i.form = some fo) {m : Nat} (hm : m < 2 ^ fo.fmt.immBits) :
    baseFields fo.fmt (op * 1024 + baseLow fo.fmt f m) =
      some (f.d % 2 ^ fo.fmt.dBits, f.a % 2 ^ fo.fmt.aBits, f.la) ∧
    (op * 1024 + baseLow fo.fmt f m) % 2 ^ fo.fmt.immBits = m := by
  obtain ⟨hla, hl⟩ := h.la
  cases e : fo.fmt <;> rw [e] at hm hl
  case N =>
    have hl : f.la = 0 := by simpa using hl
    refine ⟨?_, by change m < 1 at hm; change _ % 1 = m; omega⟩
    rw [baseFields, if_pos (by change (op * 1024 + 0) % 1024 = 0; omega), hl]
    simp [Fmt.dBits, Fmt.aBits, Nat.mod_one]
  case A =>
    have hl : f.la = 0 := by simpa using hl
    change m < 1 at hm
    refine ⟨?_, by change _ % 1 = m; omega⟩
    rw [hl]
    change some (_ / 32 % 32, _ % 32, 0) = some (f.d % 32, f.a % 32, 0)
    simp only [baseLow, Option.some.injEq, Prod.mk.injEq, and_true]
    omega
  case K =>
    have hl : f.la = 0 := by simpa using hl
    change m < 32 at hm
    rw [hl, h.noA hi e]
    change some (_ / 32 % 32, 0, 0) = some (f.d % 32, 0, 0) ∧ _ % 32 = m
    simp only [baseLow, Option.some.injEq, Prod.mk.injEq, and_true]
    omega
  case L =>
    change m < 1 at hm
    refine ⟨?_, by change _ % 1 = m; omega⟩
    change some (_ / 8 % 8, _ % 8, _ / 64 % 16) = some (f.d % 8, f.a % 8, f.la)
    simp only [baseLow, Option.some.injEq, Prod.mk.injEq]
    omega
  case J =>
    have hl : f.la = 0 := by simpa using hl
    change m < 1024 at hm
    refine ⟨?_, by change (op * 1024 + m) % 1024 = m; omega⟩
    rw [hl]
    simp [baseFields, Fmt.dBits, Fmt.aBits, Nat.mod_one]

/-- The immediate is read back from its parcels (R17). -/
theorem imm_read (hi : i.form = some fo) {z : Int} (h : immParcels i fo z < 4) :
    (if fo.imm = .signed then toSigned (10 * immParcels i fo z + fo.fmt.immBits) (immBitsOf i fo z)
      else (immBitsOf i fo z : Int)) = z := by
  rcases immParcels_cases hi h with ⟨e, hz⟩ | ⟨e, hz⟩ | ⟨e, hn, hz⟩ | ⟨e, hn, hz⟩
  · rw [if_pos e]; exact toSigned_of_fitsS hz
  · rw [if_neg (by simp [e])]; exact emod_of_fitsU hz
  · rw [if_neg (by simp [e]), immBitsOf, hn, Nat.mul_zero, Nat.zero_add]; exact emod_of_fitsU hz
  · rw [if_neg (by simp [e]), immBitsOf, hz]; simp

theorem immBitsOf_lt (z : Int) : immBitsOf i fo z < 2 ^ (10 * immParcels i fo z + fo.fmt.immBits) := by
  have hp : (0 : Int) < 2 ^ (10 * immParcels i fo z + fo.fmt.immBits) := by positivity
  have h1 := Int.emod_lt_of_pos z hp
  have h2 := Int.emod_nonneg z (Int.ne_of_gt hp)
  have c : ((2 ^ (10 * immParcels i fo z + fo.fmt.immBits) : Nat) : Int) = 2 ^ (10 * immParcels i fo z + fo.fmt.immBits) := by
    push_cast; rfl
  unfold immBitsOf
  omega

/-- BFX and BFI have their two XIMM, the local form of MSTORE has none (R28, R192). -/
theorem Legal.wrongXimms (h : Legal i fo page f) (hi : i.form = some fo) (hf : i.fields = some f) :
    wrongXimms i (immParcels i fo f.imm) f.d = false := by
  have hx := h.ximm
  have him := h.immOk
  cases i
  case bfx g => simp only [immParcels] at hx ⊢; split at hx <;> simp_all [Sys2Proof.wrongXimms]
  case bfi g => simp only [immParcels] at hx ⊢; split at hx <;> simp_all [Sys2Proof.wrongXimms]
  case mstore g =>
    cases hi; cases hf
    simp only [Sys2Proof.wrongXimms, Instr.immOk] at him ⊢
    split at him
    · simp only [Bool.and_eq_true, decide_eq_true_eq] at him
      rw [him.1]; simp [immParcels, fitsS, Fmt.immBits]
    · simp_all
  all_goals rfl

/-! ### Decoding what was encoded -/

theorem payloads_prefixesOf (h : Legal i fo page f) (hi : i.form = some fo) (hp : page ≤ 6) :
    payloads (prefixesOf i fo page f) 0 =
        digits1024 (immParcels i fo f.imm) (immBitsOf i fo f.imm / 2 ^ fo.fmt.immBits) ∧
      payloads (prefixesOf i fo page f) 1 = (if needsReg fo f then [regBits fo.fmt f] else []) ∧
      payloads (prefixesOf i fo page f) 2 = (if needsPage page f then [pageBits page f] else []) ∧
      payloads (prefixesOf i fo page f) 3 = (if f.three then [opdBits f] else []) := by
  simp only [prefixesOf, payloads_append, payloads_ximms, payloads_optional _ (by decide : 2 < 4) (h.pageBits_lt hp),
    payloads_optional _ (by decide : 1 < 4) (h.regBits_lt hi), payloads_optional _ (by decide : 3 < 4) (h.opdBits_lt hi)]
  simp

theorem isPrefix_prefixesOf (h : Legal i fo page f) (hi : i.form = some fo) (hp : page ≤ 6) :
    ∀ w ∈ prefixesOf i fo page f, isPrefix w = true := by
  intro w hw
  simp only [prefixesOf, List.mem_append] at hw
  rcases hw with hw | hw | hw | hw
  · split at hw
    · rw [List.mem_singleton.1 hw]; exact isPrefix_prefixWord (by decide) (h.pageBits_lt hp)
    · cases hw
  · split at hw
    · rw [List.mem_singleton.1 hw]; exact isPrefix_prefixWord (by decide) (h.regBits_lt hi)
    · cases hw
  · split at hw
    · rw [List.mem_singleton.1 hw]; exact isPrefix_prefixWord (by decide) (h.opdBits_lt hi)
    · cases hw
  · exact isPrefix_ximms hw

theorem prefixesOf_length : (prefixesOf i fo page f).length = prefixCount i fo page f := by
  simp only [prefixesOf, prefixCount, List.length_append, ximms_length]
  cases needsPage page f <;> cases needsReg fo f <;> cases f.three <;> simp <;> omega

theorem nthD_optional {b : Bool} {x : Nat} (h : b = false → x = 0) : nthD (if b then [x] else []) 0 0 = x := by
  cases b
  · rw [h rfl]; rfl
  · rfl

/-- Op6 51 of page 0 is a fence, whose kind the base parcel holds (R20). -/
theorem fence_row (h : opMap 0 51 f = some i) : f.d < 4 ∧ ∀ fo, i.form = some fo → fo.fmt = .A := by
  simp only [opMap, page0] at h
  split at h <;> cases h
  all_goals
    next e => exact ⟨by rw [e]; decide, fun fo hfo => by cases hfo; rfl⟩

/-- The fields that the decoder puts together are those that were encoded, the special operands included (R15 to R22). -/
theorem Legal.fields_read (h : Legal i fo page f) :
    ({ d := f.d, a := f.a, b := f.b, sd := namesSpecial f.anyS (i.roles fo f).1 f.d,
       sa := namesSpecial f.anyS (i.roles fo f).2.1 f.a,
       sb := f.three && namesSpecial f.anyS (i.roles fo f).2.2 f.b, three := f.three, fx := f.fx, la := f.la,
       hi := f.hi, lo := f.lo, imm := f.imm } : Fields) = f := by
  have e1 := namesSpecial_of_ok h.roleD (fun e => by simp [Fields.anyS, e])
  have e2 := namesSpecial_of_ok h.roleA (fun e => by simp [Fields.anyS, e])
  have e3 : (f.three && namesSpecial f.anyS (i.roles fo f).2.2 f.b) = f.sb := by
    cases h3 : f.three
    · simp [h.noB h3]
    · simpa using namesSpecial_of_ok (h.roleB h3) (fun e => by simp [Fields.anyS, e])
  rw [e1, e2, e3]

/-- Every prefix is accepted by the row (R16, R21), and a required one is there. -/
theorem Legal.accepts (h : Legal i fo page f) (hi : i.form = some fo) :
    ¬ (immParcels i fo f.imm > 0 ∧ (fo.imm = .none ∨ fo.imm = .short)) ∧
    ¬ (needsReg fo f = true ∧ (fo.fmt = .N ∨ fo.fmt = .J)) ∧
    ¬ (f.three = true ∧ fo.x = .no) ∧ ¬ (f.three = false ∧ fo.x = .req) := by
  refine ⟨?_, ?_, ?_, ?_⟩
  · rintro ⟨hn, hm⟩
    rcases immParcels_cases hi h.ximm with ⟨e, -⟩ | ⟨e, -⟩ | ⟨-, e, -⟩ | ⟨-, e, -⟩
    · simp [e] at hm
    · simp [e] at hm
    · omega
    · omega
  · rintro ⟨hn, hm⟩
    obtain ⟨hd, ha, hs, -⟩ := h.bare hi hm
    simp [needsReg, hd, ha, hs] at hn
  · rintro ⟨h3, hx⟩
    rw [h.xopd hx] at h3
    cases h3
  · rintro ⟨h3, hx⟩
    rw [h.xopdReq hx] at h3
    cases h3

/-- What XPAGE and XOPD hold is read back (R16, R20, R21). -/
theorem Legal.pageBits_read (h : Legal i fo page f) :
    pageBits page f / 64 = page ∧ pageBits page f % 64 / 8 = f.hi ∧ pageBits page f % 8 = f.lo ∧
      opdBits f / 8 = f.b ∧ opdBits f % 8 = f.fx := by
  have := h.mods
  have := h.fx
  unfold pageBits opdBits; omega

/-- The prefixes and the base parcel of a well-formed instruction decode to it. -/
theorem decodeParcels_prefixesOf (hi : i.form = some fo) (hf : i.fields = some f) (ho : i.opc = some (page, op))
    (hw : WellFormed i = true) {m : Nat} (hm : m = immBitsOf i fo f.imm % 2 ^ fo.fmt.immBits) :
    decodeParcels (prefixesOf i fo page f) (op * 1024 + baseLow fo.fmt f m) = .ok i := by
  have h := legal_of_wellFormed hi hf ho hw
  obtain ⟨hmap, hp, -, -⟩ := opMap_of_opc i f page op hw hf ho
  have hm' : m < 2 ^ fo.fmt.immBits := by rw [hm]; exact Nat.mod_lt _ (Nat.two_pow_pos _)
  obtain ⟨h0, h1, h2, h3⟩ := payloads_prefixesOf h hi hp
  obtain ⟨hb1, hb2⟩ := h.baseFields_read (op := op) hi hm'
  obtain ⟨hr1, hr2, hr3, hr4⟩ := h.regBits_read hi
  obtain ⟨hp1, hp2, hp3, ho1, ho2⟩ := h.pageBits_read
  obtain ⟨ha1, ha2, ha3, ha4⟩ := h.accepts hi
  have hlow := h.baseLow_lt hm'
  have hop : (op * 1024 + baseLow fo.fmt f m) / 1024 = op := by omega
  have hl := h.prefixes
  rw [← prefixesOf_length] at hl
  have hx := h.ximm
  have hreg : (decide ((if needsReg fo f then [regBits fo.fmt f] else []).length > 0)) = needsReg fo f := by
    cases needsReg fo f <;> rfl
  have hthree : (decide ((if f.three then [opdBits f] else []).length > 0)) = f.three := by cases f.three <;> rfl
  have hnone : (decide ((if f.three then [opdBits f] else []).length = 0)) = !f.three := by cases f.three <;> rfl
  have hd : f.d / 2 ^ fo.fmt.dBits * 2 ^ fo.fmt.dBits + f.d % 2 ^ fo.fmt.dBits = f.d := Nat.div_add_mod' _ _
  have ha : f.a / 2 ^ fo.fmt.aBits * 2 ^ fo.fmt.aBits + f.a % 2 ^ fo.fmt.aBits = f.a := Nat.div_add_mod' _ _
  have hroles : i.roles fo ⟨f.d, f.a, f.b, false, false, false, f.three, f.fx, f.la, f.hi, f.lo, f.imm⟩ = i.roles fo f := rfl
  have hconc : concatImm (digits1024 (immParcels i fo f.imm) (immBitsOf i fo f.imm / 2 ^ fo.fmt.immBits)) fo.fmt.immBits m =
      immBitsOf i fo f.imm := by rw [hm]; exact concatImm_digits1024 (immBitsOf_lt f.imm)
  have hK : (decide (fo.fmt = .K) && decide (f.a / 2 ^ fo.fmt.aBits ≠ 0)) = false := by
    by_cases e : fo.fmt = .K
    · simp [h.noA hi e]
    · simp [e]
  obtain ⟨j, hj, hjf, hjr⟩ := opMap_row (g := ⟨(op * 1024 + baseLow fo.fmt f m) / 32 % 32, 0, 0, false, false, false, false,
    0, 0, 0, 0, 0⟩) hmap (by
      rintro ⟨rfl, rfl⟩
      obtain ⟨hd, hfo⟩ := fence_row hmap
      simp only [hfo fo hi, baseLow]
      omega)
  unfold decodeParcels
  simp only [h0, h1, h2, h3, nthD_optional pageBits_of_not, nthD_optional regBits_of_not, nthD_optional h.opdBits_of_not, hop]
  rw [if_neg (Nat.not_lt.2 hl), if_neg (by
    rw [digits1024_length]
    cases needsPage page f <;> cases needsReg fo f <;> cases f.three <;> simp <;> omega), hp1, if_neg (Nat.not_lt.2 hp), hj]
  simp only [hjf, hi, hb1, hb2, hr1, hr2, hr3, hr4, hreg, hthree, hnone, hp2, hp3, ho1, ho2, hjr, hd, ha, hconc,
    digits1024_length, imm_read hi hx, hroles, h.fields_read, hmap,
    h.wrongXimms hi hf, hw]
  rw [if_neg (by simpa [not_or] using ⟨⟨fun e => ⟨fun e' => ha1 ⟨e, .inl e'⟩, fun e' => ha1 ⟨e, .inr e'⟩⟩,
      fun e => ⟨fun e' => ha2 ⟨e, .inl e'⟩, fun e' => ha2 ⟨e, .inr e'⟩⟩⟩, fun e e' => ha3 ⟨e, e'⟩⟩),
    if_neg (by simpa using fun e e' => ha4 ⟨e, e'⟩)]
  simp only [hK, Bool.false_eq_true, if_false, if_true]

end

/-- Settles O53: the encoding is its prefixes and a base parcel, and the decoder reads each part back. -/
theorem encodeDecode : Obligations.EncodeDecode := by
  unfold Obligations.EncodeDecode
  intro i rest hw hne
  obtain ⟨⟨page, op⟩, ho⟩ := Option.ne_none_iff_exists'.1 hne
  obtain ⟨fo, f, hi, hf⟩ : ∃ fo f, i.form = some fo ∧ i.fields = some f := Instr.form_fields_of_opc ho
  obtain ⟨-, hp, -, hop⟩ := opMap_of_opc i f page op hw hf ho
  have h := legal_of_wellFormed hi hf ho hw
  rw [encode_eq hi hf ho, List.append_assoc, List.singleton_append, baseParcel_eq, decode]
  have hm : immBitsOf i fo f.imm % 2 ^ fo.fmt.immBits < 2 ^ fo.fmt.immBits := Nat.mod_lt _ (Nat.two_pow_pos _)
  have hb := h.baseLow_lt hm
  rw [splitParcels_prefixes (isPrefix_prefixesOf h hi hp) (prefixesOf_length ▸ h.prefixes)
    (by unfold isPrefix; exact decide_eq_false (by omega))]
  simp only [decodeParcels_prefixesOf hi hf ho hw rfl, List.length_append, List.length_singleton]

end Sys2Proof
end

section
/-!
SUPPORT. Printed words as encodings, and O52.
-/
namespace Sys2Proof

/-- Parcels that are the encoding of a well-formed instruction decode to it. -/
theorem decode_of_encode_eq {i : Instr} {ps : List Nat} (he : encode i = ps) (hw : WellFormed i = true)
    (ho : i.opc.isSome = true) (rest : List Nat) : decode (ps ++ rest) = .ok (i, ps.length, rest) := by
  subst he
  exact encodeDecode i rest hw (Option.isSome_iff_ne_none.1 ho)

/-- Parcels whose prefixes and base parcel are refused are refused, whatever follows. -/
theorem decode_of_refused {pre : List Nat} {base : Nat} {e : Reject} (hp : ∀ w ∈ pre, isPrefix w = true)
    (hl : pre.length ≤ 4) (hb : isPrefix base = false) (hd : decodeParcels pre base = .error e) (rest : List Nat) :
    decode (pre ++ base :: rest) = .error e := by
  rw [decode, splitParcels_prefixes hp hl hb]
  simp only [hd]

/-- Settles O52: the printed words are the encodings of their instructions, and each refused word fails its check. -/
theorem decodeWords : Obligations.DecodeWords := by
  unfold Obligations.DecodeWords
  intro rest
  refine ⟨?_, ?_, ?_, ?_, ?_, ?_, ?_, ?_, ?_, ?_, ?_, ?_, ?_, ?_, ?_⟩
  · exact decode_of_encode_eq (by decide) (by decide) rfl rest
  · exact decode_of_encode_eq (by decide) (by decide) rfl rest
  · exact decode_of_encode_eq (by decide) (by decide) rfl rest
  · exact decode_of_encode_eq (by decide) (by decide) rfl rest
  · exact decode_of_encode_eq (by decide) (by decide) rfl rest
  · exact decode_of_encode_eq (by decide) (by decide) rfl rest
  · exact decode_of_encode_eq (by decide) (by decide) rfl rest
  · exact decode_of_encode_eq (by decide) (by decide) rfl rest
  · exact decode_of_encode_eq (by decide) (by decide) rfl rest
  · exact decode_of_refused (pre := []) (by decide) (by decide) (by decide) (by decide) rest
  · exact decode_of_refused (pre := [0xF9C0]) (by decide) (by decide) (by decide) (by decide) rest
  · exact decode_of_refused (pre := [0xF800, 0xF800]) (by decide) (by decide) (by decide) (by decide) rest
  · rfl
  · exact decode_of_refused (pre := []) (by decide) (by decide) (by decide) (by decide) rest
  · exact decode_of_refused (pre := []) (by decide) (by decide) (by decide) (by decide) rest

end Sys2Proof
end

section
/-!
SUPPORT. The checks before an instruction (R23, R24, R27, R113), and O59.
-/
namespace Sys2Proof.Machine
open Sys2Proof

/-! ### Every instruction begins with its checks -/

/-- The outcome is that of an instruction that makes its checks first, once its thread has no answer to take. -/
def StartsWithChecks (i : Instr) (s : State) (o : Out) : Prop :=
  (∃ body, o = issue i s body) ∨ ∃ done body, o = answered i s done body

theorem starts_issue (i : Instr) (s : State) (body : Nat → Nat → Thread → State → State) :
    (∃ body', issue i s body = issue i s body') ↔ True := ⟨fun _ => trivial, fun _ => ⟨_, rfl⟩⟩

theorem starts_answered (i : Instr) (s : State) (done : Nat → Nat → Thread → Answer → State → State)
    (body : Nat → Nat → Thread → State → State) : StartsWithChecks i s (answered i s done body) := .inr ⟨_, _, rfl⟩

/-- Every instruction with a row of the opcode map makes its checks first: those that wait for an answer of a home, of a core or
of a save take the answer instead where it has come. -/
theorem exec_starts {i : Instr} (h : i.form ≠ none) (s : State) : StartsWithChecks i s (exec i s) := by
  cases i
  any_goals exact absurd rfl h
  all_goals rw [exec]
  case spawn f => rw [execSpawn]; exact starts_answered ..
  case exit f => rw [execExit]; exact starts_answered ..
  case syinit f => rw [execSyinit, syncOp]; exact starts_answered ..
  case syacq f => rw [execSyacq, syncOp]; exact starts_answered ..
  case sytry f => rw [execSytry, syncOp]; exact starts_answered ..
  case syrel f => rw [execSyrel, syncOp]; exact starts_answered ..
  case sydlg f => rw [execSydlg]; exact starts_answered ..
  case syarv f => rw [execSyarv, syncOp]; exact starts_answered ..
  case sywait f => rw [execSywait, syncOp]; exact starts_answered ..
  case symode f => rw [execSymode, syncOp]; exact starts_answered ..
  case hbwait f => rw [execHbwait]; exact starts_answered ..
  case ctxsv f => rw [execCtxsv]; exact starts_answered ..
  all_goals
    left
    simp only [execNop, execMov, execMovk, execMovkh, execAdd, execSub, execAddk, execNeg, execMul, execMulh, execDiv, execRem,
    execAndOp, execOrOp, execXor, execAndn, execNotOp, execShl, execShr, execSar, execShlk, execShrk, execSark,
    execMinOp, execMaxOp, execCmpeq, execCmpne, execCmplt, execCmple, execSel, execClz, execPopc, execBfx, execBfi,
    execSext, execBr, execCall, execJr, execBz, execBnz, execBltz, execBgez, execLdg, execStg, execLdl, execStl,
    execLdlp, execStlp, execLdacq, execStrel, execFence, execFenceX, execFenceA, execFenceS, execPref, execScopeo,
    execScopec, execPset, execPget, execPadd, execVadd, execVsub, execVmul, execVfma, execVmin, execVmax, execVabs,
    execVneg, execVrcp, execVrsq, execVexp2, execVlog2, execVcvt, execVcmp, execVsel, execVradd, execVrmax, execVbcst,
    execVlane, execVperm, execVand, execVor, execVxor, execVshl, execVshr, execVldl, execVstl, execVldg, execVstg,
    execVgath, execVscat, execVscale, execVclamp, execFadd, execFsub, execFmul, execFfma, execFmin, execFmax,
    execFcmp, execFcvt, execFrcp, execFrsq, execBpack, execBunpk, execPlxp, execPldot, execMfmt, execMzero, execMma,
    execMstore, execMstat, execMtest, execMfree, execVwnew, execVwdup, execVwsplit, execVwnarrow, execVwdrop,
    execVwinfo, execLdv, execStv, execSanew, execSaadd, execSaread, execSainfo, execSaevict, execSafree, execAmoadd,
    execAmoand, execAmoor, execAmoxor, execAmomin, execAmomax, execAmoswap, execAmocas, execAmofadd, execCflush,
    execCinv, execPghot, execPgmig, execXlate, execSetcoh, execYield, execTid, execJoin, execLeave, execGrpinfo,
    execHbarv, execHbcfg, execCpy, execCpy2d, execCpyq, execSdesc, execSdstop, execSwinit, execSwwait, execQcfg,
    execQstat, execNopen, execNsende, execNstat, execWaitm, execMsgrd, execMsgsend, execMsgcnt, execBkmode,
    execBkinfo, execTrap, execRett, execRdsr, execWrsr, execSegld, execSegrd, execCtxld, execBrk, execTntrd,
    execTntclr, execPerfrd, execSvcall, execPghash, compute, globalOp, loadGlobal, storeGlobal, atomic, fence,
    lanewise, scalarF, localOp, loadLocal, storeLocalOp, lanesOp, packOp, flushOp, regionOp, viewInstr, viewAccess,
    copyInstr, branchIf, vec1, vec2, scalar2, starts_issue]

/-- Without an answer, an instruction whose checks trap takes that trap and one whose checks wait waits. -/
theorem exec_of_precheck {i : Instr} {s : State} {c k : Nat} {t : Thread} (h : i.form ≠ none)
    (hc : s.current = some (c, k, t)) (ha : t.answer = none) :
    (∀ code addr aux, s.precheck i c k t = .trap code addr aux →
      exec i s = .next ((s.clearAborts i c k code).raise c k code addr aux)) ∧
    (∀ w, s.precheck i c k t = .wait w → exec i s = .next ((s.askCredits c i.specialWrites).park c k w)) := by
  obtain ⟨body, he⟩ : ∃ body, exec i s = issue i s body := by
    rcases exec_starts h s with h | ⟨done, body, h⟩
    · exact h
    · exact ⟨body, by rw [h, answered, hc]; simp only [ha]⟩
  rw [he, issue, hc]
  exact ⟨fun _ _ _ hp => by simp only [hp], fun _ hp => by simp only [hp]⟩

/-! ### The order of the checks -/

theorem overTop_of_exists {l : List Nat} {top : Nat} (h : ∃ n ∈ l, top ≤ n) : ∃ n ∈ l, top ≤ n ∧ overTop l top = some n := by
  obtain ⟨n, hn⟩ : ∃ n, overTop l top = some n :=
    Option.isSome_iff_exists.1 (by rw [overTop, List.find?_isSome]; simpa using h)
  exact ⟨n, List.mem_of_find?_eq_some hn, by simpa using List.find?_some hn, hn⟩

theorem overTop_of_forall {l : List Nat} {top : Nat} (h : ∀ n ∈ l, n < top) : overTop l top = none :=
  List.find?_eq_none.2 (fun n hn => by simpa using h n hn)

theorem pendingIn_of_exists {l : List Nat} {ops : List Op} (h : ∃ n ∈ l, n ≠ 0 ∧ ∃ o ∈ ops, n ∈ o.pend) :
    ∃ n ∈ l, n ≠ 0 ∧ (∃ o ∈ ops, n ∈ o.pend) ∧ pendingIn l ops = some n := by
  obtain ⟨n, hn⟩ : ∃ n, pendingIn l ops = some n :=
    Option.isSome_iff_exists.1 (by rw [pendingIn, List.find?_isSome]; simpa using h)
  have hp : n ≠ 0 ∧ ∃ o ∈ ops, n ∈ o.pend := by simpa using List.find?_some hn
  exact ⟨n, List.mem_of_find?_eq_some hn, hp.1, hp.2, hn⟩

section
variable (i : Instr) (s : State) (c k : Nat) (t : Thread)

/-- An open window comes first (R23). -/
theorem State.precheck_window (h : ∃ o ∈ t.ops, o.left = 0) : s.precheck i c k t = .wait .window := by
  rw [State.precheck, if_pos (by simpa using h)]

variable {i s c k t} (hw : ∀ o ∈ t.ops, o.left ≠ 0)
include hw

/-- Then privilege (R27). -/
theorem State.precheck_priv (hm : i.mayRun t.priv ((s.tenant t.tenant).tntctl.bits 1 1 = 1) = false) :
    s.precheck i c k t = .trap 0x12 (w64 t.pc) 0 := by
  rw [State.precheck, if_neg (by simpa using hw), if_pos (by rw [hm]; rfl)]
  rfl

variable (hm : i.mayRun t.priv ((s.tenant t.tenant).tntctl.bits 1 1 = 1) = true)
include hm

/-- Then the slot (R19, R113). -/
theorem State.precheck_slot (hs : i.wrongSlot k = true) : s.precheck i c k t = .trap 0x15 (w64 t.pc) 0 := by
  rw [State.precheck, if_neg (by simpa using hw), if_neg (by rw [hm]; decide), if_pos hs]
  rfl

variable (hs : i.wrongSlot k = false)
include hs

/-- Then the window top (R27). -/
theorem State.precheck_range {n : Nat} (hn : overTop (i.named (!t.frames.isEmpty || t.deleg ≠ none)) t.top = some n) :
    s.precheck i c k t = .trap 0x03 (w64 t.pc) (w64 n) := by
  rw [State.precheck, if_neg (by simpa using hw), if_neg (by rw [hm]; decide), if_neg (by rw [hs]; decide)]
  simp only [hn]
  rfl

/-- Then pending destinations (R24). -/
theorem State.precheck_pending {n : Nat} (ht : overTop (i.named (!t.frames.isEmpty || t.deleg ≠ none)) t.top = none)
    (hn : pendingIn (i.named (!t.frames.isEmpty || t.deleg ≠ none)) t.ops = some n) :
    s.precheck i c k t = .trap 0x02 (w64 t.pc) (w64 n) := by
  rw [State.precheck, if_neg (by simpa using hw), if_neg (by rw [hm]; decide), if_neg (by rw [hs]; decide)]
  simp only [ht, hn]
  rfl

end

/-- Settles O59: every instruction makes its checks first, and each check decides once those before it have passed. -/
theorem prechecks : Obligations.Prechecks := by
  unfold Obligations.Prechecks
  refine ⟨fun i s c k t h hc ha => exec_of_precheck h hc ha, fun i s c k t => ⟨State.precheck_window i s c k t, fun hw => ?_⟩⟩
  refine ⟨State.precheck_priv hw, State.precheck_slot hw, ?_, ?_⟩
  · intro hm hs hr
    obtain ⟨n, hn, hle, h⟩ := overTop_of_exists hr
    exact ⟨n, hn, hle, State.precheck_range hw hm hs h⟩
  · intro hm hs hr hp
    obtain ⟨n, hn, h0, ho, h⟩ := pendingIn_of_exists hp
    exact ⟨n, hn, h0, ho, State.precheck_pending hw hm hs (overTop_of_forall hr) h⟩

end Sys2Proof.Machine
end

section
/-!
SUPPORT. The choice of a slot: what the longest wait, the highest class and the rotation within a class give (R225, R226), and O57.
-/
namespace Sys2Proof.Machine
open Sys2Proof

/-! ### The share cycle (R225) -/

/-- The cycle a slot last issued in, as the share cycle compares it. -/
def Core.lastRunOf (x : Core) (k : Nat) : Nat :=
  match (x.slot k).readyThread with
  | some t => t.lastRun
  | none => 0

/-- One step of the search for the longest wait. -/
def Core.waitsLonger (x : Core) (b : Option Nat) (k : Nat) : Option Nat :=
  match b with
  | none => some k
  | some j => if x.lastRunOf k < x.lastRunOf j then some k else some j

theorem Core.longest_eq (x : Core) (l : List Nat) : x.longest l = l.foldl x.waitsLonger none := rfl

/-- The search keeps the smallest last issue that it has met. -/
theorem Core.foldl_waitsLonger (x : Core) (l : List Nat) (b : Option Nat) (h : l ≠ [] ∨ b ≠ none) :
    ∃ k, l.foldl x.waitsLonger b = some k ∧ (∀ j, b = some j → x.lastRunOf k ≤ x.lastRunOf j) ∧
      ∀ j ∈ l, x.lastRunOf k ≤ x.lastRunOf j := by
  induction l generalizing b with
  | nil =>
    obtain ⟨k, rfl⟩ := Option.ne_none_iff_exists'.1 (h.resolve_left (fun e => e rfl))
    exact ⟨k, rfl, fun j hj => by cases hj; exact Nat.le_refl _, fun j hj => by cases hj⟩
  | cons a l ih =>
    have hb : x.waitsLonger b a ≠ none := by
      unfold Core.waitsLonger; split
      · simp
      · split <;> simp
    obtain ⟨k, hk, h1, h2⟩ := ih _ (.inr hb)
    refine ⟨k, hk, ?_, ?_⟩
    · rintro j rfl
      by_cases hc : x.lastRunOf a < x.lastRunOf j
      · have := h1 a (by simp [Core.waitsLonger, hc]); omega
      · exact h1 j (by simp [Core.waitsLonger, hc])
    · intro j hj
      rcases List.mem_cons.1 hj with rfl | hj
      · cases b with
        | none => exact h1 j rfl
        | some i =>
          by_cases hc : x.lastRunOf j < x.lastRunOf i
          · exact h1 j (by simp [Core.waitsLonger, hc])
          · have := h1 i (by simp [Core.waitsLonger, hc]); omega
      · exact h2 j hj

theorem Core.longest_ne_none {x : Core} {l : List Nat} (h : l ≠ []) : x.longest l ≠ none := by
  obtain ⟨k, hk, -⟩ := x.foldl_waitsLonger l none (.inl h)
  rw [Core.longest_eq, hk]; simp

theorem Core.longest_le {x : Core} {l : List Nat} {k j : Nat} (h : x.longest l = some k) (hj : j ∈ l) :
    x.lastRunOf k ≤ x.lastRunOf j := by
  obtain ⟨k', hk, -, h2⟩ := x.foldl_waitsLonger l none (.inl (List.ne_nil_of_mem hj))
  rw [Core.longest_eq, hk] at h
  cases h
  exact h2 j hj

theorem State.lastRunOf_ready {s : State} {c k : Nat} {t : Thread} (h : s.thread? c k = some t)
    (hr : t.run = .ready) : (s.core c).lastRunOf k = t.lastRun := by
  have hready : ((s.core c).slot k).readyThread = some t := by
    rw [State.thread?_eq] at h
    rw [Slot.readyThread]
    cases hocc : ((s.core c).slot k).occ with
    | live u =>
      rw [hocc] at h
      obtain rfl : u = t := Option.some.inj h
      exact if_pos hr
    | reserved u image n =>
      rw [hocc] at h
      cases h
    | vacant =>
      rw [hocc] at h
      cases h
  rw [Core.lastRunOf, hready]

/-! ### Classes and rotation (R225) -/

/-- The largest class of a list: none exceeds it, and one of the list has it. -/
theorem foldl_max_spec (g : Nat → Nat) (l : List Nat) (m : Nat) :
    m ≤ l.foldl (fun m k => max m (g k)) m ∧ (∀ j ∈ l, g j ≤ l.foldl (fun m k => max m (g k)) m) ∧
      (l.foldl (fun m k => max m (g k)) m = m ∨ ∃ j ∈ l, g j = l.foldl (fun m k => max m (g k)) m) := by
  induction l generalizing m with
  | nil => simp
  | cons a l ih =>
    obtain ⟨h1, h2, h3⟩ := ih (max m (g a))
    simp only [List.foldl_cons]
    refine ⟨by omega, ?_, ?_⟩
    · intro j hj
      rcases List.mem_cons.1 hj with rfl | hj
      · omega
      · exact h2 j hj
    · rcases h3 with h3 | ⟨j, hj, h3⟩
      · rcases Nat.le_total (g a) m with hle | hle
        · exact .inl (by rw [h3]; omega)
        · exact .inr ⟨a, List.mem_cons_self .., by rw [h3]; omega⟩
      · exact .inr ⟨j, List.mem_cons_of_mem _ hj, h3⟩

/-- Of a list with an element, one has the largest class. -/
theorem filter_top_ne_nil (g : Nat → Nat) {l : List Nat} (h : l ≠ []) :
    l.filter (fun k => g k = l.foldl (fun m k => max m (g k)) 0) ≠ [] := by
  obtain ⟨-, h2, h3⟩ := foldl_max_spec g l 0
  obtain ⟨a, ha⟩ := List.exists_mem_of_ne_nil l h
  rcases h3 with h3 | ⟨j, hj, h3⟩
  · exact List.ne_nil_of_mem (List.mem_filter.2 ⟨ha, by have := h2 a ha; simp only [h3] at this ⊢; simpa using this⟩)
  · exact List.ne_nil_of_mem (List.mem_filter.2 ⟨hj, by simp [h3]⟩)

theorem firstAfter_ne_none {l : List Nat} (h : l ≠ []) (n : Nat) : firstAfter l n ≠ none := by
  unfold firstAfter
  split
  · simp
  · cases l with
    | nil => exact absurd rfl h
    | cons a l => simp

/-- The rotation goes on past the last slot where it can. -/
theorem firstAfter_lt {l : List Nat} {n k j : Nat} (h : firstAfter l n = some k) (hj : j ∈ l) (hn : n < j) : n < k := by
  unfold firstAfter at h
  split at h
  · next h' => cases h; simpa using List.find?_some h'
  · next h' => exact absurd hn (by simpa using List.find?_eq_none.1 h' j hj)

/-! ### The slot -/

/-- The slot outside a deterministic launch (R225). -/
theorem State.issueSlot_free {s : State} {c : Nat} (hb : s.boundSlots c = none) :
    s.issueSlot c = if s.now % 16 = 15 then (s.core c).longest (s.core c).readySlots
      else firstAfter ((s.core c).readySlots.filter (fun k => (s.core c).classOf k =
        (s.core c).readySlots.foldl (fun m k => max m ((s.core c).classOf k)) 0))
        (nthD (s.core c).lastIss ((s.core c).readySlots.foldl (fun m k => max m ((s.core c).classOf k)) 0) 63) := by
  rw [State.issueSlot, hb]

theorem State.issueSlot_ne_none {s : State} {c : Nat} (hb : s.boundSlots c = none) (h : (s.core c).readySlots ≠ []) :
    s.issueSlot c ≠ none := by
  rw [State.issueSlot_free hb]
  split
  · exact Core.longest_ne_none h
  · exact firstAfter_ne_none (filter_top_ne_nil _ h) _

/-- In the share cycle no ready thread has waited longer. -/
theorem State.issueSlot_share {s : State} {c k j : Nat} {t u : Thread} (hb : s.boundSlots c = none)
    (h : s.issueSlot c = some k) (hs : s.now % 16 = 15) (ht : s.thread? c k = some t) (hr : t.run = .ready)
    (hj : j ∈ (s.core c).readySlots) (hu : s.thread? c j = some u) : t.lastRun ≤ u.lastRun := by
  rw [State.issueSlot_free hb, if_pos hs] at h
  obtain ⟨u', hu', hur⟩ := readySlots_thread hj
  rw [hu] at hu'
  cases hu'
  rw [← State.lastRunOf_ready ht hr, ← State.lastRunOf_ready hu hur]
  exact Core.longest_le h hj

/-- Outside it the slot is of the highest class, and the rotation of that class goes on. -/
theorem State.issueSlot_class {s : State} {c k : Nat} (hb : s.boundSlots c = none) (h : s.issueSlot c = some k)
    (hs : s.now % 16 ≠ 15) :
    (∀ j ∈ (s.core c).readySlots, (s.core c).classOf j ≤ (s.core c).classOf k) ∧
      ((∃ j ∈ (s.core c).readySlots, (s.core c).classOf j = (s.core c).classOf k ∧
          nthD (s.core c).lastIss ((s.core c).classOf k) 63 < j) →
        nthD (s.core c).lastIss ((s.core c).classOf k) 63 < k) := by
  rw [State.issueSlot_free hb, if_neg hs] at h
  have hk : (s.core c).classOf k = (s.core c).readySlots.foldl (fun m k => max m ((s.core c).classOf k)) 0 := by
    simpa using (List.mem_filter.1 (firstAfter_mem h)).2
  rw [← hk] at h
  refine ⟨fun j hj => hk ▸ (foldl_max_spec _ _ 0).2.1 j hj, ?_⟩
  rintro ⟨j, hj, hc, hlt⟩
  exact firstAfter_lt h (List.mem_filter.2 ⟨hj, by simpa using hc⟩) hlt

/-- The strict turn of a core of a deterministic launch (R226). -/
theorem State.issueSlot_bound {s : State} {c m : Nat} (hb : s.boundSlots c = some m) :
    s.issueSlot c = some (if (s.core c).rot % (m + 1) < m then (s.core c).rot % (m + 1) else 63) := by
  rw [State.issueSlot, hb]

theorem State.turned_rot {s : State} {c m : Nat} (hb : s.boundSlots c = some m) :
    ((s.turned c).core c).rot % (m + 1) =
      if (s.core c).rot % (m + 1) < m then (s.core c).rot % (m + 1) + 1 else 0 := by
  have h : ((s.turned c).core c).rot = ((s.core c).rot + 1) % (m + 1) := by
    rw [State.turned, hb]; simp [State.modCore]
  have hlt : (s.core c).rot % (m + 1) < m + 1 := Nat.mod_lt _ (Nat.succ_pos _)
  rw [h, Nat.mod_mod, ← Nat.mod_add_mod]
  split
  · exact Nat.mod_eq_of_lt (by omega)
  · rw [show (s.core c).rot % (m + 1) = m by omega, Nat.mod_self]

/-- Settles O57, from what the search for the longest wait, the classes and the rotation give. -/
theorem issueOrder : Obligations.IssueOrder := by
  unfold Obligations.IssueOrder
  refine ⟨fun s c hb => ⟨State.issueSlot_ne_none hb, fun k h => ⟨?_, State.issueSlot_class hb h⟩⟩,
    fun s c m hb => ⟨State.issueSlot_bound hb, State.turned_rot hb⟩,
    fun s p hp => ⟨(issuers_ready hp).1, issuers_slot hp⟩⟩
  obtain ⟨t, ht, hr⟩ := readySlots_thread (issueSlot_ready hb h)
  exact ⟨t, ht, hr, fun hs j u hj hu => State.issueSlot_share hb h hs ht hr hj hu⟩

end Sys2Proof.Machine
end

section
/-!
SUPPORT. What a memory reads after a write, byte by byte and word by word, and that reads determine it; O58.
-/
namespace Sys2Proof.Machine
open Sys2Proof

/-! ### Bytes and words after a write (R9) -/

/-- Byte `j` of a written extent. -/
theorem Mem.byte_writeN {m : Mem} (h : m.wf = true) {a n v j : Nat} (hj : j < n) :
    ((m.writeN a n v).byte (a + j)).toNat = v / 256 ^ j % 256 := by
  induction n generalizing m a v j with
  | zero => omega
  | succ n ih =>
    have h' := Mem.setByte_wf h a (BitVec.ofNat 8 (v % 256))
    rw [Mem.writeN]
    cases j with
    | zero =>
      have e : ((m.setByte a (BitVec.ofNat 8 (v % 256))).writeN (a + 1) n (v / 256)).byte a = BitVec.ofNat 8 (v % 256) := by
        rw [Mem.byte_writeN_other h' _ (Or.inl (Nat.lt_add_one a)), Mem.byte_setByte h, if_pos rfl]
      rw [Nat.add_zero a, e]
      simp
    | succ j =>
      rw [show a + (j + 1) = a + 1 + j by omega, ih h' (by omega), Nat.pow_succ, Nat.mul_comm (256 ^ j),
        Nat.div_div_eq_div_mul]

theorem contains_setMember (l : List Nat) (n x : Nat) (on : Bool) :
    (setMember l n on).contains x = if x = n then on else l.contains x := by
  rw [Bool.eq_iff_iff]
  cases on <;> by_cases hx : x = n <;> simp [setMember, mem_insSorted, hx]

@[simp] theorem Mem.writeN_tainted (m : Mem) (a n v w : Nat) : (m.writeN a n v).tainted w = m.tainted w := by
  induction n generalizing m a v with
  | zero => rfl
  | succ n ih => exact ih ..

theorem Mem.tainted_setTaint (m : Mem) (w x : Nat) (t : Bool) :
    (m.setTaint w t).tainted x = if x = w then t else m.tainted x := contains_setMember ..

@[simp] theorem Mem.readN_setTaint (m : Mem) (w : Nat) (t : Bool) (a n : Nat) : (m.setTaint w t).readN a n = m.readN a n := by
  induction n generalizing a with
  | zero => rfl
  | succ n ih => rw [Mem.readN, Mem.readN, ih]; rfl

/-- A word reads what was written at it, and the others read as before. -/
theorem Mem.word_setWord {m : Mem} (h : m.wf = true) (w x : Nat) (v : TWord) :
    (m.setWord w v).word x = if x = w then v else m.word x := by
  rw [Mem.word, Mem.setWord, Mem.readN_setTaint, Mem.tainted_setTaint, Mem.writeN_tainted]
  split
  · next hx =>
    subst hx
    have hv : v.v.toNat < 256 ^ 8 := v.v.isLt
    rw [Mem.readN_writeN h, Nat.mod_eq_of_lt hv, w64, BitVec.ofNat_toNat, BitVec.setWidth_eq]
  · next hx => rw [Mem.readN_writeN_other h _ (by omega)]; rfl

/-! ### A store into a word (R61) -/

/-- The bits of a spliced word. -/
theorem testBit_spliceWord {old v : Word} {o size : Nat} {b : Nat} (hb : b < 64) :
    (spliceWord old o size v).toNat.testBit b =
      if 8 * o ≤ b ∧ b < 8 * (o + size) then v.toNat.testBit (b - 8 * o) else old.toNat.testBit b := by
  have hlo : old.toNat % 2 ^ (8 * o) < 2 ^ (8 * o) := Nat.mod_lt _ (Nat.two_pow_pos _)
  have hmid : v.toNat % 2 ^ (8 * size) < 2 ^ (8 * size) := Nat.mod_lt _ (Nat.two_pow_pos _)
  have hp : (2 : Nat) ^ (8 * (o + size)) = 2 ^ (8 * o) * 2 ^ (8 * size) := by rw [← Nat.pow_add]; ring_nf
  have hx : old.toNat % 2 ^ (8 * o) + 2 ^ (8 * o) * (v.toNat % 2 ^ (8 * size)) < 2 ^ (8 * (o + size)) := by
    rw [hp]
    have := Nat.mul_le_mul_left (2 ^ (8 * o)) (Nat.succ_le_of_lt hmid)
    rw [Nat.mul_succ] at this
    omega
  simp only [spliceWord, w64_toNat, Nat.testBit_mod_two_pow, hb, decide_true, Bool.true_and]
  rw [Nat.add_comm _ (2 ^ (8 * (o + size)) * _), Nat.testBit_two_pow_mul_add _ hx,
    Nat.add_comm (old.toNat % 2 ^ (8 * o)), Nat.testBit_two_pow_mul_add _ hlo, Nat.testBit_div_two_pow,
    Nat.testBit_mod_two_pow, Nat.testBit_mod_two_pow]
  by_cases h1 : b < 8 * (o + size) <;> by_cases h2 : b < 8 * o
  · simp [h1, h2]
  · simp [h1, h2, show b - 8 * o < 8 * size by omega]
  · omega
  · rw [if_neg h1, if_neg (by omega), Nat.sub_add_cancel (by omega)]

/-- Two numbers have the same byte where they have the same bits. -/
theorem byte_eq_of_testBit {x y i j : Nat} (h : ∀ b, b < 8 → x.testBit (8 * i + b) = y.testBit (8 * j + b)) :
    x / 256 ^ i % 256 = y / 256 ^ j % 256 := by
  have e : ∀ n : Nat, (256 : Nat) ^ n = 2 ^ (8 * n) := fun n => by rw [Nat.pow_mul]
  apply Nat.eq_of_testBit_eq
  intro b
  rw [e, e, show (256 : Nat) = 2 ^ 8 from rfl, Nat.testBit_mod_two_pow, Nat.testBit_mod_two_pow, Nat.testBit_div_two_pow,
    Nat.testBit_div_two_pow]
  by_cases hb : b < 8
  · rw [Nat.add_comm b, Nat.add_comm b, h b hb]
  · simp [hb]

/-- A narrow store changes its bytes, keeps the rest of its word and ORs its taint in. -/
theorem storeInto_narrow {old v : TWord} {o size : Nat} (hs : size < 8) :
    (storeInto old o size v).t = (old.t || v.t) ∧
    ∀ j, j < 8 → (storeInto old o size v).v.toNat / 256 ^ j % 256 =
      if o ≤ j ∧ j < o + size then v.v.toNat / 256 ^ (j - o) % 256 else old.v.toNat / 256 ^ j % 256 := by
  rw [storeInto, if_neg (by omega)]
  refine ⟨rfl, fun j hj => ?_⟩
  split
  · next hin =>
    refine byte_eq_of_testBit fun b hb => ?_
    rw [testBit_spliceWord (by omega), if_pos (by omega)]
    congr 1; omega
  · next hout =>
    refine byte_eq_of_testBit fun b hb => ?_
    rw [testBit_spliceWord (by omega), if_neg (by omega)]

/-! ### Reads determine a memory -/

theorem cellGet_eq_zero {l : List Host.Cell} {a : Nat} (h : ∀ p ∈ l, p.1 ≠ a) : cellGet l a = 0 := by
  induction l with
  | nil => rfl
  | cons p r ih =>
    rw [cellGet, if_neg (h p (List.mem_cons_self ..))]
    exact ih fun q hq => h q (List.mem_cons_of_mem _ hq)

/-- Below its first address a canonical byte list reads zero. -/
theorem cellGet_below {l : List Host.Cell} {lo a : Nat} (h : cellsWf lo l = true) (ha : a < lo) : cellGet l a = 0 :=
  cellGet_eq_zero fun p hp => by have := ((cellsWf_iff.1 h).2 p hp).1; omega

/-- Canonical byte lists that read alike are equal. -/
theorem cells_ext {l m : List Host.Cell} {lo : Nat} (hl : cellsWf lo l = true) (hm : cellsWf lo m = true)
    (h : ∀ a, cellGet l a = cellGet m a) : l = m := by
  induction l generalizing m lo with
  | nil =>
    cases m with
    | nil => rfl
    | cons q m =>
      obtain ⟨b, y⟩ := q
      have := h b
      exact absurd (by simpa [cellGet] using this.symm) (cellsWf_cons.1 hm).2.1
  | cons p l ih =>
    obtain ⟨a, x⟩ := p
    obtain ⟨-, hx, hl'⟩ := cellsWf_cons.1 hl
    cases m with
    | nil => exact absurd (by simpa [cellGet] using h a) hx
    | cons q m =>
      obtain ⟨b, y⟩ := q
      obtain ⟨-, hy, hm'⟩ := cellsWf_cons.1 hm
      have e : a = b := by
        rcases Nat.lt_trichotomy a b with hlt | he | hlt
        · have := h a
          rw [cellGet, if_pos rfl, cellGet, if_neg (by omega), cellGet_below hm' (by omega)] at this
          exact absurd this hx
        · exact he
        · have := h b
          rw [cellGet, if_neg (by omega), cellGet_below hl' (by omega), cellGet, if_pos rfl] at this
          exact absurd this.symm hy
      subst e
      have exy : x = y := by simpa [cellGet] using h a
      subst exy
      rw [ih hl' hm' fun z => ?_]
      by_cases hz : z = a
      · rw [hz, cellGet_below hl' (by omega), cellGet_below hm' (by omega)]
      · have := h z
        rwa [cellGet, cellGet, if_neg (Ne.symm hz), if_neg (Ne.symm hz)] at this

/-- Rising lists with the same members are equal. -/
theorem rising_ext {l m : List Nat} {lo : Nat} (hl : risingFrom lo l = true) (hm : risingFrom lo m = true)
    (h : ∀ x, l.contains x = m.contains x) : l = m := by
  have hl := (risingFrom_iff.1 hl).1
  have hm := (risingFrom_iff.1 hm).1
  refine List.Perm.eq_of_pairwise (le := (· < ·)) (fun a b _ _ h1 h2 => absurd h1 (Nat.lt_asymm h2)) hl hm ?_
  refine (List.perm_ext_iff_of_nodup (hl.imp Nat.ne_of_lt) (hm.imp Nat.ne_of_lt)).2 fun x => ?_
  have := h x
  rwa [Bool.eq_iff_iff, List.contains_iff_mem, List.contains_iff_mem] at this

theorem Mem.ext_of_reads {m n : Mem} (hm : m.wf = true) (hn : n.wf = true) (hb : ∀ a, m.byte a = n.byte a)
    (ht : ∀ w, m.tainted w = n.tainted w) (hp : ∀ l, m.poisoned l = n.poisoned l) : m = n := by
  obtain ⟨m1, m2, m3⟩ := Mem.wf_iff.1 hm
  obtain ⟨n1, n2, n3⟩ := Mem.wf_iff.1 hn
  cases m
  cases n
  rw [Mem.mk.injEq]
  exact ⟨cells_ext m1 n1 hb, rising_ext m2 n2 ht, rising_ext m3 n3 hp⟩

/-- Settles O58, from the laws of a memory: the canonical form kept, reads after writes, and reads determining it. -/
theorem memoryKept : Obligations.MemoryKept := by
  unfold Obligations.MemoryKept
  refine ⟨fun m a n v h => ⟨Mem.writeN_wf h a n v, Mem.readN_writeN h a n v, fun x hx => Mem.byte_writeN_other h v hx,
      fun j hj => Mem.byte_writeN h hj⟩,
    fun m w v h => ⟨Mem.setWord_wf h w v, ?_, fun x hx => ?_⟩,
    fun m a n v h => ⟨Mem.store_wf h a n v, fun x hx => Mem.byte_store_other h v hx⟩,
    fun old v o size _ hs => storeInto_narrow hs, fun m n hm hn hb ht hp => Mem.ext_of_reads hm hn hb ht hp⟩
  · rw [Mem.word_setWord h, if_pos rfl]
  · rw [Mem.word_setWord h, if_neg hx]

end Sys2Proof.Machine
end

section
/-!
SUPPORT. The register file behind a window: which entry holds a register, what a written register leaves (R129, R130), and O4.
-/
namespace Sys2Proof.Machine
open Sys2Proof

/-! ### Entries of the register file -/

theorem nthD_mem {α : Type} {l : List α} {i : Nat} {d : α} (h : i < l.length) : nthD l i d ∈ l := by
  rw [nthD_eq_getD, List.getElem?_eq_getElem h, Option.getD_some]
  exact List.getElem_mem h

theorem nthD_inj {α : Type} {l : List α} {i j : Nat} {d : α} (hl : l.Nodup) (hi : i < l.length) (hj : j < l.length)
    (h : nthD l i d = nthD l j d) : i = j := by
  rw [nthD_eq_getD, nthD_eq_getD, List.getElem?_eq_getElem hi, List.getElem?_eq_getElem hj, Option.getD_some,
    Option.getD_some] at h
  exact (List.Nodup.getElem_inj_iff hl).1 h

/-- A register lies in a granule of the window. -/
theorem Thread.entry_gran {t : Thread} {n : Nat} (h : n < t.top) : t.entry n / 8 ∈ t.window := by
  have hn : n / 8 < t.window.length := by rw [Thread.top] at h; omega
  have e : t.entry n / 8 = nthD t.window (n / 8) 0 := by rw [Thread.entry]; omega
  rw [e]
  exact nthD_mem hn

/-- Different registers of a window without repeats lie in different entries. -/
theorem Thread.entry_inj {t : Thread} {n m : Nat} (hw : t.window.Nodup) (hn : n < t.top) (hm : m < t.top)
    (h : t.entry n = t.entry m) : n = m := by
  rw [Thread.top] at hn hm
  rw [Thread.entry, Thread.entry] at h
  have := nthD_inj hw (by omega : n / 8 < _) (by omega : m / 8 < _) (by omega : nthD t.window (n / 8) 0 = nthD t.window (m / 8) 0)
  omega

@[simp] theorem Thread.done_entry (t : Thread) (pc n m : Nat) : (t.done pc n).entry m = t.entry m := rfl

/-! ### Reading after a write -/

theorem State.getG_withThread (s : State) (c k : Nat) (t q : Thread) (rf : SMap TWord) (n : Nat) :
    (s.withThread c k t rf).getG c q n = if n = 0 then TWord.zero else SMap.get rf (q.entry n) TWord.zero := by
  rw [State.getG, State.withThread_core_same]

theorem State.getG_withThread_other (s : State) {c d : Nat} (k : Nat) (t q : Thread) (rf : SMap TWord) (n : Nat) (h : d ≠ c) :
    (s.withThread c k t rf).getG d q n = s.getG d q n := by
  rw [State.getG, State.getG, State.withThread_core_other s k t rf h]

/-- An entry other than the one of the written register reads as before. -/
theorem Thread.get_putG_other {t : Thread} {rf : SMap TWord} {n e : Nat} (v d : TWord) (h : n ≠ 0 → e ≠ t.entry n) :
    SMap.get (t.putG rf n v) e d = SMap.get rf e d := by
  unfold Thread.putG
  split
  · rfl
  · next hn => exact SMap.get_set_other _ (h hn) _ _

section
variable (s : State) (c k : Nat) (t : Thread) (n : Nat) (v : TWord) (pc : Nat)

/-- The written register reads the value. -/
theorem State.wrote_getG_same (hn : n ≠ 0) : (s.wrote c k t n v pc).getG c (t.done pc s.nextId) n = v := by
  rw [State.wrote, State.getG_withThread, if_neg hn, Thread.done_entry, Thread.putG, if_neg hn, SMap.get_set_same]

/-- A register in another entry reads as before. -/
theorem State.wrote_getG_other {q : Thread} {m : Nat} (h : n ≠ 0 → m ≠ 0 → q.entry m ≠ t.entry n) :
    (s.wrote c k t n v pc).getG c q m = s.getG c q m := by
  rw [State.wrote, State.getG_withThread, State.getG]
  split
  · rfl
  · next hm => exact Thread.get_putG_other v _ fun hn => h hn hm

end

/-- Settles O4: the written register is one entry of the file, and no other register lies in it. -/
theorem registerWrite : Obligations.RegisterWrite := by
  unfold Obligations.RegisterWrite
  intro s c k t n v pc hw hn
  refine ⟨State.withThread_thread? .., rfl, ⟨rfl, rfl, rfl, rfl, rfl, rfl, rfl, rfl, rfl, rfl⟩, rfl,
    s.wrote_getG_same c k t n v pc, ?_, ?_, rfl, rfl, rfl⟩
  · intro m hm hne
    exact s.wrote_getG_other c k t n v pc fun _ _ e => hne (Thread.entry_inj hw hm hn e)
  · intro d j q m hdj hq hdis hm
    refine ⟨(State.withThread_thread?_other s _ _ hdj).trans hq, ?_⟩
    by_cases hd : d = c
    · subst hd
      refine s.wrote_getG_other d k t n v pc fun _ _ e => hdis rfl _ (Thread.entry_gran hm) ?_
      rw [e]
      exact Thread.entry_gran hn
    · exact State.getG_withThread_other s k _ q _ m hd

end Sys2Proof.Machine
end

section
/-!
SUPPORT. A block of registers after a write, cleared granules, a thread at admission (R130, R218), and O56.
-/
namespace Sys2Proof.Machine
open Sys2Proof

/-! ### Registers one after the other -/

/-- Reading a register depends on the file of the core alone. -/
theorem State.getG_congr {s u : State} {c : Nat} (h : (u.core c).rf = (s.core c).rf) (t : Thread) (n : Nat) :
    u.getG c t n = s.getG c t n := by rw [State.getG, State.getG, h]

theorem State.getG_setG {s : State} {c : Nat} {t : Thread} (hw : t.window.Nodup) {n m : Nat} (v : TWord) (hn : n < t.top)
    (hm : m < t.top) : (s.setG c t n v).getG c t m = if m = n ∧ n ≠ 0 then v else s.getG c t m := by
  by_cases h0 : n = 0
  · rw [State.setG, if_pos h0, if_neg (fun h => h.2 h0)]
  · rw [State.setG, if_neg h0]
    by_cases hmn : m = n
    · subst hmn
      rw [if_pos ⟨rfl, h0⟩, State.getG, if_neg h0, State.modCore, State.core_setCore_same, SMap.get_set_same]
    · rw [if_neg (fun h => hmn h.1), State.getG, State.getG, State.modCore, State.core_setCore_same,
        SMap.get_set_other _ (fun e => hmn (Thread.entry_inj hw hm hn e))]

/-- A register after a block of registers is written. -/
theorem State.getG_setGs {s : State} {c : Nat} {t : Thread} (hw : t.window.Nodup) {n m : Nat} {vs : List TWord}
    (h0 : n ≠ 0) (hn : n + vs.length ≤ t.top) (hm : m < t.top) :
    (s.setGs c t n vs).getG c t m = if n ≤ m ∧ m < n + vs.length then nthD vs (m - n) TWord.zero else s.getG c t m := by
  induction vs generalizing s n with
  | nil => rw [State.setGs, if_neg (by simp)]
  | cons v r ih =>
    simp only [List.length_cons] at hn ⊢
    rw [State.setGs, ih (by omega) (by omega), State.getG_setG hw v (by omega) hm]
    by_cases h1 : n + 1 ≤ m ∧ m < n + 1 + r.length
    · rw [if_pos h1, if_pos (by omega), show m - n = (m - (n + 1)) + 1 by omega, nthD_cons_succ]
    · rw [if_neg h1]
      by_cases h2 : m = n
      · subst h2
        rw [if_pos ⟨rfl, h0⟩, if_pos (by omega), Nat.sub_self, nthD_cons_zero]
      · rw [if_neg (fun h => h2 h.1), if_neg (by omega)]

/-! ### Free granules and cleared ones (R130) -/

theorem Core.freeGran_nodup (x : Core) : x.freeGran.Nodup := List.Nodup.filter _ List.nodup_range

/-- An entry of a filtered table. -/
theorem SMap.get_filter {α : Type} (m : SMap α) (p : Nat → Bool) (k : Nat) (d : α) :
    SMap.get (m.filter (fun e => p e.1)) k d = if p k then SMap.get m k d else d := by
  induction m with
  | nil => simp
  | cons e r ih =>
    obtain ⟨j, w⟩ := e
    by_cases hj : j = k
    · subst hj
      cases hp : p j <;> simp [hp, SMap.get] at ih ⊢
      exact ih
    · cases hp : p j <;> simp [hp, SMap.get, hj, ih]

/-- What the register file reads once granules have been cleared. -/
theorem Core.clearGran_get (x : Core) (gs : List Nat) (e : Nat) :
    SMap.get (x.clearGran gs).rf e TWord.zero = if e / 8 ∈ gs then TWord.zero else SMap.get x.rf e TWord.zero := by
  rw [Core.clearGran, SMap.get_filter x.rf (fun e => !gs.contains (e / 8))]
  by_cases h : e / 8 ∈ gs <;> simp [h]

/-! ### Admission (R218) -/

theorem State.core_foldl_modObj (l : List Nat) (g : State → SyncObj → SyncObj) (s : State) (c : Nat) :
    (l.foldl (fun s o => s.modObj o (g s)) s).core c = s.core c := by
  induction l generalizing s with
  | nil => rfl
  | cons o l ih => rw [List.foldl_cons, ih]; rfl

/-- The granules an admission takes. -/
def State.enrolGran (s : State) (c : Nat) (q : Cont) : List Nat := (s.core c).freeGran.take (taskGran q.task + 1)

/-- The thread an admission makes of a continuation. -/
def State.enrolThread (s : State) (c k : Nat) (q : Cont) : Thread :=
  Thread.new (q.task.bits 63 60) (nextInc ((s.core c).slot k).inc) q (s.enrolGran c q)
    ((List.range 4).map (s.launchSeg (q.task.bits 63 60) (taskLaunch q.task)) ++
      [Seg.zero, Seg.zero, Seg.zero, s.saveSeg (q.task.bits 63 60) c k]) s.now

/-- The core after an admission, before the arguments are written: its granules cleared, its slot taken. -/
def State.enrolCore (s : State) (c k : Nat) (q : Cont) : Core :=
  { (s.core c).clearGran (s.enrolGran c q) with
    slots := SMap.set (s.core c).slots k ⟨nextInc ((s.core c).slot k).inc, .live (s.enrolThread c k q)⟩ }

/-- What an admission leaves of the core. -/
theorem State.enrol_core {s : State} {c k : Nat} {q : Cont} (h : q.origin ≠ 3) :
    (s.enrol c k q).core c = ((s.setCore c (s.enrolCore c k q)).setGs c (s.enrolThread c k q) 2 q.args).core c := by
  simp only [State.enrol, if_neg h]
  split
  · rw [State.core_foldl_modObj]; rfl
  · rfl

theorem State.enrol_thread? {s : State} {c k : Nat} {q : Cont} (h : q.origin ≠ 3) :
    (s.enrol c k q).thread? c k = some (s.enrolThread c k q) := by
  rw [State.thread?_congr (u := (s.setCore c (s.enrolCore c k q)).setGs c (s.enrolThread c k q) 2 q.args)
    (by rw [State.enrol_core h]), State.setGs_thread?, State.thread?_eq, State.core_setCore_same]
  simp [State.enrolCore, Core.slot]

/-- The registers of a thread at admission: its arguments, and zero. -/
theorem State.enrol_getG {s : State} {c k : Nat} {q : Cont} (h : q.origin ≠ 3) (ha : q.args.length = 4)
    (hg : taskGran q.task + 1 ≤ (s.core c).freeGran.length) {n : Nat} (hn : n < (s.enrolThread c k q).top) :
    (s.enrol c k q).getG c (s.enrolThread c k q) n =
      if 2 ≤ n ∧ n ≤ 5 then nthD q.args (n - 2) TWord.zero else TWord.zero := by
  have hw : (s.enrolThread c k q).window.Nodup := (Core.freeGran_nodup _).sublist (List.take_sublist ..)
  have htop : 8 ≤ (s.enrolThread c k q).top := by
    have : (s.enrolThread c k q).window.length = taskGran q.task + 1 := List.length_take_of_le hg
    rw [Thread.top, this]; omega
  rw [State.getG_congr (congrArg Core.rf (State.enrol_core h)), State.getG_setGs hw (by decide) (by omega) hn, ha]
  by_cases hc : 2 ≤ n ∧ n ≤ 5
  · rw [if_pos (by omega), if_pos hc]
  · rw [if_neg (by omega), if_neg hc, State.getG, State.core_setCore_same]
    split
    · rfl
    · exact (Core.clearGran_get ..).trans (if_pos (Thread.entry_gran hn))

/-- Settles O56: the reset state's fields, and what an admission leaves of the core and makes of the continuation. -/
theorem resetState : Obligations.ResetState := by
  unfold Obligations.ResetState
  refine ⟨fun c k h => (nomatch h), rfl, fun c _ => ⟨rfl, rfl, rfl, ?_, ?_, fun _ => rfl⟩, fun _ _ => rfl,
    fun _ => ⟨rfl, rfl, rfl, rfl, rfl, rfl⟩, ?_⟩
  · exact (by decide : ∀ n, n < 4 → (nthD Core.reset.mx n MxReg.reset).full = false)
  · exact (by decide : ∀ n, n < 2 → (Core.reset.tile n).owner = none)
  · intro s c k q h ha hg
    refine ⟨_, s.enrolThread c k q, rfl, State.enrol_thread? h, rfl, rfl, rfl, ?_, rfl, rfl, rfl, rfl,
      List.length_take_of_le hg, fun n hn => State.enrol_getG h ha hg hn⟩
    exact (by decide : ∀ n, n < 8 → nthD (List.replicate 8 TWord.zero) n TWord.zero = TWord.zero)

end Sys2Proof.Machine
end

section
/-!
SUPPORT. What a step does once a core has the turn, and what a fetch of one parcel gives (R14, R27), and O54.
-/
namespace Sys2Proof.Machine
open Sys2Proof

section
variable {s0 : State} {c k : Nat} {t : Thread}

/-- The step of a core that has the turn and comes to an instruction. -/
theorem step_of_run (hc : s0.cur = some (c, k)) {i : Instr} {u : State} (h : s0.front c k = .run i u) :
    step s0 = endOut (exec i u) := by
  simp only [step, hc, h]

/-- The step of a core whose turn ends before an instruction. -/
theorem step_of_done (hc : s0.cur = some (c, k)) {u : State} (h : s0.front c k = .done u) :
    step s0 = .next u.endStep := by
  simp only [step, hc, h]

section
variable (ht : (s0.turned c).thread? c k = some t) (hr : t.run = .ready) (hb : (s0.turned c).boundary c k t = none)
include ht hr hb

/-- A ready thread with accesses that it must wait for waits. -/
theorem State.front_wait (ha : t.answer = none) (hm : t.midway = false) {w : Wait}
    (hw : (s0.turned c).mustWait c k t = some w) : s0.front c k = .done ((s0.turned c).parkAfter c k w) := by
  simp [State.front, State.frontOf, ht, hr, hb, ha, hm, hw]

variable (hm : t.answer.isSome = true ∨ t.midway = true ∨ (s0.turned c).mustWait c k t = none) {ps : List Nat}
  (hf : (s0.turned c).fetch c k t = .ok ps)
include hm hf

/-- Otherwise its parcels are decoded, and the instruction runs in the state that has issued from the slot. -/
theorem State.front_run {i : Instr} {n : Nat} {rest : List Nat} (hd : decode ps = .ok (i, n, rest)) :
    s0.front c k = .run i ((s0.turned c).issued c k (t.pc + 2 * n)) := by
  rcases hm with h | h | h <;> simp [State.front, State.frontOf, ht, hr, hb, h, hf, hd]

/-- What does not decode traps ILLOP. -/
theorem State.front_illegal {e : Reject} (hd : decode ps = .error e) :
    s0.front c k = .done ((s0.turned c).raise c k tILLOP (w64 t.pc) 0) := by
  rcases hm with h | h | h <;> simp [State.front, State.frontOf, ht, hr, hb, h, hf, hd]

end

end

/-- The outcome of an instruction ends the step. -/
theorem endOut_eq (o : Out) : endOut o = (match o with
    | .next u => .next u.endStep
    | .fault e => .fault e
    | .refused r => .refused r) := by
  cases o <;> rfl

/-! ### The fetch of one parcel (R27) -/

section
variable (s : State) (c k : Nat) (t : Thread) (off : Nat)

theorem State.fetch16_limit (h : (t.seg 0).limit < off + 2) : s.fetch16 c k t off = .trap 0x04 (w64 off) 0 := by
  rw [State.fetch16, if_pos h]
  rfl

theorem State.fetch16_right (h : off + 2 ≤ (t.seg 0).limit) (hx : (t.seg 0).has 'X' = false) :
    s.fetch16 c k t off = .trap 0x05 (w64 off) 0 := by
  rw [State.fetch16, if_neg (Nat.not_lt.2 h), if_pos (by rw [hx]; rfl)]
  rfl

/-- In a page that may be executed the parcel is the 16 bits at its address, unless its line is poisoned. -/
theorem State.fetch16_page (h : off + 2 ≤ (t.seg 0).limit) (hx : (t.seg 0).has 'X' = true) {tr : Tr}
    (hp : s.pageFor c k t ((t.seg 0).base + off) 3 = .tr tr) :
    s.fetch16 c k t off =
      if s.poisoned tr.pa then .trap 0x10 (w64 ((t.seg 0).base + off)) (deferredAux 0 t.pc)
      else .ok (bitsOf (s.cohWord c (tr.pa / 8) tr.leaf).v.toNat (8 * (tr.pa % 8) + 15) (8 * (tr.pa % 8))) := by
  rw [State.fetch16, if_neg (Nat.not_lt.2 h), if_neg (by rw [hx]; decide), hp]
  rfl

end

/-- Settles O54: the front of a step, the fetch of a parcel, and the choice, case by case. -/
theorem stepRunsDecoded : Obligations.StepRunsDecoded := by
  unfold Obligations.StepRunsDecoded
  refine ⟨?_, ?_, ?_, ?_⟩
  · intro s0 c k t ps hc s ht hr hb hm hf
    exact ⟨fun i n rest hd => (step_of_run hc (State.front_run ht hr hb hm hf hd)).trans (endOut_eq _),
      fun e hd => step_of_done hc (State.front_illegal ht hr hb hm hf hd)⟩
  · intro s0 c k t w hc s ht hr hb ha hm hw
    exact step_of_done hc (State.front_wait ht hr hb ha hm hw)
  · intro s c k t off
    refine ⟨s.fetch16_limit c k t off, s.fetch16_right c k t off, fun tr h hx hp => ?_⟩
    rw [s.fetch16_page c k t off h hx hp]
    exact ⟨fun hq => if_pos hq, fun hq => if_neg (by rw [hq]; decide)⟩
  · intro s hc
    rw [step, hc]
    cases s.choice with
    | event e u => exact endOut_eq _
    | issue c k => rfl
    | idle => rfl

end Sys2Proof.Machine
end

section
/-!
SUPPORT. What an instruction without special operands reads, and the integer instructions (R149, R151): O1.
-/
namespace Sys2Proof.Machine
open Sys2Proof

/-! ### Reads without special operands -/

/-- The value of a field that names no special operand. -/
def State.fieldValue (s : State) (c : Nat) (t : Thread) (r : Role) (n : Nat) : TWord :=
  match r with
  | .rd | .wr | .rw | .base | .wrp | .rwp => s.getG c t n
  | .ptr => t.ptr n
  | _ => TWord.zero

theorem State.readField_plain (s : State) (c k : Nat) (t : Thread) (r : Role) (n : Nat) :
    s.readField c k t r n false = (s.fieldValue c t r n, s) := by
  cases r <;> rfl

/-- Without special operands an instruction reads the values of its fields, and changes nothing. -/
theorem State.readVals_plain {i : Instr} {fo : Form} {f : Fields} (hform : i.form = some fo) (hf : plainFields f)
    (s : State) (c k : Nat) (t : Thread) :
    s.readVals i c k t f =
      (⟨s.fieldValue c t (i.roles fo f).1 f.d, s.fieldValue c t (i.roles fo f).2.1 f.a,
        if f.three then s.fieldValue c t (i.roles fo f).2.2 f.b else TWord.zero⟩, s) := by
  obtain ⟨hd, ha, hb⟩ := hf
  cases h3 : f.three <;> simp [State.readVals, hform, hd, ha, hb, h3, State.readField_plain]

/-- An instruction without special operands that computes one value from its operands. -/
theorem computes_of_compute {mk : Fields → Instr} {g : Fields → TWord → TWord → TWord → TWord} {fo : Form}
    {val : Fields → Vals → TWord} (hform : ∀ f, (mk f).form = some fo)
    (hexec : ∀ f s, exec (mk f) s = compute (mk f) f s (val f))
    (hval : ∀ (s : State) c t (f : Fields), val f ⟨s.fieldValue c t ((mk f).roles fo f).1 f.d,
        s.fieldValue c t ((mk f).roles fo f).2.1 f.a,
        if f.three then s.fieldValue c t ((mk f).roles fo f).2.2 f.b else TWord.zero⟩ =
      g f (s.getG c t f.d) (s.getG c t f.a) (if f.three then s.getG c t f.b else TWord.zero)) :
    Computes mk g := by
  intro f s c k t hf h
  rw [hexec, compute_plain h hf _ (State.readVals_plain (hform f) hf s c k t), hval]

/-! ### The integer instructions -/

/-- NOP only moves on. -/
theorem exec_nop_goes {f : Fields} {s : State} {c k : Nat} {t : Thread} (h : Goes (.nop f) s c k t) :
    exec (.nop f) s = .next (s.moved c k t s.next) := by
  rw [exec_nop, execNop, issue_goes h, State.finish_shortened h.thread?]
  rfl

/-- SEL takes a where d is not zero and b otherwise. -/
theorem exec_sel_goes {f : Fields} {s : State} {c k : Nat} {t : Thread} (hf : plainFields f) (h3 : f.three = true)
    (h : Goes (.sel f) s c k t) :
    exec (.sel f) s = .next (s.wrote c k t f.d
      ⟨if (s.getG c t f.d).v ≠ 0 then (s.getG c t f.a).v else (s.getG c t f.b).v,
       (s.getG c t f.d).t || (s.getG c t f.a).t || (s.getG c t f.b).t⟩ s.next) := by
  rw [exec_sel, execSel, compute_plain h hf _ (State.readVals_plain (Instr.form_sel f) hf s c k t)]
  simp only [h3]
  rfl

/-- Settles O1: each form reads its operands, computes its function and writes gd. -/
theorem integerForms : Obligations.IntegerForms := by
  have two : ∀ {mk : Fields → Instr} {g : Fields → Word → Word → Word} {fmt : Fmt} {md : Mods} {imm : ImmK},
      (∀ f, (mk f).form = some ⟨fmt, .opt, md, .rw, .rd, .rd, imm⟩) →
      (∀ f fo, (mk f).roles fo f = fo.rolesOf f.three) →
      (∀ f s, exec (mk f) s = compute (mk f) f s (fun v => ⟨g f (v.x f).v (v.y f).v, (v.x f).t || (v.y f).t⟩)) →
      Computes2 mk g := fun hform hroles hexec =>
    computes2_of_compute hform (fun f => (hroles f _).trans (Form.rolesOf_twoThree _ _ _ f.three)) hexec
  unfold Obligations.IntegerForms
  refine ⟨two Instr.form_add (fun f => Instr.roles_add f f) exec_add,
    two Instr.form_sub (fun f => Instr.roles_sub f f) exec_sub,
    two Instr.form_mul (fun f => Instr.roles_mul f f) exec_mul,
    two Instr.form_mulh (fun f => Instr.roles_mulh f f) exec_mulh, computes2_div, computes2_rem,
    two Instr.form_andOp (fun f => Instr.roles_andOp f f) exec_andOp,
    two Instr.form_orOp (fun f => Instr.roles_orOp f f) exec_orOp,
    two Instr.form_xor (fun f => Instr.roles_xor f f) exec_xor,
    two Instr.form_andn (fun f => Instr.roles_andn f f) exec_andn,
    two Instr.form_shl (fun f => Instr.roles_shl f f) exec_shl,
    two Instr.form_shr (fun f => Instr.roles_shr f f) exec_shr,
    two Instr.form_sar (fun f => Instr.roles_sar f f) exec_sar,
    two Instr.form_minOp (fun f => Instr.roles_minOp f f) exec_minOp,
    two Instr.form_maxOp (fun f => Instr.roles_maxOp f f) exec_maxOp,
    two Instr.form_cmpeq (fun f => Instr.roles_cmpeq f f) exec_cmpeq,
    two Instr.form_cmpne (fun f => Instr.roles_cmpne f f) exec_cmpne,
    two Instr.form_cmplt (fun f => Instr.roles_cmplt f f) exec_cmplt,
    two Instr.form_cmple (fun f => Instr.roles_cmple f f) exec_cmple,
    fun f s c k t h => exec_nop_goes h,
    computes_of_compute Instr.form_mov exec_mov fun _ _ _ _ => rfl,
    computes_of_compute Instr.form_movk exec_movk fun _ _ _ _ => rfl,
    computes_of_compute Instr.form_movkh exec_movkh fun _ _ _ _ => rfl,
    computes_of_compute Instr.form_addk exec_addk fun _ _ _ _ => rfl,
    computes_of_compute Instr.form_neg exec_neg fun _ _ _ _ => rfl,
    computes_of_compute Instr.form_notOp exec_notOp fun _ _ _ _ => rfl,
    computes_of_compute Instr.form_shlk exec_shlk fun _ _ _ _ => rfl,
    computes_of_compute Instr.form_shrk exec_shrk fun _ _ _ _ => rfl,
    computes_of_compute Instr.form_sark exec_sark fun _ _ _ _ => rfl,
    computes_of_compute Instr.form_clz exec_clz fun _ _ _ _ => rfl,
    computes_of_compute Instr.form_popc exec_popc fun _ _ _ _ => rfl,
    computes_of_compute Instr.form_bfx exec_bfx fun _ _ _ _ => rfl,
    computes_of_compute Instr.form_bfi exec_bfi fun _ _ _ _ => rfl,
    computes_of_compute Instr.form_sext exec_sext fun _ _ _ _ => rfl,
    fun f s c k t hf h3 h => exec_sel_goes hf h3 h⟩

end Sys2Proof.Machine
end

section
/-!
SUPPORT. The functions of the integer instructions as operations on bit vectors (R149, R151, R152): O2.
-/
namespace Sys2Proof.Machine
open Sys2Proof

/-- The upper half of a 128-bit word whose value is the integer `z`, modulo 2^128. -/
theorem upper_half_eq_w64i {p : BitVec 128} {z : Int} (hp : p = BitVec.ofInt 128 z) :
    p.extractLsb' 64 64 = w64i (z / 2 ^ 64) := by
  subst hp
  apply BitVec.eq_of_toNat_eq
  rw [BitVec.extractLsb'_toNat, w64i, BitVec.toNat_ofInt, BitVec.toNat_ofInt, Nat.shiftRight_eq_div_pow]
  omega

/-- MULH of unsigned words is the upper half of their product. -/
theorem mulhW_of_unsigned {f : Fields} (hu : modU f = true) (x y : Word) :
    mulhW f x y = (x.setWidth 128 * y.setWidth 128).extractLsb' 64 64 := by
  rw [mulhW, asInt_of_unsigned hu, asInt_of_unsigned hu]
  refine (upper_half_eq_w64i ?_).symm
  rw [BitVec.ofInt_mul, BitVec.ofInt_natCast, BitVec.ofInt_natCast, BitVec.ofNat_toNat, BitVec.ofNat_toNat]

/-- MULH of signed words likewise. -/
theorem mulhW_of_signed {f : Fields} (hu : modU f = false) (x y : Word) :
    mulhW f x y = (x.signExtend 128 * y.signExtend 128).extractLsb' 64 64 := by
  rw [mulhW, asInt_of_signed hu, asInt_of_signed hu]
  refine (upper_half_eq_w64i ?_).symm
  rw [BitVec.ofInt_mul]
  rfl

/-- The order of the reduced operands is that of the signed or unsigned words. -/
theorem lessW_eq (f : Fields) (x y : Word) :
    lessW f x y = if modU f then (red149 f x).ult (red149 f y) else (red149 f x).slt (red149 f y) := by
  rw [lessW, reduceW_eq_red149, reduceW_eq_red149]
  cases hu : modU f with
  | true => simp [asInt_of_unsigned hu, BitVec.ult]
  | false => simp [asInt_of_signed hu, BitVec.slt]

/-- At most is not greater. -/
theorem notLessW_eq (f : Fields) (x y : Word) :
    (!lessW f y x) = if modU f then (red149 f x).ule (red149 f y) else (red149 f x).sle (red149 f y) := by
  rw [lessW_eq]
  cases modU f with
  | true => simp [BitVec.ule_eq_not_ult]
  | false => simp [BitVec.sle_eq_not_slt]

/-- Settles O2: each function is its operation on the reduced operands. -/
theorem integerMeaning : Obligations.IntegerMeaning := by
  unfold Obligations.IntegerMeaning
  refine ⟨fun f x y => ⟨?_, ?_, ?_, ?_, ?_, ?_, ?_, ?_, ?_, ?_, ?_⟩, fun f x y => ⟨fun hy => ?_, fun hu hy => ?_, fun hu hy => ?_⟩⟩
  · rw [addW, reduceW_eq_red149, reduceW_eq_red149, resultW_eq_res149]
  · rw [subW, reduceW_eq_red149, reduceW_eq_red149, resultW_eq_res149]
  · rw [mulW, reduceW_eq_red149, reduceW_eq_red149, resultW_eq_res149]
  · cases hu : modU f with
    | true => exact mulhW_of_unsigned hu x y
    | false => exact mulhW_of_signed hu x y
  · rw [negW, reduceW_eq_red149, resultW_eq_res149]
  · rw [shlW, resultW_eq_res149, countW]
  · rw [shrW, resultW_eq_res149, countW, low32u_eq_low32]
  · rw [sarW, resultW_eq_res149, countW, low32s_eq_low32]
  · simp [cmpeqW, bitW, reduceW_eq_red149]
  · rw [cmpltW, bitW, lessW_eq]
  · rw [cmpleW, bitW, notLessW_eq]
  · exact ⟨divW_of_zero hy x, remW_of_zero hy x⟩
  · exact ⟨divW_of_unsigned hu hy x, remW_of_unsigned hu hy x⟩
  · exact ⟨divW_of_signed hu hy x, remW_of_signed hu hy x⟩

end Sys2Proof.Machine
end

section
/-!
SUPPORT. Branches, calls and jumps (R153): O3.
-/
namespace Sys2Proof.Machine
open Sys2Proof

/-- A conditional branch without special operands tests the register d and moves on, at its target or at the next. -/
theorem branchIf_goes {i : Instr} {fmt : Fmt} {x : XMark} {md : Mods} {imm : ImmK} {f : Fields} {s : State} {c k : Nat} {t : Thread}
    (hform : i.form = some ⟨fmt, x, md, .rd, .none, .none, imm⟩)
    (hroles : i.roles ⟨fmt, x, md, .rd, .none, .none, imm⟩ f = (.rd, .none, .none))
    (hf : plainFields f) (h : Goes i s c k t) (p : Word → Bool) :
    branchIf i f s p = .next (s.moved c k t (if p (s.getG c t f.d).v then branchTarget t f else s.next)) := by
  rw [branchIf, issue_goes h]
  simp only [State.readVals_plain hform hf, hroles]
  rw [State.goto_shortened h.thread?]
  rfl

/-- Settles O3: each branch or jump settles its thread and moves it to its target, JR with the link after the target is read. -/
theorem controlFlow : Obligations.ControlFlow := by
  unfold Obligations.ControlFlow
  refine ⟨fun f s c k t h => ?_, fun f s c k t h => ?_, fun f s c k t hf h heven => ?_, fun f s c k t hf h hodd => ?_,
    fun f s c k t hf h => ?_, fun f s c k t hf h => ?_, fun f s c k t hf h => ?_, fun f s c k t hf h => ?_⟩
  · rw [exec_br, execBr, issue_goes h, State.goto_shortened h.thread?]
    rfl
  · rw [exec_call, execCall, issue_goes h, State.setG_goto_shortened h.thread?]
    rfl
  · rw [exec_jr, execJr, issue_goes h]
    simp only [State.readVals_plain (Instr.form_jr f) hf]
    have hread : s.fieldValue c t ((Instr.jr f).roles ⟨.A, .no, .none, .wr, .rd, .none, .none⟩ f).2.1 f.a = s.getG c t f.a := rfl
    rw [hread, if_neg (by omega)]
    by_cases hd : f.d = 0
    · simp only [hd, hf.1, ne_eq, not_true_eq_false, decide_false, Bool.or_self, Bool.false_eq_true, if_false]
      rw [State.goto_shortened h.thread?]
      rfl
    · simp only [hd, State.writeD, hf.1, ne_eq, not_false_eq_true, decide_true, Bool.true_or, if_true, Bool.false_eq_true, if_false]
      rw [State.setG_goto_shortened h.thread?]
      rfl
  · rw [exec_jr, execJr, issue_goes h]
    simp only [State.readVals_plain (Instr.form_jr f) hf]
    have hread : s.fieldValue c t ((Instr.jr f).roles ⟨.A, .no, .none, .wr, .rd, .none, .none⟩ f).2.1 f.a = s.getG c t f.a := rfl
    rw [hread, if_pos hodd]
  · rw [exec_bz, execBz, branchIf_goes (Instr.form_bz f) (Instr.roles_bz f f _) hf h]
    simp
  · rw [exec_bnz, execBnz, branchIf_goes (Instr.form_bnz f) (Instr.roles_bnz f f _) hf h]
    simp
  · rw [exec_bltz, execBltz, branchIf_goes (Instr.form_bltz f) (Instr.roles_bltz f f _) hf h]
    simp [BitVec.msb_eq_toInt]
  · rw [exec_bgez, execBgez, branchIf_goes (Instr.form_bgez f) (Instr.roles_bgez f f _) hf h]
    simp [BitVec.msb_eq_toInt]

end Sys2Proof.Machine
end

section
/-!
SUPPORT. Raising flags, and the scalar F forms (R157, R168, R240): O5.
-/
namespace Sys2Proof.Machine
open Sys2Proof

/-! ### States that differ only in the threads of a core -/

theorem State.SameStores.refl (s : State) : s.SameStores s := ⟨rfl, rfl, rfl, fun _ => ⟨rfl, rfl, rfl, rfl, rfl, rfl⟩⟩

theorem State.SameStores.trans {s t u : State} (h : s.SameStores t) (h' : t.SameStores u) : s.SameStores u := by
  obtain ⟨hm, ht, hc, hx⟩ := h
  obtain ⟨hm', ht', hc', hx'⟩ := h'
  refine ⟨hm'.trans hm, ht'.trans ht, hc'.trans hc, fun c => ?_⟩
  obtain ⟨h1, h2, h3, h4, h5, h6⟩ := hx c
  obtain ⟨g1, g2, g3, g4, g5, g6⟩ := hx' c
  exact ⟨g1.trans h1, g2.trans h2, g3.trans h3, g4.trans h4, g5.trans h5, g6.trans h6⟩

/-- A changed core keeps the stores when it keeps its own. -/
theorem State.sameStores_setCore (s : State) {c : Nat} {x : Core} (hrf : x.rf = (s.core c).rf) (hwin : x.win = (s.core c).win)
    (htiles : x.tiles = (s.core c).tiles) (hfmt : x.fmt = (s.core c).fmt) (hmx : x.mx = (s.core c).mx)
    (hbanks : x.banks = (s.core c).banks) : s.SameStores (s.setCore c x) := by
  refine ⟨rfl, rfl, rfl, fun d => ?_⟩
  rw [State.core_setCore]
  by_cases h : d = c
  · subst h
    rw [if_pos rfl]
    exact ⟨hrf, hwin, htiles, hfmt, hmx, hbanks⟩
  · rw [if_neg h]
    exact ⟨rfl, rfl, rfl, rfl, rfl, rfl⟩

/-- A change of a core that keeps its own stores keeps all. -/
theorem State.sameStores_modCore (s : State) (c : Nat) (g : Core → Core)
    (hg : ∀ x, (g x).rf = x.rf ∧ (g x).win = x.win ∧ (g x).tiles = x.tiles ∧ (g x).fmt = x.fmt ∧ (g x).mx = x.mx ∧
      (g x).banks = x.banks) : s.SameStores (s.modCore c g) := by
  obtain ⟨h1, h2, h3, h4, h5, h6⟩ := hg (s.core c)
  exact s.sameStores_setCore h1 h2 h3 h4 h5 h6

theorem State.sameStores_post (s : State) (es : List Event) : s.SameStores (s.post es) :=
  ⟨rfl, rfl, rfl, fun _ => ⟨rfl, rfl, rfl, rfl, rfl, rfl⟩⟩

theorem State.sameStores_setThread (s : State) (c k : Nat) (t : Thread) : s.SameStores (s.setThread c k t) :=
  s.sameStores_setCore rfl rfl rfl rfl rfl rfl

theorem State.sameStores_modThread (s : State) (c k : Nat) (g : Thread → Thread) : s.SameStores (s.modThread c k g) := by
  unfold State.modThread
  split
  · exact s.sameStores_setThread c k _
  · exact .refl s

theorem State.setThread_eq_withThread (s : State) (c k : Nat) (t : Thread) :
    s.setThread c k t = s.withThread c k t (s.core c).rf := rfl

/-! ### Raising flags -/

/-- The state in which the flags `fl` are sticky and those enabled are in the collection window. -/
theorem State.raiseFlags_eq {s : State} {c k : Nat} {t : Thread} (h : s.thread? c k = some t) (pc : Nat) (addr : Word) (fl : Nat) :
    s.raiseFlags c k pc addr fl =
      if t.enabledFlags fl = 0 then s.setThread c k (t.orFlags fl)
      else ((s.setThread c k (t.orFlags fl)).modCore c (fun x =>
        { x with fpwin := x.fpwin ++ [⟨k, t.inc, s.now, addr, t.enabledFlags fl, pc⟩] })).post [evt .fpWindowEnd [c]] := by
  rw [State.raiseFlags, State.raiseAtCycle, h]

@[simp] theorem State.thread?_post (s : State) (es : List Event) (d j : Nat) : (s.post es).thread? d j = s.thread? d j := rfl

/-- A change of a core that keeps its slots keeps every thread. -/
theorem State.thread?_modCore (s : State) (c : Nat) (g : Core → Core) (hg : ∀ x, (g x).slots = x.slots) (d j : Nat) :
    (s.modCore c g).thread? d j = s.thread? d j := by
  refine State.thread?_congr ?_
  rw [State.modCore_eq, State.core_setCore]
  by_cases hd : d = c
  · subst hd
    rw [if_pos rfl, Core.slot, Core.slot, hg]
  · rw [if_neg hd]

theorem State.raiseFlags_thread? {s : State} {c k : Nat} {t : Thread} (h : s.thread? c k = some t) (pc : Nat) (addr : Word)
    (fl d j : Nat) : (s.raiseFlags c k pc addr fl).thread? d j = (s.setThread c k (t.orFlags fl)).thread? d j := by
  rw [State.raiseFlags_eq h]
  split
  · rfl
  · rw [State.thread?_post, State.thread?_modCore]
    exact fun _ => rfl

theorem State.sameStores_raiseFlags {s : State} {c k : Nat} {t : Thread} (h : s.thread? c k = some t) (pc : Nat) (addr : Word)
    (fl : Nat) : s.SameStores (s.raiseFlags c k pc addr fl) := by
  rw [State.raiseFlags_eq h]
  split
  · exact s.sameStores_setThread c k _
  · refine ((s.sameStores_setThread c k (t.orFlags fl)).trans ?_).trans (State.sameStores_post _ _)
    exact State.sameStores_modCore _ _ _ fun _ => ⟨rfl, rfl, rfl, rfl, rfl, rfl⟩

/-- An instruction with an enabled flag enters the collection window. -/
theorem State.raiseFlags_fpwin {s : State} {c k : Nat} {t : Thread} (h : s.thread? c k = some t) (pc : Nat) (addr : Word)
    (fl : Nat) : ((s.raiseFlags c k pc addr fl).core c).fpwin = (s.core c).fpwin ++
      (if t.enabledFlags fl = 0 then [] else [⟨k, t.inc, s.now, addr, t.enabledFlags fl, pc⟩]) := by
  rw [State.raiseFlags_eq h]
  split
  · rw [State.setThread_eq_withThread, State.withThread_core_same, List.append_nil]
  · rw [State.core_post, State.modCore_eq, State.core_setCore_same, State.setThread_eq_withThread, State.withThread_core_same]

/-! ### The scalar F forms -/

/-- One register written is a group of one. -/
theorem State.setGs_one (s : State) (c : Nat) (t : Thread) (n : Nat) (v : TWord) : s.setGs c t n [v] = s.setG c t n v := rfl

/-- An instruction that writes a group, raises flags and goes on. -/
theorem State.raiseFlags_finish (s : State) (c k : Nat) (t : Thread) (n : Nat) (vs : List TWord) (fl : Nat) :
    (((s.setGs c t n vs).raiseFlags c k t.pc 0 fl).finish c k).shortened c k t.pc s.nextId = s.flagged c k t n vs fl := by
  rw [State.finish_completed, State.raiseFlags_next, State.setGs_next, State.flagged]

theorem State.writeD_plain (s : State) (c k : Nat) (t : Thread) {f : Fields} (hd : f.sd = false) (v : TWord) :
    s.writeD c k t f v = s.setG c t f.d v := by
  rw [State.writeD, hd]
  rfl

/-- A form that `scalarF` runs is a scalar form when its fields read the registers that it uses. -/
theorem scalarForm_of_scalarF {mk : Fields → Instr} {useD useB : Fields → Bool} {g : Fields → Nat → Nat → Nat → FRes}
    {fo : Form} (hform : ∀ f, (mk f).form = some fo)
    (hexec : ∀ f s, exec (mk f) s = scalarF (mk f) f s (useD f) (useB f) (g f))
    (ha : ∀ (s : State) c t f, s.fieldValue c t ((mk f).roles fo f).2.1 f.a = s.getG c t f.a)
    (hd : ∀ (s : State) c t f, s.fieldValue c t ((mk f).roles fo f).1 f.d = s.getG c t f.d)
    (hb : ∀ (s : State) c t f, f.three = true → useB f = true →
      s.fieldValue c t ((mk f).roles fo f).2.2 f.b = s.getG c t f.b)
    (hg : ∀ f d a b b', useB f = false → g f d a b = g f d a b') : ScalarForm mk useD useB g := by
  intro f s c k t hf h
  dsimp only
  rw [hexec, scalarF, issue_goes h]
  simp only [State.readVals_plain (hform f) hf, State.writeD_plain s c k t hf.1, ha, hd]
  rw [← State.setGs_one, State.raiseFlags_finish]
  cases hu : useB f with
  | false => simp only [Bool.false_and, hg f _ _ _ (if f.three then s.getG c t f.b else TWord.zero).v.toNat hu]
  | true =>
    cases h3 : f.three with
    | false => rfl
    | true => simp only [if_true, hb s c t f h3 hu]

/-- The two- and three-address forms. -/
theorem scalarForm_of_scalar2 {mk : Fields → Instr} {g : Fields → Nat → Nat → FRes} {fmt : Fmt} {md : Mods} {imm : ImmK}
    (hform : ∀ f, (mk f).form = some ⟨fmt, .opt, md, .rw, .rd, .rd, imm⟩)
    (hroles : ∀ f fo, (mk f).roles fo f = fo.rolesOf f.three)
    (hexec : ∀ f s, exec (mk f) s = scalar2 (mk f) f s (g f)) :
    ScalarForm mk (fun f => !f.three) (fun f => f.three)
      (fun f d a b => if f.three then g f (lowE f.hi a) (lowE f.hi b) else g f (lowE f.hi d) (lowE f.hi a)) := by
  have hr : ∀ f, (mk f).roles ⟨fmt, .opt, md, .rw, .rd, .rd, imm⟩ f = (if f.three then .wr else .rw, .rd, .rd) := fun f =>
    (hroles f _).trans (Form.rolesOf_twoThree _ _ _ f.three)
  refine scalarForm_of_scalarF hform (fun f s => hexec f s) (fun s c t f => ?_) (fun s c t f => ?_) (fun s c t f _ _ => ?_)
    (fun f d a b b' h => ?_)
  · rw [hr]; rfl
  · rw [hr]; cases f.three <;> rfl
  · rw [hr]; rfl
  · simp [h]

/-- The forms of one source. -/
theorem scalarForm_of_one {mk : Fields → Instr} {g : Fields → Nat → FRes} {fmt : Fmt} {x : XMark} {md : Mods} {imm : ImmK}
    (hform : ∀ f, (mk f).form = some ⟨fmt, x, md, .wr, .rd, .none, imm⟩)
    (hroles : ∀ f, (mk f).roles ⟨fmt, x, md, .wr, .rd, .none, imm⟩ f = (.wr, .rd, .none))
    (hexec : ∀ f s, exec (mk f) s = scalarF (mk f) f s false false (fun _ a _ => g f a)) :
    ScalarForm mk (fun _ => false) (fun _ => false) (fun f _ a _ => g f a) := by
  refine scalarForm_of_scalarF hform hexec (fun s c t f => ?_) (fun s c t f => ?_) (fun s c t f _ h => ?_) (fun f d a b b' h => rfl)
  · rw [hroles]; rfl
  · rw [hroles]; rfl
  · cases h

/-- FFMA reads the registers of its three fields. -/
theorem scalarForm_ffma : ScalarForm .ffma (fun _ => true) (fun _ => true)
    (fun f d a b => fmaE f.hi f.lo (lowE f.hi a) (lowE f.hi b) (lowE f.hi d)) :=
  scalarForm_of_scalarF Instr.form_ffma exec_ffma (fun _ _ _ _ => rfl) (fun _ _ _ _ => rfl) (fun _ _ _ _ _ _ => rfl)
    (fun _ _ _ _ _ h => absurd h (by simp))

/-- FCMP writes 1 where the predicate holds and 0 where not. -/
theorem exec_fcmp_goes {f : Fields} {s : State} {c k : Nat} {t : Thread} (hf : plainFields f) (h3 : f.three = true)
    (h : Goes (.fcmp f) s c k t) :
    exec (.fcmp f) s = .next (s.flagged c k t f.d
      [⟨if (cmpE f.hi f.fx (lowE f.hi (s.getG c t f.a).v.toNat) (lowE f.hi (s.getG c t f.b).v.toNat)).1 then 1 else 0,
        (s.getG c t f.a).t || (s.getG c t f.b).t⟩]
      (cmpE f.hi f.fx (lowE f.hi (s.getG c t f.a).v.toNat) (lowE f.hi (s.getG c t f.b).v.toNat)).2) := by
  rw [exec_fcmp, execFcmp, issue_goes h]
  simp only [State.readVals_plain (Instr.form_fcmp f) hf, State.writeD_plain s c k t hf.1, h3]
  rw [← State.setGs_one, State.raiseFlags_finish]
  rfl

/-- Settles O5: the scalar forms write one element and raise its flags; raising flags is what `State.raiseFlags_eq` says. -/
theorem scalarFloat : Obligations.ScalarFloat := by
  unfold Obligations.ScalarFloat
  refine ⟨scalarForm_of_scalar2 Instr.form_fadd (fun f => Instr.roles_fadd f f) exec_fadd,
    scalarForm_of_scalar2 Instr.form_fsub (fun f => Instr.roles_fsub f f) exec_fsub,
    scalarForm_of_scalar2 Instr.form_fmul (fun f => Instr.roles_fmul f f) exec_fmul, scalarForm_ffma,
    scalarForm_of_scalar2 Instr.form_fmin (fun f => Instr.roles_fmin f f) exec_fmin,
    scalarForm_of_scalar2 Instr.form_fmax (fun f => Instr.roles_fmax f f) exec_fmax,
    scalarForm_of_one Instr.form_frcp (fun _ => rfl) exec_frcp, scalarForm_of_one Instr.form_frsq (fun _ => rfl) exec_frsq,
    scalarForm_of_one Instr.form_fcvt (fun _ => rfl) exec_fcvt, fun f s c k t hf h3 h => exec_fcmp_goes hf h3 h, ?_⟩
  intro s c k t pc addr fl h
  refine ⟨?_, State.raiseFlags_fpwin h pc addr fl, fun d j hdj => ?_, State.sameStores_raiseFlags h pc addr fl⟩
  · rw [State.raiseFlags_thread? h, State.setThread_eq_withThread, State.withThread_thread?]
    rfl
  · rw [State.raiseFlags_thread? h, State.setThread_eq_withThread, State.withThread_thread?_other _ _ _ hdj]

end Sys2Proof.Machine
end

section
/-!
SUPPORT. Groups of eight registers built lane by lane, and the lane-wise forms (R158, R162 to R164): O6.
-/
namespace Sys2Proof.Machine
open Sys2Proof

/-! ### Groups built lane by lane -/

/-- A group whose register `j` holds the lanes `h j 0`, `h j 1`, … with the taint `tn j`, and each register's flags. -/
def laneGroup (w : Nat) (h : Nat → Nat → FRes) (tn : Nat → Bool) : List (TWord × Nat) :=
  (List.range 8).map (fun j => (⟨w64 (packLanes w (64 / w) (h j)).1, tn j⟩, (packLanes w (64 / w) (h j)).2))

theorem nthD_map_range {α : Type} (n : Nat) (g : Nat → α) {j : Nat} (hj : j < n) (d : α) :
    nthD ((List.range n).map g) j d = g j := by
  rw [nthD_eq_getD, List.getElem?_map, List.getElem?_range hj]
  rfl

theorem laneGroup_length (w : Nat) (h : Nat → Nat → FRes) (tn : Nat → Bool) :
    ((laneGroup w h tn).map Prod.fst).length = 8 := by simp [laneGroup]

theorem laneGroup_register (w : Nat) (h : Nat → Nat → FRes) (tn : Nat → Bool) {j : Nat} (hj : j < 8) :
    nthD ((laneGroup w h tn).map Prod.fst) j TWord.zero = ⟨w64 (packLanes w (64 / w) (h j)).1, tn j⟩ := by
  rw [laneGroup, List.map_map, nthD_map_range 8 _ hj]
  rfl

theorem laneGroup_taint (w : Nat) (h : Nat → Nat → FRes) (tn : Nat → Bool) {j : Nat} (hj : j < 8) :
    (nthD ((laneGroup w h tn).map Prod.fst) j TWord.zero).t = tn j := by rw [laneGroup_register w h tn hj]

/-- A lane width that divides a register: 512 bits hold eight registers' lanes. -/
theorem lanes_of_dvd {w : Nat} (hw : w ∣ 64) : 0 < 64 / w ∧ w * (64 / w) = 64 ∧ 512 / w = 8 * (64 / w) := by
  obtain ⟨n, hn⟩ := hw
  have hpos : 0 < w := Nat.pos_of_ne_zero fun h0 => by subst h0; omega
  have h512 : 512 = w * (8 * n) := by rw [Nat.mul_left_comm, ← hn]
  rw [h512, hn, Nat.mul_div_cancel_left _ hpos, Nat.mul_div_cancel_left _ hpos]
  exact ⟨Nat.pos_of_ne_zero fun h0 => by subst h0; omega, rfl, rfl⟩

theorem tyBits_dvd (ty : Nat) : tyBits ty ∣ 64 := by unfold tyBits; split <;> decide

/-- Lane `i` of the group is lane `i % n` of register `i / n`, `n` lanes to a register. -/
theorem groupLane_laneGroup {w : Nat} (hw : w ∣ 64) (h : Nat → Nat → FRes) (tn : Nat → Bool) {i : Nat} (hi : i < 512 / w) :
    groupLane w ((laneGroup w h tn).map Prod.fst) i = (h (i / (64 / w)) (i % (64 / w))).1 % 2 ^ w := by
  obtain ⟨hpos, hmul, h512⟩ := lanes_of_dvd hw
  have hlt := packLanes_lt w (64 / w) (h (i / (64 / w)))
  rw [hmul] at hlt
  rw [groupLane, laneGroup_register w h tn (Nat.div_lt_of_lt_mul (by rw [Nat.mul_comm]; omega)), w64_toNat, Nat.mod_eq_of_lt hlt,
    laneOf_packLanes _ _ _ _ (Nat.mod_lt _ hpos)]

/-- A flag of the group is a flag of one of its lanes. -/
theorem laneGroup_flags {w : Nat} (hw : w ∣ 64) (h : Nat → Nat → FRes) (tn : Nat → Bool) (n : Nat) :
    ((laneGroup w h tn).foldl (fun m r => flOr m r.2) 0).testBit n = true ↔
      ∃ i, i < 512 / w ∧ (h (i / (64 / w)) (i % (64 / w))).2.testBit n = true := by
  obtain ⟨hpos, -, h512⟩ := lanes_of_dvd hw
  rw [foldl_flags, laneGroup]
  simp only [Nat.zero_testBit, Bool.false_eq_true, false_or, List.mem_map, List.mem_range, exists_exists_and_eq_and,
    packLanes_flags]
  rw [h512]
  constructor
  · rintro ⟨j, hj, i, hi, hb⟩
    refine ⟨64 / w * j + i, ?_, ?_⟩
    · calc 64 / w * j + i < 64 / w * (j + 1) := by rw [Nat.mul_succ]; omega
        _ ≤ 64 / w * 8 := Nat.mul_le_mul_left _ hj
        _ = 8 * (64 / w) := Nat.mul_comm _ _
    · rw [Nat.mul_add_div hpos, Nat.div_eq_of_lt hi, Nat.add_zero, Nat.mul_add_mod, Nat.mod_eq_of_lt hi]
      exact hb
  · rintro ⟨i, hi, hb⟩
    exact ⟨i / (64 / w), Nat.div_lt_of_lt_mul (by rw [Nat.mul_comm]; exact hi), i % (64 / w), Nat.mod_lt _ hpos, hb⟩

/-- An instruction that writes such a group and raises its flags. -/
theorem State.finishVec_shortened (s : State) (c k : Nat) (t : Thread) (d : Nat) (ws : List TWord) (fl : Nat) :
    (s.finishVec c k t d ws fl).shortened c k t.pc s.nextId = s.flagged c k t d ws fl := State.raiseFlags_finish s c k t d ws fl

/-! ### The lane-wise forms -/

/-- What `g` makes of lane `i` of register `j` of three groups. -/
def laneOfGroups (w : Nat) (g : Nat → Nat → Nat → FRes) (d a b : List TWord) (j i : Nat) : FRes :=
  g (laneOf w i (nthD d j TWord.zero).v.toNat) (laneOf w i (nthD a j TWord.zero).v.toNat)
    (laneOf w i (nthD b j TWord.zero).v.toNat)

/-- The taint of register `j` of a lane-wise result. -/
def laneTaint (useD useB : Bool) (d a b : List TWord) (j : Nat) : Bool :=
  (nthD a j TWord.zero).t || (useD && (nthD d j TWord.zero).t) || (useB && (nthD b j TWord.zero).t)

/-- The group of these lanes is the lane-wise result. -/
theorem laneResult_laneGroup {w : Nat} (hw : w ∣ 64) (g : Nat → Nat → Nat → FRes) (d a b : List TWord) (tn : Nat → Bool) :
    LaneResult w g d a b ((laneGroup w (laneOfGroups w g d a b) tn).map Prod.fst)
      ((laneGroup w (laneOfGroups w g d a b) tn).foldl (fun m r => flOr m r.2) 0) :=
  ⟨laneGroup_length _ _ _, fun _ hi => groupLane_laneGroup hw _ tn hi, laneGroup_flags hw _ tn⟩

theorem lanewise_goes {i : Instr} {s : State} {c k : Nat} {t : Thread} (h : Goes i s c k t) (f : Fields) (w : Nat) (useD : Bool)
    (g : Nat → Nat → Nat → FRes) {d a b : List TWord} (hd : s.getGs c t f.d 8 = d) (ha : s.getGs c t f.a 8 = a)
    (hb : (if f.three then s.getGs c t f.b 8 else List.replicate 8 TWord.zero) = b) :
    lanewise i f s w useD g = .next (s.flagged c k t f.d
      ((laneGroup w (laneOfGroups w g d a b) (laneTaint useD f.three d a b)).map Prod.fst)
      ((laneGroup w (laneOfGroups w g d a b) (laneTaint useD f.three d a b)).foldl (fun m r => flOr m r.2) 0)) := by
  rw [lanewise, issue_goes h, hd, ha, hb, State.finishVec_shortened]
  rfl

/-- What `lanewise` runs is lane-wise. -/
theorem laneWise_of_lanewise {mk : Fields → Instr} {w : Fields → Nat} {useD : Fields → Bool}
    {g : Fields → Nat → Nat → Nat → FRes} (hexec : ∀ f s, exec (mk f) s = lanewise (mk f) f s (w f) (useD f) (g f))
    (hw : ∀ f, w f ∣ 64) : LaneWise mk w useD g := fun f s _ _ _ h =>
  ⟨_, _, (hexec f s).trans (lanewise_goes h f _ _ _ rfl rfl rfl), laneResult_laneGroup (hw f) _ _ _ _ _,
    fun _ hj => laneGroup_taint _ _ _ hj⟩

/-- The two- and three-address forms. -/
theorem laneWise_of_vec2 {mk : Fields → Instr} {g : Fields → Nat → Nat → FRes}
    (hexec : ∀ f s, exec (mk f) s = vec2 (mk f) f s (g f)) :
    LaneWise mk (fun f => tyBits f.hi) (fun f => !f.three) (fun f d a b => if f.three then g f a b else g f d a) :=
  laneWise_of_lanewise (fun f s => hexec f s) fun f => tyBits_dvd f.hi

/-- The forms of one source. -/
theorem laneWise_of_vec1 {mk : Fields → Instr} {g : Fields → Nat → FRes}
    (hexec : ∀ f s, exec (mk f) s = vec1 (mk f) f s (g f)) :
    LaneWise mk (fun f => tyBits f.hi) (fun _ => false) (fun f _ a _ => g f a) :=
  laneWise_of_lanewise (fun f s => hexec f s) fun f => tyBits_dvd f.hi

/-- The bitwise forms, on whole registers. -/
theorem laneWise_of_bitwise {mk : Fields → Instr} {g : Nat → Nat → Nat}
    (hexec : ∀ f s, exec (mk f) s = lanewise (mk f) f s 64 (!f.three) (binary f (fun x y => (g x y, 0)))) :
    LaneWise mk (fun _ => 64) (fun f => !f.three) (fun f d a b => (if f.three then g a b else g d a, 0)) := by
  refine laneWise_of_lanewise (fun f s => ?_) fun _ => Nat.dvd_refl 64
  have hg : binary f (fun x y => (g x y, 0)) = fun d a b => (if f.three then g a b else g d a, 0) := by
    funext d a b
    unfold binary
    split <;> rfl
  rw [hexec, hg]

/-- Settles O6: every form is what `lanewise` runs. -/
theorem vectorLanes : Obligations.VectorLanes := by
  unfold Obligations.VectorLanes
  exact ⟨laneWise_of_vec2 exec_vadd, laneWise_of_vec2 exec_vsub, laneWise_of_vec2 exec_vmul,
    laneWise_of_lanewise exec_vfma fun f => tyBits_dvd f.hi, laneWise_of_vec2 exec_vmin, laneWise_of_vec2 exec_vmax,
    laneWise_of_vec1 exec_vabs, laneWise_of_vec1 exec_vneg, laneWise_of_vec1 exec_vrcp, laneWise_of_vec1 exec_vrsq,
    laneWise_of_vec1 exec_vexp2, laneWise_of_vec1 exec_vlog2, laneWise_of_vec2 exec_vscale,
    laneWise_of_lanewise exec_vclamp fun f => tyBits_dvd f.hi, laneWise_of_vec2 exec_vshl, laneWise_of_vec2 exec_vshr,
    laneWise_of_bitwise exec_vand, laneWise_of_bitwise exec_vor, laneWise_of_bitwise exec_vxor,
    laneWise_of_lanewise exec_vcmp fun f => tyBits_dvd f.hi, laneWise_of_lanewise exec_vsel fun f => tyBits_dvd f.hi⟩

end Sys2Proof.Machine
end

section
/-!
SUPPORT. Conversion, reduction, permutation, broadcast and lane extraction (R165 to R167): O7.
-/
namespace Sys2Proof.Machine
open Sys2Proof

section
variable {f : Fields} {s : State} {c k : Nat} {t : Thread}

/-- Lane `i` of a conversion of the first `m` lanes of the group `a`. -/
def convLane (f : Fields) (a : List TWord) (m i : Nat) : FRes :=
  if i < m then convE f.hi f.lo f.fx (groupLane (tyBits f.fx) a i) else (0, 0)

/-- The taint of register `j` of a conversion: that of the registers that hold its source lanes. -/
def convTaint (f : Fields) (a : List TWord) (m j : Nat) : Bool :=
  (List.range (64 / tyBits f.hi)).any (fun i =>
    64 / tyBits f.hi * j + i < m && (nthD a ((64 / tyBits f.hi * j + i) / (64 / tyBits f.fx)) TWord.zero).t)

theorem exec_vcvt_goes (h : Goes (.vcvt f) s c k t) {a : List TWord} (ha : s.getGs c t f.a 8 = a) {m : Nat}
    (hm : min (512 / tyBits f.hi) (512 / tyBits f.fx) = m) :
    exec (.vcvt f) s = .next (s.flagged c k t f.d
      ((laneGroup (tyBits f.hi) (fun j i => convLane f a m (64 / tyBits f.hi * j + i)) (convTaint f a m)).map Prod.fst)
      ((laneGroup (tyBits f.hi) (fun j i => convLane f a m (64 / tyBits f.hi * j + i)) (convTaint f a m)).foldl
        (fun m r => flOr m r.2) 0)) := by
  rw [exec_vcvt, execVcvt, issue_goes h]
  dsimp only
  rw [ha, hm, State.finishVec_shortened]
  rfl

/-- The lane of a conversion, modulo its width: that of the element or zero. -/
theorem convLane_mod (f : Fields) (a : List TWord) (m i w : Nat) :
    (convLane f a m i).1 % 2 ^ w = if i < m then (convE f.hi f.lo f.fx (groupLane (tyBits f.fx) a i)).1 % 2 ^ w else 0 := by
  unfold convLane
  split <;> simp

/-- A flag of a conversion's lane is a flag of an element that it converts. -/
theorem convLane_flag (f : Fields) (a : List TWord) (m i n : Nat) :
    (convLane f a m i).2.testBit n = true ↔
      i < m ∧ (convE f.hi f.lo f.fx (groupLane (tyBits f.fx) a i)).2.testBit n = true := by
  unfold convLane
  split <;> simp [*]

/-- VCVT of a type whose elements are integers or floats, lane by lane. -/
theorem exec_vcvt_lanes (h : Goes (.vcvt f) s c k t) :
    let w := tyBits f.hi
    let m := min (512 / w) (512 / tyBits f.fx)
    let a := s.getGs c t f.a 8
    ∃ ws fl, exec (.vcvt f) s = .next (s.flagged c k t f.d ws fl) ∧ ws.length = 8 ∧
      (∀ i, i < 512 / w → groupLane w ws i =
        if i < m then (convE f.hi f.lo f.fx (groupLane (tyBits f.fx) a i)).1 % 2 ^ w else 0) ∧
      (∀ n, fl.testBit n = true ↔
        ∃ i, i < m ∧ ((convE f.hi f.lo f.fx (groupLane (tyBits f.fx) a i)).2).testBit n = true) := by
  refine ⟨_, _, exec_vcvt_goes h rfl rfl, laneGroup_length _ _ _, fun i hi => ?_, fun n => ?_⟩
  · rw [groupLane_laneGroup (tyBits_dvd _) _ _ hi, Nat.div_add_mod, convLane_mod]
  · rw [laneGroup_flags (tyBits_dvd _)]
    simp only [Nat.div_add_mod, convLane_flag]
    constructor
    · rintro ⟨i, -, hm, hb⟩
      exact ⟨i, hm, hb⟩
    · rintro ⟨i, hm, hb⟩
      exact ⟨i, lt_of_lt_of_le hm (Nat.min_le_left _ _), hm, hb⟩

/-- An instruction that writes one register, raises flags and goes on. -/
theorem State.setG_raiseFlags_finish (s : State) (c k : Nat) (t : Thread) (n : Nat) (v : TWord) (fl : Nat) :
    (((s.setG c t n v).raiseFlags c k t.pc 0 fl).finish c k).shortened c k t.pc s.nextId = s.flagged c k t n [v] fl :=
  State.raiseFlags_finish s c k t n [v] fl

theorem exec_vradd_of_int (hd : f.sd = false) (hi : tyInt f.hi = true) (h : Goes (.vradd f) s c k t) :
    exec (.vradd f) s = .next (s.flagged c k t f.d
      [⟨w64i (((allLanes (tyBits f.hi) (s.getGs c t f.a 8)).map (sgn (tyBits f.hi))).sum), anyTaint (s.getGs c t f.a 8)⟩] 0) := by
  rw [exec_vradd, execVradd, issue_goes h]
  simp only [hi, if_true, State.writeD_plain s c k t hd]
  rw [State.setG_raiseFlags_finish]

theorem exec_vradd_of_float (hd : f.sd = false) (hi : tyInt f.hi = false) (h : Goes (.vradd f) s c k t) :
    exec (.vradd f) s = .next (s.flagged c k t f.d
      [⟨w64 (treeReduce (addF (tyFmt f.hi) f.lo) 6 (allLanes (tyBits f.hi) (s.getGs c t f.a 8))).1,
        anyTaint (s.getGs c t f.a 8)⟩]
      (treeReduce (addF (tyFmt f.hi) f.lo) 6 (allLanes (tyBits f.hi) (s.getGs c t f.a 8))).2) := by
  rw [exec_vradd, execVradd, issue_goes h]
  simp only [hi, Bool.false_eq_true, if_false, State.writeD_plain s c k t hd]
  rw [State.setG_raiseFlags_finish]

theorem exec_vrmax_goes (hd : f.sd = false) (h : Goes (.vrmax f) s c k t) :
    exec (.vrmax f) s = .next (s.flagged c k t f.d
      [⟨elemWord f.hi (treeReduce (maxE f.hi) 6 (allLanes (tyBits f.hi) (s.getGs c t f.a 8))).1,
        anyTaint (s.getGs c t f.a 8)⟩]
      (treeReduce (maxE f.hi) 6 (allLanes (tyBits f.hi) (s.getGs c t f.a 8))).2) := by
  rw [exec_vrmax, execVrmax, issue_goes h]
  simp only [State.writeD_plain s c k t hd]
  rw [State.setG_raiseFlags_finish]

theorem exec_vlane_goes (hd : f.sd = false) (h : Goes (.vlane f) s c k t) :
    exec (.vlane f) s = .next (s.wrote c k t f.d
      ⟨elemWord f.hi (groupLane (tyBits f.hi) (s.getGs c t f.a 8) f.imm.toNat), anyTaint (s.getGs c t f.a 8)⟩ s.next) := by
  rw [exec_vlane, execVlane, issue_goes h]
  simp only [State.writeD_plain s c k t hd]
  rw [State.setG_finish_shortened h.thread?]
  rfl

/-- A lane of a group, modulo its width, is the lane. -/
theorem groupLane_mod (w : Nat) (ws : List TWord) (i : Nat) : groupLane w ws i % 2 ^ w = groupLane w ws i := by
  rw [groupLane, laneOf, Nat.mod_mod]

/-- The permuted group. -/
def permGroup (w : Nat) (a b : List TWord) : List (TWord × Nat) :=
  laneGroup w (fun j i => (groupLane w a (groupLane w b (64 / w * j + i) % (512 / w)), 0)) (fun _ => anyTaint a || anyTaint b)

theorem exec_vperm_goes (h : Goes (.vperm f) s c k t) {a b : List TWord} (ha : s.getGs c t f.a 8 = a)
    (hb : s.getGs c t f.b 8 = b) :
    exec (.vperm f) s = .next (s.flagged c k t f.d ((permGroup (tyBits f.hi) a b).map Prod.fst) 0) := by
  rw [exec_vperm, execVperm, issue_goes h]
  dsimp only
  rw [ha, hb, State.finishVec_shortened, permGroup, laneGroup, List.map_map]
  rfl

/-- The broadcast group. -/
def bcstGroup (w : Nat) (v : TWord) : List (TWord × Nat) :=
  laneGroup w (fun _ _ => (v.v.toNat % 2 ^ w, 0)) (fun _ => v.t)

theorem exec_vbcst_goes (hf : plainFields f) (h : Goes (.vbcst f) s c k t) {v : TWord} (hv : s.getG c t f.a = v) :
    exec (.vbcst f) s = .next (s.flagged c k t f.d ((bcstGroup (tyBits f.hi) v).map Prod.fst) 0) := by
  have hread : s.fieldValue c t ((Instr.vbcst f).roles ⟨.A, .no, .tAny, .vwr, .rd, .none, .none⟩ f).2.1 f.a = v := hv
  rw [exec_vbcst, execVbcst, issue_goes h]
  simp only [State.readVals_plain (Instr.form_vbcst f) hf, hread]
  rw [State.finishVec_shortened]
  rfl

end

/-- Settles O7: each form writes the group or the register of its lanes. -/
theorem vectorMoves : Obligations.VectorMoves := by
  unfold Obligations.VectorMoves
  refine ⟨fun f s c k t h => exec_vcvt_lanes h, fun f s c k t hd hi h => exec_vradd_of_int hd hi h,
    fun f s c k t hd hi h => exec_vradd_of_float hd hi h, fun f s c k t hd h => exec_vrmax_goes hd h,
    fun f s c k t h => ?_, fun f s c k t hf h => ?_, fun f s c k t hd h => exec_vlane_goes hd h⟩
  · refine ⟨_, exec_vperm_goes h rfl rfl, laneGroup_length _ _ _, fun i hi => ?_, fun j hj => laneGroup_taint _ _ _ hj⟩
    rw [permGroup, groupLane_laneGroup (tyBits_dvd _) _ _ hi, Nat.div_add_mod, groupLane_mod]
  · refine ⟨_, exec_vbcst_goes hf h rfl, laneGroup_length _ _ _, fun i hi => ?_, fun j hj => laneGroup_taint _ _ _ hj⟩
    rw [bcstGroup, groupLane_laneGroup (tyBits_dvd _) _ _ hi, Nat.mod_mod]

end Sys2Proof.Machine
end

section
/-!
SUPPORT. A scalar form computes lane 0 of its vector form (R168): O8.
-/
namespace Sys2Proof.Machine
open Sys2Proof

/-- The signed value of the low `w` bits is the value, modulo 2^w. -/
theorem sgn_emod (w x : Nat) : sgn w x % (2 : Int) ^ w = ((x % 2 ^ w : Nat) : Int) := by
  have hcast : ((2 ^ w : Nat) : Int) = (2 : Int) ^ w := by simp
  unfold sgn
  dsimp only
  split
  · rw [← hcast, ← Int.natCast_emod, Nat.mod_mod]
  · rw [Int.sub_emod_right, ← hcast, ← Int.natCast_emod, Nat.mod_mod]

/-- An element in a general register has the element's low bits. -/
theorem elemWord_mod (ty x : Nat) : (elemWord ty x).toNat % 2 ^ tyBits ty = x % 2 ^ tyBits ty := by
  have hle : tyBits ty ≤ 64 := Nat.le_of_dvd (by decide) (tyBits_dvd ty)
  have hdvd : 2 ^ tyBits ty ∣ 2 ^ 64 := Nat.pow_dvd_pow 2 hle
  unfold elemWord
  split
  · have hcast : ((2 ^ tyBits ty : Nat) : Int) = (2 : Int) ^ tyBits ty := by simp
    have h64 : (((w64i (sgn (tyBits ty) x)).toNat : Nat) : Int) = sgn (tyBits ty) x % 2 ^ 64 := by
      rw [w64i, BitVec.toNat_ofInt, Int.toNat_of_nonneg (Int.emod_nonneg _ (by decide))]
      rfl
    apply Int.natCast_inj.1
    rw [Int.natCast_emod, h64, hcast, Int.emod_emod_of_dvd _ (pow_dvd_pow 2 hle), sgn_emod]
  · rw [w64_toNat, Nat.mod_mod_of_dvd _ hdvd, Nat.mod_mod]

/-- The first register of a group read back after the instruction that wrote it. -/
theorem State.flagged_getG {s : State} {c k : Nat} {t : Thread} (h : s.thread? c k = some t) (hw : t.window.Nodup) {n : Nat}
    {vs : List TWord} (hn : n + vs.length ≤ t.top) (hlen : 0 < vs.length) (fl : Nat) :
    (s.flagged c k t n vs fl).getG c t n = if n = 0 then TWord.zero else nthD vs 0 TWord.zero := by
  have hu : (s.setGs c t n vs).thread? c k = some t := by rw [State.setGs_thread?, h]
  obtain ⟨-, -, -, hflags⟩ := State.sameStores_raiseFlags hu t.pc 0 fl
  obtain ⟨-, -, -, hdone⟩ := State.sameStores_modThread ((s.setGs c t n vs).raiseFlags c k t.pc 0 fl) c k
    (fun t => t.done s.next s.nextId)
  rw [State.flagged, State.completed, State.getG_congr ((hdone c).1.trans (hflags c).1)]
  by_cases h0 : n = 0
  · rw [if_pos h0, h0, State.getG_zero]
  · rw [State.getG_setGs hw h0 hn (by omega), if_pos (by omega), if_neg h0, Nat.sub_self]

/-- Lane 0 of a group is the low element of its first register. -/
theorem groupLane_zero {w : Nat} (hw : w ∣ 64) (ws : List TWord) :
    groupLane w ws 0 = (nthD ws 0 TWord.zero).v.toNat % 2 ^ w := by
  obtain ⟨hpos, -, -⟩ := lanes_of_dvd hw
  rw [groupLane, Nat.zero_div, Nat.zero_mod, laneOf, Nat.mul_zero, Nat.pow_zero, Nat.div_one]

theorem State.getGs_zero (s : State) (c : Nat) (t : Thread) (n : Nat) : nthD (s.getGs c t n 8) 0 TWord.zero = s.getG c t n := by
  rw [State.getGs, nthD_map_range 8 _ (by decide), Nat.add_zero]

/-- Lane 0 of the group of a field is the low element of the scalar register. -/
theorem groupLane_getGs (s : State) (c : Nat) (t : Thread) (ty n : Nat) :
    groupLane (tyBits ty) (s.getGs c t n 8) 0 = lowE ty (s.getG c t n).v.toNat := by
  rw [groupLane_zero (tyBits_dvd ty), State.getGs_zero, lowE]

/-- A scalar form and a lane-wise form of one element function agree in lane 0. -/
theorem scalar_eq_lane_zero {mkS mkV : Fields → Instr} {useD useB useD' : Fields → Bool}
    {g gS : Fields → Nat → Nat → Nat → FRes} (hS : ScalarForm mkS useD useB gS)
    (hV : LaneWise mkV (fun f => tyBits f.hi) useD' g)
    (hg : ∀ f d a b, gS f d a b = g f (lowE f.hi d) (lowE f.hi a) (lowE f.hi b))
    {f : Fields} {s : State} {c k : Nat} {t : Thread} (hf : plainFields f) (hw : t.window.Nodup) (hd : f.d + 8 ≤ t.top)
    (h1 : Goes (mkS f) s c k t) (h2 : Goes (mkV f) s c k t) :
    ∃ u v, exec (mkS f) s = .next u ∧ exec (mkV f) s = .next v ∧
      (u.getG c t f.d).v.toNat % 2 ^ tyBits f.hi = (v.getG c t f.d).v.toNat % 2 ^ tyBits f.hi := by
  obtain ⟨ws, fl, hexec, ⟨hlen, hlane, -⟩, -⟩ := hV f s c k t h2
  refine ⟨_, _, hS f s c k t hf h1, hexec, ?_⟩
  obtain ⟨hpos, -, h512⟩ := lanes_of_dvd (tyBits_dvd f.hi)
  have hthird : groupLane (tyBits f.hi) (if f.three then s.getGs c t f.b 8 else List.replicate 8 TWord.zero) 0 =
      lowE f.hi (if f.three then s.getG c t f.b else TWord.zero).v.toNat := by
    cases f.three with
    | true => exact groupLane_getGs s c t f.hi f.b
    | false =>
      simp only [Bool.false_eq_true, if_false, groupLane_zero (tyBits_dvd f.hi)]
      rfl
  have hzero := hlane 0 (show 0 < 512 / tyBits f.hi by omega)
  rw [groupLane_zero (tyBits_dvd f.hi), groupLane_getGs, groupLane_getGs, hthird, ← hg] at hzero
  rw [State.flagged_getG h1.thread? hw (by simp; omega) (by simp), State.flagged_getG h1.thread? hw (by omega) (by omega)]
  by_cases h0 : f.d = 0
  · rw [if_pos h0, if_pos h0]
  · rw [if_neg h0, if_neg h0, hzero, nthD_cons_zero, elemWord_mod]

/-- Settles O8: the scalar and the lane-wise forms have the same element functions. -/
theorem scalarIsLaneZero : Obligations.ScalarIsLaneZero := by
  obtain ⟨fadd, fsub, fmul, ffma, fmin, fmax, frcp, frsq, -⟩ := scalarFloat
  obtain ⟨vadd, vsub, vmul, vfma, vmin, vmax, -, -, vrcp, vrsq, -⟩ := vectorLanes
  unfold Obligations.ScalarIsLaneZero
  intro f s c k t hf p hp hw hd h1 h2
  simp only [List.mem_cons, List.not_mem_nil, or_false] at hp
  obtain rfl | rfl | rfl | rfl | rfl | rfl | rfl | rfl := hp
  · exact scalar_eq_lane_zero fadd vadd (fun _ _ _ _ => rfl) hf hw hd h1 h2
  · exact scalar_eq_lane_zero fsub vsub (fun _ _ _ _ => rfl) hf hw hd h1 h2
  · exact scalar_eq_lane_zero fmul vmul (fun _ _ _ _ => rfl) hf hw hd h1 h2
  · exact scalar_eq_lane_zero ffma vfma (fun _ _ _ _ => rfl) hf hw hd h1 h2
  · exact scalar_eq_lane_zero fmin vmin (fun _ _ _ _ => rfl) hf hw hd h1 h2
  · exact scalar_eq_lane_zero fmax vmax (fun _ _ _ _ => rfl) hf hw hd h1 h2
  · exact scalar_eq_lane_zero frcp vrcp (fun _ _ _ _ => rfl) hf hw hd h1 h2
  · exact scalar_eq_lane_zero frsq vrsq (fun _ _ _ _ => rfl) hf hw hd h1 h2

end Sys2Proof.Machine
end

section
/-!
SUPPORT. Global accesses, atomics, gathers and scatters at issue (R61, R62, R65, R169, R170): O11 and O13.
-/
namespace Sys2Proof.Machine
open Sys2Proof

/-! ### Loads and stores -/

/-- A form that loads one item. -/
theorem globalForm_of_load {mk : Fields → Instr} {acq : Bool} {kind : OpKind}
    (hexec : ∀ f s, exec (mk f) s = loadGlobal (mk f) f s acq) (hkind : (if acq then OpKind.loadAcq else OpKind.load) = kind) :
    GlobalForm mk (fun f => sizeBytes f.lo) 'R' (fun f s c k t off => s.started c k t
      { Op.new (mk f) t kind .glob f.la with
        seg := f.hi, off := off, acc := [gAccess t f off (sizeBytes f.lo) TWord.zero],
        pend := if f.sd then [] else [f.d], ataint := (s.getG c t f.a).t, acq := acq } .l2Request) := by
  intro f s c k t h
  subst hkind
  rw [hexec, loadGlobal]
  refine ⟨fun hm => ?_, (globalOp_goes h f (sizeBytes f.lo) 'R' _).2⟩
  rw [(globalOp_goes h f (sizeBytes f.lo) 'R' _).1 hm, State.startOp_started h.thread? (by cases acq <;> simp [Op.new])]
  rfl

theorem globalForm_vldg : GlobalForm .vldg (fun _ => 64) 'R' (fun f s c k t off => s.started c k t
    { Op.new (.vldg f) t .load .glob f.la with
      seg := f.hi, off := off,
      acc := (List.range 8).map (fun j => Access.at (vaOf t f.hi off + 8 * j) 8 TWord.zero),
      pend := (List.range 8).map (fun j => f.d + j), ataint := (s.getG c t f.a).t } .l2Request) := by
  intro f s c k t h
  rw [exec_vldg, execVldg]
  refine ⟨fun hm => ?_, (globalOp_goes h f 64 'R' _).2⟩
  rw [(globalOp_goes h f 64 'R' _).1 hm, State.startOp_started h.thread? (by simp [Op.new])]
  rfl

/-- A form that reads a value and stores it. -/
theorem globalForm_of_store {mk : Fields → Instr} {rel : Bool} (hexec : ∀ f s, exec (mk f) s = storeGlobal (mk f) f s rel) :
    GlobalForm mk (fun f => sizeBytes f.lo) 'W' (fun f s c k t off =>
      let r := s.readVals (mk f) c k t f
      r.2.begun c k t s.nextId { Op.new (mk f) t .store .glob f.la with
        seg := f.hi, off := off,
        acc := [gAccess t f off (sizeBytes f.lo) ⟨r.1.d.v, r.1.d.t || (s.getG c t f.a).t⟩], ataint := (s.getG c t f.a).t,
        rel := rel }) := by
  intro f s c k t h
  rw [hexec, storeGlobal]
  refine ⟨fun hm => ?_, (globalOp_goes h f (sizeBytes f.lo) 'W' _).2⟩
  rw [(globalOp_goes h f (sizeBytes f.lo) 'W' _).1 hm]
  rfl

theorem globalForm_vstg : GlobalForm .vstg (fun _ => 64) 'W' (fun f s c k t off =>
    s.begun c k t s.nextId { Op.new (.vstg f) t .store .glob f.la with
      seg := f.hi, off := off, acc := [gAccess t f off 64 TWord.zero],
      data := (s.getGs c t f.d 8).map (fun w => { w with t := w.t || (s.getG c t f.a).t }), ataint := (s.getG c t f.a).t }) := by
  intro f s c k t h
  rw [exec_vstg, execVstg]
  refine ⟨fun hm => ?_, (globalOp_goes h f 64 'W' _).2⟩
  rw [(globalOp_goes h f 64 'W' _).1 hm]
  rfl

/-- Settles O11: a load begins its operation, a store reads its value and begins its own. -/
theorem globalAccesses : Obligations.GlobalAccesses := by
  unfold Obligations.GlobalAccesses
  exact ⟨globalForm_of_load exec_ldg rfl, globalForm_of_load exec_ldacq rfl, globalForm_vldg,
    globalForm_of_store exec_stg, globalForm_of_store exec_strel, globalForm_vstg⟩

/-! ### Atomics -/

/-- The operation of an atomic: b and gd as they are at issue. -/
def atomicOp (i : Instr) (f : Fields) (s : State) (c : Nat) (t : Thread) : Op :=
  { Op.new i t .amo .glob f.la with
    seg := f.hi, off := s.gOff c t f, acc := [gAccess t f (s.gOff c t f) (sizeBytes f.lo) TWord.zero], pend := [f.d],
    ataint := (s.getG c t f.a).t, data := [if f.three then s.getG c t f.b else TWord.zero, s.getG c t f.d],
    acq := f.fx % 2 = 1, rel := f.fx / 2 % 2 = 1, lane := taskLane t.task, seq := t.amoSeq }

/-- What an atomic of the row gd, base, b reads. -/
theorem State.readVals_atomic {i : Instr} {fo : Form} {f : Fields} (hform : i.form = some fo)
    (hd : ∀ (s : State) c t, s.fieldValue c t (i.roles fo f).1 f.d = s.getG c t f.d) (hb : (i.roles fo f).2.2 = .rd)
    (hf : plainFields f) (s : State) (c k : Nat) (t : Thread) :
    ∃ a, s.readVals i c k t f = (⟨s.getG c t f.d, a, if f.three then s.getG c t f.b else TWord.zero⟩, s) := by
  refine ⟨s.fieldValue c t (i.roles fo f).2.1 f.a, ?_⟩
  rw [State.readVals_plain hform hf, hd, hb]
  rfl

/-- An atomic other than AMOFADD. -/
theorem atomicForm_of_atomic {mk : Fields → Instr} {fo : Form} (hform : ∀ f, (mk f).form = some fo)
    (hd : ∀ f (s : State) c t, s.fieldValue c t ((mk f).roles fo f).1 f.d = s.getG c t f.d)
    (hb : ∀ f, ((mk f).roles fo f).2.2 = .rd) (hexec : ∀ f s, exec (mk f) s = atomic (mk f) f s)
    (hadd : ∀ f g, mk f ≠ .amofadd g) : AtomicForm mk := by
  intro f s c k t hf h
  rw [hexec, atomic]
  refine ⟨fun hm => ?_, (globalOp_goes h f (sizeBytes f.lo) 'A' _).2⟩
  obtain ⟨a, hr⟩ := State.readVals_atomic (hform f) (hd f) (hb f) hf s c k t
  rw [(globalOp_goes h f (sizeBytes f.lo) 'A' _).1 hm]
  simp only [hr, Bool.and_false, Fields.pendD, hf.1, Bool.false_eq_true, if_false]
  · rw [State.startOp_started h.thread? (by simp [Op.new])]
    rfl
  · exact hadd f

/-- Settling keeps the identities. -/
theorem State.finish_nextId (s : State) (c k : Nat) : (s.finish c k).nextId = s.nextId := by
  unfold State.finish State.settle State.advance State.goto
  rcases h : s.thread? c k with _ | t
  · rw [State.modThread_none h, State.modThread_none h]
  · rw [State.modThread_eq h, State.withThread_modThread]
    rfl

theorem State.modThread_nextId (s : State) (c k : Nat) (g : Thread → Thread) : (s.modThread c k g).nextId = s.nextId := by
  unfold State.modThread
  split <;> rfl

/-- An operation that is no store, begun after the thread has been changed. -/
theorem State.startOp_started_of_modThread {s : State} {c k : Nat} {t : Thread} (h : s.thread? c k = some t) {o : Op}
    (ho : o.kind ≠ .store) (g : Thread → Thread) (hops : ∀ u, (g u).ops = u.ops) (hwant : ∀ u, (g u).want = u.want)
    (hdone : (g { t with since := 0, want := none, answer := none, declined := none, part := [], pc := s.next }) =
      { g t with since := 0, want := none, answer := none, declined := none, part := [], pc := s.next }) :
    (((s.finish c k).modThread c k g).startOp c k o).shortened c k t.pc s.nextId = s.started c k (g t) o .l2Request := by
  have hstart : ((s.finish c k).modThread c k g).startOp c k o =
      (((s.finish c k).modThread c k g).addOp c k o).2.post [evt .l2Request [c, k, s.nextId]] := by
    unfold State.startOp State.addOp State.fresh
    simp only [State.modThread_nextId, State.finish_nextId]
  rw [hstart, State.finish_addOp h g hops hwant, hdone, State.started, ← hops t]
  rfl

/-- AMOFADD of a deterministic thread takes the next number of the thread's adds. -/
theorem exec_amofadd_goes {f : Fields} {s : State} {c k : Nat} {t : Thread} (hf : plainFields f) (h : Goes (.amofadd f) s c k t)
    (hm : memG t f.hi (s.gOff c t f) (sizeBytes f.lo) 'A' = none) :
    exec (.amofadd f) s = .next (s.started c k (if taskDet t.task then { t with amoSeq := t.amoSeq + 1 } else t)
      (atomicOp (.amofadd f) f s c t) .l2Request) := by
  obtain ⟨a, hr⟩ := State.readVals_atomic (Instr.form_amofadd f) (fun _ _ _ => rfl) rfl hf s c k t
  rw [exec_amofadd, execAmofadd, atomic, (globalOp_goes h f (sizeBytes f.lo) 'A' _).1 hm]
  simp only [hr, Bool.and_true, Fields.pendD, hf.1, Bool.false_eq_true, if_false]
  cases taskDet t.task with
  | false =>
    simp only [Bool.false_eq_true, if_false]
    rw [State.startOp_started h.thread? (by simp [Op.new])]
    rfl
  | true =>
    simp only [if_true]
    rw [State.startOp_started_of_modThread h.thread? (by simp [Op.new]) (fun t => { t with amoSeq := t.amoSeq + 1 })
      (fun _ => rfl) (fun _ => rfl) rfl]
    rfl

/-! ### Gathers and scatters -/

theorem lanesOp_goes {i : Instr} {s : State} {c k : Nat} {t : Thread} (h : Goes i s c k t) (f : Fields) (r : Char)
    (body : Nat → Nat → Thread → TWord → List TWord → List Nat → State → State) {offs : List Nat}
    (hoffs : laneOffs f (s.getG c t f.a).v (s.getGs c t f.b 8) = offs) :
    (firstFail t f.hi (sizeBytes f.lo) r offs = none →
      lanesOp i f s r body =
        .next ((body c k t (s.getG c t f.a) (s.getGs c t f.b 8) offs s).shortened c k t.pc s.nextId)) ∧
    (∀ code addr aux, firstFail t f.hi (sizeBytes f.lo) r offs = some (code, addr, aux) →
      lanesOp i f s r body = .next (s.trapped c k t code addr aux)) := by
  rw [lanesOp, issue_goes h]
  simp only [hoffs]
  refine ⟨fun hm => ?_, fun code addr aux hm => ?_⟩
  · simp only [hm]
  · simp only [hm]
    rfl

theorem exec_vgath_goes {f : Fields} {s : State} {c k : Nat} {t : Thread} (h : Goes (.vgath f) s c k t) {offs : List Nat}
    (hoffs : laneOffs f (s.getG c t f.a).v (s.getGs c t f.b 8) = offs)
    (hm : firstFail t f.hi (sizeBytes f.lo) 'R' offs = none) :
    exec (.vgath f) s = .next (s.started c k t { Op.new (.vgath f) t .load .glob f.la with
      seg := f.hi, off := nthD offs 0 0, acc := offs.map (fun o => gAccess t f o (sizeBytes f.lo) TWord.zero),
      pend := (List.range 8).map (fun j => f.d + j), ataint := (s.getG c t f.a).t, data := s.getGs c t f.b 8 } .l2Request) := by
  rw [exec_vgath, execVgath, (lanesOp_goes h f 'R' _ hoffs).1 hm, State.startOp_started h.thread? (by simp [Op.new])]
  rfl

/-- The value lane `i` of a scatter stores. -/
def scatterLane (s : State) (c : Nat) (t : Thread) (f : Fields) (i : Nat) : TWord :=
  ⟨w64 (groupLane (8 * sizeBytes f.lo) (s.getGs c t f.d 8) i),
   (nthD (s.getGs c t f.d 8) (i / (64 / (8 * sizeBytes f.lo))) TWord.zero).t ||
     (nthD (s.getGs c t f.b 8) (i / (64 / (8 * sizeBytes f.lo))) TWord.zero).t || (s.getG c t f.a).t⟩

/-- The operation of a scatter at the offsets `offs`. -/
def scatterOp (s : State) (c : Nat) (t : Thread) (f : Fields) (offs : List Nat) : Op :=
  { Op.new (.vscat f) t .store .glob f.la with
    seg := f.hi, off := nthD offs 0 0,
    acc := offs.zipIdx.map (fun p => gAccess t f p.1 (sizeBytes f.lo) (scatterLane s c t f p.2)), ataint := (s.getG c t f.a).t }

theorem scatterOp_acc (s : State) (c : Nat) (t : Thread) (f : Fields) {offs : List Nat} {j : Nat} (hj : j < offs.length) :
    nthD (scatterOp s c t f offs).acc j (Access.at 0 0 TWord.zero) =
      gAccess t f (nthD offs j 0) (sizeBytes f.lo) (scatterLane s c t f j) := by
  simp [scatterOp, nthD_eq_getD, hj]

theorem exec_vscat_goes {f : Fields} {s : State} {c k : Nat} {t : Thread} (h : Goes (.vscat f) s c k t) {offs : List Nat}
    (hoffs : laneOffs f (s.getG c t f.a).v (s.getGs c t f.b 8) = offs)
    (hm : firstFail t f.hi (sizeBytes f.lo) 'W' offs = none) :
    exec (.vscat f) s = .next (s.begun c k t s.nextId (scatterOp s c t f offs)) := by
  rw [exec_vscat, execVscat, (lanesOp_goes h f 'W' _ hoffs).1 hm]
  rfl

/-- Settles O13: an atomic begins its operation with b and gd as they are at issue; a gather and a scatter check every lane. -/
theorem atomicsAndGroups : Obligations.AtomicsAndGroups := by
  unfold Obligations.AtomicsAndGroups
  refine ⟨atomicForm_of_atomic Instr.form_amoadd (fun _ _ _ _ => rfl) (fun _ => rfl) exec_amoadd (fun _ _ => nofun),
    atomicForm_of_atomic Instr.form_amoand (fun _ _ _ _ => rfl) (fun _ => rfl) exec_amoand (fun _ _ => nofun),
    atomicForm_of_atomic Instr.form_amoor (fun _ _ _ _ => rfl) (fun _ => rfl) exec_amoor (fun _ _ => nofun),
    atomicForm_of_atomic Instr.form_amoxor (fun _ _ _ _ => rfl) (fun _ => rfl) exec_amoxor (fun _ _ => nofun),
    atomicForm_of_atomic Instr.form_amomin (fun _ _ _ _ => rfl) (fun _ => rfl) exec_amomin (fun _ _ => nofun),
    atomicForm_of_atomic Instr.form_amomax (fun _ _ _ _ => rfl) (fun _ => rfl) exec_amomax (fun _ _ => nofun),
    atomicForm_of_atomic Instr.form_amoswap (fun _ _ _ _ => rfl) (fun _ => rfl) exec_amoswap (fun _ _ => nofun),
    atomicForm_of_atomic Instr.form_amocas (fun _ _ _ _ => rfl) (fun _ => rfl) exec_amocas (fun _ _ => nofun),
    fun f s c k t hf h => ⟨exec_amofadd_goes hf h, fun code addr aux hm => ?_⟩,
    fun f s c k t h => ⟨exec_vgath_goes h rfl, fun code addr aux hm => ?_⟩,
    fun f s c k t h => ⟨fun hm => ⟨scatterOp s c t f _, exec_vscat_goes h rfl hm, rfl, rfl, rfl, ?_, ?_⟩, fun code addr aux hm => ?_⟩⟩
  · rw [exec_amofadd, execAmofadd, atomic, (globalOp_goes h f (sizeBytes f.lo) 'A' _).2 code addr aux hm]
  · rw [exec_vgath, execVgath, (lanesOp_goes h f 'R' _ rfl).2 code addr aux hm]
  · rw [scatterOp, List.length_map, List.length_zipIdx]
  · exact fun j hj => scatterOp_acc s c t f hj
  · rw [exec_vscat, execVscat, (lanesOp_goes h f 'W' _ rfl).2 code addr aux hm]

end Sys2Proof.Machine
end

section
/-!
SUPPORT. Local accesses, fences and prefetches (R63, R64, R109, R136, R169): O14.
-/
namespace Sys2Proof.Machine
open Sys2Proof

/-! ### Local accesses -/

/-- A local load is added to the thread's operations without a request. -/
theorem State.addOp_started {s : State} {c k : Nat} {t : Thread} (h : s.thread? c k = some t) (o : Op) :
    (((s.finish c k).addOp c k o).2.post [evt .longLatencyComplete [c, k, ((s.finish c k).addOp c k o).1]]).shortened c k t.pc
      s.nextId = s.started c k t o .longLatencyComplete := by
  have hid : (s.finish c k).modThread c k id = s.finish c k := by
    unfold State.finish State.settle State.advance State.goto
    rw [State.modThread_eq h]; simp [Thread.afresh]
  have hnew : ((s.finish c k).addOp c k o).1 = s.nextId := State.finish_nextId s c k
  rw [hnew, ← hid, State.finish_addOp h id (fun _ => rfl) (fun _ => rfl)]
  rfl

theorem State.advPtr_eq (s : State) (c k p : Nat) (n : Int) :
    s.advPtr c k p n = s.modThread c k (fun t => t.moved p n) := rfl

/-- The same after the pointer has moved on. -/
theorem State.advPtr_addOp_started {s : State} {c k : Nat} {t : Thread} (h : s.thread? c k = some t) (p : Nat) (n : Int) (o : Op) :
    ((((s.finish c k).advPtr c k p n).addOp c k o).2.post
      [evt .longLatencyComplete [c, k, (((s.finish c k).advPtr c k p n).addOp c k o).1]]).shortened c k t.pc s.nextId =
      s.started c k (t.moved p n) o .longLatencyComplete := by
  have hnew : (((s.finish c k).advPtr c k p n).addOp c k o).1 = s.nextId :=
    (State.modThread_nextId _ c k _).trans (State.finish_nextId s c k)
  rw [hnew, State.advPtr_eq, State.finish_addOp h (fun t => t.moved p n) (fun _ => rfl) (fun _ => rfl)]
  rfl

section
variable {f : Fields} {s : State} {c k : Nat} {t : Thread}

theorem localForm_ldl : LocalForm .ldl (fun f => sizeBytes f.lo) (fun f s c k t tc off => s.started c k t
    { Op.new (.ldl f) t .load .loc f.la with
      off := off, acc := [{ Access.at off (sizeBytes f.lo) TWord.zero with core := tc }],
      pend := if f.sd then [] else [f.d], ataint := (t.ptr f.a).t } .longLatencyComplete) := by
  intro f s c k t h
  rw [exec_ldl, execLdl, loadLocal]
  obtain ⟨hpass, hshut, htrap⟩ := localOp_goes h f (sizeBytes f.lo) _
  refine ⟨fun tc off hm hs => ?_, hshut, htrap⟩
  rw [hpass tc off hm hs]
  simp only [Bool.false_eq_true, if_false]
  rw [State.addOp_started h.thread?]
  rfl

theorem localForm_ldlp : LocalForm .ldlp (fun f => sizeBytes f.lo)
    (fun f s c k t tc off => s.started c k (t.moved f.a (sizeBytes f.lo))
    { Op.new (.ldlp f) t .load .loc f.la with
      off := off, acc := [{ Access.at off (sizeBytes f.lo) TWord.zero with core := tc }],
      pend := if f.sd then [] else [f.d], ataint := (t.ptr f.a).t } .longLatencyComplete) := by
  intro f s c k t h
  rw [exec_ldlp, execLdlp, loadLocal]
  obtain ⟨hpass, hshut, htrap⟩ := localOp_goes h f (sizeBytes f.lo) _
  refine ⟨fun tc off hm hs => ?_, hshut, htrap⟩
  rw [hpass tc off hm hs]
  simp only [if_true]
  rw [State.advPtr_addOp_started h.thread?]
  rfl

theorem localForm_vldl : LocalForm .vldl (fun _ => 64) (fun f s c k t tc off => s.started c k t
    { Op.new (.vldl f) t .load .loc f.la with
      off := off, acc := (List.range 8).map (fun j => { Access.at (off + 8 * j) 8 TWord.zero with core := tc }),
      pend := (List.range 8).map (fun j => f.d + j), ataint := (t.ptr f.a).t } .longLatencyComplete) := by
  intro f s c k t h
  rw [exec_vldl, execVldl]
  obtain ⟨hpass, hshut, htrap⟩ := localOp_goes h f 64 _
  refine ⟨fun tc off hm hs => ?_, hshut, htrap⟩
  rw [hpass tc off hm hs]
  dsimp only
  rw [State.addOp_started h.thread?]
  rfl

theorem localForm_stl : LocalForm .stl (fun f => sizeBytes f.lo) (fun f s c k t tc off =>
    let r := s.readVals (.stl f) c k t f
    r.2.begun c k t s.nextId { Op.new (.stl f) t .store .loc f.la with
      off := off, acc := [{ Access.at off (sizeBytes f.lo) ⟨r.1.d.v, r.1.d.t || (t.ptr f.a).t⟩ with core := tc }],
      ataint := (t.ptr f.a).t }) := by
  intro f s c k t h
  rw [exec_stl, execStl, storeLocalOp]
  obtain ⟨hpass, hshut, htrap⟩ := localOp_goes h f (sizeBytes f.lo) _
  refine ⟨fun tc off hm hs => ?_, hshut, htrap⟩
  rw [hpass tc off hm hs]
  rfl

theorem localForm_stlp : LocalForm .stlp (fun f => sizeBytes f.lo) (fun f s c k t tc off =>
    let r := s.readVals (.stlp f) c k t f
    (((r.2.finish c k).modThread c k (fun q => q.moved f.a (sizeBytes f.lo))).startOp c k
      { Op.new (.stlp f) t .store .loc f.la with
        off := off, acc := [{ Access.at off (sizeBytes f.lo) ⟨r.1.d.v, r.1.d.t || (t.ptr f.a).t⟩ with core := tc }],
        ataint := (t.ptr f.a).t }).shortened c k t.pc s.nextId) := by
  intro f s c k t h
  rw [exec_stlp, execStlp, storeLocalOp]
  obtain ⟨hpass, hshut, htrap⟩ := localOp_goes h f (sizeBytes f.lo) _
  refine ⟨fun tc off hm hs => ?_, hshut, htrap⟩
  rw [hpass tc off hm hs]
  simp only [if_true, State.advPtr_eq]

theorem localForm_vstl : LocalForm .vstl (fun _ => 64) (fun f s c k t tc off =>
    s.begun c k t s.nextId { Op.new (.vstl f) t .store .loc f.la with
      off := off, acc := [{ Access.at off 64 TWord.zero with core := tc }],
      data := (s.getGs c t f.d 8).map (fun w => { w with t := w.t || (t.ptr f.a).t }), ataint := (t.ptr f.a).t }) := by
  intro f s c k t h
  rw [exec_vstl, execVstl]
  obtain ⟨hpass, hshut, htrap⟩ := localOp_goes h f 64 _
  refine ⟨fun tc off hm hs => ?_, hshut, htrap⟩
  rw [hpass tc off hm hs]
  rfl

/-! ### Fences -/

/-- A fence of a thread with outstanding operations waits for them, one with stores on their way for those. -/
theorem fence_of_ops {i : Instr} (h : Goes i s c k t) (hops : t.ops ≠ []) (combine : Bool) :
    fence i s combine = .next (s.waits s c k t .fenced) := by
  rw [fence, issue_goes h]
  simp [hops, State.waits]

theorem fence_of_stores {i : Instr} (h : Goes i s c k t) (hops : t.ops = []) (hst : s.storesOf c k ≠ []) (combine : Bool) :
    fence i s combine = .next (s.waits s c k t .drained) := by
  rw [fence, issue_goes h]
  simp [hops, hst, State.fenced, State.waits]

/-- A fence that leaves the write-combine buffer alone. -/
theorem fence_of_quiet {i : Instr} (h : Goes i s c k t) (hops : t.ops = []) (hst : s.storesOf c k = []) :
    fence i s false = .next (s.moved c k t s.next) := by
  rw [fence, issue_goes h]
  simp only [hops, hst, State.fenced, List.isEmpty_nil, Bool.not_true, Bool.false_eq_true, if_false]
  rw [State.finish_shortened h.thread?]
  rfl

/-- One that drains it goes on when it is empty and waits otherwise. -/
theorem fence_of_drained {i : Instr} (h : Goes i s c k t) (hops : t.ops = []) (hst : s.storesOf c k = []) :
    ((s.drainWC c).wcEmpty c = true →
      fence i s true = .next ((s.drainWC c).completed c k (s.drainWC c).next s.nextId)) ∧
    ((s.drainWC c).wcEmpty c = false → fence i s true = .next ((s.drainWC c).waits s c k t .combined)) := by
  rw [fence, issue_goes h]
  refine ⟨fun he => ?_, fun he => ?_⟩
  · simp only [hops, hst, State.fenced, he, List.isEmpty_nil, Bool.not_true, Bool.false_eq_true, if_false, if_true]
    rw [State.finish_completed]
  · simp only [hops, hst, State.fenced, he, List.isEmpty_nil, Bool.not_true, Bool.false_eq_true, if_false, if_true]
    rfl

/-- FENCE and FENCE.s. -/
theorem fence_cases {i : Instr} (h : Goes i s c k t) :
    let u := s.drainWC c
    (t.ops = [] → s.storesOf c k = [] → u.wcEmpty c = true → fence i s true = .next (u.completed c k u.next s.nextId)) ∧
    (t.ops = [] → s.storesOf c k = [] → u.wcEmpty c = false → fence i s true = .next (u.waits s c k t .combined)) ∧
    (t.ops ≠ [] → fence i s true = .next (s.waits s c k t .fenced)) ∧
    (t.ops = [] → s.storesOf c k ≠ [] → fence i s true = .next (s.waits s c k t .drained)) :=
  ⟨fun hops hst => (fence_of_drained h hops hst).1, fun hops hst => (fence_of_drained h hops hst).2,
    fun hops => fence_of_ops h hops true, fun hops hst => fence_of_stores h hops hst true⟩

/-- FENCE.a of a translated page. -/
theorem exec_fenceA_goes {tr : Tr} (hf : plainFields f) (h : Goes (.fenceA f) s c k t) (hops : t.ops = [])
    (hst : s.storesOf c k = []) (htr : s.lookup (c / 8) ((s.getG c t f.a).v.toNat % 2 ^ 57) 0 = some tr)
    (he : (s.drainWC c).wcEmpty c = true) :
    exec (.fenceA f) s = .next ((s.drainWC c).completed c k (s.drainWC c).next s.nextId) := by
  have hpage : s.pageFor c k t ((s.getG c t f.a).v.toNat % 2 ^ 57) 0 = .tr tr := by rw [State.pageFor, htr]
  have hread : s.fieldValue c t ((Instr.fenceA f).roles ⟨.A, .no, .none, .is 2, .rd, .none, .none⟩ f).2.1 f.a = s.getG c t f.a :=
    rfl
  rw [exec_fenceA, execFenceA, issue_goes h]
  simp only [State.readVals_plain (Instr.form_fenceA f) hf, hread, hpage, hops, hst, State.fenced, he, List.isEmpty_nil,
    Bool.not_true, Bool.false_eq_true, if_false, if_true]
  rw [State.finish_completed]

/-! ### Prefetches -/

theorem exec_pref_of_allowed (h : Goes (.pref f) s c k t) (hl : s.gOff c t f < (t.seg f.hi).limit)
    (hr : (t.seg f.hi).has 'R' = true) :
    exec (.pref f) s = .next (s.started c k t { Op.new (.pref f) t .pref .glob f.la with
        seg := f.hi, off := s.gOff c t f, acc := [gAccess t f (s.gOff c t f) 1 TWord.zero] } .l2Request) := by
  rw [State.gOff] at hl
  rw [exec_pref, execPref, issue_goes h]
  simp only [hl, hr, decide_true, Bool.and_self, if_true]
  rw [State.startOp_started h.thread? (by simp [Op.new])]
  rfl

theorem exec_pref_of_refused (h : Goes (.pref f) s c k t)
    (hno : (t.seg f.hi).limit ≤ s.gOff c t f ∨ (t.seg f.hi).has 'R' = false) :
    exec (.pref f) s = .next (s.moved c k t s.next) := by
  rw [exec_pref, execPref, issue_goes h]
  rw [State.gOff] at hno
  simp only [Bool.and_eq_true, decide_eq_true_eq]
  rw [if_neg (by rintro ⟨hl, hr⟩; rcases hno with hno | hno <;> [omega; simp [hno] at hr]), State.finish_shortened h.thread?]
  rfl

end

/-- Settles O14: local loads and stores, fences and prefetches, form by form. -/
theorem localAccesses : Obligations.LocalAccesses := by
  unfold Obligations.LocalAccesses
  refine ⟨localForm_ldl, localForm_ldlp, localForm_vldl, localForm_stl, localForm_stlp, localForm_vstl,
    fun f s c k t i hi h => ?_, fun f s c k t h => ?_,
    fun f s c k t tr hf h hops hst htr he => exec_fenceA_goes hf h hops hst htr he,
    fun f s c k t h => ⟨exec_pref_of_allowed h, exec_pref_of_refused h⟩⟩
  · simp only [List.mem_cons, List.not_mem_nil, or_false] at hi
    obtain rfl | rfl := hi
    · rw [exec_fence, execFence]
      exact fence_cases h
    · rw [exec_fenceS, execFenceS]
      exact fence_cases h
  · rw [exec_fenceX, execFenceX]
    exact ⟨fun hops hst => fence_of_quiet h hops hst, fun hops => fence_of_ops h hops false,
      fun hops hst => fence_of_stores h hops hst false⟩

end Sys2Proof.Machine
end

section
/-!
SUPPORT. A store enters the store buffer (R61, R96, R254): O12.
-/
namespace Sys2Proof.Machine
open Sys2Proof

/-! ### Entering the buffer -/

section
variable {s : State} {c k : Nat} {t : Thread} {e : SBEntry}

/-- Where an entry waits for ownership of its line. -/
def State.lacksLine (s : State) (c : Nat) (e : SBEntry) : Bool := e.needsOwner && !s.ownsLine (c / 8) (e.addr / 128)

theorem State.enterStore_eq (s : State) (c k : Nat) (e : SBEntry) :
    s.enterStore c k e = if s.lacksLine c e then (s.enqueueStore c e).parkAfter c k (.own (e.addr / 128)) else s.enqueueStore c e :=
  rfl

theorem State.enqueueStore_thread? (s : State) (c : Nat) (e : SBEntry) (d j : Nat) :
    (s.enqueueStore c e).thread? d j = s.thread? d j := by
  rw [State.enqueueStore, State.thread?_post, State.thread?_modCore]
  exact fun _ => rfl

theorem State.sameStores_enqueueStore (s : State) (c : Nat) (e : SBEntry) : s.SameStores (s.enqueueStore c e) := by
  refine State.SameStores.trans ?_ (State.sameStores_post _ _)
  exact State.sameStores_modCore s c _ fun _ => ⟨rfl, rfl, rfl, rfl, rfl, rfl⟩

theorem State.enqueueStore_sb (s : State) (c : Nat) (e : SBEntry) :
    ((s.enqueueStore c e).core c).sb = (s.core c).sb ++ [e] := by
  rw [State.enqueueStore, State.core_post, State.modCore_eq, State.core_setCore_same]

theorem State.setThread_core_same (s : State) (c k : Nat) (t : Thread) :
    (s.setThread c k t).core c = { s.core c with slots := SMap.set (s.core c).slots k ⟨((s.core c).slot k).inc, .live t⟩ } := by
  rw [State.setThread_eq_withThread, State.withThread_core_same]

/-- A thread in rotation that is taken out of it. -/
theorem State.parkAfter_of_ready (h : s.thread? c k = some t) (hrun : t.run = .ready) (w : Wait) :
    s.parkAfter c k w = (s.setThread c k { t with run := .wait w }).post [evt .instructionWake [c, k]] := by
  simp [State.parkAfter, h, hrun]

/-- The thread after its store has entered: it waits where its cluster has not the line. -/
theorem State.enterStore_thread? (h : s.thread? c k = some t) (hrun : t.run = .ready) :
    (s.enterStore c k e).thread? c k =
      some { t with run := if s.lacksLine c e then .wait (.own (e.addr / 128)) else .ready } := by
  have hq : (s.enqueueStore c e).thread? c k = some t := (s.enqueueStore_thread? c e c k).trans h
  rw [State.enterStore_eq]
  split
  · rw [State.parkAfter_of_ready hq hrun, State.thread?_post, State.setThread_eq_withThread, State.withThread_thread?]
  · rw [hq, ← hrun]

theorem State.enterStore_sb (h : s.thread? c k = some t) (hrun : t.run = .ready) :
    ((s.enterStore c k e).core c).sb = (s.core c).sb ++ [e] := by
  have hq : (s.enqueueStore c e).thread? c k = some t := (s.enqueueStore_thread? c e c k).trans h
  rw [State.enterStore_eq]
  split
  · rw [State.parkAfter_of_ready hq hrun, State.core_post, State.setThread_core_same, State.enqueueStore_sb]
  · rw [State.enqueueStore_sb]

/-- What entering leaves of the core that issued it: its debug registers. -/
theorem State.enterStore_dbg (h : s.thread? c k = some t) (hrun : t.run = .ready) :
    ((s.enterStore c k e).core c).dbg = (s.core c).dbg := by
  have hq : (s.enqueueStore c e).thread? c k = some t := (s.enqueueStore_thread? c e c k).trans h
  have hd : ((s.enqueueStore c e).core c).dbg = (s.core c).dbg := by
    rw [State.enqueueStore, State.core_post, State.modCore_eq, State.core_setCore_same]
  rw [State.enterStore_eq]
  split
  · rw [State.parkAfter_of_ready hq hrun, State.core_post, State.setThread_core_same, hd]
  · exact hd

theorem State.sameStores_enterStore (h : s.thread? c k = some t) (hrun : t.run = .ready) :
    s.SameStores (s.enterStore c k e) := by
  have hq : (s.enqueueStore c e).thread? c k = some t := (s.enqueueStore_thread? c e c k).trans h
  rw [State.enterStore_eq]
  split
  · rw [State.parkAfter_of_ready hq hrun]
    exact ((s.sameStores_enqueueStore c e).trans (State.sameStores_setThread _ c k _)).trans (State.sameStores_post _ _)
  · exact s.sameStores_enqueueStore c e

/-- The watchpoints a core meets depend on its debug registers alone. -/
theorem Core.watchHit_congr {x y : Core} (h : x.dbg = y.dbg) (k va size : Nat) (ld st : Bool) :
    x.watchHit k va size ld st = y.watchHit k va size ld st := by rw [Core.watchHit, Core.watchHit, h]

/-- A translated plain store with room, to an ORDINARY page that is not under migration, enters. -/
theorem State.tryStore_entered {o : Op} {a : Access} {tr : Tr} (h : s.thread? c k = some t) (hrun : t.run = .ready)
    (hspace : o.space = .glob) (hkind : o.kind = .store) (hadd : isStreamAdd o.ins = false)
    (htr : s.lookup (c / 8) a.addr 1 = some tr) (hcl : Leaf.cl tr.leaf = 0) (hwb : Leaf.wb tr.leaf = false)
    (hroom : s.sbRoom c = true) (hwatch : (s.core c).watchHit k a.addr a.size false true = none) :
    s.tryStore c k t o a = .entered (s.enterStore c k (storeEntry k t o a tr)) := by
  have hw : ((s.enterStore c k (storeEntry k t o a tr)).core c).watchHit k a.addr a.size false true = none :=
    (Core.watchHit_congr (State.enterStore_dbg h hrun) k _ _ _ _).trans hwatch
  simp [State.tryStore, hspace, hkind, htr, Op.storeRefusal, hadd, hcl, hroom, hwb, State.watched, hw]

/-- A store operation of one access that enters has ended. -/
theorem State.storeProgress_of_entered {u : State} {o : Nat} {op : Op} {a : Access} (hop : s.opOf c k o = some (t, op))
    (hfirst : t.ops.any (fun x => x.unentered && x.id < o) = false) (hacc : op.acc = [a]) (hdone : a.done = false)
    (href : a.refuse = 0) (hent : s.tryStore c k t op a = .entered u) :
    s.storeProgress c k o = u.modThread c k (fun t => t.dropOp o) := by
  simp [State.storeProgress, hop, hfirst, hacc, State.enterAll, hdone, href, hent, Op.ended, Op.refusal]

end

/-! ### The instruction -/

/-- The value and the operation of a plain store of one item, and its entry in the buffer. -/
def storedValue (s : State) (c : Nat) (t : Thread) (f : Fields) : TWord :=
  ⟨(s.getG c t f.d).v, (s.getG c t f.d).t || (s.getG c t f.a).t⟩

def storeOp (s : State) (c : Nat) (t : Thread) (f : Fields) : Op :=
  { Op.new (.stg f) t .store .glob f.la with
    seg := f.hi, off := s.gOff c t f, acc := [gAccess t f (s.gOff c t f) (sizeBytes f.lo) (storedValue s c t f)],
    ataint := (s.getG c t f.a).t }

def plainEntry (s : State) (c k : Nat) (t : Thread) (f : Fields) (tr : Tr) : SBEntry :=
  { id := s.nextId, slot := k, inc := t.inc, loc := false, core := 0, addr := tr.pa,
    va := vaOf t f.hi (s.gOff c t f), size := sizeBytes f.lo, data := [storedValue s c t f], kind := .plain,
    sh := Leaf.sh tr.leaf, host := Leaf.h tr.leaf, sw := Leaf.sw tr.leaf, wide := false, leaf := tr.leaf, handle := 0,
    pc := t.pc, dadd := false }

/-- The operation as it begins in the state, and a thread that has settled and holds it alone. -/
def Op.begunIn (o : Op) (s : State) : Op := { o with id := s.nextId, born := s.now }
def Thread.holding (t : Thread) (s : State) (o : Op) : Thread := { t.done s.next s.nextId with ops := [o] }

/-- The state in which a thread without other operations has begun the operation `o`. -/
def State.withOp (s : State) (c k : Nat) (t : Thread) (o : Op) : State :=
  { s.withThread c k (t.holding s (o.begunIn s)) (s.core c).rf with nextId := s.nextId + 1 }

section
variable {f : Fields} {s : State} {c k : Nat} {t : Thread} {o : Op}

theorem State.finish_addOp_of_none (h : s.thread? c k = some t) (hops : t.ops = []) (o : Op) :
    (s.finish c k).addOp c k o = (s.nextId, s.withOp c k t o) := by
  have hfin : s.finish c k = s.withThread c k (t.done s.next s.nextId) (s.core c).rf := by
    unfold State.finish State.settle State.advance State.goto
    rw [State.modThread_eq h]
    simp [Thread.done, Thread.afresh, shortOps, hops]
  have hq : ({ s.withThread c k (t.done s.next s.nextId) (s.core c).rf with nextId := s.nextId + 1 } : State).thread? c k =
      some (t.done s.next s.nextId) := State.withThread_thread? s c k _ _
  unfold State.addOp State.fresh
  rw [hfin]
  refine Prod.ext rfl ?_
  show State.modThread _ c k _ = _
  rw [show (s.withThread c k (t.done s.next s.nextId) (s.core c).rf).nextId = s.nextId from rfl, State.modThread_eq hq]
  simp [State.withOp, Op.begunIn, Thread.holding, Thread.done, hops, shortOps, State.withThread, State.setCore, State.core,
    Core.slot]

theorem State.withOp_thread? (s : State) (c k : Nat) (t : Thread) (o : Op) :
    (s.withOp c k t o).thread? c k = some (t.holding s (o.begunIn s)) := State.withThread_thread? s c k _ _

theorem State.withOp_core (s : State) (c k : Nat) (t : Thread) (o : Op) :
    (s.withOp c k t o).core c = (s.setThread c k (t.holding s (o.begunIn s))).core c := rfl

theorem State.withOp_opOf (s : State) (c k : Nat) (t : Thread) (o : Op) :
    (s.withOp c k t o).opOf c k s.nextId = some (t.holding s (o.begunIn s), o.begunIn s) := by
  simp [State.opOf, State.withOp_thread?, Thread.op?, Thread.holding, Op.begunIn]

theorem State.sameStores_withOp (s : State) (c k : Nat) (t : Thread) (o : Op) : s.SameStores (s.withOp c k t o) :=
  s.sameStores_setThread c k _

/-- STG begins its operation. -/
theorem exec_stg_begun (hf : plainFields f) (h : Goes (.stg f) s c k t)
    (hm : memG t f.hi (s.gOff c t f) (sizeBytes f.lo) 'W' = none) :
    exec (.stg f) s = .next (s.begun c k t s.nextId (storeOp s c t f)) := by
  rw [exec_stg, execStg, storeGlobal, (globalOp_goes h f (sizeBytes f.lo) 'W' _).1 hm]
  simp only [State.readVals_plain (Instr.form_stg f) hf]
  rfl

/-- The entry of a translated store to an ORDINARY page. -/
theorem storeEntry_stg {q : Thread} {tr : Tr} (hcl : Leaf.cl tr.leaf = 0) (hinc : q.inc = t.inc) :
    storeEntry k q ((storeOp s c t f).begunIn s) (gAccess t f (s.gOff c t f) (sizeBytes f.lo) (storedValue s c t f)) tr =
      plainEntry s c k t f tr := by
  have hsize : sizeBytes f.lo ≤ 8 := by unfold sizeBytes; split <;> decide
  simp [storeEntry, plainEntry, storeOp, Op.begunIn, Op.new, gAccess, Access.at, Op.entryKind, hcl, hinc, hsize]

/-- Whether a plain store waits for its line. -/
theorem lacksLine_plain (u : State) (c : Nat) (tr : Tr) : u.lacksLine c (plainEntry s c k t f tr) =
    decide (3 ≤ Leaf.sh tr.leaf ∧ Leaf.h tr.leaf = false ∧ Leaf.sw tr.leaf = false ∧
      u.ownsLine (c / 8) (tr.pa / 128) = false) := by
  have hsh : (plainEntry s c k t f tr).sh = Leaf.sh tr.leaf := rfl
  rw [← hsh, Bool.eq_iff_iff]
  simp [State.lacksLine, SBEntry.needsOwner, and_assoc]
  simp [plainEntry]

/-- The thread whose one operation has entered its store with entry `e` and has ended. -/
theorem State.dropped_thread? {e : SBEntry} (s : State) (c k : Nat) (t : Thread) (o : Op) (hrun : t.run = .ready) :
    (((s.withOp c k t o).enterStore c k e).modThread c k (fun t => t.dropOp s.nextId)).thread? c k =
      some { t.holding s (o.begunIn s) with
        ops := [],
        run := if (s.withOp c k t o).lacksLine c e then .wait (.own (e.addr / 128)) else .ready } := by
  rw [State.modThread_eq (State.enterStore_thread? (State.withOp_thread? s c k t o) hrun), State.withThread_thread?]
  simp [Thread.dropOp, Thread.holding, Op.begunIn]

/-- A store operation of a thread without others, whose access enters with entry `e`, has ended as it begins. -/
theorem State.begun_of_entered {e : SBEntry} {a : Access} (h : s.thread? c k = some t) (hrun : t.run = .ready)
    (hops : t.ops = []) (hkind : o.kind = .store) (hacc : o.acc = [a]) (hdone : a.done = false) (href : a.refuse = 0)
    (hent : (s.withOp c k t o).tryStore c k (t.holding s (o.begunIn s)) (o.begunIn s) a =
      .entered ((s.withOp c k t o).enterStore c k e)) :
    s.begun c k t s.nextId o =
      (((s.withOp c k t o).enterStore c k e).modThread c k (fun t => t.dropOp s.nextId)).shortened c k t.pc s.nextId := by
  have hprog := State.storeProgress_of_entered (State.withOp_opOf s c k t o)
    (by simp [Thread.holding, Op.begunIn]) hacc hdone href hent
  rw [State.begun, State.startOp, State.finish_addOp_of_none h hops]
  simp [hkind, hprog, State.opOf, State.dropped_thread? s c k t o hrun, Thread.op?]

/-- Such a thread afterwards. -/
theorem State.shortened_dropped_thread? {e : SBEntry} (hops : t.ops = []) (hrun : t.run = .ready) :
    ((((s.withOp c k t o).enterStore c k e).modThread c k (fun t => t.dropOp s.nextId)).shortened c k t.pc s.nextId).thread? c k =
      some { t.done s.next s.nextId with
        run := if (s.withOp c k t o).lacksLine c e then .wait (.own (e.addr / 128)) else .ready } := by
  rw [State.shortened, State.modThread_eq (State.dropped_thread? s c k t o hrun), State.withThread_thread?]
  simp [Thread.holding, Thread.done, hops, shortOps]

theorem State.sb_modThread (s : State) (c k : Nat) (g : Thread → Thread) :
    ((s.modThread c k g).core c).sb = (s.core c).sb := by
  unfold State.modThread
  split
  · rw [State.setThread_core_same]
  · rfl

end

/-- Settles O12: the operation begins, its one access enters the buffer at once, and the operation has ended. -/
theorem storeEntersBuffer : Obligations.StoreEntersBuffer := by
  unfold Obligations.StoreEntersBuffer
  intro f s c k t tr hf h hm hops hrun htr hcl hwb hroom hwatch
  have hthread := State.withOp_thread? s c k t (storeOp s c t f)
  have hent : (s.withOp c k t (storeOp s c t f)).tryStore c k (t.holding s ((storeOp s c t f).begunIn s))
      ((storeOp s c t f).begunIn s) (gAccess t f (s.gOff c t f) (sizeBytes f.lo) (storedValue s c t f)) =
      .entered ((s.withOp c k t (storeOp s c t f)).enterStore c k (plainEntry s c k t f tr)) := by
    rw [← storeEntry_stg (s := s) (c := c) (k := k) (t := t) (f := f) (q := t.holding s ((storeOp s c t f).begunIn s)) hcl rfl]
    refine State.tryStore_entered hthread hrun rfl rfl rfl htr hcl hwb ?_ ?_
    · rw [State.sbRoom, State.withOp_core, State.setThread_core_same]
      exact hroom
    · exact (Core.watchHit_congr (by rw [State.withOp_core, State.setThread_core_same]) k _ _ _ _).trans hwatch
  refine ⟨_, (exec_stg_begun hf h hm).trans (congrArg _ (State.begun_of_entered h.thread? hrun hops rfl rfl rfl rfl hent)),
    ?_, ?_, ?_⟩
  · rw [State.shortened_dropped_thread? hops hrun, lacksLine_plain]
    simp only [decide_eq_true_eq]
    rfl
  · rw [State.shortened, State.sb_modThread, State.sb_modThread, State.enterStore_sb hthread hrun, State.withOp_core,
      State.setThread_core_same]
    rfl
  · exact (((s.sameStores_withOp c k t _).trans (State.sameStores_enterStore hthread hrun)).trans
      (State.sameStores_modThread _ c k _)).trans (State.sameStores_modThread _ c k _)

end Sys2Proof.Machine
end

section
/-!
SUPPORT. Instructions with special operands, and pops (R19, R38, R138, R139, R143): O9.
-/
namespace Sys2Proof.Machine
open Sys2Proof

/-- A computing instruction, whatever operands it names. -/
theorem compute_completed {i : Instr} {s : State} {c k : Nat} {t : Thread} (h : Goes i s c k t) (f : Fields) (g : Vals → TWord) :
    compute i f s g = .next (((s.readVals i c k t f).2.writeD c k t f (g (s.readVals i c k t f).1)).completed c k
      s.next s.nextId) := by
  rw [compute_goes h, State.finish_completed, State.writeD_next, State.readVals_next]

/-- A pop of an inbound stream port. -/
theorem State.popSpecial_port {s : State} {c k n : Nat} {w : SWord} {r : List SWord} (hn : n < 114)
    (hbuf : (nthD (s.core c).inp (n - 112) InPort.reset).buf = w :: r) :
    s.popSpecial c k n = (w.w, (s.setCore c { s.core c with
      inp := setNth (s.core c).inp (n - 112) { nthD (s.core c).inp (n - 112) InPort.reset with buf := r } }).modThread c k
        (fun t => { t with inEnd := setNth t.inEnd (n - 112) w.last })) := by
  simp [State.popSpecial, hn, hbuf]

/-- A pop of an inbound queue. -/
theorem State.popSpecial_queue {s : State} {c k n : Nat} {w : QWord} {r : List QWord} (hlo : 116 ≤ n) (hn : n < 120)
    (hheld : (nthD (s.core c).inq (n - 116) InQ.reset).held = w :: r) :
    s.popSpecial c k n = (w.w,
      if (nthD (s.core c).inq (n - 116) InQ.reset).reqs.isEmpty then
        s.setCore c { s.core c with
          inq := setNth (s.core c).inq (n - 116) { nthD (s.core c).inq (n - 116) InQ.reset with held := r } }
      else (s.setCore c { s.core c with
          inq := setNth (s.core c).inq (n - 116) { nthD (s.core c).inq (n - 116) InQ.reset with held := r } }).post
        [evt .creditReturn [c, n - 116, 0]]) := by
  simp [State.popSpecial, show ¬ n < 114 by omega, hn, hheld]

/-- A change of a thread keeps the ports of its core. -/
theorem State.inp_modThread (s : State) (c k : Nat) (g : Thread → Thread) :
    ((s.modThread c k g).core c).inp = (s.core c).inp := by
  unfold State.modThread
  split
  · rw [State.setThread_core_same]
  · rfl

/-- Settles O9: the operands are read, the result is written and the thread goes on; a pop takes the oldest word. -/
theorem specialOperands : Obligations.SpecialOperands := by
  unfold Obligations.SpecialOperands
  refine ⟨fun f s c k t p hp h => ?_, fun s c k n w r hn hbuf => ?_, fun s c k n w r hlo hn hheld => ?_⟩
  · simp only [List.mem_cons, List.not_mem_nil, or_false] at hp
    obtain rfl | rfl | rfl | rfl | rfl := hp
    · rw [exec_add, execAdd, compute_completed h]
    · rw [exec_sub, execSub, compute_completed h]
    · rw [exec_mov, execMov, compute_completed h]
    · rw [exec_notOp, execNotOp, compute_completed h]
      rfl
    · rw [exec_cmpeq, execCmpeq, compute_completed h]
  · refine ⟨_, State.popSpecial_port hn hbuf, fun hlt => ?_, ?_⟩
    · rw [State.inp_modThread, State.core_setCore_same, nthD_setNth_same _ _ _ _ hlt]
    · refine State.SameStores.trans ?_ (State.sameStores_modThread _ c k _)
      exact State.sameStores_setCore s rfl rfl rfl rfl rfl rfl
  · refine ⟨_, State.popSpecial_queue hlo hn hheld, ?_⟩
    split
    · refine ⟨fun hlt => ?_, State.sameStores_setCore s rfl rfl rfl rfl rfl rfl, .inl rfl⟩
      rw [State.core_setCore_same, nthD_setNth_same _ _ _ _ hlt]
    · next hreqs =>
      refine ⟨fun hlt => ?_, ?_, .inr ⟨by simpa [List.isEmpty_iff] using hreqs, rfl⟩⟩
      · rw [State.core_post, State.core_setCore_same, nthD_setNth_same _ _ _ _ hlt]
      · refine State.SameStores.trans ?_ (State.sameStores_post _ _)
        exact State.sameStores_setCore s rfl rfl rfl rfl rfl rfl

end Sys2Proof.Machine
end

section
/-!
SUPPORT. Pointer registers, pointer arithmetic and register scopes (R130 to R135): O15.
-/
namespace Sys2Proof.Machine
open Sys2Proof

/-! ### Threads changed before they go on -/

/-- A change of the thread that keeps its operations and its wait, then the move to the next instruction. -/
theorem State.modThread_finish_shortened {s : State} {c k : Nat} {t : Thread} (h : s.thread? c k = some t) (g : Thread → Thread)
    (pc n : Nat) :
    ((s.modThread c k g).finish c k).shortened c k pc n = s.withThread c k ((g t).done s.next n) (s.core c).rf := by
  have hg : (s.modThread c k g).thread? c k = some (g t) := by rw [State.modThread_eq h, State.withThread_thread?]
  rw [State.finish_shortened hg, State.modThread_eq h]
  simp [State.withThread, State.setCore_setCore, Core.slot]

/-- The same with events posted in between. -/
theorem State.changed_post_finish {s : State} {c k : Nat} {t : Thread} (h : s.thread? c k = some t) (g : Thread → Thread)
    (es : List Event) (pc n : Nat) :
    (((s.modThread c k g).post es).finish c k).shortened c k pc n =
      (s.withThread c k ((g t).done s.next n) (s.core c).rf).post es := by
  have hg : ((s.modThread c k g).post es).thread? c k = some (g t) := by
    rw [State.thread?_post, State.modThread_eq h, State.withThread_thread?]
  rw [State.finish_shortened hg, State.modThread_eq h]
  simp [State.withThread, State.post, State.setCore, State.core, Core.slot]

/-- A change of a core that keeps its slots keeps its threads. -/
theorem State.thread?_setCore_same {s : State} {c : Nat} {x : Core} (hx : x.slots = (s.core c).slots) (k : Nat) :
    (s.setCore c x).thread? c k = s.thread? c k := by
  refine State.thread?_congr ?_
  rw [State.core_setCore_same, Core.slot, Core.slot, hx]

section
variable {f : Fields} {s : State} {c k : Nat} {t : Thread}

/-! ### Pointer registers -/

theorem exec_pset_goes (hf : plainFields f) (h : Goes (.pset f) s c k t) :
    exec (.pset f) s = .next (s.moved c k { t with
      ptrs := setNth t.ptrs f.d ⟨cleanPtr (s.getG c t f.a).v, (s.getG c t f.a).t⟩ } s.next) := by
  rw [exec_pset, execPset, issue_goes h]
  simp only [State.readVals_plain (Instr.form_pset f) hf]
  rw [State.modThread_finish_shortened h.thread?]
  rfl

/-- The reserved bits of a pointer image read zero; the others stay. -/
theorem cleanPtr_bits (w : Word) :
    (cleanPtr w).bits 63 41 = w.bits 63 41 ∧ (cleanPtr w).bits 40 21 = 0 ∧ (cleanPtr w).bits 20 0 = w.bits 20 0 := by
  have hlt : w.toNat < 2 ^ 64 := w.isLt
  have hval : (cleanPtr w).toNat = w.bits 63 41 * 2 ^ 41 + w.bits 20 0 := by
    rw [cleanPtr, w64_toNat, Nat.mod_eq_of_lt]
    simp only [Word.bits, bitsOf]
    omega
  simp only [Word.bits, bitsOf] at hval ⊢
  rw [hval]
  omega

theorem exec_pget_goes (hf : plainFields f) (h : Goes (.pget f) s c k t) :
    exec (.pget f) s = .next (s.wrote c k t f.d (t.ptr f.a) s.next) := by
  rw [exec_pget, execPget, compute_plain h hf _ (State.readVals_plain (Instr.form_pget f) hf s c k t)]
  rfl

theorem exec_padd_goes (h : Goes (.padd f) s c k t) :
    exec (.padd f) s = .next (s.moved c k (t.moved f.d f.imm) s.next) := by
  rw [exec_padd, execPadd, issue_goes h, State.modThread_finish_shortened h.thread?]
  rfl

/-! ### Pointer arithmetic -/

theorem advancePtr_of_bad {p : Word} {n : Int} (h : ptrW p < 6 ∨ 21 < ptrW p) : advancePtr p n = p := by
  have hw : (Ptr.ofWord p).w = ptrW p := rfl
  rw [advancePtr]
  simp only [hw]
  rw [if_pos (by simpa using h)]

/-- Within its window a pointer keeps its fields and its offset moves. -/
theorem advancePtr_of_within {p : Word} {n : Int} (hlo : 6 ≤ ptrW p) (hhi : ptrW p ≤ 21) (h0 : 0 ≤ (ptrOff p : Int) + n)
    (hn : (ptrOff p : Int) + n < 2 ^ ptrW p) :
    advancePtr p n = ({ Ptr.ofWord p with off := (ptrOff p : Int) + n } : Ptr).toWord := by
  have hw : (Ptr.ofWord p).w = ptrW p := rfl
  have ho : (Ptr.ofWord p).off = (ptrOff p : Int) := rfl
  rw [advancePtr]
  simp only [hw, ho]
  rw [if_neg (by simp; omega), Int.ediv_eq_zero_of_lt h0 hn, Int.emod_eq_of_lt h0 hn]
  simp [walkLen, Ptr.ups, hw]

/-- The fields and the offset of a pointer made from those of `p` and another offset. -/
theorem Ptr.toWord_bits (p : Word) {o : Int} (h0 : 0 ≤ o) (ho : o < 2 ^ 21) :
    (ptrOff ({ Ptr.ofWord p with off := o } : Ptr).toWord : Int) = o ∧
      ({ Ptr.ofWord p with off := o } : Ptr).toWord.bits 63 41 = p.bits 63 41 := by
  have hlt : p.toNat < 2 ^ 64 := p.isLt
  have hval : ({ Ptr.ofWord p with off := o } : Ptr).toWord.toNat = p.bits 63 41 * 2 ^ 41 + o.toNat := by
    simp only [Ptr.toWord, Ptr.ofWord, w64_toNat, ptrY, ptrX, ptrC, ptrW, Word.bits, bitsOf]
    omega
  simp only [ptrOff, Word.bits, bitsOf] at hval ⊢
  rw [hval]
  omega

theorem advancePtr_bits {p : Word} {n : Int} (hlo : 6 ≤ ptrW p) (hhi : ptrW p ≤ 21) (h0 : 0 ≤ (ptrOff p : Int) + n)
    (hn : (ptrOff p : Int) + n < 2 ^ ptrW p) :
    (ptrOff (advancePtr p n) : Int) = ptrOff p + n ∧ (advancePtr p n).bits 63 41 = p.bits 63 41 := by
  have hle : (2 : Int) ^ ptrW p ≤ 2 ^ 21 := pow_le_pow_right₀ (by decide) hhi
  rw [advancePtr_of_within hlo hhi h0 hn]
  exact Ptr.toWord_bits p h0 (lt_of_lt_of_le hn hle)

/-! ### Register scopes -/

theorem Core.mem_freeGran {x : Core} {g : Nat} : g ∈ x.freeGran ↔ g < 252 ∧ g ∉ x.usedGran := by
  simp [Core.freeGran]

/-- The state after a scope of the granules `g` has been opened. -/
def State.scopeOpened (s : State) (c k : Nat) (t : Thread) (g : List Nat) (n : Nat) : State :=
  (s.withThread c k ({ t with window := t.window ++ g, scopes := n :: t.scopes }.done s.next s.nextId)
    ((s.core c).clearGran g).rf).post [evt .admission [c]]

/-- SCOPEO takes the first free granules. -/
theorem exec_scopeo_opened (h : Goes (.scopeo f) s c k t) (hs : t.scopes.length < 4)
    (hw : t.window.length + f.imm.toNat ≤ 16) (hk : k ≠ 63) (hfree : f.imm.toNat ≤ (s.core c).freeGran.length)
    (hahead : (s.core c).scopeAhead k t.since = false) :
    exec (.scopeo f) s = .next (s.scopeOpened c k t ((s.core c).freeGran.take f.imm.toNat) f.imm.toNat) := by
  rw [exec_scopeo, execScopeo, issue_goes h]
  have hguard : (16 < t.window.length + f.imm.toNat || decide (k = 63)) = false := by simp [hk]; omega
  have hwait : ((s.core c).freeGran.length < f.imm.toNat || (s.core c).scopeAhead k t.since) = false := by
    simp [hahead]; omega
  simp only [Nat.not_le.2 hs, hguard, hwait, Bool.false_eq_true, if_false, Core.takeGran]
  have hx : (s.setCore c ((s.core c).clearGran ((s.core c).freeGran.take f.imm.toNat))).thread? c k = some t := by
    rw [State.thread?_setCore_same]
    · exact h.thread?
    · rfl
  rw [State.changed_post_finish hx]
  simp [State.scopeOpened, State.withThread, Core.slot, Core.clearGran]

/-- SCOPEC gives the granules of the newest scope back. -/
def Thread.scopeClosed (t : Thread) (n : Nat) (r : List Nat) : Thread :=
  let w := t.window.take (t.window.length - n)
  { t with window := w, scopes := r,
           ops := t.ops.map (fun o => { o with pend := o.pend.filter (fun p => p < 8 * w.length) }) }

theorem exec_scopec_goes (h : Goes (.scopec f) s c k t) {n : Nat} {r : List Nat} (hs : t.scopes = n :: r) :
    exec (.scopec f) s =
      .next ((s.withThread c k ((t.scopeClosed n r).done s.next s.nextId) (s.core c).rf).post [evt .admission [c]]) := by
  rw [exec_scopec, execScopec, issue_goes h]
  simp only [hs]
  rw [State.changed_post_finish h.thread?]
  rfl

end

/-- Settles O15: pointers are read, written and moved on; a scope opens on free granules, cleared, and closes giving them back. -/
theorem pointersAndScopes : Obligations.PointersAndScopes := by
  unfold Obligations.PointersAndScopes
  refine ⟨fun f s c k t hf h => ?_, fun f s c k t hf h => exec_pget_goes hf h, fun f s c k t h => exec_padd_goes h,
    fun p n h => advancePtr_of_bad h, fun p n hlo hhi h0 hn => advancePtr_bits hlo hhi h0 hn,
    fun f s c k t h hs hw hk hfree hahead => ?_, fun f s c k t h hs => ?_, fun f s c k t h hs hw => ?_,
    fun f s c k t n r h hs => ?_, fun f s c k t h hs => ?_⟩
  · obtain ⟨h1, h2, h3⟩ := cleanPtr_bits (s.getG c t f.a).v
    exact ⟨_, h1, h2, h3, exec_pset_goes hf h⟩
  · refine ⟨_, _, exec_scopeo_opened h hs hw hk hfree hahead, List.length_take_of_le hfree, fun x hx => ?_, ?_, fun x hx j hj => ?_,
      fun e he => ?_, rfl, rfl⟩
    · exact Core.mem_freeGran.1 (List.mem_of_mem_take hx)
    · rw [State.scopeOpened, State.thread?_post, State.withThread_thread?]
      rfl
    · rw [State.scopeOpened, State.core_post, State.withThread_core_same, Core.clearGran_get, if_pos]
      rwa [show (8 * x + j) / 8 = x by omega]
    · rw [State.scopeOpened, State.core_post, State.withThread_core_same, Core.clearGran_get, if_neg he]
  · rw [exec_scopeo, execScopeo, issue_goes h]
    simp only [hs, if_true]
    rfl
  · rw [exec_scopeo, execScopeo, issue_goes h]
    have hguard : (16 < t.window.length + f.imm.toNat || decide (k = 63)) = true := by simpa using hw
    simp only [Nat.not_le.2 hs, hguard, if_false, if_true]
    rfl
  · refine ⟨_, _, exec_scopec_goes h hs, by rw [State.thread?_post, State.withThread_thread?], rfl, rfl, rfl, ?_, ?_⟩
    · rw [State.core_post, State.withThread_core_same]
    · refine State.SameStores.trans ?_ (State.sameStores_post _ _)
      exact State.sameStores_setCore s rfl rfl rfl rfl rfl rfl
  · rw [exec_scopec, execScopec, issue_goes h]
    simp only [hs]
    rfl

end Sys2Proof.Machine
end

section
/-!
SUPPORT. Sending, reading and counting messages, and which message is next (R125, R128, R299): O16.
-/
namespace Sys2Proof.Machine
open Sys2Proof

/-! ### Instructions that keep the next address -/

/-- An instruction goes on after effects that have led to `u`. -/
theorem issue_completed {i : Instr} {s u : State} {c k : Nat} {t : Thread} (h : Goes i s c k t)
    {body : Nat → Nat → Thread → State → State} (hbody : body c k t s = u.finish c k) (hnext : u.next = s.next) :
    issue i s body = .next (u.completed c k s.next s.nextId) := by
  rw [issue_goes h, hbody, State.finish_completed, hnext]

/-- An instruction that parks its thread. -/
theorem issue_waits {i : Instr} {s : State} {c k : Nat} {t : Thread} {w : Wait} {u : State} (h : Goes i s c k t)
    {body : Nat → Nat → Thread → State → State} (hbody : body c k t s = u.park c k w) :
    issue i s body = .next (u.waits s c k t w) := by
  rw [issue_goes h, hbody, State.waits]

theorem State.writeReg_plain (s : State) (c k : Nat) (t : Thread) (n : Nat) (v : TWord) :
    s.writeReg c k t n false v = s.setG c t n v := rfl

/-- What a change of a thread keeps. -/
@[simp] theorem State.modThread_due (s : State) (c k : Nat) (g : Thread → Thread) : (s.modThread c k g).due = s.due := by
  unfold State.modThread
  split <;> rfl

@[simp] theorem State.completed_due (s : State) (c k pc n : Nat) : (s.completed c k pc n).due = s.due :=
  State.modThread_due s c k _

theorem State.outbox_modThread (s : State) (c k : Nat) (g : Thread → Thread) :
    ((s.modThread c k g).core c).outbox = (s.core c).outbox := by
  unfold State.modThread
  split
  · rw [State.setThread_core_same]
  · rfl

/-! ### The order of messages -/

/-- The smallest message is one of the list, and none has a smaller lane. -/
theorem foldl_smaller (l : List Msg) (a : Msg) :
    l.foldl smaller a ∈ a :: l ∧ ∀ q ∈ a :: l, (l.foldl smaller a).lane ≤ q.lane := by
  induction l generalizing a with
  | nil => simp
  | cons b r ih =>
    obtain ⟨hmem, hmin⟩ := ih (smaller a b)
    have hle : (smaller a b).lane ≤ a.lane ∧ (smaller a b).lane ≤ b.lane := by
      unfold smaller
      split
      · simp_all
        omega
      · simp_all
    have hin : smaller a b = a ∨ smaller a b = b := by
      unfold smaller
      split <;> simp
    rw [List.foldl_cons]
    refine ⟨?_, fun q hq => ?_⟩
    · rcases List.mem_cons.1 hmem with hm | hm
      · rw [hm]
        rcases hin with hs | hs <;> simp [hs]
      · exact List.mem_cons_of_mem _ (List.mem_cons_of_mem _ hm)
    · have hfirst := hmin (smaller a b) (List.mem_cons_self ..)
      rcases List.mem_cons.1 hq with rfl | hq
      · exact hfirst.trans hle.1
      · rcases List.mem_cons.1 hq with rfl | hq
        · exact hfirst.trans hle.2
        · exact hmin q (List.mem_cons_of_mem _ hq)

/-- Outside a deterministic launch, and without messages of its own launch, a thread reads its oldest message. -/
theorem Thread.nextMsg_of_not_det {t : Thread} (h : taskDet t.task = false) : t.nextMsg = t.mail.head? := by
  simp [Thread.nextMsg, h]

theorem Thread.nextMsg_of_none_keyed {t : Thread} (h : taskDet t.task = true) (hk : ∀ m ∈ t.mail, t.keyedFor m = false) :
    t.nextMsg = t.mail.head? := by
  have hnil : t.mail.filter t.keyedFor = [] := List.filter_eq_nil_iff.2 fun m hm => by simp [hk m hm]
  simp [Thread.nextMsg, h, hnil]

/-- Otherwise it reads the smallest of those that are next of their senders. -/
theorem Thread.nextMsg_of_keyed {t : Thread} {m : Msg} (h : taskDet t.task = true) (hk : ∃ q ∈ t.mail, t.keyedFor q = true)
    (hm : t.nextMsg = some m) : ∃ a r, (t.mail.filter t.keyedFor).filter (fun m => m.seq = SMap.get t.got m.src.toNat 0) = a :: r ∧
      m = r.foldl smaller a := by
  obtain ⟨q, hq, hkq⟩ := hk
  have hmem : q ∈ t.mail.filter t.keyedFor := List.mem_filter.2 ⟨hq, hkq⟩
  rw [Thread.nextMsg, if_neg (by simp [h])] at hm
  dsimp only at hm
  split at hm
  · next hnil => rw [hnil] at hmem; cases hmem
  · split at hm
    · cases hm
    · next a r hr => exact ⟨a, r, hr, (Option.some.inj hm).symm⟩

theorem Thread.nextMsg_presentable {t : Thread} {m : Msg} (h : taskDet t.task = true) (hk : ∃ q ∈ t.mail, t.keyedFor q = true)
    (hm : t.nextMsg = some m) :
    m ∈ t.mail ∧ t.keyedFor m = true ∧ m.seq = SMap.get t.got m.src.toNat 0 ∧
      ∀ q ∈ t.mail, t.keyedFor q = true → q.seq = SMap.get t.got q.src.toNat 0 → m.lane ≤ q.lane := by
  obtain ⟨a, r, hr, rfl⟩ := Thread.nextMsg_of_keyed h hk hm
  obtain ⟨hmem, hmin⟩ := foldl_smaller r a
  rw [← hr] at hmem hmin
  simp only [List.mem_filter, decide_eq_true_eq, and_imp] at hmem hmin
  exact ⟨hmem.1.1, hmem.1.2, hmem.2, hmin⟩

/-! ### The instructions -/

section
variable {f : Fields} {s : State} {c k : Nat} {t : Thread}

/-- The message a thread sends, and the state in which it has joined the outbound buffer. -/
def State.userMsg (s : State) (c k : Nat) (t : Thread) (f : Fields) : NetMsg :=
  let d := (s.getG c t f.d).v
  let a := (s.getG c t f.a).v
  let key := t.sendKey d
  ⟨s.nextId, ⟨d, s.tid c k t, msgWord 0x02 (a.bits 23 16) (a.bits 15 0) 0 (slotId (s.tid c k t)), s.getG c t f.b,
    key.1, key.2.1, key.2.2.1⟩, c, s.storesOf c k⟩

def State.userSent (s : State) (c k : Nat) (t : Thread) (f : Fields) : State :=
  (({ s.modThread c k (fun q => { q with sendSeq := (t.sendKey (s.getG c t f.d).v).2.2.2.sendSeq }) with
    nextId := s.nextId + 1 } : State).modCore c (fun x => { x with outbox := x.outbox ++ [s.userMsg c k t f] })).post
    [evt .messageDepart [c]]

/-- MSGSEND with room in the outbound buffer. -/
theorem exec_msgsend_goes (hf : plainFields f) (h3 : f.three = true) (h : Goes (.msgsend f) s c k t)
    (hroom : (s.core c).outbox.length < 16) :
    exec (.msgsend f) s = .next ((s.userSent c k t f).completed c k s.next s.nextId) := by
  rw [exec_msgsend, execMsgsend]
  refine issue_completed h ?_ (State.modThread_next ..)
  simp only [Nat.not_le.2 hroom, if_false, State.readVals_plain (Instr.form_msgsend f) hf, h3, if_true, State.fresh,
    State.modThread_nextId]
  rfl

/-- What sending changes of the core: its outbound buffer, and its thread. -/
theorem State.userSent_outbox (s : State) (c k : Nat) (t : Thread) (f : Fields) :
    ((s.userSent c k t f).core c).outbox = (s.core c).outbox ++ [s.userMsg c k t f] := by
  rw [State.userSent, State.core_post, State.modCore_eq, State.core_setCore_same]
  exact congrArg (· ++ [s.userMsg c k t f]) (State.outbox_modThread s c k _)

theorem State.userSent_due (s : State) (c k : Nat) (t : Thread) (f : Fields) :
    (s.userSent c k t f).due = s.due ++ [evt .messageDepart [c]] := by
  rw [State.userSent, State.post_due]
  exact congrArg (· ++ [evt .messageDepart [c]]) (State.modThread_due s c k _)

theorem State.sameStores_userSent (s : State) (c k : Nat) (t : Thread) (f : Fields) : s.SameStores (s.userSent c k t f) := by
  refine State.SameStores.trans ?_ (State.sameStores_post _ _)
  refine State.SameStores.trans ?_ (State.sameStores_modCore _ c _ fun _ => ⟨rfl, rfl, rfl, rfl, rfl, rfl⟩)
  exact s.sameStores_modThread c k _

/-- MSGRD of a thread without messages, and with one. -/
theorem exec_msgrd_of_none (hd : f.sd = false) (ha : f.sa = false) (h : Goes (.msgrd f) s c k t) (hm : t.nextMsg = none) :
    exec (.msgrd f) s = .next (((s.setG c t f.d ⟨0, !taskDet t.task⟩).setG c t f.a ⟨0, !taskDet t.task⟩).completed c k
      s.next s.nextId) := by
  rw [exec_msgrd, execMsgrd]
  refine issue_completed h ?_ (by simp)
  simp only [hm, hd, ha, State.writeReg_plain]

theorem exec_msgrd_of_some {m : Msg} (hd : f.sd = false) (ha : f.sa = false) (h : Goes (.msgrd f) s c k t)
    (hm : t.nextMsg = some m) :
    exec (.msgrd f) s = .next ((((s.modThread c k (fun t => t.dequeue m)).setG c t f.d
      ⟨m.w0, !taskDet t.task || !t.keyedFor m⟩).setG c t f.a ⟨m.w1.v, m.w1.t || (!taskDet t.task || !t.keyedFor m)⟩).completed c k
      s.next s.nextId) := by
  rw [exec_msgrd, execMsgrd]
  refine issue_completed h ?_ (by simp)
  simp only [hm, hd, ha, State.writeReg_plain]

end

/-- Settles O16: the instructions one by one, and which message is next. -/
theorem messages : Obligations.Messages := by
  unfold Obligations.Messages
  refine ⟨fun f s c k t hf h3 h hroom => ?_, fun f s c k t h hfull => ?_,
    fun f s c k t hd ha h hm => exec_msgrd_of_none hd ha h hm, fun f s c k t m hd ha h hm => exec_msgrd_of_some hd ha h hm,
    fun f s c k t h => ?_, fun f s c k t h hm => ?_, fun f s c k t h hm => ?_,
    fun t => ⟨Thread.nextMsg_of_not_det, Thread.nextMsg_of_none_keyed, fun m hdet hk hm => Thread.nextMsg_presentable hdet hk hm⟩⟩
  · obtain ⟨hmem, -, -, hcores⟩ := (s.sameStores_userSent c k t f).trans (State.sameStores_modThread _ c k _)
    refine ⟨_, s.userMsg c k t f, exec_msgsend_goes hf h3 h hroom, ?_, rfl, rfl, rfl, rfl, rfl, ?_, ?_, hmem, (hcores c).1⟩
    · rw [State.completed, State.outbox_modThread, State.userSent_outbox]
    · simp only [State.userMsg, Thread.sendKey]
      split <;> rfl
    · rw [State.completed_due, State.userSent_due]
  · rw [exec_msgsend, execMsgsend]
    exact issue_waits h (if_pos hfull)
  · rw [exec_msgcnt, execMsgcnt]
    exact issue_answers h rfl rfl
  · rw [exec_waitm, execWaitm, issue_goes h, if_pos hm, State.finish_shortened h.thread?]
    rfl
  · rw [exec_waitm, execWaitm]
    exact issue_waits h (by simp [hm])

end Sys2Proof.Machine
end

section
/-!
SUPPORT. Queues, stream ports and pool banks (R111, R112, R141 to R148): O17.
-/
namespace Sys2Proof.Machine
open Sys2Proof

/-! ### What keeps the next address -/

@[simp] theorem State.setCopy_next (s : State) (line who : Nat) (x : Copy) : (s.setCopy line who x).next = s.next := rfl
@[simp] theorem State.dropCopy_next (s : State) (line who : Nat) : (s.dropCopy line who).next = s.next := rfl

@[simp] theorem State.freeVal_next (s : State) : s.freeVal.2.next = s.next := rfl
@[simp] theorem State.retryFlights_next (s : State) (p : Flight → Bool) : (s.retryFlights p).next = s.next := rfl

@[simp] theorem State.unregister_next (s : State) (w : Nat) : (s.unregister w).next = s.next := by
  unfold State.unregister
  split <;> rfl

@[simp] theorem State.flushBanks_next (s : State) (c : Nat) : (s.flushBanks c).next = s.next := by
  unfold State.flushBanks
  rw [State.foldl_keeps State.next, State.foldl_keeps State.next]
  · exact fun u p => by rw [State.retryFlights_next, State.unregister_next]
  · intro u p
    dsimp only
    split <;> rfl

theorem State.qcfgIn_next (s : State) (c k q n : Nat) (on : Bool) : (s.qcfgIn c k q n on).2.next = s.next := by
  unfold State.qcfgIn
  dsimp only
  split
  · rfl
  · split
    · rfl
    · split <;> rfl

section
variable {f : Fields} {s u : State} {c k : Nat} {t : Thread} {v : Vals}

/-! ### Queues -/

/-- QCFG of a malformed word, and of an inbound queue. -/
theorem exec_qcfg_of_bad (h : Goes (.qcfg f) s c k t) (hr : s.readVals (.qcfg f) c k t f = (v, u))
    (hbad : qcfgBad v.a.v v.d.v = true) : exec (.qcfg f) s = .next (u.answers s c k t f ⟨1, false⟩) := by
  rw [exec_qcfg, execQcfg]
  exact issue_answers h (by simp only [hr]; rw [if_pos hbad]; rfl) (next_of_readVals hr)

theorem exec_qcfg_of_inbound (h : Goes (.qcfg f) s c k t) (hr : s.readVals (.qcfg f) c k t f = (v, u))
    (hbad : qcfgBad v.a.v v.d.v = false) (hin : v.a.v.bits 2 2 = 0) :
    exec (.qcfg f) s = .next ((u.qcfgIn c k (v.a.v.bits 1 0) (v.a.v.bits 7 4) (v.d.v.bits 0 0 = 1)).2.answers s c k t f
      ⟨w64 (u.qcfgIn c k (v.a.v.bits 1 0) (v.a.v.bits 7 4) (v.d.v.bits 0 0 = 1)).1, false⟩) := by
  rw [exec_qcfg, execQcfg]
  refine issue_answers h ?_ ((State.qcfgIn_next ..).trans (next_of_readVals hr))
  simp only [hr]
  rw [if_neg (by simp [hbad]), if_pos hin]

/-- QCFG of an outbound queue that a thread waits for, or an operation has reserved. -/
theorem exec_qcfg_of_busy (h : Goes (.qcfg f) s c k t) (hr : s.readVals (.qcfg f) c k t f = (v, u))
    (hbad : qcfgBad v.a.v v.d.v = false) (hout : v.a.v.bits 2 2 = 1)
    (hbusy : (s.core c).waits k (120 + v.a.v.bits 1 0) = true ∨ (s.core c).reserved (120 + v.a.v.bits 1 0) ≠ 0) :
    exec (.qcfg f) s = .next (u.answers s c k t f ⟨2, false⟩) := by
  rw [exec_qcfg, execQcfg]
  refine issue_answers h ?_ (next_of_readVals hr)
  simp only [hr]
  rw [if_neg (by simp [hbad]), if_neg (by omega), if_pos (by simpa using hbusy)]
  rfl

/-- QCFG of a free outbound queue: to a core of the partition, or to none. -/
theorem exec_qcfg_of_free (h : Goes (.qcfg f) s c k t) (hr : s.readVals (.qcfg f) c k t f = (v, u))
    (hbad : qcfgBad v.a.v v.d.v = false) (hout : v.a.v.bits 2 2 = 1)
    (hw : (s.core c).waits k (120 + v.a.v.bits 1 0) = false) (hres : (s.core c).reserved (120 + v.a.v.bits 1 0) = 0)
    (hconf : (nthD (s.core c).outq (v.a.v.bits 1 0) OutQ.reset).conf = false) (hon : v.d.v.bits 0 0 = 1) :
    (s.coreAt t.tenant (v.a.v.bits 63 60) (v.a.v.bits 59 56) (v.a.v.bits 55 53) = none →
      exec (.qcfg f) s = .next (u.answers s c k t f ⟨4, false⟩)) ∧
    (∀ tc, s.coreAt t.tenant (v.a.v.bits 63 60) (v.a.v.bits 59 56) (v.a.v.bits 55 53) = some tc →
      exec (.qcfg f) s = .next ((u.modCore c (fun x =>
        { x with outq := setNth x.outq (v.a.v.bits 1 0) ⟨true, tc, v.a.v.bits 52 51, 0, false, false⟩ })).answers s c k t f
          ⟨0, false⟩)) := by
  rw [exec_qcfg, execQcfg]
  refine ⟨fun htc => issue_answers h ?_ (next_of_readVals hr), fun tc htc => issue_answers h ?_ ((State.modCore_next ..).trans (next_of_readVals hr))⟩
  · simp only [hr]
    rw [if_neg (by simp [hbad]), if_neg (by omega), if_neg (by simp [hw, hres]), if_pos (by simp [hon, htc])]
    rfl
  · simp only [hr]
    rw [if_neg (by simp [hbad]), if_neg (by omega), if_neg (by simp [hw, hres]), if_neg (by simp [htc]),
      if_neg (by simp [hconf]), if_neg (by simp [hconf]), if_pos (by simp [hon]), htc]
    rfl

/-- The value QSTAT reads (R142). -/
def Core.qstatWord (x : Core) (g : Word) : Word :=
  if g.bits 63 3 ≠ 0 then allOnes
  else if g.bits 2 2 = 1 then
    let o := nthD x.outq (g.bits 1 0) OutQ.reset
    if o.conf then w64 (2 ^ 63 + o.cred * 2 ^ 16 + o.tq) else 0
  else
    let q := nthD x.inq (g.bits 1 0) InQ.reset
    if q.conf then w64 (2 ^ 63 + q.n * 2 ^ 32 + q.cred % 65536 * 2 ^ 16 + q.held.length % 65536) else 0

theorem exec_qstat_goes (h : Goes (.qstat f) s c k t) (hr : s.readVals (.qstat f) c k t f = (v, u)) :
    exec (.qstat f) s = .next (u.answers s c k t f ⟨(u.core c).qstatWord v.a.v, true⟩) := by
  rw [exec_qstat, execQstat]
  refine issue_answers h ?_ (next_of_readVals hr)
  simp only [hr]
  rfl

/-! ### Stream ports -/

/-- NOPEN of an outbound port that has recorded an abort. -/
theorem exec_nopen_of_abort (h : Goes (.nopen f) s c k t) (hr : s.readVals (.nopen f) c k t f = (v, u))
    (hout : v.d.v.bits 1 1 = 1) (hmine : (nthD (s.core c).outp f.imm.toNat OutPort.reset).owner = some k)
    (habort : (nthD (s.core c).outp f.imm.toNat OutPort.reset).abort = true) :
    exec (.nopen f) s = .next (((s.modCore c (fun x => { x with
      outp := setNth x.outp f.imm.toNat { nthD (s.core c).outp f.imm.toNat OutPort.reset with abort := false } })).raise c k 0x0C
        0 (w64 f.imm.toNat)).shortened c k t.pc s.nextId) := by
  rw [exec_nopen, execNopen, issue_goes h]
  simp only [hr]
  rw [if_pos (by simp [hout, hmine, habort])]
  rfl

/-- NOPEN otherwise: of a malformed word. -/
theorem exec_nopen_of_bad (h : Goes (.nopen f) s c k t) (hr : s.readVals (.nopen f) c k t f = (v, u))
    (hbad : nopenBad v.d.v = true) (hno : v.d.v.bits 1 1 ≠ 1 ∨
      (nthD (s.core c).outp f.imm.toNat OutPort.reset).owner ≠ some k ∨
      (nthD (s.core c).outp f.imm.toNat OutPort.reset).abort = false) :
    exec (.nopen f) s = .next (u.answers s c k t f ⟨1, false⟩) := by
  rw [exec_nopen, execNopen]
  refine issue_answers h ?_ (next_of_readVals hr)
  simp only [hr]
  rw [if_neg (by rcases hno with h1 | h1 | h1 <;> simp [h1]), if_pos hbad]
  rfl

/-- NOPEN of an inbound port: of another thread's, and of one that the thread may claim. -/
theorem exec_nopen_of_inbound (h : Goes (.nopen f) s c k t) (hr : s.readVals (.nopen f) c k t f = (v, u))
    (hbad : nopenBad v.d.v = false) (hin : v.d.v.bits 1 1 = 0) :
    ((nthD (u.core c).inp f.imm.toNat InPort.reset).owner ≠ none →
      (nthD (u.core c).inp f.imm.toNat InPort.reset).owner ≠ some k →
      exec (.nopen f) s = .next (u.answers s c k t f ⟨2, false⟩)) ∧
    ((nthD (u.core c).inp f.imm.toNat InPort.reset).owner = none ∨
        (nthD (u.core c).inp f.imm.toNat InPort.reset).owner = some k →
      exec (.nopen f) s = .next ((u.setCore c { u.core c with
        inp := setNth (u.core c).inp f.imm.toNat { nthD (u.core c).inp f.imm.toNat InPort.reset with
          owner := if v.d.v.bits 0 0 = 1 then some k else none } }).answers s c k t f ⟨0, false⟩)) := by
  rw [exec_nopen, execNopen]
  refine ⟨fun h1 h2 => issue_answers h ?_ (next_of_readVals hr), fun h1 => issue_answers h ?_ ((State.setCore_next ..).trans (next_of_readVals hr))⟩
  · simp only [hr]
    rw [if_neg (by simp [hin]), if_neg (by simp [hbad]), if_pos hin, if_pos (by simp [h1, h2])]
    rfl
  · simp only [hr]
    rw [if_neg (by simp [hin]), if_neg (by simp [hbad]), if_pos hin, if_neg (by rcases h1 with h1 | h1 <;> simp [h1])]
    rfl

/-- NOPEN of an outbound port that the thread may bind. -/
theorem exec_nopen_of_outbound (h : Goes (.nopen f) s c k t) (hr : s.readVals (.nopen f) c k t f = (v, u)) {tc : Nat}
    (hbad : nopenBad v.d.v = false) (hout : v.d.v.bits 1 1 = 1) (hon : v.d.v.bits 0 0 = 1)
    (htc : u.coreAt t.tenant (v.d.v.bits 63 60) (v.d.v.bits 59 56) (v.d.v.bits 55 53) = some tc)
    (hno : (nthD (s.core c).outp f.imm.toNat OutPort.reset).owner ≠ some k ∨
      (nthD (s.core c).outp f.imm.toNat OutPort.reset).abort = false)
    (hown : (nthD (u.core c).outp f.imm.toNat OutPort.reset).owner = none ∨
      (nthD (u.core c).outp f.imm.toNat OutPort.reset).owner = some k)
    (hclosed : (nthD (u.core c).outp f.imm.toNat OutPort.reset).opened = false) :
    exec (.nopen f) s = .next ((u.setCore c { u.core c with
      outp := setNth (u.core c).outp f.imm.toNat ⟨some k, true, tc, v.d.v.bits 2 2, false, 0, false⟩ }).answers s c k t f
        ⟨0, false⟩) := by
  rw [exec_nopen, execNopen]
  refine issue_answers h ?_ ((State.setCore_next ..).trans (next_of_readVals hr))
  simp only [hr]
  rw [if_neg (by rcases hno with h1 | h1 <;> simp [h1]), if_neg (by simp [hbad]), if_neg (by omega), if_neg (by simp [htc]),
    if_neg (by rcases hown with h1 | h1 <;> simp [h1]), if_neg (by simp [hclosed]), if_pos (by simp [hon]), htc]
  rfl

/-- NSENDE sends its end word, waits for the port, or traps. -/
theorem exec_nsende_of_ready (h : Goes (.nsende f) s c k t) (hr : s.readVals (.nsende f) c k t f = (v, u))
    (hp : s.portReady t.tenant c k f.imm.toNat = .yes) :
    exec (.nsende f) s = .next ((u.sendStream t.tenant c k f.imm.toNat v.d true (u.storesOf c k)).completed c k
      s.next s.nextId) := by
  rw [exec_nsende, execNsende]
  refine issue_completed h ?_ ((State.sendStream_next ..).trans (next_of_readVals hr))
  simp only [hp, hr]

/-- NSTAT reads the two ports. -/
theorem exec_nstat_goes (h : Goes (.nstat f) s c k t) :
    let o := nthD (s.core c).outp f.imm.toNat OutPort.reset
    let d := nthD (s.core c).inp f.imm.toNat InPort.reset
    let src := (match d.buf with
      | w :: _ => w.src
      | [] => 0)
    exec (.nstat f) s = .next (s.answers s c k t f ⟨w64 ((if o.owner = some k then 2 ^ 63 else 0)
      + (if o.opened then 2 ^ 62 else 0) + (if o.abort then 2 ^ 61 else 0) + (if d.owner = some k then 2 ^ 60 else 0)
      + (if nthD t.inEnd f.imm.toNat false then 2 ^ 59 else 0) + min d.buf.length 64 * 2 ^ 17 + src), true⟩) := by
  rw [exec_nstat, execNstat]
  exact issue_answers h rfl rfl

/-! ### Pool banks -/

/-- BKMODE of a malformed word; of a bank that is in the mode; of bank 11; of a queue bank that holds words. -/
theorem exec_bkmode_of_bad (h : Goes (.bkmode f) s c k t) (hr : s.readVals (.bkmode f) c k t f = (v, u))
    (hbad : v.a.v.bits 63 6 ≠ 0 ∨ 11 < v.a.v.bits 3 0 ∨ v.a.v.bits 5 4 = 3) :
    exec (.bkmode f) s = .next (u.answers s c k t f ⟨1, false⟩) := by
  rw [exec_bkmode, execBkmode]
  refine issue_answers h ?_ (next_of_readVals hr)
  simp only [hr]
  rw [if_pos (by simpa [or_assoc] using hbad)]
  rfl

/-- A control word of BKMODE that names a bank and a mode. -/
def bkmodeOk (g : Word) : Prop := g.bits 63 6 = 0 ∧ g.bits 3 0 ≤ 11 ∧ g.bits 5 4 ≠ 3

theorem exec_bkmode_of_same (h : Goes (.bkmode f) s c k t) (hr : s.readVals (.bkmode f) c k t f = (v, u))
    (hok : bkmodeOk v.a.v) (hsame : nthD (s.core c).banks (v.a.v.bits 3 0) .cache = modeOf (v.a.v.bits 5 4)) :
    exec (.bkmode f) s = .next (u.answers s c k t f ⟨0, false⟩) := by
  obtain ⟨h1, h2, h3⟩ := hok
  rw [exec_bkmode, execBkmode]
  refine issue_answers h ?_ (next_of_readVals hr)
  simp only [hr]
  rw [if_neg (by simp [h1, h3]; omega), if_pos hsame]
  rfl

theorem exec_bkmode_of_fixed (h : Goes (.bkmode f) s c k t) (hr : s.readVals (.bkmode f) c k t f = (v, u))
    (hok : bkmodeOk v.a.v) (hb : v.a.v.bits 3 0 = 11)
    (hold : nthD (s.core c).banks (v.a.v.bits 3 0) .cache ≠ modeOf (v.a.v.bits 5 4)) :
    exec (.bkmode f) s = .next (u.answers s c k t f ⟨3, false⟩) := by
  obtain ⟨h1, h2, h3⟩ := hok
  rw [exec_bkmode, execBkmode]
  refine issue_answers h ?_ (next_of_readVals hr)
  simp only [hr]
  rw [if_neg (by simp [h1, h3]; omega), if_neg hold, if_pos hb]
  rfl

theorem exec_bkmode_of_busy (h : Goes (.bkmode f) s c k t) (hr : s.readVals (.bkmode f) c k t f = (v, u))
    (hok : bkmodeOk v.a.v) (hb : v.a.v.bits 3 0 < 11)
    (hold : nthD (s.core c).banks (v.a.v.bits 3 0) .cache ≠ modeOf (v.a.v.bits 5 4))
    (hfifo : nthD (s.core c).banks (v.a.v.bits 3 0) .cache = .fifo) (hbusy : (s.core c).bankBusy (v.a.v.bits 3 0) = true) :
    exec (.bkmode f) s = .next (u.answers s c k t f ⟨2, false⟩) := by
  obtain ⟨h1, h2, h3⟩ := hok
  rw [exec_bkmode, execBkmode]
  refine issue_answers h ?_ (next_of_readVals hr)
  simp only [hr]
  rw [if_neg (by simp [h1, h3]; omega), if_neg hold, if_neg (by omega), if_pos (by simp [hfifo, hbusy])]
  rfl

/-- BKMODE of a bank that can change: what a CACHE bank holds goes, and the bank takes its mode. -/
theorem exec_bkmode_of_free (h : Goes (.bkmode f) s c k t) (hr : s.readVals (.bkmode f) c k t f = (v, u))
    (hok : bkmodeOk v.a.v) (hb : v.a.v.bits 3 0 < 11)
    (hold : nthD (s.core c).banks (v.a.v.bits 3 0) .cache ≠ modeOf (v.a.v.bits 5 4))
    (hfree : nthD (s.core c).banks (v.a.v.bits 3 0) .cache = .fifo → (s.core c).bankBusy (v.a.v.bits 3 0) = false)
    (hwin : nthD (s.core c).banks (v.a.v.bits 3 0) .cache = .scratch ∨ modeOf (v.a.v.bits 5 4) = .scratch →
      s.windowBusy c = false) :
    exec (.bkmode f) s = .next (((if nthD (s.core c).banks (v.a.v.bits 3 0) .cache = .cache then u.flushBanks c else u).modCore c
      (fun x => x.setBank (v.a.v.bits 3 0) (modeOf (v.a.v.bits 5 4)))).answers s c k t f ⟨0, false⟩) := by
  obtain ⟨h1, h2, h3⟩ := hok
  rw [exec_bkmode, execBkmode]
  refine issue_answers h ?_ ?_
  · simp only [hr]
    rw [if_neg (by simp [h1, h3]; omega), if_neg hold, if_neg (by omega), if_neg (by simpa using hfree), if_neg (by simpa using hwin)]
    rfl
  · rw [State.modCore_next]
    split
    · rw [State.flushBanks_next, next_of_readVals hr]
    · exact next_of_readVals hr

/-- BKINFO of all banks, and of none. -/
theorem exec_bkinfo_of_all (h : Goes (.bkinfo f) s c k t) (hr : s.readVals (.bkinfo f) c k t f = (v, u))
    (hn : v.a.v.toNat = 12) :
    exec (.bkinfo f) s = .next (u.answers s c k t f ⟨w64 ((banksIn (u.core c).banks .cache).length * 2 ^ 44
      + (banksIn (u.core c).banks .scratch).length * 2 ^ 40 + (banksIn (u.core c).banks .fifo).length * 2 ^ 36
      + (u.core c).pubWin), v.a.t⟩) := by
  rw [exec_bkinfo, execBkinfo]
  refine issue_answers h ?_ (next_of_readVals hr)
  simp only [hr]
  rw [if_pos hn]

theorem exec_bkinfo_of_none (h : Goes (.bkinfo f) s c k t) (hr : s.readVals (.bkinfo f) c k t f = (v, u))
    (hn : 12 < v.a.v.toNat) : exec (.bkinfo f) s = .next (u.answers s c k t f ⟨allOnes, v.a.t⟩) := by
  rw [exec_bkinfo, execBkinfo]
  refine issue_answers h ?_ (next_of_readVals hr)
  simp only [hr]
  rw [if_neg (by omega), if_pos hn]

/-- BKINFO of one bank, in each mode. -/
theorem exec_bkinfo_of_scratch (h : Goes (.bkinfo f) s c k t) (hr : s.readVals (.bkinfo f) c k t f = (v, u))
    (hn : v.a.v.toNat < 12) (hm : nthD (u.core c).banks v.a.v.toNat .cache = .scratch) :
    exec (.bkinfo f) s = .next (u.answers s c k t f ⟨w64 (2 ^ 62 + (if v.a.v.toNat = 11 then 2 ^ 61 else 0)
        + 131072 * ((banksIn (u.core c).banks .scratch).filter (fun j => j < v.a.v.toNat)).length), v.a.t⟩) := by
  rw [exec_bkinfo, execBkinfo]
  refine issue_answers h ?_ (next_of_readVals hr)
  simp only [hr]
  rw [if_neg (by omega), if_neg (by omega)]
  simp only [hm]
  rfl

theorem exec_bkinfo_of_fifo (h : Goes (.bkinfo f) s c k t) (hr : s.readVals (.bkinfo f) c k t f = (v, u))
    (hn : v.a.v.toNat < 12) (hm : nthD (u.core c).banks v.a.v.toNat .cache = .fifo) :
    exec (.bkinfo f) s = .next (u.answers s c k t f ⟨w64 (2 * 2 ^ 62 + (if v.a.v.toNat = 11 then 2 ^ 61 else 0)
        + (u.core c).occupied v.a.v.toNat), true⟩) := by
  rw [exec_bkinfo, execBkinfo]
  refine issue_answers h ?_ (next_of_readVals hr)
  simp only [hr]
  rw [if_neg (by omega), if_neg (by omega)]
  simp only [hm]
  rfl

theorem exec_bkinfo_of_cache (h : Goes (.bkinfo f) s c k t) (hr : s.readVals (.bkinfo f) c k t f = (v, u))
    (hn : v.a.v.toNat < 12) (hm : nthD (u.core c).banks v.a.v.toNat .cache = .cache) :
    exec (.bkinfo f) s = .next (u.freeVal.2.answers s c k t f
      ⟨w64 ((if v.a.v.toNat = 11 then 2 ^ 61 else 0) + u.freeVal.1.toNat % 1025), true⟩) := by
  rw [exec_bkinfo, execBkinfo]
  refine issue_answers h ?_ ((State.freeVal_next u).trans (next_of_readVals hr))
  simp only [hr]
  rw [if_neg (by omega), if_neg (by omega)]
  simp only [hm, Bank.code, Nat.zero_mul, Nat.zero_add]

end

/-- Settles O17: each instruction answers with its status, and a refused one changes nothing but its result. -/
theorem queuesPortsBanks : Obligations.QueuesPortsBanks := by
  unfold Obligations.QueuesPortsBanks
  refine ⟨fun f s c k t h => ?_, fun f s c k t h => ?_, fun f s c k t h => ?_, fun f s c k t h hp => exec_nsende_of_ready h rfl hp,
    fun f s c k t h hp => ?_, fun f s c k t code aux h hp => ?_, fun f s c k t h => exec_nstat_goes h, fun f s c k t h => ?_,
    fun f s c k t h => ?_⟩
  · exact ⟨exec_qcfg_of_bad h rfl, exec_qcfg_of_inbound h rfl, exec_qcfg_of_busy h rfl,
      fun hbad hout hw hres hconf hon => (exec_qcfg_of_free h rfl hbad hout hw hres hconf hon).1,
      fun tc hbad hout hw hres hconf hon => (exec_qcfg_of_free h rfl hbad hout hw hres hconf hon).2 tc⟩
  · rcases hr : s.readVals (.qstat f) c k t f with ⟨v, u⟩
    dsimp only
    rw [exec_qstat_goes h hr, Core.qstatWord]
    refine ⟨fun h1 => ?_, fun h1 h2 h3 => ?_, fun h1 h2 h3 => ?_, fun h1 h2 h3 => ?_⟩
    · rw [if_pos h1]
    · rw [if_neg (not_not.2 h1), if_neg (by omega), if_pos h3]
    · rw [if_neg (not_not.2 h1), if_pos h2, if_pos h3]
    · rw [if_neg (not_not.2 h1)]
      by_cases h0 : v.a.v.bits 2 2 = 0
      · rw [if_neg (by omega), if_neg (by simp [h2 h0])]
      · obtain ⟨hout, hconf⟩ := h3 h0
        rw [if_pos hout, if_neg (by simp [hconf])]
  · exact ⟨exec_nopen_of_abort h rfl, exec_nopen_of_bad h rfl, fun hbad hin => (exec_nopen_of_inbound h rfl hbad hin).1,
      fun hbad hin => (exec_nopen_of_inbound h rfl hbad hin).2,
      fun tc hbad hout hon htc hno hown hclosed => exec_nopen_of_outbound h rfl hbad hout hon htc hno hown hclosed⟩
  · rw [exec_nsende, execNsende]
    exact issue_waits h (by simp only [hp])
  · rw [exec_nsende, execNsende, issue_goes h]
    simp only [hp]
    rfl
  · exact ⟨exec_bkmode_of_bad h rfl, fun h1 h2 h3 => exec_bkmode_of_same h rfl ⟨h1, h2, h3⟩,
      fun h1 h2 h3 hold => exec_bkmode_of_fixed h rfl ⟨h1, h2.le, h3⟩ h2 hold,
      fun h1 h2 h3 hold hfifo hbusy => exec_bkmode_of_busy h rfl ⟨h1, h2.le, h3⟩ h2 hold hfifo hbusy,
      fun h1 h2 h3 hold hfree hwin => exec_bkmode_of_free h rfl ⟨h1, h2.le, h3⟩ h2 hold hfree hwin⟩
  · exact ⟨exec_bkinfo_of_all h rfl, exec_bkinfo_of_none h rfl, exec_bkinfo_of_scratch h rfl, exec_bkinfo_of_fifo h rfl,
      fun hn hm => ⟨_, Nat.le_of_lt_succ (Nat.mod_lt _ (by decide)), exec_bkinfo_of_cache h rfl hn hm⟩⟩

end Sys2Proof.Machine
end

section
/-!
SUPPORT. Handles and their check, and the operations of Chord (R72, R73, R83 to R88): O18.
-/
namespace Sys2Proof.Machine
open Sys2Proof

/-! ### The check nibble and the fields of a handle -/

/-- A XOR of nibbles is a nibble. -/
theorem foldl_xor_lt {g : Nat → Nat} (hg : ∀ i, g i < 16) (l : List Nat) {x : Nat} (hx : x < 16) :
    l.foldl (fun x i => Nat.xor x (g i)) x < 16 :=
  List.foldlRecOn (motive := fun y => y < 16) l _ hx fun _ hy i _ => Nat.xor_lt_two_pow (n := 4) hy (hg i)

theorem Word.bits_nibble (h : Word) (i : Nat) : h.bits (4 * i + 7) (4 * i + 4) = h.toNat / 16 / 2 ^ (4 * i) % 16 := by
  rw [Word.bits, bitsOf, show 4 * i + 7 - (4 * i + 4) + 1 = 4 by omega, Nat.pow_add, Nat.mul_comm, ← Nat.div_div_eq_div_mul]
  rfl

theorem handleCheck_lt (h : Word) : handleCheck h < 16 :=
  foldl_xor_lt (fun i => by rw [Word.bits_nibble]; exact Nat.mod_lt _ (by decide)) _ (by decide)

/-- The check nibble depends on the bits above it alone. -/
theorem handleCheck_congr {h h' : Word} (e : h.toNat / 16 = h'.toNat / 16) : handleCheck h = handleCheck h' := by
  unfold handleCheck
  simp only [Word.bits_nibble, e]

/-- A handle names its tenant, region, view and generation, and has its check nibble. -/
theorem mkHandle_fields {tn r v g : Nat} (htn : tn < 16) (hr : r < 2 ^ 24) (hv : v < 65536) (hg : g < 65536) :
    hTenant (mkHandle tn r v g) = tn ∧ hRegion (mkHandle tn r v g) = r ∧ hView (mkHandle tn r v g) = v ∧
      hGen (mkHandle tn r v g) = g ∧ (mkHandle tn r v g).bits 3 0 = handleCheck (mkHandle tn r v g) := by
  have hbase : (w64 (tn * 2 ^ 60 + r * 2 ^ 36 + v * 2 ^ 20 + g * 16)).toNat = tn * 2 ^ 60 + r * 2 ^ 36 + v * 2 ^ 20 + g * 16 := by
    rw [w64_toNat, Nat.mod_eq_of_lt (by omega)]
  have hc := handleCheck_lt (w64 (tn * 2 ^ 60 + r * 2 ^ 36 + v * 2 ^ 20 + g * 16))
  have hval : (mkHandle tn r v g).toNat =
      tn * 2 ^ 60 + r * 2 ^ 36 + v * 2 ^ 20 + g * 16 +
        handleCheck (w64 (tn * 2 ^ 60 + r * 2 ^ 36 + v * 2 ^ 20 + g * 16)) := by
    rw [mkHandle, w64_toNat, hbase, Nat.mod_eq_of_lt (by omega)]
  have hnib : handleCheck (mkHandle tn r v g) = handleCheck (w64 (tn * 2 ^ 60 + r * 2 ^ 36 + v * 2 ^ 20 + g * 16)) :=
    handleCheck_congr (by rw [hval, hbase]; omega)
  rw [hnib]
  generalize handleCheck (w64 (tn * 2 ^ 60 + r * 2 ^ 36 + v * 2 ^ 20 + g * 16)) = n at hc hval
  simp only [hTenant, hRegion, hView, hGen, Word.bits, bitsOf, hval]
  omega

/-! ### The check of a handle -/

theorem Tenant.checkHandle_of_foreign {x : Tenant} {tn : Nat} {h : Word} (hf : hTenant h ≠ tn) :
    x.checkHandle tn h = .bad 0x09 1 := if_pos hf

theorem Tenant.checkHandle_of_nibble {x : Tenant} {tn : Nat} {h : Word} (ht : hTenant h = tn)
    (hn : h.bits 3 0 ≠ handleCheck h) : x.checkHandle tn h = .bad 0x08 2 := by
  rw [Tenant.checkHandle, if_neg (not_not.2 ht), if_pos hn]
  rfl

theorem Tenant.checkHandle_eq_ok_iff {x : Tenant} {tn : Nat} {h : Word} {v : View} :
    x.checkHandle tn h = .ok v ↔ hTenant h = tn ∧ h.bits 3 0 = handleCheck h ∧ hRegion h ≤ 4095 ∧ hView h ≤ 4095 ∧
      (x.region (hRegion h)).live = true ∧ v = (x.region (hRegion h)).view (hView h) ∧ v.live = true ∧ v.gen = hGen h := by
  unfold Tenant.checkHandle
  split
  · next hf => simp [hf]
  · next ht =>
    split
    · next hn => simp [hn]
    · next hn =>
      dsimp only
      split
      · next hbad =>
        simp only [Bool.or_eq_true, decide_eq_true_eq, Bool.not_eq_true', reduceCtorEq, false_iff, not_and]
          at hbad ⊢
        intro _ _ h1 h2 h3 hv h4
        subst hv
        rcases hbad with (((hbad | hbad) | hbad) | hbad) | hbad
        · omega
        · simp [h3] at hbad
        · omega
        · simp [h4] at hbad
        · exact hbad
      · next hok =>
        simp only [Bool.or_eq_true, decide_eq_true_eq, Bool.not_eq_true', not_or, Nat.not_lt, Bool.not_eq_false, not_not]
          at hok
        obtain ⟨⟨⟨⟨h1, h2⟩, h3⟩, h4⟩, h5⟩ := hok
        rw [Validated.ok.injEq]
        exact ⟨fun e => e ▸ ⟨not_not.1 ht, not_not.1 hn, h1, h3, h2, rfl, h4, h5⟩, fun e => e.2.2.2.2.2.1.symm⟩

/-! ### Regions of a tenant -/

theorem State.region_setRegion_same (s : State) (tn r : Nat) (x : Region) : ((s.setRegion tn r x).tenant tn).region r = x := by
  rw [State.setRegion, State.tenant_modTenant_same, Tenant.region, SMap.get_set_same]

theorem State.region_setRegion_other (s : State) (tn : Nat) {r q : Nat} (x : Region) (h : q ≠ r) :
    ((s.setRegion tn r x).tenant tn).region q = (s.tenant tn).region q := by
  rw [State.setRegion, State.tenant_modTenant_same, Tenant.region, Tenant.region, SMap.get_set_other _ h]

/-! ### Slots -/

/-- The first free slot is the lowest one. -/
theorem freeSlots_of_lowest {used : Nat → Bool} {r : Nat} (hr : r < 4096) (hfree : used r = false)
    (hlow : ∀ q, q < r → used q = true) : ∃ l, freeSlots used = r :: l := by
  have hsplit : List.range 4096 = List.range r ++ r :: (List.range (4095 - r)).map (r + 1 + ·) := by
    rw [show 4096 = r + (1 + (4095 - r)) by omega, List.range_add, List.range_add]
    simp [Function.comp_def, Nat.add_assoc]
  have hnil : (List.range r).filter (fun i => !used i) = [] :=
    List.filter_eq_nil_iff.2 fun q hq => by simp [hlow q (List.mem_range.1 hq)]
  exact ⟨_, by rw [freeSlots, hsplit, List.filter_append, hnil, List.nil_append, List.filter_cons_of_pos (by simp [hfree])]⟩

theorem freeSlots_of_full {used : Nat → Bool} (h : ∀ r, r < 4096 → used r = true) : freeSlots used = [] :=
  List.filter_eq_nil_iff.2 fun q hq => by simp [h q (List.mem_range.1 hq)]

/-! ### VWNEW -/

section
variable {s s' : State} {tn die0 : Nat} {a : TWord}

/-- The fields of a request for a region are within their bounds. -/
def newViewOk (w : Word) : Prop :=
  w.bits 63 32 = 0 ∧ w.bits 24 0 ≠ 0 ∧ w.bits 24 0 ≤ 2 ^ 24 ∧ w.bits 30 28 ≤ 4 ∧ (w.bits 27 25 = 2 ∨ w.bits 27 25 = 3)

/-- The die such a request names. -/
def newViewDie (die0 : Nat) (w : Word) : Nat := if w.bits 30 28 = 4 then die0 else w.bits 30 28

theorem State.viewNew_of_bad (h : a.v.bits 63 32 ≠ 0 ∨ a.v.bits 24 0 = 0 ∨ 2 ^ 24 < a.v.bits 24 0 ∨ 4 < a.v.bits 30 28 ∨
    (a.v.bits 27 25 ≠ 2 ∧ a.v.bits 27 25 ≠ 3)) : s.viewNew tn die0 a = .ok [⟨1, a.t⟩] none s := by
  rw [State.viewNew]
  dsimp only
  rw [if_pos (by simpa [or_assoc] using h)]
  rfl

/-- A die without a quadrant of the tenant. -/
theorem State.viewNew_of_no_die (h : newViewOk a.v) (hd : ∀ q ∈ (s.tenant tn).quads, dieOfQuad q ≠ newViewDie die0 a.v) :
    s.viewNew tn die0 a = .ok [⟨4, a.t⟩] none s := by
  obtain ⟨h1, h2, h3, h4, h5⟩ := h
  rw [newViewDie] at hd
  rw [State.viewNew]
  dsimp only
  rw [if_neg (by simp [h1, h2]; omega), if_pos (by simpa using hd)]
  rfl

/-- Past the quota, or with too few frames in the pool. -/
theorem State.viewNew_of_quota (h : newViewOk a.v) (hd : ∃ q ∈ (s.tenant tn).quads, dieOfQuad q = newViewDie die0 a.v)
    (hq : (s.tenant tn).cvquota.toNat < (s.tenant tn).coveredGranules + a.v.bits 24 0) :
    s.viewNew tn die0 a = .ok [⟨2, a.t⟩] none s := by
  obtain ⟨h1, h2, h3, h4, h5⟩ := h
  rw [newViewDie] at hd
  rw [State.viewNew]
  dsimp only
  rw [if_neg (by simp [h1, h2]; omega), if_neg (by simpa using hd), if_pos hq]
  rfl

theorem State.viewNew_of_pool (h : newViewOk a.v) (hd : ∃ q ∈ (s.tenant tn).quads, dieOfQuad q = newViewDie die0 a.v)
    (hq : (s.tenant tn).coveredGranules + a.v.bits 24 0 ≤ (s.tenant tn).cvquota.toNat)
    (hg : s.takeGranules (newViewDie die0 a.v) (a.v.bits 24 0) = none) :
    s.viewNew tn die0 a = .ok [⟨2, a.t⟩] none s := by
  obtain ⟨h1, h2, h3, h4, h5⟩ := h
  rw [newViewDie] at hd hg
  rw [State.viewNew]
  dsimp only
  rw [if_neg (by simp [h1, h2]; omega), if_neg (by simpa using hd), if_neg (Nat.not_lt.2 hq)]
  simp only [hg]
  rfl

/-- Without a free region slot. -/
theorem State.viewNew_of_full (h : newViewOk a.v) (hd : ∃ q ∈ (s.tenant tn).quads, dieOfQuad q = newViewDie die0 a.v)
    (hq : (s.tenant tn).coveredGranules + a.v.bits 24 0 ≤ (s.tenant tn).cvquota.toNat) {gs : List Nat}
    (hg : s.takeGranules (newViewDie die0 a.v) (a.v.bits 24 0) = some (gs, s'))
    (hfull : ∀ r, r < 4096 → ((s.tenant tn).region r).live = true) : s.viewNew tn die0 a = .ok [⟨3, a.t⟩] none s := by
  obtain ⟨h1, h2, h3, h4, h5⟩ := h
  rw [newViewDie] at hd hg
  rw [State.viewNew]
  dsimp only
  rw [if_neg (by simp [h1, h2]; omega), if_neg (by simpa using hd), if_neg (Nat.not_lt.2 hq)]
  simp only [hg, freeSlots_of_full (used := fun i => ((s.tenant tn).region i).live) hfull]
  rfl

/-- The region that VWNEW makes of a slot. -/
def Region.taken (old : Region) (d : Nat) (w : Word) (gs : List Nat) : Region :=
  ⟨true, old.epoch + 1, d, w.bits 27 25, w.getLsbD 31, w.bits 24 0,
    SMap.set old.views 0 ⟨(old.view 0).gen, true, 0, w.bits 24 0⟩, 1, gs.zipIdx.map (fun p => (p.2, p.1))⟩

theorem Word.bits_one (w : Word) (i : Nat) : decide (w.bits i i = 1) = w.getLsbD i := by
  simp [Word.bits, bitsOf, BitVec.getLsbD, Nat.testBit_eq_decide_div_mod_eq]

theorem State.viewNew_of_slot (h : newViewOk a.v) (hd : ∃ q ∈ (s.tenant tn).quads, dieOfQuad q = newViewDie die0 a.v)
    (hq : (s.tenant tn).coveredGranules + a.v.bits 24 0 ≤ (s.tenant tn).cvquota.toNat) {gs : List Nat}
    (hg : s.takeGranules (newViewDie die0 a.v) (a.v.bits 24 0) = some (gs, s')) {r : Nat} (hr : r < 4096)
    (hfree : ((s.tenant tn).region r).live = false) (hlow : ∀ q, q < r → ((s.tenant tn).region q).live = true) :
    s.viewNew tn die0 a = .ok [⟨mkHandle tn r 0 (((s.tenant tn).region r).view 0).gen, a.t⟩] none
      (s'.setRegion tn r (((s.tenant tn).region r).taken (newViewDie die0 a.v) a.v gs)) := by
  obtain ⟨h1, h2, h3, h4, h5⟩ := h
  obtain ⟨l, hl⟩ := freeSlots_of_lowest (used := fun i => ((s.tenant tn).region i).live) hr hfree hlow
  rw [newViewDie] at hd hg ⊢
  rw [State.viewNew]
  dsimp only
  rw [if_neg (by simp [h1, h2]; omega), if_neg (by simpa using hd), if_neg (Nat.not_lt.2 hq)]
  simp only [hg, hl, Word.bits_one]
  rfl

end

/-- A pool that suffices gives its first frames. -/
theorem State.takeGranules_of_pool (s : State) {d n : Nat} (h : n ≤ (s.die d).granules.length) :
    s.takeGranules d n = some ((s.die d).granules.take n,
      s.setDie d { s.die d with granules := (s.die d).granules.drop n }) := by
  simp [State.takeGranules, h]

/-! ### The operations on views -/

section
variable {s : State} {op tn ns nl : Nat} {h : Word} {vw : View}

/-- A handle that fails its check. -/
theorem State.viewOps_of_bad {code info : Nat} (hc : (s.tenant tn).checkHandle tn h = .bad code info) :
    s.viewNarrow op tn h ns nl = .trap code ns h ∧ s.viewDrop op tn h ns = .trap code ns h ∧
    (∀ t, s.viewDup tn ⟨h, t⟩ = .trap code 0 h ∧ s.viewInfo tn ⟨h, t⟩ = .ok [⟨0, t⟩, ⟨w64 info, true⟩] none s) ∧
    ∀ t m, s.viewSplit tn ⟨h, t⟩ m = .trap code m.v.toNat h := by
  simp [State.viewNarrow, State.viewDrop, State.viewDup, State.viewInfo, State.viewSplit, hc]

/-- What freeing the granules that no view covers leaves of the region. -/
theorem State.region_freeUncovered (s : State) (op tn ri view : Nat) (r : Region) :
    ((s.freeUncovered op tn ri view r).tenant tn).region ri =
      { r with frames := r.frames.filter (fun p => r.covered p.1), live := 0 < r.liveViews } := by
  unfold State.freeUncovered
  dsimp only
  rw [State.modDie_eq, State.tenant_setDie, State.region_setRegion_same]

theorem State.viewDrop_of_ok (hc : (s.tenant tn).checkHandle tn h = .ok vw) :
    s.viewDrop op tn h ns = .ok [] (some (hRegion h, hView h)) (s.freeUncovered op tn (hRegion h) (hView h)
      { (s.tenant tn).region (hRegion h) with
        views := SMap.set ((s.tenant tn).region (hRegion h)).views (hView h) vw.die }) := by
  simp only [State.viewDrop, hc]

theorem State.viewNarrow_of_zero (hc : (s.tenant tn).checkHandle tn h = .ok vw) :
    s.viewNarrow op tn h ns 0 = s.viewDrop op tn h ns := by simp [State.viewNarrow, hc]

theorem State.viewNarrow_of_misaligned (hc : (s.tenant tn).checkHandle tn h = .ok vw) (hl : nl ≠ 0)
    (hm : ns % 4096 ≠ 0 ∨ nl % 4096 ≠ 0) : s.viewNarrow op tn h ns nl = .trap 0x13 ns h := by
  simp only [State.viewNarrow, hc]
  rw [if_neg hl, if_pos (by simpa using hm)]
  rfl

theorem State.viewNarrow_of_wide (hc : (s.tenant tn).checkHandle tn h = .ok vw) (hl : nl ≠ 0) (h1 : ns % 4096 = 0)
    (h2 : nl % 4096 = 0) (hm : ns < 4096 * vw.start ∨ 4096 * (vw.start + vw.len) < ns + nl) :
    s.viewNarrow op tn h ns nl = .trap 0x07 ns h := by
  simp only [State.viewNarrow, hc]
  rw [if_neg hl, if_neg (by simp [h1, h2]), if_pos (by simpa using hm)]
  rfl

theorem State.viewNarrow_of_within (hc : (s.tenant tn).checkHandle tn h = .ok vw) (hl : nl ≠ 0) (h1 : ns % 4096 = 0)
    (h2 : nl % 4096 = 0) (h3 : 4096 * vw.start ≤ ns) (h4 : ns + nl ≤ 4096 * (vw.start + vw.len)) :
    ∃ gone, s.viewNarrow op tn h ns nl = .ok [] gone (s.freeUncovered op tn (hRegion h) (hView h)
      { (s.tenant tn).region (hRegion h) with
        views := SMap.set ((s.tenant tn).region (hRegion h)).views (hView h)
          { vw with start := ns / 4096, len := nl / 4096 } }) := by
  simp only [State.viewNarrow, hc]
  rw [if_neg hl, if_neg (by simp [h1, h2]), if_neg (by simp; omega)]
  exact ⟨_, rfl⟩

theorem State.viewInfo_of_ok {t : Bool} (hc : (s.tenant tn).checkHandle tn h = .ok vw) :
    s.viewInfo tn ⟨h, t⟩ = .ok [⟨w64 (vw.len * 2 ^ 32 + vw.start), t⟩, ⟨w64 (vw.gen * 2 ^ 48
      + ((s.tenant tn).region (hRegion h)).liveViews * 2 ^ 32 + ((s.tenant tn).region (hRegion h)).frames.length), true⟩]
      none s := by
  simp only [State.viewInfo, hc]

end

/-- The view in a slot of changed views. -/
theorem Region.view_set (r : Region) (i j : Nat) (v : View) :
    SMap.get (SMap.set r.views i v) j View.reset = if j = i then v else r.view j := by
  rw [SMap.get_set]
  rfl

section
variable {s : State} {tn : Nat} {h m : TWord} {vw : View} {rest : List Nat}

theorem State.viewDup_of_full (hc : (s.tenant tn).checkHandle tn h.v = .ok vw)
    (hn : ((s.tenant tn).region (hRegion h.v)).nextSlots 1 = []) : s.viewDup tn h = .ok [⟨3, h.t⟩] none s := by
  simp only [State.viewDup, hc, hn]
  rfl

theorem State.viewDup_of_slot {n : Nat} (hc : (s.tenant tn).checkHandle tn h.v = .ok vw)
    (hn : ((s.tenant tn).region (hRegion h.v)).nextSlots 1 = n :: rest) :
    s.viewDup tn h = .ok [⟨mkHandle tn (hRegion h.v) n (((s.tenant tn).region (hRegion h.v)).view n).gen, h.t⟩] none
      (s.setRegion tn (hRegion h.v) { (s.tenant tn).region (hRegion h.v) with
        views := SMap.set ((s.tenant tn).region (hRegion h.v)).views n
          ⟨(((s.tenant tn).region (hRegion h.v)).view n).gen, true, vw.start, vw.len⟩
        used := max ((s.tenant tn).region (hRegion h.v)).used (n + 1) }) := by
  simp only [State.viewDup, hc, hn]

/-- The region after a split of the view `h` at granule `g` into the slots `v` and `w`. -/
def Region.split (r : Region) (h v w g : Nat) (vw : View) : Region :=
  { r with
    views := SMap.set (SMap.set (SMap.set r.views h vw.die) v ⟨(r.view v).gen, true, vw.start, g - vw.start⟩) w
      ⟨(r.view w).gen, true, g, vw.start + vw.len - g⟩
    used := max r.used (w + 1) }

theorem State.viewSplit_of_slots {v w : Nat} (hc : (s.tenant tn).checkHandle tn h.v = .ok vw) (h1 : m.v.toNat % 4096 = 0)
    (h2 : 4096 * vw.start < m.v.toNat) (h3 : m.v.toNat < 4096 * (vw.start + vw.len))
    (hn : ((s.tenant tn).region (hRegion h.v)).nextSlots 2 = v :: w :: rest) (hvw : v < w) :
    s.viewSplit tn h m =
      .ok [⟨mkHandle tn (hRegion h.v) v (((s.tenant tn).region (hRegion h.v)).view v).gen, h.t || m.t⟩,
        ⟨mkHandle tn (hRegion h.v) w (((s.tenant tn).region (hRegion h.v)).view w).gen, h.t || m.t⟩]
        (some (hRegion h.v, hView h.v))
        (s.setRegion tn (hRegion h.v) (((s.tenant tn).region (hRegion h.v)).split (hView h.v) v w (m.v.toNat / 4096) vw)) := by
  simp only [State.viewSplit, hc]
  rw [if_neg (not_not.2 h1), if_neg (by simp; omega)]
  simp only [hn, Nat.min_eq_left hvw.le, Nat.max_eq_right hvw.le]
  rfl

end

/-- Settles O18: the check of a handle, the layout of handles, and Chord's operations case by case. -/
theorem handles : Obligations.Handles := by
  unfold Obligations.Handles
  refine ⟨fun tn x h => ⟨Tenant.checkHandle_of_foreign, Tenant.checkHandle_of_nibble, fun v => Tenant.checkHandle_eq_ok_iff⟩,
    fun tn r v g htn hr hv hg => mkHandle_fields htn hr hv hg, fun s tn die0 a => ⟨State.viewNew_of_bad, ?_⟩,
    fun s d n h => s.takeGranules_of_pool h, fun s tn h vw n rest hc => ?_, ?_,
    fun s op tn h ns nl code info hc => State.viewOps_of_bad hc, fun s op tn h ns nl vw hc => ?_⟩
  · intro h1 h2 h3 h4 h5
    have hok : newViewOk a.v := ⟨h1, h2, h3, h4, h5⟩
    refine ⟨State.viewNew_of_no_die hok, fun hd => ⟨State.viewNew_of_quota hok hd, State.viewNew_of_pool hok hd,
      fun gs s' hq hg => ⟨State.viewNew_of_full hok hd hq hg, fun r hr hfree hlow =>
        ⟨_, State.viewNew_of_slot hok hd hq hg hr hfree hlow, ?_, fun q hq => ?_⟩⟩⟩⟩
    · rw [State.region_setRegion_same]
      rfl
    · rw [State.region_setRegion_other _ _ _ hq]
  · refine ⟨State.viewDup_of_full hc, fun hn => ⟨_, State.viewDup_of_slot hc hn, ?_⟩⟩
    rw [State.region_setRegion_same, Region.view, Region.view_set, if_pos rfl]
  · intro s tn h m r v w vw rest hc h1 h2 h3 hr hn hvw hw hv
    subst hr
    refine ⟨_, State.viewSplit_of_slots hc h1 h2 h3 hn hvw, ?_, ?_, ?_⟩
    · rw [State.region_setRegion_same, Region.view, Region.split, SMap.get_set_other _ hw.symm, SMap.get_set_other _ hv.symm,
        SMap.get_set_same]
      rfl
    · rw [State.region_setRegion_same, Region.view, Region.split, SMap.get_set_other _ hvw.ne, SMap.get_set_same]
    · rw [State.region_setRegion_same, Region.view, Region.split, SMap.get_set_same]
  · refine ⟨fun hl => ?_, fun hl hm => State.viewNarrow_of_misaligned hc hl hm,
      fun hl h1 h2 hm => State.viewNarrow_of_wide hc hl h1 h2 hm, fun hl h1 h2 h3 h4 => ?_, ?_, fun t => State.viewInfo_of_ok hc⟩
    · rw [hl, State.viewNarrow_of_zero hc]
    · obtain ⟨gone, hgone⟩ := State.viewNarrow_of_within (op := op) hc hl h1 h2 h3 h4
      refine ⟨_, gone, hgone, ?_, fun v hv => ?_, fun p => ?_, rfl⟩
      · rw [State.region_freeUncovered, Region.view, Region.view_set, if_pos rfl]
      · rw [State.region_freeUncovered, Region.view, Region.view_set, if_neg hv]
      · rw [State.region_freeUncovered]
        exact List.mem_filter
    · refine ⟨_, State.viewDrop_of_ok hc, ?_, fun v hv => ?_, ?_, rfl⟩
      · rw [State.region_freeUncovered, Region.view, Region.view_set, if_pos rfl]
        rfl
      · rw [State.region_freeUncovered, Region.view, Region.view_set, if_neg hv]
      · rw [State.region_freeUncovered]
        rfl

end Sys2Proof.Machine
end

section
/-!
SUPPORT. View instructions and accesses through handles (R80, R82, R89): O19.
-/
namespace Sys2Proof.Machine
open Sys2Proof

/-! ### Asking Chord -/

/-- An instruction that has recorded its place at its own address has not issued: no window shortens. -/
theorem State.shortened_of_want {s : State} {c k pc n : Nat} {t : Thread} (h : s.thread? c k = some t) (hpc : t.pc = pc)
    (hw : t.want.isSome = true) : s.shortened c k pc n = s.withThread c k t (s.core c).rf := by
  rw [State.shortened, State.modThread_eq h, if_pos (by simp [hpc, hw])]

/-- A thread put in its place a second time. -/
theorem State.withThread_post_same (s : State) (c k : Nat) (t : Thread) (rf : SMap TWord) (es : List Event) :
    ((s.withThread c k t rf).post es).withThread c k t rf = (s.withThread c k t rf).post es := by
  simp [State.withThread, State.post, State.setCore, State.core, Core.slot]

/-- The view instruction's request, once the thread waits for the answer: the state it leaves. -/
theorem State.chordAsked_eq {s : State} {c k : Nat} {t : Thread} (h : s.thread? c k = some t) (i : Instr) (v : Vals) :
    ((({ s with
        nextId := s.nextId + 1
        vreqs := s.vreqs ++ [⟨s.nextId, c, k, i, s.next, false, [], 0, 0, [v.d, v.a, v.b]⟩]
        tick := s.tick + 1 } : State).post [evt .viewOpRequest [s.nextId]]).modThread c k
      (fun t => { t with
        run := .wait (.chord s.nextId)
        want := some (if (i.specialReads ++ i.specialWrites).isEmpty then .chord s.nextId
          else .operands (i.specialReads ++ i.specialWrites))
        since := s.tick + 1 })).shortened c k t.pc s.nextId = s.chordAsked i c k t v := by
  rw [State.modThread_eq (t := t) (State.thread?_congr rfl ▸ h)]
  rw [State.shortened_of_want (State.withThread_thread? ..) rfl rfl]
  simp only [State.chordAsked, List.isEmpty_iff]
  simp [State.withThread, State.post, State.setCore, State.core, Core.slot]

/-- A view instruction asks Chord, or waits for its thread's accesses through the handle. -/
theorem viewAsks_of_viewInstr {mk : Fields → Instr} (hexec : ∀ f s, exec (mk f) s = viewInstr (mk f) f s) : ViewAsks mk := by
  intro f s c k t h
  rw [hexec, viewInstr]
  refine ⟨fun hbusy => ?_, fun hbusy => issue_waits h (if_pos hbusy)⟩
  rw [issue_goes h, ← State.chordAsked_eq h.thread?]
  exact congrArg (fun u : State => Host.Outcome.next (u.shortened c k t.pc s.nextId)) (if_neg (ne_true_of_eq_false hbusy))

/-! ### Accesses through a handle -/

/-- Through a handle of another tenant. -/
theorem viewAccess_of_foreign {i : Instr} {f : Fields} {s : State} {c k : Nat} {t : Thread} (h : Goes i s c k t)
    (hf : hTenant (s.getG c t f.a).v ≠ t.tenant) (body : Nat → Nat → Thread → TWord → TWord → Option Nat → Nat → State → State) :
    viewAccess i f s body = .next (s.trapped c k t 0x09 (w64 (s.getG c t f.b).v.toNat) (s.getG c t f.a).v) := by
  rw [viewAccess, issue_goes h]
  exact congrArg (fun u : State => Host.Outcome.next (u.shortened c k t.pc s.nextId)) (if_pos hf)

/-- Through a handle that the port's caches serve, the body has its physical address. -/
theorem viewAccess_of_hit {i : Instr} {f : Fields} {s : State} {c k : Nat} {t : Thread} {fr sh : Nat} (h : Goes i s c k t)
    (hv : s.ViewHit c t f fr sh) (body : Nat → Nat → Thread → TWord → TWord → Option Nat → Nat → State → State) :
    viewAccess i f s body = .next ((body c k t (s.getG c t f.a) (s.getG c t f.b)
      (some (fr + (s.getG c t f.b).v.toNat % 4096)) sh s).shortened c k t.pc s.nextId) := by
  obtain ⟨hten, hnib, hreg, hview, halign, e, hentry, hlo, hhi, hmap, hsh⟩ := hv
  rw [viewAccess, issue_goes h]
  simp only [hentry, hmap]
  rw [if_neg (not_not.2 hten), if_neg (by simp [hnib, hreg, hview]), if_neg (not_not.2 halign), if_neg (by simp [hlo, hhi]), hsh]

/-- Settles O19: the request and the wait, and the accesses with what the port's caches hold. -/
theorem viewInstructions : Obligations.ViewInstructions := by
  unfold Obligations.ViewInstructions
  refine ⟨viewAsks_of_viewInstr fun _ _ => rfl, viewAsks_of_viewInstr fun _ _ => rfl, viewAsks_of_viewInstr fun _ _ => rfl,
    viewAsks_of_viewInstr fun _ _ => rfl, viewAsks_of_viewInstr fun _ _ => rfl, viewAsks_of_viewInstr fun _ _ => rfl,
    fun f s c k t fr sh h hv => ?_, fun f s c k t fr sh h hv => ?_, fun f s c k t h hf => ?_, fun f s c k t h hf => ?_⟩
  · rw [exec_ldv, execLdv, viewAccess_of_hit h hv]
    exact congrArg Host.Outcome.next (State.startOp_started h.thread? (by simp [Op.new]))
  · rw [exec_stv, execStv, viewAccess_of_hit h hv]
    rfl
  · rw [exec_ldv, execLdv, viewAccess_of_foreign h hf]
  · rw [exec_stv, execStv, viewAccess_of_foreign h hf]

end Sys2Proof.Machine
end

section
/-!
SUPPORT. SPAWN and inline bodies (R230): O21.
-/
namespace Sys2Proof.Machine
open Sys2Proof

/-! ### An instruction that is run again with its answer -/

/-- The instruction completes with the answer. -/
theorem answered_of_answer {i : Instr} {s : State} {c k : Nat} {t : Thread} {a : Answer} (h : Answered i s c k t a)
    (done : Nat → Nat → Thread → Answer → State → State) (body : Nat → Nat → Thread → State → State) :
    answered i s done body = .next ((done c k t a s).shortened c k t.pc s.nextId) := by
  obtain ⟨hcur, hans, hready⟩ := h
  rw [answered, hcur]
  simp only [hans, hready]

/-- The instruction starts. -/
theorem answered_of_goes {i : Instr} {s : State} {c k : Nat} {t : Thread} (h : Goes i s c k t) (ha : t.answer = none)
    (done : Nat → Nat → Thread → Answer → State → State) (body : Nat → Nat → Thread → State → State) :
    answered i s done body = issue i s body := by
  rw [answered, h.1]
  simp only [ha]

theorem Answered.thread? {i : Instr} {s : State} {c k : Nat} {t : Thread} {a : Answer} (h : Answered i s c k t a) :
    s.thread? c k = some t := (State.current_thread? h.1).2

/-! ### What a change of a thread keeps of the cores -/

/-- Whatever of a core does not depend on its slots. -/
theorem State.modThread_coreField {α : Type} {φ : Core → α} (hφ : ∀ (x : Core) rf sl, φ { x with rf := rf, slots := sl } = φ { x with rf := rf })
    (s : State) (c k : Nat) (g : Thread → Thread) (d : Nat) : φ ((s.modThread c k g).core d) = φ (s.core d) := by
  rcases h : s.thread? c k with _ | t
  · rw [State.modThread_none h]
  · rw [State.modThread_eq h]
    by_cases hd : d = c
    · subst hd
      rw [State.withThread_core_same, hφ]
    · rw [State.withThread_core_other _ _ _ _ hd]

theorem State.spawns_modThread (s : State) (c k : Nat) (g : Thread → Thread) (d : Nat) :
    ((s.modThread c k g).core d).spawns = (s.core d).spawns :=
  State.modThread_coreField (φ := Core.spawns) (fun _ _ _ => rfl) s c k g d

theorem State.spawns_waits (u s : State) (c k : Nat) (t : Thread) (w : Wait) (d : Nat) :
    ((u.waits s c k t w).core d).spawns = (u.core d).spawns := by
  rw [State.waits, State.shortened, State.spawns_modThread]
  exact State.spawns_modThread u c k _ d

@[simp] theorem State.modThread_mem (s : State) (c k : Nat) (g : Thread → Thread) : (s.modThread c k g).mem = s.mem := by
  unfold State.modThread
  split <;> rfl

theorem State.waits_mem (u s : State) (c k : Nat) (t : Thread) (w : Wait) : (u.waits s c k t w).mem = u.mem := by
  rw [State.waits, State.shortened, State.modThread_mem]
  exact State.modThread_mem u c k _

/-! ### Inline bodies -/

/-- Running a body inline changes the thread alone. -/
theorem State.runInline_eq {s : State} {c k : Nat} {t : Thread} (h : s.thread? c k = some t) (f : Fields) (pc : Word)
    (status : Nat) : s.runInline c k f pc status = s.withThread c k { t with
      pc := pc.toNat, frames := ⟨s.next, t.scopes.length, f.d, f.sd, status⟩ :: t.frames, since := 0, want := none,
      answer := none, declined := none, part := [] } (s.core c).rf := by
  rw [State.runInline, State.settle, State.modThread_eq h, State.withThread_modThread]
  rfl

theorem State.sameStores_runInline (s : State) (c k : Nat) (f : Fields) (pc : Word) (status : Nat) :
    s.SameStores (s.runInline c k f pc status) :=
  (State.sameStores_modThread s c k _).trans (State.sameStores_modThread _ c k _)

/-! ### SPAWN -/

section
variable {f : Fields} {s u : State} {c k : Nat} {t : Thread} {v : Vals}

theorem exec_spawn_of_odd (h : Goes (.spawn f) s c k t) (ha : t.answer = none) (hr : s.readVals (.spawn f) c k t f = (v, u))
    (hodd : v.b.v.toNat % 2 = 1) : exec (.spawn f) s = .next (s.trapped c k t 0x13 v.b.v 0) := by
  rw [exec_spawn, execSpawn, answered_of_goes h ha, issue_goes h]
  simp only [hr]
  rw [if_pos hodd]
  rfl

theorem exec_spawn_of_det_full (h : Goes (.spawn f) s c k t) (ha : t.answer = none)
    (hr : s.readVals (.spawn f) c k t f = (v, u)) (heven : v.b.v.toNat % 2 = 0) (hdet : taskDet t.task = true)
    (hfull : 4 ≤ t.frames.length) : exec (.spawn f) s = .next (s.trapped c k t 0x03 0 0x204) := by
  rw [exec_spawn, execSpawn, answered_of_goes h ha, issue_goes h]
  simp only [hr]
  rw [if_neg (by omega), if_pos hdet, if_pos hfull]
  rfl

theorem exec_spawn_of_det (h : Goes (.spawn f) s c k t) (ha : t.answer = none)
    (hr : s.readVals (.spawn f) c k t f = (v, u)) (heven : v.b.v.toNat % 2 = 0) (hdet : taskDet t.task = true)
    (hfull : t.frames.length < 4) :
    exec (.spawn f) s = .next ((u.runInline c k f v.b.v 1).shortened c k t.pc s.nextId) := by
  rw [exec_spawn, execSpawn, answered_of_goes h ha, issue_goes h]
  simp only [hr]
  rw [if_neg (by omega), if_pos hdet, if_neg (by omega)]

/-- The request of a SPAWN goes to its target core and the thread waits. -/
theorem exec_spawn_of_core (h : Goes (.spawn f) s c k t) (ha : t.answer = none)
    (hr : s.readVals (.spawn f) c k t f = (v, u)) (heven : v.b.v.toNat % 2 = 0) (hdet : taskDet t.task = false) {to' : Nat}
    (hto : s.coreAt t.tenant (v.a.v.bits 59 56) (v.a.v.bits 55 52) (v.a.v.bits 51 49) = some to') :
    exec (.spawn f) s = .next (((({ u with nextId := u.nextId + 1 } : State).modCore to' (fun y => { y with
      spawns := y.spawns ++ [⟨u.nextId, c, k, t.inc, u.childCont c k t v.b.v, decide (4 ≤ t.frames.length), false,
        ({ u with nextId := u.nextId + 1 } : State).storesOf c k, 0⟩] })).post
      [evt .spawnRequestArrival [to', u.nextId]]).waits s c k t (.spawn u.nextId)) := by
  rw [exec_spawn, execSpawn, answered_of_goes h ha]
  refine issue_waits h ?_
  simp only [hr, hto]
  rw [if_neg (by omega), if_neg (by simp [hdet])]
  rfl

/-- What that leaves at the target core. -/
theorem exec_spawn_requests (h : Goes (.spawn f) s c k t) (ha : t.answer = none)
    (hr : s.readVals (.spawn f) c k t f = (v, u)) (heven : v.b.v.toNat % 2 = 0) (hdet : taskDet t.task = false) {to' : Nat}
    (hto : s.coreAt t.tenant (v.a.v.bits 59 56) (v.a.v.bits 55 52) (v.a.v.bits 51 49) = some to') :
    ∃ u' q, exec (.spawn f) s = .next u' ∧ (u'.core to').spawns = (u.core to').spawns ++ [q] ∧
      q.cont = u.childCont c k t v.b.v ∧ q.src = c ∧ q.slot = k ∧ q.full = decide (4 ≤ t.frames.length) ∧
      q.arrived = false ∧ u'.mem = u.mem := by
  refine ⟨_, ⟨u.nextId, c, k, t.inc, u.childCont c k t v.b.v, decide (4 ≤ t.frames.length), false,
    ({ u with nextId := u.nextId + 1 } : State).storesOf c k, 0⟩, exec_spawn_of_core h ha hr heven hdet hto, ?_, rfl, rfl, rfl,
    rfl, rfl, State.waits_mem ..⟩
  rw [State.spawns_waits, State.core_post, State.modCore, State.core_setCore_same]
  rfl

theorem exec_spawn_of_none_full (h : Goes (.spawn f) s c k t) (ha : t.answer = none)
    (hr : s.readVals (.spawn f) c k t f = (v, u)) (heven : v.b.v.toNat % 2 = 0) (hdet : taskDet t.task = false)
    (hto : s.coreAt t.tenant (v.a.v.bits 59 56) (v.a.v.bits 55 52) (v.a.v.bits 51 49) = none)
    (hfull : 4 ≤ t.frames.length) : exec (.spawn f) s = .next (u.answers s c k t f ⟨3, true⟩) := by
  rw [exec_spawn, execSpawn, answered_of_goes h ha]
  refine issue_answers h ?_ (next_of_readVals hr)
  simp only [hr, hto]
  rw [if_neg (by omega), if_neg (by simp [hdet]), if_pos hfull]
  rfl

theorem exec_spawn_of_none (h : Goes (.spawn f) s c k t) (ha : t.answer = none)
    (hr : s.readVals (.spawn f) c k t f = (v, u)) (heven : v.b.v.toNat % 2 = 0) (hdet : taskDet t.task = false)
    (hto : s.coreAt t.tenant (v.a.v.bits 59 56) (v.a.v.bits 55 52) (v.a.v.bits 51 49) = none)
    (hfull : t.frames.length < 4) :
    exec (.spawn f) s = .next ((u.runInline c k f v.b.v 2).shortened c k t.pc s.nextId) := by
  rw [exec_spawn, execSpawn, answered_of_goes h ha, issue_goes h]
  simp only [hr, hto]
  rw [if_neg (by omega), if_neg (by simp [hdet]), if_neg (by omega)]

end

/-- Settles O21: an answer or a request, and the frame of an inline body. -/
theorem spawn : Obligations.Spawn := by
  unfold Obligations.Spawn
  refine ⟨fun f s c k t h ha => ⟨exec_spawn_of_odd h ha rfl, exec_spawn_of_det_full h ha rfl, exec_spawn_of_det h ha rfl,
      fun to' heven hdet hto => ?_, fun heven hdet hto => ⟨exec_spawn_of_none_full h ha rfl heven hdet hto,
        exec_spawn_of_none h ha rfl heven hdet hto⟩⟩,
    fun f s c k t a h hc => ?_, fun f s c k t a h hc => ?_, fun s c k t f pc status h => ⟨_, rfl, ?_, ?_, fun d j hne => ?_⟩⟩
  · exact exec_spawn_requests h ha rfl heven hdet hto
  · rw [exec_spawn, execSpawn, answered_of_answer h, if_pos hc]
    exact congrArg Host.Outcome.next (State.answers_eq c k t f _ rfl)
  · rw [exec_spawn, execSpawn, answered_of_answer h, if_neg hc]
  · rw [State.runInline_eq h, State.withThread_thread?]
  · exact State.sameStores_runInline s c k f pc status
  · rw [State.runInline_eq h, State.withThread_thread?_other _ _ _ hne]

end Sys2Proof.Machine
end

section
/-!
SUPPORT. YIELD to the tenant's continuation pool (R224, R231): O22.
-/
namespace Sys2Proof.Machine
open Sys2Proof

/-! ### A YIELD whose continuation joins the pool -/

/-- A thread of tenant 0 whose task word names tenant 1. -/
def strayThread : Thread := { fetchThread 0 with task := w64 (2 ^ 60) }

/-- The thread in slot 0 of core 0, with a continuation of that core in tenant 1's pool. -/
def strayPool : State :=
  ((State.reset.withFetchWord 16 0x0400).setThread 0 0 strayThread).modTenant 1 (fun x =>
    { x with pool := [(0, ⟨8, [], w64 (2 ^ 60), 0, 0, 0, false, 0⟩)] })

def strayFields : Fields := ⟨0, 0, 0, false, false, false, false, 0, 0, 0, 0, 0⟩

theorem goes_strayYield : Goes (.yield strayFields) strayPool 0 0 strayThread := by
  unfold Goes
  decide

/-- The core's run FIFO stays empty: the continuation has gone to the pool. -/
theorem fifo_strayYield {u : State} (h : exec (.yield strayFields) strayPool = .next u) : (u.core 0).fifo = [] := by
  rw [exec_yield, execYield, issue_goes goes_strayYield] at h
  cases h
  decide

/-- Refutes O22: YIELD looks for room behind the pool of the thread's tenant, and the continuation goes to the tenant its task
word names, whose pool holds one of the core before it; the FIFO, with room, does not get it. -/
theorem not_yieldAndExit : ¬ Obligations.YieldAndExit := by
  unfold Obligations.YieldAndExit
  rintro ⟨hyield, -⟩
  obtain ⟨u, q, hexec, -, hfifo, -⟩ := hyield strayFields strayPool 0 0 strayThread goes_strayYield rfl rfl rfl rfl
    (by decide) (by decide)
  rw [fifo_strayYield hexec] at hfifo
  simp at hfifo

end Sys2Proof.Machine
end

section
/-!
SUPPORT. Requests to sync objects, and SYINIT (R282 to R287): O23.
-/
namespace Sys2Proof.Machine
open Sys2Proof

/-! ### An operand that names an object -/

/-- A translation that the port holds is found. -/
theorem State.pageFor_of_lookup {s : State} {c : Nat} {va acc : Nat} {tr : Tr} (h : s.lookup (c / 8) va acc = some tr)
    (k : Nat) (t : Thread) : s.pageFor c k t va acc = .tr tr := by
  rw [State.pageFor, h]

/-- The operand passes the checks of R282, and the instruction goes on at its line. -/
theorem syncBody_of_objectAt {s : State} {c : Nat} {t : Thread} {f : Fields} {right : Char} {l : Nat}
    (h : s.ObjectAt c t f right l) (body : Nat → Nat → Thread → Nat → State → State) (k : Nat) :
    syncBody f right body c k t s = body c k t l s := by
  obtain ⟨tr, hmem, hlook, hcl, hh, hpois, rfl⟩ := h
  rw [State.gOff] at hmem hlook
  unfold syncBody
  simp only [hmem, State.pageFor_of_lookup hlook, hcl, hh, hpois]
  rfl

/-- The operand is on a page of another class, or of another module. -/
theorem syncBody_of_class {s : State} {c : Nat} {t : Thread} {f : Fields} {right : Char} {tr : Tr}
    (hmem : memG t f.hi (s.gOff c t f) 128 right = none) (hlook : s.lookup (c / 8) (vaOf t f.hi (s.gOff c t f)) 2 = some tr)
    (hclass : Leaf.cl tr.leaf ≠ 3 ∨ Leaf.h tr.leaf = true) (body : Nat → Nat → Thread → Nat → State → State) (k : Nat) :
    syncBody f right body c k t s = s.misuse c k (vaOf t f.hi (s.gOff c t f)) 1 := by
  rw [State.gOff] at hmem hlook
  unfold syncBody
  simp only [hmem, State.pageFor_of_lookup hlook]
  rw [if_pos (by simpa using hclass)]
  rfl

/-! ### Requests -/

section
variable {f : Fields} {s : State} {c k : Nat} {t : Thread} {l : Nat}

/-- An object instruction that has no answer runs its body at the object's line. -/
theorem syncOp_goes {i : Instr} {right : Char} (h : Goes i s c k t) (ha : t.answer = none) (ho : s.ObjectAt c t f right l)
    (done : Nat → Nat → Thread → Answer → State → State) (body : Nat → Nat → Thread → Nat → State → State) :
    syncOp i f s right done body = .next ((body c k t l s).shortened c k t.pc s.nextId) := by
  rw [syncOp, answered_of_goes h ha, issue_goes h, syncBody_of_objectAt ho]

/-- A body that sends one request. -/
theorem syncOp_asks {i : Instr} {right : Char} (h : ObjectGoes i f s c k t right l)
    (done : Nat → Nat → Thread → Answer → State → State) {body : Nat → Nat → Thread → Nat → State → State} {kind : Nat}
    {ev : Bool} {g : SyncReq → SyncReq}
    (hbody : s.asking (s.tid c k t) l = false → body c k t l s = (s.request c k t kind l ev g).2) :
    syncOp i f s right done body = .next (s.objectAsked c k t kind l ev g s.nextId) := by
  obtain ⟨hgo, ha, ho, hask⟩ := h
  rw [syncOp_goes hgo ha ho, hbody hask]
  rfl

/-- An instruction whose d field is plain and whose other fields are no value reads leaves the state as it is. -/
theorem State.readVals_state {i : Instr} {fo : Form} (hform : i.form = some fo) (hroles : i.roles fo f = (fo.rd, .base, .none))
    (hd : f.sd = false) (s : State) (c k : Nat) (t : Thread) :
    s.readVals i c k t f = ((s.readVals i c k t f).1, s) ∧ (s.readVals i c k t f).1.d = s.fieldValue c t fo.rd f.d := by
  simp only [State.readVals, hform, hroles, hd, State.readField_plain]
  cases f.sa <;> cases f.sb <;> cases f.three <;> exact ⟨rfl, rfl⟩

/-- An untimed wait with no LOCK too many asks at once. -/
theorem timedWait_of_untimed {i : Instr} {fo : Form} (hform : i.form = some fo)
    (hroles : i.roles fo f = (fo.rd, .base, .none)) (hd : f.d = 0) (hsd : f.sd = false) (hask : s.asking (s.tid c k t) l = false)
    (kind : Nat) {full : Bool} (hfull : full = false) (g : SyncReq → SyncReq) :
    timedWait i f c k t s kind l full g = (s.request c k t kind l true g).2 := by
  have htimed : Fields.timed f = false := by simp [Fields.timed, hd, hsd]
  rw [timedWait, if_neg (by simp [hask]), (State.readVals_state hform hroles hsd s c k t).1]
  simp [htimed, hfull]

theorem exec_syacq_asks (h : ObjectGoes (.syacq f) f s c k t 'A' l) (hlocks : t.locks ≠ 255) (hd : f.d = 0)
    (hsd : f.sd = false) : exec (.syacq f) s = .next (s.objectAsked c k t 0 l true id s.nextId) := by
  rw [exec_syacq, execSyacq]
  refine syncOp_asks h _ fun hask => ?_
  exact timedWait_of_untimed (Instr.form_syacq f) rfl hd hsd hask 0 (by simp [hlocks]) id

theorem exec_sytry_asks (h : ObjectGoes (.sytry f) f s c k t 'A' l) (hlocks : t.locks ≠ 255) :
    exec (.sytry f) s = .next (s.objectAsked c k t 1 l false id s.nextId) := by
  rw [exec_sytry, execSytry]
  refine syncOp_asks h _ fun hask => ?_
  rw [if_neg hlocks, if_neg (by simp [hask])]

theorem exec_syrel_asks (h : ObjectGoes (.syrel f) f s c k t 'A' l) :
    exec (.syrel f) s =
      .next (s.objectAsked c k t 4 l false (fun q => { q with after := s.storesOf c k }) s.nextId) := by
  rw [exec_syrel, execSyrel]
  exact syncOp_asks h _ fun hask => if_neg (by simp [hask])

theorem exec_syarv_asks (h : ObjectGoes (.syarv f) f s c k t 'A' l) :
    exec (.syarv f) s =
      .next (s.objectAsked c k t 8 l false (fun q => { q with after := s.storesOf c k }) s.nextId) := by
  rw [exec_syarv, execSyarv]
  exact syncOp_asks h _ fun hask => if_neg (by simp [hask])

theorem State.readVals_sydlg (hsd : f.sd = false) (s : State) (c k : Nat) (t : Thread) :
    (s.readVals (.sydlg f) c k t f).1.d = s.getG c t f.d := (State.readVals_state (Instr.form_sydlg f) rfl hsd s c k t).2

theorem exec_sydlg_of_odd (hsd : f.sd = false) (h : Goes (.sydlg f) s c k t) (ha : t.answer = none)
    (hodd : (s.getG c t f.d).v.toNat % 2 = 1) :
    exec (.sydlg f) s = .next (s.trapped c k t 0x13 (s.getG c t f.d).v 0) := by
  rw [exec_sydlg, execSydlg, answered_of_goes h ha, issue_goes h]
  simp only [State.readVals_sydlg hsd]
  rw [if_pos hodd]
  rfl

theorem exec_sydlg_asks (hf : plainFields f) (h : ObjectGoes (.sydlg f) f s c k t 'A' l)
    (heven : (s.getG c t f.d).v.toNat % 2 = 0) (hdel : t.deleg = none) (hlocks : t.locks ≠ 255) :
    exec (.sydlg f) s = .next (s.objectAsked c k t 2 l true (fun q =>
      { q with body := (s.getG c t f.d).v.toNat, args := s.getGs c t 2 4, after := s.storesOf c k }) s.nextId) := by
  obtain ⟨hgo, ha, ho, hask⟩ := h
  have hv := State.readVals_sydlg hf.1 s c k t
  rw [exec_sydlg, execSydlg, answered_of_goes hgo ha, issue_goes hgo]
  simp only [hv]
  rw [if_neg (by omega), syncBody_of_objectAt ho, (State.readVals_state (Instr.form_sydlg f) rfl hf.1 s c k t).1]
  simp only [hv]
  rw [if_neg (by simp [hdel]), if_neg hlocks, if_neg (by simp [hask])]
  rfl

/-- SYMODE reads the object at once. -/
theorem exec_symode_goes (h : Goes (.symode f) s c k t) (ha : t.answer = none) (ho : s.ObjectAt c t f 'R' l)
    (hwait : s.homeWaits c k t l = false) :
    exec (.symode f) s = .next (s.answers s c k t f ⟨if s.oKind l = 0 then 0
      else w64 ((s.objW l 0).bits 63 48 * 2 ^ 48 + (s.objW l 1).bits 63 48 * 2 ^ 32 + (s.obj l).changes * 2 ^ 16
        + (s.objW l 1).bits 47 32), true⟩) := by
  rw [exec_symode, execSymode, syncOp_goes h ha ho]
  simp only [hwait]
  rw [if_neg (by decide), State.answers_eq c k t f _ rfl]
  congr 4
  exact apply_ite w64 _ _ _

/-! ### SYINIT -/

/-- SYINIT waits for the stores of its thread. -/
theorem exec_syinit_of_stores (h : Goes (.syinit f) s c k t) (ha : t.answer = none) (ho : s.ObjectAt c t f 'A' l)
    (hst : s.storesOf c k ≠ []) : exec (.syinit f) s = .next (s.waits s c k t .drained) := by
  rw [exec_syinit, execSyinit, syncOp_goes h ha ho, if_pos (by simpa using hst)]
  rfl

theorem exec_syinit_of_home (h : Goes (.syinit f) s c k t) (ha : t.answer = none) (ho : s.ObjectAt c t f 'A' l)
    (hst : s.storesOf c k = []) (hwait : s.homeWaits c k t l = true) :
    exec (.syinit f) s = .next (s.waits s c k t .storeSpace) := by
  rw [exec_syinit, execSyinit, syncOp_goes h ha ho, if_neg (by simp [hst]), if_pos hwait]
  rfl

section
variable (h : Goes (.syinit f) s c k t) (ha : t.answer = none) (ho : s.ObjectAt c t f 'A' l) (hst : s.storesOf c k = [])
  (hwait : s.homeWaits c k t l = false)
include h ha ho hst hwait

theorem exec_syinit_of_malformed (hbad : (syinitBad (s.getG c t f.d).v (taskDet t.task) ||
      (decide ((s.getG c t (f.d + 1)).v ≠ 0) && thresholdsBad (s.getG c t (f.d + 1)).v)) = true) :
    exec (.syinit f) s = .next (s.wrote c k t f.d ⟨1, false⟩ s.next) := by
  rw [exec_syinit, execSyinit, syncOp_goes h ha ho, if_neg (by simp [hst]), if_neg (by simp [hwait])]
  simp only [hbad, if_true]
  rw [State.setG_finish_shortened h.thread?]
  rfl

theorem exec_syinit_of_busy (hbad : (syinitBad (s.getG c t f.d).v (taskDet t.task) ||
      (decide ((s.getG c t (f.d + 1)).v ≠ 0) && thresholdsBad (s.getG c t (f.d + 1)).v)) = false)
    (hbusy : s.objBusy l = true) : exec (.syinit f) s = .next (s.wrote c k t f.d ⟨2, false⟩ s.next) := by
  rw [exec_syinit, execSyinit, syncOp_goes h ha ho, if_neg (by simp [hst]), if_neg (by simp [hwait])]
  simp only [hbad, hbusy, if_true, Bool.false_eq_true, if_false]
  rw [State.setG_finish_shortened h.thread?]
  rfl

theorem exec_syinit_of_no_group (hbad : (syinitBad (s.getG c t f.d).v (taskDet t.task) ||
      (decide ((s.getG c t (f.d + 1)).v ≠ 0) && thresholdsBad (s.getG c t (f.d + 1)).v)) = false)
    (hbusy : s.objBusy l = false) (hgroup : (decide ((s.getG c t f.d).v.bits 63 60 = 2) &&
      !(SMap.get? (s.tenant t.tenant).groups ((s.getG c t f.d).v.bits 15 0)).isSome) = true) :
    exec (.syinit f) s = .next (s.wrote c k t f.d ⟨3, false⟩ s.next) := by
  rw [exec_syinit, execSyinit, syncOp_goes h ha ho, if_neg (by simp [hst]), if_neg (by simp [hwait])]
  simp only [hbad, hbusy, hgroup, if_true, Bool.false_eq_true, if_false]
  rw [State.setG_finish_shortened h.thread?]
  rfl

theorem exec_syinit_of_ok (hbad : (syinitBad (s.getG c t f.d).v (taskDet t.task) ||
      (decide ((s.getG c t (f.d + 1)).v ≠ 0) && thresholdsBad (s.getG c t (f.d + 1)).v)) = false)
    (hbusy : s.objBusy l = false) (hgroup : (decide ((s.getG c t f.d).v.bits 63 60 = 2) &&
      !(SMap.get? (s.tenant t.tenant).groups ((s.getG c t f.d).v.bits 15 0)).isSome) = false) :
    exec (.syinit f) s = .next (((s.initObj l t (s.getG c t f.d).v (s.getG c t (f.d + 1)).v).setG c t f.d
      ⟨0, false⟩).completed c k (s.initObj l t (s.getG c t f.d).v (s.getG c t (f.d + 1)).v).next s.nextId) := by
  rw [exec_syinit, execSyinit, syncOp_goes h ha ho, if_neg (by simp [hst]), if_neg (by simp [hwait])]
  simp only [hbad, hbusy, hgroup, Bool.false_eq_true, if_false]
  rw [State.finish_completed, State.setG_next]
  rfl

end

end

/-- Settles O23: the checked operand's line is asked, or read, or initialised, whichever of SYINIT's failures comes first. -/
theorem syncRequests : Obligations.SyncRequests := by
  unfold Obligations.SyncRequests
  refine ⟨fun f s c k t l => exec_syacq_asks, fun f s c k t l => exec_sytry_asks, fun f s c k t l => exec_syrel_asks,
    fun f s c k t l => exec_sydlg_asks, fun f s c k t => exec_sydlg_of_odd, fun f s c k t l => exec_syarv_asks,
    fun f s c k t l h hd hsd => syncOp_asks h _ fun hask =>
      timedWait_of_untimed (Instr.form_sywait f) rfl hd hsd hask 9 rfl _, fun f s c k t l => exec_symode_goes, fun f s c k t l h ha ho =>
      ⟨exec_syinit_of_stores h ha ho, exec_syinit_of_home h ha ho, exec_syinit_of_malformed h ha ho,
        exec_syinit_of_busy h ha ho, exec_syinit_of_no_group h ha ho, exec_syinit_of_ok h ha ho⟩⟩

end Sys2Proof.Machine
end

section
/-!
SUPPORT. Answers of sync objects, and SYNCMISUSE (R282, R284 to R286): O24.
-/
namespace Sys2Proof.Machine
open Sys2Proof

/-- An instruction that has settled has issued: the windows from before shorten. -/
theorem State.shortened_of_settled {s : State} {c k : Nat} {t : Thread} (h : s.thread? c k = some t) (hw : t.want = none)
    (pc n : Nat) : s.shortened c k pc n = s.withThread c k { t with ops := shortOps t.ops n } (s.core c).rf := by
  rw [State.shortened, State.modThread_eq h, if_neg (by simp [hw])]
  rfl

/-- A thread put in the place of one put there before. -/
theorem State.withThread_withThread (s : State) (c k : Nat) (t q : Thread) (rf : SMap TWord) :
    (s.withThread c k t rf).withThread c k q ((s.withThread c k t rf).core c).rf = s.withThread c k q rf := by
  simp [State.withThread, State.setCore, State.core, Core.slot]

section
variable {f : Fields} {s : State} {c k : Nat} {t : Thread} {a : Answer}

/-- The home's answer completes the instruction. -/
theorem syncOp_of_answer {i : Instr} (h : Answered i s c k t a) (hcode : a.code < 16) (right : Char)
    (done : Nat → Nat → Thread → Answer → State → State) (body : Nat → Nat → Thread → Nat → State → State) :
    syncOp i f s right done body = .next ((done c k t a s).shortened c k t.pc s.nextId) := by
  rw [syncOp, answered_of_answer h, if_neg (by omega)]

/-- The home refuses. -/
theorem syncOp_of_refusal {i : Instr} (h : Answered i s c k t a) (hcode : 16 ≤ a.code) (right : Char)
    (done : Nat → Nat → Thread → Answer → State → State) (body : Nat → Nat → Thread → Nat → State → State) :
    syncOp i f s right done body =
      .next (s.trapped c k t 0x0D (w64 (s.syncVa c t f)) (w64 (4 * 2 ^ 56 + (a.code - 16)))) := by
  rw [syncOp, answered_of_answer h, if_pos hcode]
  rfl

/-- The object operand is on a page of another class, or of another module. -/
theorem syncOp_of_class {i : Instr} (h : Goes i s c k t) (ha : t.answer = none) {right : Char} {tr : Tr}
    (hmem : memG t f.hi (s.gOff c t f) 128 right = none) (hlook : s.lookup (c / 8) (vaOf t f.hi (s.gOff c t f)) 2 = some tr)
    (hclass : Leaf.cl tr.leaf ≠ 3 ∨ Leaf.h tr.leaf = true) (done : Nat → Nat → Thread → Answer → State → State)
    (body : Nat → Nat → Thread → Nat → State → State) :
    syncOp i f s right done body =
      .next (s.trapped c k t 0x0D (w64 (vaOf t f.hi (s.gOff c t f))) (w64 (4 * 2 ^ 56 + 1))) := by
  rw [syncOp, answered_of_goes h ha, issue_goes h, syncBody_of_class hmem hlook hclass]
  rfl

/-! ### Timed waits -/

theorem timedDone_of_untimed (h : s.thread? c k = some t) (hd : f.d = 0) (hsd : f.sd = false) :
    (timedDone f c k t a s).shortened c k t.pc s.nextId = s.moved c k t s.next := by
  rw [timedDone, if_neg (by simp [Fields.timed, hd, hsd]), State.finish_shortened h]
  rfl

theorem timedDone_of_timed (hd : f.d ≠ 0) :
    (timedDone f c k t a s).shortened c k t.pc s.nextId = s.answers s c k t f ⟨if a.code = 5 then 1 else 0, true⟩ := by
  rw [timedDone, if_pos (by simp [Fields.timed, hd]), State.answers_eq c k t f _ rfl]
  congr 2
  exact apply_ite w64 _ _ _

/-! ### The answers -/

theorem exec_sytry_of_answer (h : Answered (.sytry f) s c k t a) (hcode : a.code < 16) :
    exec (.sytry f) s = .next (s.answers s c k t f ⟨if a.code = 1 then 0 else 1, true⟩) := by
  rw [exec_sytry, execSytry, syncOp_of_answer h hcode, State.answers_eq c k t f _ rfl]
  congr 3
  exact apply_ite w64 _ _ _

/-- SYDLG is told to run its body inline. -/
theorem exec_sydlg_of_run (h : Answered (.sydlg f) s c k t a) (hcode : a.code = 6) :
    exec (.sydlg f) s = .next (s.withThread c k { t.done a.val.v.toNat s.nextId with
      deleg := some ⟨a.ref, s.syncVa c t f, s.next, t.frames.length, t.scopes.length, false, 0⟩ } (s.core c).rf) := by
  rw [exec_sydlg, execSydlg, answered_of_answer h, if_neg (by omega), if_pos hcode]
  rw [State.settle, State.modThread_eq h.thread?, State.withThread_modThread,
    State.shortened_of_settled (State.withThread_thread? ..) rfl, State.withThread_withThread]
  rfl

/-- A delegate has run the body: its value is in g2. -/
theorem exec_sydlg_of_value (h : Answered (.sydlg f) s c k t a) (hcode : a.code < 16) (hrun : a.code ≠ 6) :
    exec (.sydlg f) s = .next (s.wrote c k t 2 a.val s.next) := by
  rw [exec_sydlg, execSydlg, answered_of_answer h, if_neg (by omega), if_neg hrun, State.setG_finish_shortened h.thread?]
  rfl

/-- SYDLG with an operand on a page of another class. -/
theorem exec_sydlg_of_class (h : Goes (.sydlg f) s c k t) (ha : t.answer = none)
    (heven : (s.readVals (.sydlg f) c k t f).1.d.v.toNat % 2 = 0) {tr : Tr}
    (hmem : memG t f.hi (s.gOff c t f) 128 'A' = none) (hlook : s.lookup (c / 8) (vaOf t f.hi (s.gOff c t f)) 2 = some tr)
    (hclass : Leaf.cl tr.leaf ≠ 3 ∨ Leaf.h tr.leaf = true) :
    exec (.sydlg f) s = .next (s.trapped c k t 0x0D (w64 (vaOf t f.hi (s.gOff c t f))) (w64 (4 * 2 ^ 56 + 1))) := by
  rw [exec_sydlg, execSydlg, answered_of_goes h ha, issue_goes h]
  simp only [heven]
  rw [if_neg (by decide), syncBody_of_class hmem hlook hclass]
  rfl

end

/-- Settles O24: what the answer's code says, and the class of the operand's page. -/
theorem syncAnswers : Obligations.SyncAnswers := by
  unfold Obligations.SyncAnswers
  refine ⟨fun f s c k t a h hcode => ?_, fun f s c k t a => exec_sytry_of_answer, fun f s c k t a h hcode => ?_,
    fun f s c k t a h hcode => ?_, fun f s c k t a h hcode => ?_, fun f s c k t a => exec_sydlg_of_run,
    fun f s c k t a => exec_sydlg_of_value, fun f s c k t a h hcode => ?_,
    fun f s c k t tr i hi h ha heven hmem hlook hclass => ?_⟩
  · rw [exec_syacq, execSyacq, syncOp_of_answer h hcode]
    exact ⟨fun hd hsd => congrArg _ (timedDone_of_untimed h.thread? hd hsd), fun hd => congrArg _ (timedDone_of_timed hd)⟩
  · rw [exec_syrel, execSyrel, syncOp_of_answer h hcode, State.finish_shortened h.thread?]
    rfl
  · rw [exec_syarv, execSyarv, syncOp_of_answer h hcode, State.finish_shortened h.thread?]
    rfl
  · rw [exec_sywait, execSywait, syncOp_of_answer h hcode]
    exact ⟨fun hd hsd => congrArg _ (timedDone_of_untimed h.thread? hd hsd), fun hd => congrArg _ (timedDone_of_timed hd)⟩
  · rw [exec_syrel, execSyrel, syncOp_of_refusal h hcode]
  · simp only [List.mem_cons, List.not_mem_nil, or_false] at hi
    rcases hi with rfl | rfl | rfl | rfl | rfl | rfl
    · rw [exec_syacq, execSyacq, syncOp_of_class h ha hmem hlook hclass]
    · rw [exec_sytry, execSytry, syncOp_of_class h ha hmem hlook hclass]
    · rw [exec_syrel, execSyrel, syncOp_of_class h ha hmem hlook hclass]
    · exact exec_sydlg_of_class h ha (heven rfl) hmem hlook hclass
    · rw [exec_syarv, execSyarv, syncOp_of_class h ha hmem hlook hclass]
    · rw [exec_sywait, execSywait, syncOp_of_class h ha hmem hlook hclass]

end Sys2Proof.Machine
end

section
/-!
SUPPORT. The Axis wires (R288 to R291, R293): O25.
-/
namespace Sys2Proof.Machine
open Sys2Proof

/-! ### Episodes that are due -/

/-- A context's episode fails at a cycle: it is held, one of its wires is down, and its timer runs. -/
theorem State.axisEnds_eq_some_iff {s : State} {n b : Nat} : s.axisEnds n = some b ↔ (s.axisCtx n).held = true ∧
    (∃ cl ∈ s.axisRect (s.axisCtx n), s.axisCount n cl < (s.axisCtx n).p) ∧
    ∃ a, (s.axisCtx n).start = some a ∧ b = a + 2 ^ (12 + (s.axisCtx n).tmo) := by
  unfold State.axisEnds
  dsimp only
  split
  · next h =>
    simp only [Bool.or_eq_true, Bool.not_eq_true', List.all_eq_true, decide_eq_true_eq] at h
    refine iff_of_false (by simp) ?_
    rintro ⟨hheld, ⟨cl, hcl, hlt⟩, -⟩
    rcases h with h | h
    · simp [hheld] at h
    · exact absurd (h cl hcl) (by omega)
  · next h =>
    simp only [Bool.or_eq_true, Bool.not_eq_true', List.all_eq_true, decide_eq_true_eq, not_or, Bool.not_eq_false, not_forall,
      Nat.not_le] at h
    obtain ⟨hheld, cl, hcl, hlt⟩ := h
    simp only [hheld, Option.map_eq_some_iff, eq_comm (b := b), true_and]
    exact ⟨fun h => ⟨⟨cl, hcl, hlt⟩, h⟩, fun h => h.2⟩

theorem State.axisFail_of_later {s : State} {n : Nat} (h : ∀ b, s.axisEnds n = some b → s.now < b) (fuel : Nat) :
    s.axisFail fuel n = s := by
  cases fuel with
  | zero => rfl
  | succ m =>
    rw [State.axisFail]
    rcases he : s.axisEnds n with _ | b
    · rfl
    · exact if_neg (Nat.not_le.2 (h b he))

theorem State.axisDue_of_later {s : State} {n : Nat} (h : ∀ b, s.axisEnds n = some b → s.now < b) : s.axisDue n = s :=
  State.axisFail_of_later h _

/-! ### The clock stands still within an instruction -/

@[simp] theorem State.modThread_now (s : State) (c k : Nat) (g : Thread → Thread) : (s.modThread c k g).now = s.now := by
  unfold State.modThread
  split <;> rfl

theorem State.axisAnswer_now (s : State) (n ep code : Nat) : (s.axisAnswer n ep code).now = s.now :=
  State.foldl_keeps State.now (fun _ _ => State.foldl_keeps State.now (fun _ _ => State.modThread_now ..) _ _) _ _

theorem State.axisWire_now (s : State) (n b : Nat) : (s.axisWire n b).now = s.now := by
  unfold State.axisWire
  dsimp only
  split
  · rfl
  · split <;> split <;> rfl

theorem State.axisNext_now (s : State) (n b : Nat) (m : Option (List Word)) : (s.axisNext n b m).now = s.now := by
  unfold State.axisNext
  rw [State.axisWire_now, State.axisAnswer_now]
  exact State.foldl_keeps State.now (g := fun u cl => u.setAxisCount n cl (u.axisCount n cl - (s.axisCtx n).p))
    (fun _ _ => rfl) _ s

theorem State.axisFail_now (s : State) (fuel n : Nat) : (s.axisFail fuel n).now = s.now := by
  induction fuel generalizing s with
  | zero => rfl
  | succ m ih =>
    rw [State.axisFail]
    split
    · split
      · rw [ih, State.axisNext_now]
      · rfl
    · rfl

theorem State.axisDue_now (s : State) (n : Nat) : (s.axisDue n).now = s.now := State.axisFail_now s _ n

/-! ### HBARV -/

section
variable {f : Fields} {s : State} {c k : Nat} {t : Thread}

/-- The state after an arrival of the thread's cluster has been counted at context `n`. -/
def State.arrived (u : State) (c k n : Nat) : State :=
  (u.setAxisCount n (c / 8) (u.axisCount n (c / 8) + 1)).modThread c k (fun t =>
    { t with axis := setNth t.axis n (some ((u.axisCtx n).ep + (u.axisCount n (c / 8) + 1 - 1) / max 1 (u.axisCtx n).p)) })

theorem State.arrived_now (u : State) (c k n : Nat) : (u.arrived c k n).now = u.now := State.modThread_now ..

/-- HBARV counts an arrival, and raises the wire with the last that the episode needs. -/
theorem exec_hbarv_of_valid (h : Goes (.hbarv f) s c k t) (hv : s.axisValid f.imm.toNat t.tenant (c / 8) = true) {u : State}
    (hu : u = s.axisDue f.imm.toNat) :
    exec (.hbarv f) s = .next (
      if u.axisCount f.imm.toNat (c / 8) + 1 = (u.axisCtx f.imm.toNat).p then
        ((u.arrived c k f.imm.toNat).axisWire f.imm.toNat s.now).completed c k
          ((u.arrived c k f.imm.toNat).axisWire f.imm.toNat s.now).next s.nextId
      else (u.arrived c k f.imm.toNat).completed c k (u.arrived c k f.imm.toNat).next s.nextId) := by
  rw [exec_hbarv, execHbarv, issue_goes h]
  simp only [hv, ← hu]
  rw [if_neg (by decide), State.finish_completed]
  have hnow : (u.arrived c k f.imm.toNat).now = s.now := by rw [State.arrived_now, hu, State.axisDue_now]
  rw [← hnow]
  split <;> rfl

theorem exec_hbarv_of_invalid (h : Goes (.hbarv f) s c k t) (hv : s.axisValid f.imm.toNat t.tenant (c / 8) = false) :
    exec (.hbarv f) s = .next (s.trapped c k t 0x0D 0 (w64 (4 * 2 ^ 56 + 7))) := by
  rw [exec_hbarv, execHbarv, issue_goes h]
  simp only [hv]
  rfl

theorem State.axisCount_setAxisCount_same {s : State} {n cl : Nat} (h : n < (s.cluster cl).axis.length) (v : Nat) :
    (s.setAxisCount n cl v).axisCount n cl = v := by
  rw [State.axisCount, State.setAxisCount, State.modCluster_eq, State.cluster_setCluster_same]
  exact nthD_setNth_same _ _ _ _ h

@[simp] theorem State.axisCount_modThread (s : State) (c k : Nat) (g : Thread → Thread) (n cl : Nat) :
    (s.modThread c k g).axisCount n cl = s.axisCount n cl := by
  unfold State.modThread
  split <;> rfl

/-- What an arrival that does not complete its episode leaves. -/
theorem arrived_completed (h : s.thread? c k = some t) (n m : Nat) :
    (∃ t', ((s.arrived c k n).completed c k (s.arrived c k n).next m).thread? c k = some t' ∧ t'.pc = s.next ∧
      t'.axis = setNth t.axis n (some ((s.axisCtx n).ep + s.axisCount n (c / 8) / max 1 (s.axisCtx n).p))) ∧
    (n < (s.cluster (c / 8)).axis.length → ((s.arrived c k n).completed c k (s.arrived c k n).next m).axisCount n (c / 8) =
      s.axisCount n (c / 8) + 1) ∧ ((s.arrived c k n).completed c k (s.arrived c k n).next m).mem = s.mem := by
  have hset : (s.setAxisCount n (c / 8) (s.axisCount n (c / 8) + 1)).thread? c k = some t := h
  refine ⟨?_, fun hn => ?_, ?_⟩
  · rw [State.completed, State.arrived, State.modThread_eq hset, State.withThread_modThread, State.withThread_thread?]
    exact ⟨_, rfl, rfl, by simp [Thread.done]⟩
  · rw [State.completed, State.arrived, State.axisCount_modThread, State.axisCount_modThread,
      State.axisCount_setAxisCount_same hn]
  · rw [State.completed, State.arrived, State.modThread_mem, State.modThread_mem]
    rfl

/-! ### HBWAIT -/

theorem exec_hbwait_of_invalid (h : Goes (.hbwait f) s c k t) (ha : t.answer = none)
    (hv : s.axisValid f.imm.toNat t.tenant (c / 8) = false) :
    exec (.hbwait f) s = .next (s.answers s c k t f ⟨2, true⟩) := by
  rw [exec_hbwait, execHbwait, answered_of_goes h ha]
  exact issue_answers h (if_pos (by simp [hv])) rfl

/-- HBWAIT waits for an episode that has not ended. -/
theorem exec_hbwait_of_later (h : Goes (.hbwait f) s c k t) (ha : t.answer = none)
    (hv : s.axisValid f.imm.toNat t.tenant (c / 8) = true) {u : State} (hu : u = s.axisDue f.imm.toNat) {ep : Nat}
    (hep : ep = (nthD t.axis f.imm.toNat none).getD (u.axisCtx f.imm.toNat).ep) (hle : (u.axisCtx f.imm.toNat).ep ≤ ep) :
    exec (.hbwait f) s = .next (u.waits s c k t (.axis f.imm.toNat ep)) := by
  rw [exec_hbwait, execHbwait, answered_of_goes h ha]
  refine issue_waits h ?_
  simp only [hv, ← hu, ← hep]
  rw [if_neg (by decide), if_neg (by omega)]

/-- HBWAIT learns how an episode ended. -/
theorem exec_hbwait_of_ended (h : Goes (.hbwait f) s c k t) (ha : t.answer = none)
    (hv : s.axisValid f.imm.toNat t.tenant (c / 8) = true) {u w : State} (hu : u = s.axisDue f.imm.toNat) {ep : Nat}
    (hep : ep = (nthD t.axis f.imm.toNat none).getD (u.axisCtx f.imm.toNat).ep) (hlt : ep < (u.axisCtx f.imm.toNat).ep)
    (hw : w = (u.modThread c k (fun t =>
      { t with hbmiss := SMap.get (u.axisCtx f.imm.toNat).ended ep (List.replicate 4 0) })).writeReg c k t f.d f.sd
        (if (SMap.get? (u.axisCtx f.imm.toNat).ended ep).isSome then ⟨1, true⟩ else ⟨0, false⟩)) :
    exec (.hbwait f) s = .next (w.completed c k w.next s.nextId) := by
  rw [exec_hbwait, execHbwait, answered_of_goes h ha, issue_goes h]
  simp only [hv, ← hu, ← hep]
  rw [if_neg (by decide), if_pos hlt, State.finish_completed, hw]
  rcases hend : SMap.get? (u.axisCtx f.imm.toNat).ended ep with _ | m
  · rw [SMap.get_eq_getD, hend]
    rfl
  · rfl

/-- The answer that the episode is complete. -/
theorem exec_hbwait_of_complete {a : Answer} (h : Answered (.hbwait f) s c k t a) (hcode : a.code ≠ 1) :
    exec (.hbwait f) s = .next ((s.modThread c k (fun t => { t with hbmiss := List.replicate 4 0 })).answers s c k t f
      ⟨0, false⟩) := by
  rw [exec_hbwait, execHbwait, answered_of_answer h]
  simp only [hcode, decide_false]
  rw [State.answers_eq c k t f _ (State.modThread_next ..)]
  rfl

/-- The answer that the episode failed. -/
theorem exec_hbwait_of_failed {a : Answer} (h : Answered (.hbwait f) s c k t a) (hcode : a.code = 1) :
    exec (.hbwait f) s = .next ((s.modThread c k (fun t =>
      { t with hbmiss := SMap.get (s.axisCtx f.imm.toNat).ended a.ref (List.replicate 4 0) })).answers s c k t f
      ⟨1, true⟩) := by
  rw [exec_hbwait, execHbwait, answered_of_answer h]
  simp only [hcode, decide_true]
  rw [State.answers_eq c k t f _ (State.modThread_next ..)]
  rfl

/-! ### HBCFG -/

/-- The state after HBCFG has written a status over `u`. -/
def State.hbcfgEnds (u s : State) (c k : Nat) (t : Thread) (f : Fields) (n : Word) : State :=
  (u.setG c t f.d ⟨n, false⟩).completed c k u.next s.nextId

/-- The context as HBCFG takes it with the word `w`. -/
def Axis.taken (a : Axis) (t : Thread) (w : Word) : Axis :=
  { a with held := true, tenant := t.tenant, y0 := w.bits 63 60, x0 := w.bits 59 56, y1 := w.bits 55 52,
           x1 := w.bits 51 48, tmo := w.bits 43 40, p := w.bits 39 31, start := none }

/-- A context that is not held, or by the thread's tenant with no arrival counted. -/
theorem Axis.not_foreign {u : State} {a : Axis} {n : Nat} (hfree : a.held = true → a.tenant = t.tenant ∧
    (u.axisRect a).any (fun cl => u.axisCount n cl ≠ 0) = false) : ¬ (a.held && decide (a.tenant ≠ t.tenant)) = true := by
  rw [Bool.and_eq_true, decide_eq_true_eq]
  exact fun h => h.2 (hfree h.1).1

theorem Axis.not_busy {u : State} {a : Axis} {n : Nat} (hfree : a.held = true → a.tenant = t.tenant ∧
    (u.axisRect a).any (fun cl => u.axisCount n cl ≠ 0) = false) :
    ¬ (a.held && (u.axisRect a).any (fun cl => u.axisCount n cl ≠ 0)) = true := by
  rw [Bool.and_eq_true]
  exact fun h => Bool.false_ne_true ((hfree h.1).2.symm.trans h.2)

theorem State.readVals_hbcfg (hf : plainFields f) (s : State) (c k : Nat) (t : Thread) :
    ∃ v, s.readVals (.hbcfg f) c k t f = (v, s) ∧ v.d = s.getG c t f.d :=
  ⟨_, State.readVals_plain (fo := ⟨.K, .no, .none, .rw, .none, .none, .short⟩) rfl hf s c k t, rfl⟩

theorem State.hbcfgEnds_eq (u s : State) (c k : Nat) (t : Thread) {f : Fields} (hf : plainFields f) (n : Nat) :
    ((u.writeReg c k t f.d f.sd ⟨w64 n, false⟩).finish c k).shortened c k t.pc s.nextId = u.hbcfgEnds s c k t f (w64 n) := by
  rw [State.finish_completed, State.writeReg_next, hf.1]
  rfl

section
variable (hf : plainFields f) (h : Goes (.hbcfg f) s c k t) {w : Word} (hw : w = (s.getG c t f.d).v) {u : State}
  (hu : u = s.axisDue f.imm.toNat)
include hf h hw hu

theorem exec_hbcfg_of_bad (hbad : hbcfgBad w = true) : exec (.hbcfg f) s = .next (u.hbcfgEnds s c k t f 1) := by
  obtain ⟨v, hr, hd⟩ := State.readVals_hbcfg hf s c k t
  rw [exec_hbcfg, execHbcfg, issue_goes h]
  simp only [hr, hd, ← hw, ← hu]
  rw [if_pos hbad, State.hbcfgEnds_eq u s c k t hf]
  rfl

section
variable {a : Axis} (ha : a = u.axisCtx f.imm.toNat)
include ha

theorem exec_hbcfg_of_foreign (hbad : hbcfgBad w = false) (hheld : a.held = true) (hten : a.tenant ≠ t.tenant) :
    exec (.hbcfg f) s = .next (u.hbcfgEnds s c k t f 2) := by
  obtain ⟨v, hr, hd⟩ := State.readVals_hbcfg hf s c k t
  rw [exec_hbcfg, execHbcfg, issue_goes h]
  simp only [hr, hd, ← hw, ← hu, ← ha]
  rw [if_neg (by simp [hbad]), if_pos (by simp [hheld, hten]), State.hbcfgEnds_eq u s c k t hf]
  rfl

theorem exec_hbcfg_of_busy (hbad : hbcfgBad w = false) (hheld : a.held = true) (hten : a.tenant = t.tenant)
    (hbusy : (u.axisRect a).any (fun cl => u.axisCount f.imm.toNat cl ≠ 0) = true) :
    exec (.hbcfg f) s = .next (u.hbcfgEnds s c k t f 3) := by
  obtain ⟨v, hr, hd⟩ := State.readVals_hbcfg hf s c k t
  rw [exec_hbcfg, execHbcfg, issue_goes h]
  simp only [hr, hd, ← hw, ← hu, ← ha]
  rw [if_neg (by simp [hbad]), if_neg (by simp [hten]), if_pos (by rw [hheld, hbusy]; rfl), State.hbcfgEnds_eq u s c k t hf]
  rfl

section
variable (hfree : a.held = true → a.tenant = t.tenant ∧
  (u.axisRect a).any (fun cl => u.axisCount f.imm.toNat cl ≠ 0) = false)
include hfree

/-- HBCFG gives the context back. -/
theorem exec_hbcfg_of_release (h0 : w = 0) : exec (.hbcfg f) s =
    .next ((u.setAxis f.imm.toNat { Axis.reset with ep := a.ep, ended := a.ended }).hbcfgEnds s c k t f 0) := by
  obtain ⟨v, hr, hd⟩ := State.readVals_hbcfg hf s c k t
  rw [exec_hbcfg, execHbcfg, issue_goes h]
  simp only [hr, hd, ← hw, ← hu, ← ha]
  rw [if_neg (by rw [h0]; decide), if_neg (Axis.not_foreign hfree), if_neg (Axis.not_busy hfree), if_pos h0,
    State.hbcfgEnds_eq _ s c k t hf]
  rfl

/-- HBCFG of a rectangle that is not whole. -/
theorem exec_hbcfg_of_partial (hbad : hbcfgBad w = false) (h0 : w ≠ 0) (hrect : (u.axisRect (a.taken t w)).length ≠
      ((a.taken t w).y1 - (a.taken t w).y0 + 1) * ((a.taken t w).x1 - (a.taken t w).x0 + 1)) :
    exec (.hbcfg f) s = .next (u.hbcfgEnds s c k t f 4) := by
  obtain ⟨v, hr, hd⟩ := State.readVals_hbcfg hf s c k t
  rw [exec_hbcfg, execHbcfg, issue_goes h]
  simp only [hr, hd, ← hw, ← hu, ← ha]
  rw [if_neg (by simp [hbad]), if_neg (Axis.not_foreign hfree), if_neg (Axis.not_busy hfree), if_neg h0]
  exact congrArg Host.Outcome.next ((congrArg (fun u : State => u.shortened c k t.pc s.nextId) (if_pos hrect)).trans
    (State.hbcfgEnds_eq u s c k t hf 4))

/-- HBCFG takes the context. -/
theorem exec_hbcfg_of_whole (hbad : hbcfgBad w = false) (h0 : w ≠ 0) (hrect : (u.axisRect (a.taken t w)).length =
      ((a.taken t w).y1 - (a.taken t w).y0 + 1) * ((a.taken t w).x1 - (a.taken t w).x0 + 1)) :
    exec (.hbcfg f) s = .next ((u.setAxis f.imm.toNat (a.taken t w)).hbcfgEnds s c k t f 0) := by
  obtain ⟨v, hr, hd⟩ := State.readVals_hbcfg hf s c k t
  rw [exec_hbcfg, execHbcfg, issue_goes h]
  simp only [hr, hd, ← hw, ← hu, ← ha]
  rw [if_neg (by simp [hbad]), if_neg (Axis.not_foreign hfree), if_neg (Axis.not_busy hfree), if_neg h0]
  exact congrArg Host.Outcome.next ((congrArg (fun u : State => u.shortened c k t.pc s.nextId) (if_neg (not_not.2 hrect))).trans
    (State.hbcfgEnds_eq _ s c k t hf 0))

end

end

end

end

/-- Settles O25: the context that the instruction finds once what is due has failed, and what becomes of it. -/
theorem axisWires : Obligations.AxisWires := by
  unfold Obligations.AxisWires
  refine ⟨fun s n h => State.axisDue_of_later h, fun s n b => State.axisEnds_eq_some_iff,
    fun f s c k t h hv => exec_hbarv_of_valid h hv rfl, fun f s c k t h hv hlater hne => ?_,
    fun f s c k t => exec_hbarv_of_invalid, fun f s c k t => exec_hbwait_of_invalid,
    fun f s c k t h ha hv => ⟨exec_hbwait_of_later h ha hv rfl rfl, fun hlt => exec_hbwait_of_ended h ha hv rfl rfl hlt rfl⟩,
    fun f s c k t a => exec_hbwait_of_complete, fun f s c k t a => exec_hbwait_of_failed,
    fun f s c k t hf h => ⟨exec_hbcfg_of_bad hf h rfl rfl, exec_hbcfg_of_foreign hf h rfl rfl rfl,
      exec_hbcfg_of_busy hf h rfl rfl rfl, fun hbad hheld h0 hrect => ?_, fun hbad hfree h0 hrect => ?_,
      fun hfree h0 => ?_⟩⟩
  · have hdue := (State.axisDue_of_later hlater).symm
    exact ⟨_, (exec_hbarv_of_valid h hv hdue).trans (congrArg _ (if_neg hne)), arrived_completed h.thread? _ _⟩
  · exact exec_hbcfg_of_partial hf h rfl rfl rfl (by simp [hheld]) hbad h0 hrect
  · exact exec_hbcfg_of_whole hf h rfl rfl rfl hfree hbad h0 hrect
  · exact exec_hbcfg_of_release hf h rfl rfl rfl hfree h0

end Sys2Proof.Machine
end

section
/-!
SUPPORT. Bit planes, block conversions and the format context (R186 to R189): O26.
-/
namespace Sys2Proof.Machine
open Sys2Proof

/-! ### Words put together from bits -/

/-- The bits that a fold adds up, one for each place. -/
theorem bitFold_spec (g : Nat → Nat) (hg : ∀ i, g i < 2) (n : Nat) :
    (List.range n).foldl (fun x i => x + g i * 2 ^ i) 0 < 2 ^ n ∧
      ∀ i, i < n → ((List.range n).foldl (fun x i => x + g i * 2 ^ i) 0).testBit i = (g i).testBit 0 := by
  induction n with
  | zero => exact ⟨by simp, fun i hi => absurd hi (Nat.not_lt_zero i)⟩
  | succ n ih =>
    obtain ⟨hlt, hbit⟩ := ih
    rw [List.range_succ, List.foldl_append, List.foldl_cons, List.foldl_nil]
    generalize (List.range n).foldl (fun x i => x + g i * 2 ^ i) 0 = x at hlt hbit ⊢
    have hgn := hg n
    refine ⟨by rw [Nat.pow_succ]; nlinarith [Nat.two_pow_pos n], fun i hi => ?_⟩
    rw [Nat.add_comm, Nat.mul_comm, Nat.testBit_two_pow_mul_add _ hlt]
    split
    · next h => exact hbit i h
    · next h => rw [show i = n by omega, Nat.sub_self]

theorem testBit_mod_two (x i : Nat) : (x / 2 ^ i % 2).testBit 0 = x.testBit i := by
  rw [Nat.testBit_zero, Nat.testBit_eq_decide_div_mod_eq, Nat.mod_mod]

/-- The same as a word of 64 bits. -/
theorem testBit_bitFold (g : Nat → Nat) (hg : ∀ i, g i < 2) {i : Nat} (hi : i < 64) :
    (w64 ((List.range 64).foldl (fun x i => x + g i * 2 ^ i) 0)).toNat.testBit i = (g i).testBit 0 := by
  obtain ⟨hlt, hbit⟩ := bitFold_spec g hg 64
  rw [w64_toNat, Nat.mod_eq_of_lt hlt, hbit i hi]

theorem mod_two_lt (x : Nat) : x % 2 < 2 := Nat.mod_lt _ (by decide)

/-- Bit i of plane j is bit j of lane i. -/
theorem testBit_planesOfLanes (vs : List TWord) (j : Nat) {i : Nat} (hi : i < 64) :
    (w64 (planesOfLanes vs j)).toNat.testBit i = (groupLane 8 vs i).testBit j :=
  (testBit_bitFold (fun i => groupLane 8 vs i / 2 ^ j % 2) (fun _ => mod_two_lt _) hi).trans (testBit_mod_two _ _)

/-- Bit b of word k of the lanes is bit 8k + b/8 of plane b mod 8. -/
theorem testBit_lanesOfPlanes (vs : List TWord) (k : Nat) {b : Nat} (hb : b < 64) :
    (w64 (lanesOfPlanes vs k)).toNat.testBit b = (nthD vs (b % 8) TWord.zero).v.toNat.testBit (8 * k + b / 8) :=
  (testBit_bitFold (fun b => (nthD vs (b % 8) TWord.zero).v.toNat / 2 ^ (8 * k + b / 8) % 2) (fun _ => mod_two_lt _) hb).trans
    (testBit_mod_two _ _)

/-- Bit j of lane i of a group of bytes. -/
theorem testBit_groupLane (ws : List TWord) (i : Nat) {j : Nat} (hj : j < 8) :
    (groupLane 8 ws i).testBit j = (nthD ws (i / 8) TWord.zero).v.toNat.testBit (8 * (i % 8) + j) := by
  rw [groupLane, laneOf, Nat.testBit_mod_two_pow, Nat.testBit_div_two_pow]
  simp [hj, Nat.add_comm]

/-! ### PLXP and PLDOT -/

/-- What PLXP writes to its group. -/
def plxpWords (f : Fields) (vs : List TWord) : List TWord :=
  (List.range 8).map (fun j => ⟨w64 ((if f.lo % 2 = 1 then lanesOfPlanes vs else planesOfLanes vs) j), vs.any (fun w => w.t)⟩)

theorem nthD_plxpWords (f : Fields) (vs : List TWord) {j : Nat} (hj : j < 8) :
    nthD (plxpWords f vs) j TWord.zero =
      ⟨w64 ((if f.lo % 2 = 1 then lanesOfPlanes vs else planesOfLanes vs) j), vs.any (fun w => w.t)⟩ :=
  nthD_map_range 8 _ hj _

section
variable {f : Fields} {s : State} {c k : Nat} {t : Thread}

theorem exec_plxp_goes (h : Goes (.plxp f) s c k t) :
    exec (.plxp f) s = .next ((s.setGs c t f.d (plxpWords f (s.getGs c t f.a 8))).completed c k s.next s.nextId) := by
  rw [exec_plxp, execPlxp]
  exact issue_completed h rfl (State.setGs_next ..)

/-- The planes of lanes. -/
theorem plxpWords_planes (vs : List TWord) (hinv : f.lo % 2 = 0) {i j : Nat} (hi : i < 64) (hj : j < 8) :
    (nthD (plxpWords f vs) j TWord.zero).v.toNat.testBit i = (groupLane 8 vs i).testBit j := by
  rw [nthD_plxpWords f vs hj, if_neg (by omega)]
  exact testBit_planesOfLanes vs j hi

/-- The lanes of planes. -/
theorem plxpWords_lanes (vs : List TWord) (hinv : f.lo % 2 = 1) {i j : Nat} (hi : i < 64) (hj : j < 8) :
    (groupLane 8 (plxpWords f vs) i).testBit j = (nthD vs j TWord.zero).v.toNat.testBit i := by
  rw [testBit_groupLane _ _ hj, nthD_plxpWords f vs (by omega), if_pos hinv]
  refine (testBit_lanesOfPlanes vs (i / 8) (by omega)).trans ?_
  rw [show (8 * (i % 8) + j) % 8 = j by omega, show 8 * (i / 8) + (8 * (i % 8) + j) / 8 = i by omega]

/-- The number of ones among the low bits. -/
theorem ones_eq_length (n x : Nat) : ones n x = ((List.range n).filter (fun i => x.testBit i)).length := by
  induction n with
  | zero => rfl
  | succ n ih =>
    rw [ones, List.range_succ, List.foldl_append, List.foldl_cons, List.foldl_nil, ← ones, ih, List.filter_append,
      List.length_append]
    rcases hb : x.testBit n with _ | _
    · have : x / 2 ^ n % 2 = 0 := by simpa [Nat.testBit_eq_decide_div_mod_eq] using hb
      simp [this, hb]
    · have : x / 2 ^ n % 2 = 1 := by simpa [Nat.testBit_eq_decide_div_mod_eq] using hb
      simp [this, hb]

theorem exec_pldot_goes (hf : plainFields f) (h3 : f.three = true) (h : Goes (.pldot f) s c k t) :
    exec (.pldot f) s = .next (s.wrote c k t f.d
      ⟨(s.getG c t f.d).v + w64 (((List.range 64).filter (fun i =>
          ((s.getG c t f.a).v &&& (s.getG c t f.b).v).toNat.testBit i)).length * 2 ^ f.fx),
        (s.getG c t f.d).t || (s.getG c t f.a).t || (s.getG c t f.b).t⟩ s.next) := by
  have hr : s.readVals (.pldot f) c k t f = (⟨s.getG c t f.d, s.getG c t f.a, s.getG c t f.b⟩, s) := by
    rw [State.readVals_plain (fo := ⟨.A, .req, .none, .rw, .rd, .rd, .none⟩) rfl hf, if_pos h3]
    rfl
  rw [exec_pldot, execPldot, compute_plain h hf _ hr, ones_eq_length]

/-! ### BPACK and BUNPK -/

/-- Both extents lie in windows that are open: the conversion begins. -/
theorem packOp_goes {i : Instr} (h : Goes i s c k t) {src dst : Nat} {ls ld : List (Nat × Nat)}
    (hs : blocksAt (s.memLAt t) (t.ptr f.a).v src = .ok ls) (hd : blocksAt (s.memLAt t) (t.ptr f.d).v dst = .ok ld)
    (hopen : ∀ p ∈ ls ++ ld, (s.core p.1).shut = false) :
    packOp i f s src dst = .next (s.started c k t { Op.new i t .bpack .loc f.la with
      off := ptrOff (t.ptr f.a).v, acc := (ls ++ ld).map (fun p => { Access.at p.2 64 TWord.zero with core := p.1 }),
      ataint := (t.ptr f.a).t || (t.ptr f.d).t, data := [t.ptr f.d, t.ptr f.a] } .l2Request) := by
  have hnone : (ls ++ ld).find? (fun p => (s.core p.1).shut) = none :=
    List.find?_eq_none.2 fun p hp => by rw [hopen p hp]; decide
  rw [packOp, issue_goes h]
  simp only [hs, hd, hnone]
  exact congrArg Host.Outcome.next (State.startOp_started h.thread? (by simp [Op.new]))

/-! ### MFMT -/

theorem State.readVals_mfmt (hf : plainFields f) (s : State) (c k : Nat) (t : Thread) :
    ∃ v, s.readVals (.mfmt f) c k t f = (v, s) ∧ v.d = s.getG c t f.d :=
  ⟨_, State.readVals_plain (fo := ⟨.A, .no, .none, .rw, .none, .none, .none⟩) rfl hf s c k t, rfl⟩

theorem exec_mfmt_of_ok (hf : plainFields f) (h : Goes (.mfmt f) s c k t) (hok : fmtOk (s.getG c t f.d).v = true) :
    exec (.mfmt f) s = .next ((s.modCore c (fun x => { x with fmt := (s.getG c t f.d).v })).answers s c k t f
      ⟨(s.core c).fmt, false⟩) := by
  obtain ⟨v, hr, hd⟩ := State.readVals_mfmt hf s c k t
  rw [exec_mfmt, execMfmt]
  refine issue_answers h ?_ rfl
  simp only [hr, hd]
  rw [if_pos hok]

theorem exec_mfmt_of_bad (hf : plainFields f) (h : Goes (.mfmt f) s c k t) (hok : fmtOk (s.getG c t f.d).v = false) :
    exec (.mfmt f) s = .next (s.wrote c k t f.d ⟨allOnes, false⟩ s.next) := by
  obtain ⟨v, hr, hd⟩ := State.readVals_mfmt hf s c k t
  rw [exec_mfmt, execMfmt, issue_goes h]
  simp only [hr, hd]
  rw [if_neg (by simp [hok]), hf.1, State.writeReg_plain, State.setG_finish_shortened h.thread?]
  rfl

end

/-- Settles O26: the bits of planes and lanes, the ones of a product, the extents of a conversion, the format context. -/
theorem planesAndBlocks : Obligations.PlanesAndBlocks := by
  unfold Obligations.PlanesAndBlocks
  refine ⟨fun f s c k t h => ⟨_, exec_plxp_goes h, ?_, ?_, fun hinv i j => plxpWords_planes _ hinv,
      fun hinv i j => plxpWords_lanes _ hinv⟩, fun f s c k t => exec_pldot_goes, fun f s c k t ls ld h hs hd hopen => ?_,
    fun f s c k t ls ld h hs hd hopen => ?_, fun f s c k t hf h => ⟨exec_mfmt_of_ok hf h, exec_mfmt_of_bad hf h⟩⟩
  · simp [plxpWords]
  · intro w hw
    obtain ⟨j, -, rfl⟩ := List.mem_map.1 hw
    rfl
  · rw [exec_bpack, execBpack, packOp_goes h hs hd hopen]
  · rw [exec_bunpk, execBunpk, packOp_goes h hs hd hopen]

end Sys2Proof.Machine
end

section
/-!
SUPPORT. The instructions of the Lattice unit (R24, R181, R185, R190 to R193): O27.
-/
namespace Sys2Proof.Machine
open Sys2Proof

/-! ### What the acceptance of a command depends on -/

/-- The tenants, the memory words at the point of coherence, and which cores serve which windows. -/
def State.SameExtents (s u : State) : Prop :=
  u.tenants = s.tenants ∧ u.curWord = s.curWord ∧
    ∀ c, (u.core c).fenced = (s.core c).fenced ∧ (u.core c).pubWin = (s.core c).pubWin

theorem State.SameExtents.trans {s u w : State} (h : s.SameExtents u) (h' : u.SameExtents w) : s.SameExtents w := by
  obtain ⟨hten, hcur, hcore⟩ := h
  obtain ⟨hten', hcur', hcore'⟩ := h'
  exact ⟨hten'.trans hten, hcur'.trans hcur, fun c => ⟨(hcore' c).1.trans (hcore c).1, (hcore' c).2.trans (hcore c).2⟩⟩

theorem State.sameExtents_setCore (s : State) (c : Nat) (x : Core) (hf : x.fenced = (s.core c).fenced)
    (hw : x.pubWin = (s.core c).pubWin) : s.SameExtents (s.setCore c x) := by
  refine ⟨rfl, rfl, fun d => ?_⟩
  rw [State.core_setCore]
  split
  · next h => exact h ▸ ⟨hf, hw⟩
  · exact ⟨rfl, rfl⟩

theorem State.sameExtents_modThread (s : State) (c k : Nat) (g : Thread → Thread) : s.SameExtents (s.modThread c k g) := by
  rcases h : s.thread? c k with _ | t
  · rw [State.modThread_none h]
    exact ⟨rfl, rfl, fun _ => ⟨rfl, rfl⟩⟩
  · rw [State.modThread_eq h]
    exact State.sameExtents_setCore s c _ rfl rfl

section
variable {s u : State} (h : s.SameExtents u)
include h

theorem State.SameExtents.tenant (tn : Nat) : u.tenant tn = s.tenant tn := by
  rw [State.tenant, State.tenant, h.1]

theorem State.SameExtents.coreAt (tn y x c : Nat) : u.coreAt tn y x c = s.coreAt tn y x c := by
  rw [State.coreAt, State.coreAt, h.tenant]
  simp only [(h.2.2 _).1]

theorem State.SameExtents.memL (tn : Nat) : u.memL tn = s.memL tn := by
  funext p n
  rw [State.memL, State.memL, h.coreAt]
  simp only [(h.2.2 _).2]

theorem State.SameExtents.walkFrom (t : Tenant) (va acc fuel l table : Nat) :
    Machine.walkFrom u t va acc fuel l table = Machine.walkFrom s t va acc fuel l table := by
  induction fuel generalizing l table with
  | zero => rfl
  | succ n ih =>
    unfold Machine.walkFrom
    simp only [h.2.1, ih]

theorem State.SameExtents.walk (tn va acc : Nat) : u.walk tn va acc = s.walk tn va acc := by
  unfold State.walk
  simp only [h.tenant, h.walkFrom]

theorem State.SameExtents.localCode (tn : Nat) (p : Word) (n : Nat) : u.localCode tn p n = s.localCode tn p n := by
  rw [State.localCode, State.localCode, h.memL]

theorem State.SameExtents.radiusCodes (tn : Nat) (g : Seg) (off n : Nat) :
    u.radiusCodes tn g off n = s.radiusCodes tn g off n := by
  unfold State.radiusCodes State.pastRows
  simp only [h.tenant, h.walk]

theorem State.SameExtents.mmaCodes (tn : Nat) (m : LCmd) : u.mmaCodes tn m = s.mmaCodes tn m := by
  unfold State.mmaCodes
  simp only [h.localCode, h.radiusCodes]

theorem State.SameExtents.mstoreCodes (tn : Nat) (m : LCmd) : u.mstoreCodes tn m = s.mstoreCodes tn m := by
  unfold State.mstoreCodes State.cmdRegion
  simp only [h.localCode, h.tenant]

theorem State.SameExtents.acceptCodes (m : LCmd) : u.acceptCodes m = s.acceptCodes m := by
  unfold State.acceptCodes
  simp only [h.mmaCodes, h.mstoreCodes]

end

/-! ### The queue takes a command -/

/-- The core as it has taken command `m`. -/
def Core.withCmd (x : Core) (m : LCmd) : Core :=
  let y : Core := { x with lq := x.lq ++ [m], lqWait := x.lqWait.filter (fun z => z.id ≠ m.id) }
  if m.kind = 3 then y.setTile m.tile { y.tile m.tile with owner := none, rel := some m.id } else y

theorem Core.withCmd_lq (x : Core) (m : LCmd) : (x.withCmd m).lq = x.lq ++ [m] := by
  unfold Core.withCmd
  dsimp only
  split <;> rfl

theorem Core.withCmd_lqWait (x : Core) (m : LCmd) : (x.withCmd m).lqWait = x.lqWait.filter (fun z => z.id ≠ m.id) := by
  unfold Core.withCmd
  dsimp only
  split <;> rfl

theorem Core.withCmd_slots (x : Core) (m : LCmd) : (x.withCmd m).slots = x.slots := by
  unfold Core.withCmd
  dsimp only
  split <;> rfl

theorem Core.withCmd_tiles (x : Core) {m : LCmd} (h : m.kind ≠ 3) : (x.withCmd m).tiles = x.tiles := by
  unfold Core.withCmd
  dsimp only
  rw [if_neg h]

theorem Core.tile_setTile_same {x : Core} {n : Nat} (h : n < x.tiles.length) (y : Tile) : (x.setTile n y).tile n = y :=
  nthD_setNth_same _ _ _ _ h

theorem Core.withCmd_tile_of_free (x : Core) {m : LCmd} (hk : m.kind = 3) (h : m.tile < x.tiles.length) :
    (x.withCmd m).tile m.tile = { x.tile m.tile with owner := none, rel := some m.id } := by
  unfold Core.withCmd
  dsimp only
  rw [if_pos hk]
  exact Core.tile_setTile_same h _

/-- What accepting a command does to its thread. -/
def Thread.accepted (t : Thread) (m : LCmd) : Thread :=
  if m.kind < 2 then t.dropOp m.id
  else
    match t.part with
    | [6, i, next] => if i = m.id then { t.afresh with pc := next, run := .ready } else t
    | _ => t

theorem Thread.accepted_of_waiting {t : Thread} {m : LCmd} {next : Nat} (hkind : 2 ≤ m.kind) (hp : t.part = [6, m.id, next]) :
    t.accepted m = { t.afresh with pc := next, run := .ready } := by
  rw [Thread.accepted, if_neg (by omega), hp]
  exact if_pos rfl

theorem State.acceptCmd_eq (s : State) (c : Nat) (m : LCmd) :
    s.acceptCmd c m = (s.modCore c (fun x => x.withCmd { m with status := s.acceptCodes m })).modThread c m.slot
      (fun t => t.accepted m) := rfl

@[simp] theorem State.kick_core (s : State) (cl c : Nat) : (s.kick cl).core c = s.core c := by
  unfold State.kick
  split <;> rfl
@[simp] theorem State.kick_thread? (s : State) (cl c k : Nat) : (s.kick cl).thread? c k = s.thread? c k := by
  unfold State.kick
  split <;> rfl
@[simp] theorem State.kick_mem (s : State) (cl : Nat) : (s.kick cl).mem = s.mem := by
  unfold State.kick
  split <;> rfl

/-- One command waits and the queue has room. -/
theorem State.acceptCmds_of_room {s : State} {c : Nat} {m : LCmd} (hw : (s.core c).lqWait = [m])
    (hl : (s.core c).lq.length < 8) : s.acceptCmds c = (s.acceptCmd c m).kick (c / 8) := by
  rw [State.acceptCmds, hw, List.foldl_cons, List.foldl_nil, if_pos hl]

/-- A full queue takes none. -/
theorem State.acceptCmds_of_full {s : State} {c : Nat} (hl : 8 ≤ (s.core c).lq.length) : s.acceptCmds c = s.kick (c / 8) := by
  have hfold : ∀ l : List LCmd,
      l.foldl (fun (s : State) m => if (s.core c).lq.length < 8 then s.acceptCmd c m else s) s = s := by
    intro l
    induction l with
    | nil => rfl
    | cons m r ih => rw [List.foldl_cons, if_neg (by omega), ih]
  rw [State.acceptCmds, hfold]

/-- A core after its thread has been changed: all but the slots is as before. -/
theorem State.lq_modThread (s : State) (c k : Nat) (g : Thread → Thread) (d : Nat) :
    ((s.modThread c k g).core d).lq = (s.core d).lq := State.modThread_coreField (φ := Core.lq) (fun _ _ _ => rfl) s c k g d
theorem State.lqWait_modThread (s : State) (c k : Nat) (g : Thread → Thread) (d : Nat) :
    ((s.modThread c k g).core d).lqWait = (s.core d).lqWait :=
  State.modThread_coreField (φ := Core.lqWait) (fun _ _ _ => rfl) s c k g d
theorem State.tiles_modThread (s : State) (c k : Nat) (g : Thread → Thread) (d : Nat) :
    ((s.modThread c k g).core d).tiles = (s.core d).tiles :=
  State.modThread_coreField (φ := Core.tiles) (fun _ _ _ => rfl) s c k g d
theorem State.tile_modThread (s : State) (c k : Nat) (g : Thread → Thread) (d n : Nat) :
    ((s.modThread c k g).core d).tile n = (s.core d).tile n := by rw [Core.tile, State.tiles_modThread, Core.tile]

theorem State.thread?_modThread_same {s : State} {c k : Nat} {t : Thread} (h : s.thread? c k = some t) (g : Thread → Thread) :
    (s.modThread c k g).thread? c k = some (g t) := by
  rw [State.modThread_eq h, State.withThread_thread?]

/-- The thread of the accepted command. -/
theorem State.acceptCmd_thread? {s : State} {c : Nat} {m : LCmd} {t : Thread} (h : s.thread? c m.slot = some t) :
    (s.acceptCmd c m).thread? c m.slot = some (t.accepted m) := by
  rw [State.acceptCmd_eq, State.thread?_modThread_same]
  rw [State.thread?_modCore _ _ _ (fun x => Core.withCmd_slots x _), h]

/-- The core with one more command that waits for a queue entry. -/
def Core.queued (x : Core) (m : LCmd) : Core := { x with lqWait := x.lqWait ++ [m] }

theorem Core.queued_slots (x : Core) (m : LCmd) : (x.queued m).slots = x.slots := rfl

theorem State.core_modCore_same (s : State) (c : Nat) (g : Core → Core) : (s.modCore c g).core c = g (s.core c) := by
  rw [State.modCore, State.core_setCore_same]

/-! ### MZERO and MFREE -/

theorem State.acceptCodes_of_kind (s : State) {m : LCmd} (h : 2 ≤ m.kind) : s.acceptCodes m = 0 := by
  unfold State.acceptCodes
  split
  · omega
  · omega
  · rfl

/-- The command with its identity. -/
def LCmd.numbered (m : LCmd) (id : Nat) : LCmd := { m with id := id }

theorem State.withCodes_of_kind (s : State) {m : LCmd} (h : 2 ≤ m.kind) (hstatus : m.status = 0) :
    ({ m with status := s.acceptCodes m } : LCmd) = m := by
  rw [State.acceptCodes_of_kind s h, ← hstatus]

/-- The state in which command `m` waits for a queue entry, its thread at the instruction. -/
def State.cmdWaits (s : State) (c k : Nat) (m : LCmd) : State :=
  (({ s with nextId := s.nextId + 1 } : State).modThread c k (fun t => { t with part := [6, s.nextId, s.next] })).modCore c
    (fun x => x.queued (m.numbered s.nextId))

theorem State.waitCmd_eq (s : State) (c k : Nat) (m : LCmd) : s.waitCmd c k m =
    if (((s.cmdWaits c k m).acceptCmds c).core c).lqWait.any (fun y => y.id = s.nextId) then
      ((s.cmdWaits c k m).acceptCmds c).park c k .lqRoom else (s.cmdWaits c k m).acceptCmds c := by
  unfold State.waitCmd State.fresh State.cmdWaits
  rfl

section
variable {s : State} {c k : Nat} {t : Thread} {m : LCmd}

theorem State.cmdWaits_thread? (h : s.thread? c k = some t) :
    (s.cmdWaits c k m).thread? c k = some { t with part := [6, s.nextId, s.next] } := by
  rw [State.cmdWaits, State.thread?_modCore _ _ _ (fun x => Core.queued_slots x _)]
  exact State.thread?_modThread_same (s := { s with nextId := s.nextId + 1 }) h _

theorem State.cmdWaits_core : ((s.cmdWaits c k m).core c).lq = (s.core c).lq ∧
    ((s.cmdWaits c k m).core c).lqWait = (s.core c).lqWait ++ [m.numbered s.nextId] ∧
    ((s.cmdWaits c k m).core c).tiles = (s.core c).tiles := by
  rw [State.cmdWaits, State.core_modCore_same]
  refine ⟨State.lq_modThread .., ?_, State.tiles_modThread ..⟩
  rw [Core.queued, State.lqWait_modThread]
  rfl

/-- An MZERO or MFREE that finds room enters the queue at once. -/
theorem State.waitCmd_of_room (h : s.thread? c k = some t) (hw : (s.core c).lqWait = []) (hl : (s.core c).lq.length < 8)
    (hslot : m.slot = k) (hkind : 2 ≤ m.kind) (hstatus : m.status = 0) :
    (s.waitCmd c k m).mem = s.mem ∧
      ((s.waitCmd c k m).core c).lq = (s.core c).lq ++ [m.numbered s.nextId] ∧
      (m.kind ≠ 3 → ((s.waitCmd c k m).core c).tiles = (s.core c).tiles) ∧
      (m.kind = 3 → m.tile < (s.core c).tiles.length → ((s.waitCmd c k m).core c).tile m.tile =
        { (s.core c).tile m.tile with owner := none, rel := some s.nextId }) ∧
      (s.waitCmd c k m).thread? c k = some { t.afresh with pc := s.next, run := .ready } := by
  obtain ⟨hlq, hwait, htiles⟩ := State.cmdWaits_core (s := s) (c := c) (k := k) (m := m)
  rw [hw, List.nil_append] at hwait
  have hcmd := State.withCodes_of_kind (s.cmdWaits c k m) (m := m.numbered s.nextId) hkind hstatus
  have hacc : (s.cmdWaits c k m).acceptCmds c =
      (((s.cmdWaits c k m).modCore c (fun x => x.withCmd (m.numbered s.nextId))).modThread c m.slot
        (fun t => t.accepted (m.numbered s.nextId))).kick (c / 8) := by
    rw [State.acceptCmds_of_room hwait (hlq ▸ hl), State.acceptCmd_eq, hcmd]
    rfl
  have hnone : (((s.cmdWaits c k m).acceptCmds c).core c).lqWait = [] := by
    rw [hacc, State.kick_core, State.lqWait_modThread, State.core_modCore_same, Core.withCmd_lqWait, hwait]
    simp
  have heq : s.waitCmd c k m = (s.cmdWaits c k m).acceptCmds c := by
    rw [State.waitCmd_eq, if_neg (by rw [hnone]; simp)]
  rw [heq, hacc]
  simp only [State.kick_core, State.kick_mem, State.kick_thread?]
  refine ⟨?_, ?_, fun h3 => ?_, fun h3 ht => ?_, ?_⟩
  · rw [State.modThread_mem]
    exact State.modThread_mem { s with nextId := s.nextId + 1 } c k _
  · rw [State.lq_modThread, State.core_modCore_same, Core.withCmd_lq, hlq]
  · rw [State.tiles_modThread, State.core_modCore_same, Core.withCmd_tiles _ (m := m.numbered s.nextId) h3, htiles]
  · rw [State.tile_modThread, State.core_modCore_same]
    refine (Core.withCmd_tile_of_free _ (m := m.numbered s.nextId) h3 (by rw [htiles]; exact ht)).trans ?_
    rw [Core.tile, htiles]
    rfl
  · rw [hslot, State.thread?_modThread_same (t := { t with part := [6, s.nextId, s.next] })]
    · rw [Thread.accepted_of_waiting (m := m.numbered s.nextId) hkind rfl]
      rfl
    · rw [State.thread?_modCore _ _ _ (fun x => Core.withCmd_slots x _), State.cmdWaits_thread? h]

/-- The same after the instruction has issued. -/
theorem State.waitCmd_shortened (h : s.thread? c k = some t) (hw : (s.core c).lqWait = []) (hl : (s.core c).lq.length < 8)
    (hslot : m.slot = k) (hkind : 2 ≤ m.kind) (hstatus : m.status = 0) {u : State}
    (hu : u = (s.waitCmd c k m).shortened c k t.pc s.nextId) : u.mem = s.mem ∧
      (u.core c).lq = (s.core c).lq ++ [m.numbered s.nextId] ∧
      (m.kind ≠ 3 → (u.core c).tiles = (s.core c).tiles) ∧
      (m.kind = 3 → m.tile < (s.core c).tiles.length → (u.core c).tile m.tile =
        { (s.core c).tile m.tile with owner := none, rel := some s.nextId }) ∧
      u.thread? c k = some { t.done s.next s.nextId with run := .ready } := by
  obtain ⟨hmem, hlq, htiles, htile, hthr⟩ := State.waitCmd_of_room h hw hl hslot hkind hstatus
  subst hu
  refine ⟨?_, ?_, fun h3 => ?_, fun h3 ht => ?_, ?_⟩
  · rw [State.shortened, State.modThread_mem, hmem]
  · rw [State.shortened, State.lq_modThread, hlq]
  · rw [State.shortened, State.tiles_modThread, htiles h3]
  · rw [State.shortened, State.tile_modThread, htile h3 ht]
  · rw [State.shortened_of_settled hthr rfl, State.withThread_thread?]
    rfl

end

/-! ### MMA and MSTORE -/

/-- The state in which command `m` is outstanding as an operation of its thread. -/
def State.cmdIssued (s : State) (c k : Nat) (o : Op) (m : LCmd) : State :=
  ((s.finish c k).addOp c k o).2.modCore c (fun x => x.queued (m.numbered s.nextId))

theorem State.issueCmd_eq (s : State) (c k : Nat) (t : Thread) (i : Instr) (la : Nat) (m : LCmd) :
    s.issueCmd c k t i la m = (s.cmdIssued c k (Op.new i t .lattice .stream la) m).acceptCmds c := by
  rw [State.cmdIssued, ← State.finish_nextId s c k]
  rfl

theorem State.addOp_eq (s : State) (c k : Nat) (o : Op) : (s.addOp c k o).2 =
    ({ s with nextId := s.nextId + 1 } : State).modThread c k
      (fun t => { t with ops := t.ops ++ [{ o with id := s.nextId, born := s.now }] }) := rfl

theorem State.finish_thread? {s : State} {c k : Nat} {t : Thread} (h : s.thread? c k = some t) :
    (s.finish c k).thread? c k = some { t.afresh with pc := s.next } := by
  rw [State.finish, State.settle, State.advance, State.goto, State.modThread_next]
  exact State.thread?_modThread_same (State.thread?_modThread_same h _) _

/-- What a thread has become with its operation outstanding. -/
def Thread.opened (t : Thread) (o : Op) (n now pc : Nat) : Thread :=
  { t.afresh with pc := pc, ops := t.ops ++ [{ o with id := n, born := now }] }

section
variable {s : State} {c k : Nat} {t : Thread} {m : LCmd} {o : Op}

theorem State.cmdIssued_thread? (h : s.thread? c k = some t) :
    ∃ now, (s.cmdIssued c k o m).thread? c k = some (t.opened o s.nextId now s.next) := by
  refine ⟨(s.finish c k).now, ?_⟩
  rw [State.cmdIssued, State.thread?_modCore _ _ _ (fun x => Core.queued_slots x _), State.addOp_eq, State.finish_nextId]
  exact State.thread?_modThread_same (s := { s.finish c k with nextId := s.nextId + 1 }) (State.finish_thread? h) _

/-- Of the core, what does not depend on its slots and its waiting commands. -/
theorem State.cmdIssued_coreField {α : Type} {φ : Core → α}
    (hφ : ∀ (x : Core) rf sl, φ { x with rf := rf, slots := sl } = φ { x with rf := rf })
    (hq : ∀ (x : Core) l, φ { x with lqWait := l } = φ x) : φ ((s.cmdIssued c k o m).core c) = φ (s.core c) := by
  rw [State.cmdIssued, State.core_modCore_same, Core.queued, hq, State.addOp_eq, State.modThread_coreField hφ]
  exact (State.modThread_coreField hφ (s.settle c k) c k _ c).trans (State.modThread_coreField hφ s c k _ c)

theorem State.cmdIssued_core : ((s.cmdIssued c k o m).core c).lq = (s.core c).lq ∧
    ((s.cmdIssued c k o m).core c).lqWait = (s.core c).lqWait ++ [m.numbered s.nextId] := by
  refine ⟨State.cmdIssued_coreField (φ := Core.lq) (fun _ _ _ => rfl) (fun _ _ => rfl), ?_⟩
  have hwait : (((s.finish c k).addOp c k o).2.core c).lqWait = (s.core c).lqWait := by
    rw [State.addOp_eq, State.lqWait_modThread]
    exact (State.lqWait_modThread ..).trans (State.lqWait_modThread ..)
  rw [State.cmdIssued, State.core_modCore_same, Core.queued, hwait]

theorem State.cmdIssued_mem : (s.cmdIssued c k o m).mem = s.mem := by
  refine (State.modThread_mem { s.finish c k with nextId := (s.finish c k).nextId + 1 } c k _).trans ?_
  exact (State.modThread_mem ..).trans (State.modThread_mem ..)

theorem State.sameExtents_finish (s : State) (c k : Nat) : s.SameExtents (s.finish c k) :=
  (State.sameExtents_modThread s c k Thread.afresh).trans (State.sameExtents_modThread (s.settle c k) c k _)

theorem State.sameExtents_addOp (s : State) (c k : Nat) (o : Op) : s.SameExtents (s.addOp c k o).2 :=
  State.sameExtents_modThread { s with nextId := s.nextId + 1 } c k _

theorem State.sameExtents_cmdIssued : s.SameExtents (s.cmdIssued c k o m) :=
  ((State.sameExtents_finish s c k).trans (State.sameExtents_addOp _ c k o)).trans
    (State.sameExtents_setCore _ c _ rfl rfl)

theorem Thread.accepted_of_operation (t : Thread) {m : LCmd} (hkind : m.kind < 2) : t.accepted m = t.dropOp m.id :=
  if_pos hkind

/-- An MMA or MSTORE that finds room enters the queue, and its operation ends. -/
theorem State.issueCmd_of_room (h : s.thread? c k = some t) (hw : (s.core c).lqWait = []) (hl : (s.core c).lq.length < 8)
    (hslot : m.slot = k) (hkind : m.kind < 2) (i : Instr) (la : Nat) :
    ∃ u, (s.issueCmd c k t i la m).shortened c k t.pc s.nextId = u ∧ u.mem = s.mem ∧
      (u.core c).lq = (s.core c).lq ++ [{ m.numbered s.nextId with status := s.acceptCodes (m.numbered s.nextId) }] ∧
      ∃ t', u.thread? c k = some t' ∧ t'.pc = s.next ∧ ∀ o ∈ t'.ops, o.id ≠ s.nextId := by
  obtain ⟨hlq, hwait⟩ := State.cmdIssued_core (s := s) (c := c) (k := k) (o := Op.new i t .lattice .stream la) (m := m)
  obtain ⟨now, hthr⟩ := State.cmdIssued_thread? (m := m) (o := Op.new i t .lattice .stream la) h
  rw [hw, List.nil_append] at hwait
  subst hslot
  have hacc : ((s.cmdIssued c m.slot (Op.new i t .lattice .stream la) m).acceptCmds c).thread? c m.slot = some
      ((t.opened (Op.new i t .lattice .stream la) s.nextId now s.next).dropOp s.nextId) := by
    rw [State.acceptCmds_of_room hwait (hlq ▸ hl), State.kick_thread?]
    exact State.acceptCmd_thread? (m := m.numbered s.nextId) hthr |>.trans
      (congrArg some (Thread.accepted_of_operation _ (m := m.numbered s.nextId) hkind))
  refine ⟨_, rfl, ?_, ?_, ?_⟩
  · rw [State.shortened, State.modThread_mem, State.issueCmd_eq, State.acceptCmds_of_room hwait (hlq ▸ hl), State.kick_mem,
      State.acceptCmd_eq, State.modThread_mem]
    exact State.cmdIssued_mem (m := m)
  · rw [State.shortened, State.lq_modThread, State.issueCmd_eq, State.acceptCmds_of_room hwait (hlq ▸ hl), State.kick_core,
      State.acceptCmd_eq, State.lq_modThread, State.core_modCore_same, Core.withCmd_lq, hlq,
      State.sameExtents_cmdIssued.acceptCodes]
  · rw [State.issueCmd_eq, State.shortened_of_settled hacc rfl, State.withThread_thread?]
    refine ⟨_, rfl, rfl, fun o ho => ?_⟩
    obtain ⟨p, hp, rfl⟩ := List.mem_map.1 ho
    have := (List.mem_filter.1 hp).2
    split <;> simpa using this

/-- With a full queue it is outstanding, with its window. -/
theorem State.issueCmd_of_full (h : s.thread? c k = some t) (hl : 8 ≤ (s.core c).lq.length) (i : Instr) (la : Nat) :
    ∃ u, (s.issueCmd c k t i la m).shortened c k t.pc s.nextId = u ∧ u.mem = s.mem ∧ (u.core c).lq = (s.core c).lq ∧
      (u.core c).lqWait = (s.core c).lqWait ++ [m.numbered s.nextId] ∧
      ∃ t' o, u.thread? c k = some t' ∧ t'.pc = s.next ∧ o ∈ t'.ops ∧ o.id = s.nextId ∧ o.left = la := by
  obtain ⟨hlq, hwait⟩ := State.cmdIssued_core (s := s) (c := c) (k := k) (o := Op.new i t .lattice .stream la) (m := m)
  obtain ⟨now, hthr⟩ := State.cmdIssued_thread? (m := m) (o := Op.new i t .lattice .stream la) h
  have hacc := State.acceptCmds_of_full (hlq ▸ hl : 8 ≤ ((s.cmdIssued c k (Op.new i t .lattice .stream la) m).core c).lq.length)
  refine ⟨_, rfl, ?_, ?_, ?_, ?_⟩
  · rw [State.shortened, State.modThread_mem, State.issueCmd_eq, hacc, State.kick_mem, State.cmdIssued_mem]
  · rw [State.shortened, State.lq_modThread, State.issueCmd_eq, hacc, State.kick_core, hlq]
  · rw [State.shortened, State.lqWait_modThread, State.issueCmd_eq, hacc, State.kick_core, hwait]
  · rw [State.issueCmd_eq, hacc, State.shortened_of_settled ((State.kick_thread? ..).trans hthr) rfl, State.withThread_thread?]
    refine ⟨_, { Op.new i t .lattice .stream la with id := s.nextId, born := now }, rfl, rfl, ?_, rfl, rfl⟩
    refine List.mem_map.2 ⟨_, List.mem_append_right _ (List.mem_singleton.2 rfl), ?_⟩
    rw [if_neg (Nat.lt_irrefl _)]

end

/-! ### The instructions -/

section
variable {f : Fields} {s : State} {c k : Nat} {t : Thread}

/-- The core with a tile taken by a thread. -/
def Core.tileTaken (x : Core) (n : Nat) (tid : Word) : Core :=
  x.setTile n { x.tile n with owner := some tid, poisonI := false }

/-- MZERO takes a tile that is free, or the thread's own. -/
theorem exec_mzero_of_free (h : Goes (.mzero f) s c k t) (hfree : ((s.core c).tile f.d).owner = some (s.tid c k t) ∨
      (((s.core c).tile f.d).owner = none ∧ ((s.core c).tile f.d).rel = none ∧
        (s.core c).tileEarlier k f.d t.since = false)) :
    exec (.mzero f) s = .next ((((s.setCore c ((s.core c).tileTaken f.d (s.tid c k t))).waitCmd c k
        (LCmd.new 2 (s.tid c k t) k f.d (s.core c).fmt (taskDet t.task))).shortened c k t.pc s.nextId)) := by
  rw [exec_mzero, execMzero, issue_goes h]
  refine congrArg (fun u : State => Host.Outcome.next (u.shortened c k t.pc s.nextId)) (if_neg ?_)
  rcases hfree with ho | ⟨ho, hr, he⟩
  · simp [ho]
  · simp [ho, hr, he]

theorem exec_mzero_of_taken (h : Goes (.mzero f) s c k t) (ho : ((s.core c).tile f.d).owner ≠ some (s.tid c k t))
    (htaken : ((s.core c).tile f.d).owner ≠ none ∨ ((s.core c).tile f.d).rel ≠ none ∨
      (s.core c).tileEarlier k f.d t.since = true) :
    exec (.mzero f) s = .next (s.waits s c k t (.tile f.d)) := by
  rw [exec_mzero, execMzero]
  refine issue_waits h (if_pos ?_)
  simpa [ho, or_assoc] using htaken

theorem exec_mfree_of_free (h : Goes (.mfree f) s c k t) (ho : ((s.core c).tile f.d).owner = none)
    (hr : ((s.core c).tile f.d).rel = none) : exec (.mfree f) s = .next (s.moved c k t s.next) := by
  rw [exec_mfree, execMfree, issue_goes h]
  simp only [ho, hr]
  rw [State.finish_shortened h.thread?]
  rfl

theorem exec_mfree_of_owner (h : Goes (.mfree f) s c k t) (ho : ((s.core c).tile f.d).owner = some (s.tid c k t)) :
    exec (.mfree f) s = .next ((s.waitCmd c k
      (LCmd.new 3 (s.tid c k t) k f.d (s.core c).fmt (taskDet t.task))).shortened c k t.pc s.nextId) := by
  rw [exec_mfree, execMfree, issue_goes h]
  simp only [ho]
  rw [if_neg (by simp)]

theorem exec_mfree_of_taken (h : Goes (.mfree f) s c k t) (ho : ((s.core c).tile f.d).owner ≠ some (s.tid c k t))
    (htaken : ((s.core c).tile f.d).owner ≠ none ∨ ((s.core c).tile f.d).rel ≠ none) :
    exec (.mfree f) s = .next (s.trapped c k t 0x0F 0 (w64 (f.d * 256 + 1))) := by
  rw [exec_mfree, execMfree, issue_goes h]
  dsimp only
  split
  · next h1 h2 => simp [h1, h2] at htaken
  · rw [if_pos ho]
    rfl

/-- MMA and MSTORE on a tile that is another's, or poisoned. -/
theorem exec_mma_of_cause (h : Goes (.mma f) s c k t) {cause : Nat}
    (hc : s.tileCheck c (f.d % 2) (s.tid c k t) = some cause) :
    exec (.mma f) s = .next (s.trapped c k t 0x0F 0 (w64 (f.d % 2 * 256 + cause))) := by
  rw [exec_mma, execMma, issue_goes h]
  simp only [hc]
  rfl

theorem exec_mstore_of_cause (h : Goes (.mstore f) s c k t) {cause : Nat}
    (hc : s.tileCheck c (f.d % 2) (s.tid c k t) = some cause) :
    exec (.mstore f) s = .next (s.trapped c k t 0x0F 0 (w64 (f.d % 2 * 256 + cause))) := by
  rw [exec_mstore, execMstore, issue_goes h]
  simp only [hc]
  rfl

theorem State.readVals_mma (hf : plainFields f) (h3 : f.three = true) (s : State) (c k : Nat) (t : Thread) :
    ∃ v, s.readVals (.mma f) c k t f = (v, s) ∧ v.b = s.getG c t f.b ∧
      v.a = if f.lo / 2 = 0 then t.ptr f.a else s.getG c t f.a := by
  refine ⟨_, State.readVals_plain (fo := ⟨.L, .req, .eMma, (.sel 3), .base, .rd, .none⟩) rfl hf s c k t, ?_, ?_⟩
  · rw [if_pos h3]
    by_cases hb : f.d / 2 % 2 = 1 <;> simp [Instr.roles, hb, State.fieldValue]
  · by_cases ha : f.lo / 2 = 0 <;> simp [Instr.roles, ha, State.fieldValue]

theorem exec_mma_of_kreg (hf : plainFields f) (h3 : f.three = true) (h : Goes (.mma f) s c k t)
    (hc : s.tileCheck c (f.d % 2) (s.tid c k t) = none) (hk : kBad (s.getG c t f.b).v.toNat = true) :
    exec (.mma f) s = .next (s.trapped c k t 0x0F 0 (w64 (f.d % 2 * 256 + 3))) := by
  obtain ⟨v, hr, hb, -⟩ := State.readVals_mma hf h3 s c k t
  rw [exec_mma, execMma, issue_goes h]
  simp only [hc, hr, hb]
  rw [if_pos hk]
  rfl

/-- The command of an MMA. -/
def mmaCmd (f : Fields) (s : State) (c k : Nat) (t : Thread) : LCmd :=
  { LCmd.new 0 (s.tid c k t) k (f.d % 2) (s.core c).fmt (taskDet t.task) with
    kreg := (s.getG c t f.b).v.toNat, seg := t.seg f.hi, segN := f.hi,
    aform := if f.lo / 2 = 0 then 1 else if f.lo / 2 = 1 then 0 else 2,
    aOff := (if f.lo / 2 = 0 then t.ptr f.a else s.getG c t f.a).v.toNat,
    aPtr := (t.ptr f.a).v, bGlob := decide (f.d / 2 % 2 = 1), bOff := (s.getG c t (f.b + 1)).v.toNat, bPtr := (t.ptr f.fx).v,
    ord := decide (f.lo % 2 = 1) }

theorem exec_mma_goes (hf : plainFields f) (h3 : f.three = true) (h : Goes (.mma f) s c k t)
    (hc : s.tileCheck c (f.d % 2) (s.tid c k t) = none) (hk : kBad (s.getG c t f.b).v.toNat = false) :
    exec (.mma f) s = .next ((s.issueCmd c k t (.mma f) f.la (mmaCmd f s c k t)).shortened c k t.pc s.nextId) := by
  obtain ⟨v, hr, hb, ha⟩ := State.readVals_mma hf h3 s c k t
  rw [exec_mma, execMma, issue_goes h]
  simp only [hc, hr, hb, ha]
  rw [if_neg (by simp [hk])]
  rfl

/-- The command of an MSTORE. -/
def mstoreCmd (f : Fields) (s : State) (c k : Nat) (t : Thread) : LCmd :=
  { LCmd.new 1 (s.tid c k t) k (f.d % 2) (s.core c).fmt (taskDet t.task) with
    seg := t.seg f.hi, segN := f.hi, aform := if decide (f.d / 2 % 2 = 1) then 1 else 0, aOff := s.gOff c t f,
    aPtr := (t.ptr f.a).v, fmt := f.lo / 2, ord := decide (f.lo % 2 = 1),
    addrT := if decide (f.d / 2 % 2 = 1) then (t.ptr f.a).t else (s.getG c t f.a).t }

theorem exec_mstore_goes (h : Goes (.mstore f) s c k t) (hc : s.tileCheck c (f.d % 2) (s.tid c k t) = none) :
    exec (.mstore f) s = .next ((s.issueCmd c k t (.mstore f) f.la (mstoreCmd f s c k t)).shortened c k t.pc s.nextId) := by
  rw [exec_mstore, execMstore, issue_goes h]
  simp only [hc]
  rfl

/-- MSTAT. -/
theorem exec_mstat_goes (h : Goes (.mstat f) s c k t) :
    exec (.mstat f) s = .next (s.answers s c k t f ⟨w64 ((s.cluster (c / 8)).fence % 256 * 2 ^ 56
      + min 8 (s.core c).lq.length * 2 ^ 48
      + (s.cluster (c / 8)).mxwgt.bits (4 * (c % 8) + 3) (4 * (c % 8)) * 2 ^ 44
      + ((s.core c).tile 1).code (s.tid c k t) * 2 ^ 38 + ((s.core c).tile 0).code (s.tid c k t) * 2 ^ 36
      + (s.cluster (c / 8)).tests), true⟩) := by
  rw [exec_mstat, execMstat]
  exact issue_answers h rfl rfl

theorem exec_mtest_of_ran (h : Goes (.mtest f) s c k t) {n : Nat} (hw : t.want = some (.selftest n))
    (hn : n < (s.cluster (c / 8)).ran) : exec (.mtest f) s = .next (s.moved c k t s.next) := by
  rw [exec_mtest, execMtest, issue_goes h]
  simp only [hw]
  rw [if_pos hn, State.finish_shortened h.thread?]
  rfl

theorem exec_mtest_of_first (h : Goes (.mtest f) s c k t) (hw : t.want = none) :
    exec (.mtest f) s = .next ((s.scheduleTest (c / 8)).waits s c k t (.selftest (s.cluster (c / 8)).ran)) := by
  rw [exec_mtest, execMtest]
  refine issue_waits h ?_
  simp only [hw]

end

/-- Settles O27: the tile's owner, then the queue's room. -/
theorem latticeInstructions : Obligations.LatticeInstructions := by
  unfold Obligations.LatticeInstructions
  refine ⟨fun f s c k t h hw hl _ hfree => ?_, fun f s c k t => exec_mzero_of_taken,
    fun f s c k t h => ⟨exec_mfree_of_free h, fun ho hw hl _ => ?_, exec_mfree_of_taken h⟩,
    fun f s c k t hf h3 h => ⟨fun cause => exec_mma_of_cause h, exec_mma_of_kreg hf h3 h, fun hc hk =>
      ⟨fun hw hl => ?_, fun hl => ?_⟩⟩,
    fun f s c k t h => ⟨fun cause => exec_mstore_of_cause h, fun hc => ⟨fun hw hl => ?_, fun hl => ?_⟩⟩,
    fun f s c k t => exec_mstat_goes, fun f s c k t n h => exec_mtest_of_ran h, fun f s c k t h => exec_mtest_of_first h⟩
  · have hset := State.core_setCore_same s c ((s.core c).tileTaken f.d (s.tid c k t))
    have hthr := (State.thread?_setCore_same (s := s) (x := (s.core c).tileTaken f.d (s.tid c k t)) rfl k).trans h.thread?
    obtain ⟨hmem, hlq, htiles, -, hthr'⟩ := State.waitCmd_shortened
      (m := LCmd.new 2 (s.tid c k t) k f.d (s.core c).fmt (taskDet t.task)) hthr (by rw [hset]; exact hw)
      (by rw [hset]; exact hl) rfl (Nat.le_refl 2) rfl rfl
    refine ⟨_, exec_mzero_of_free h hfree, hmem, hlq.trans (by rw [hset]; rfl), fun ht => ?_, hthr'⟩
    refine (congrArg (fun l => nthD l f.d Tile.reset) ((htiles (show (2 : Nat) ≠ 3 by decide)).trans (congrArg Core.tiles hset))).trans ?_
    exact Core.tile_setTile_same ht _
  · obtain ⟨hmem, hlq, -, htile, hthr⟩ := State.waitCmd_shortened
      (m := LCmd.new 3 (s.tid c k t) k f.d (s.core c).fmt (taskDet t.task)) h.thread? hw hl rfl (show 2 ≤ 3 by decide) rfl rfl
    exact ⟨_, exec_mfree_of_owner h ho, hmem, hlq, htile rfl, hthr⟩
  · obtain ⟨u, hu, hrest⟩ := State.issueCmd_of_room (m := mmaCmd f s c k t) h.thread? hw hl rfl (show 0 < 2 by decide) (.mma f) f.la
    exact ⟨u, (exec_mma_goes hf h3 h hc hk).trans (congrArg _ hu), hrest⟩
  · obtain ⟨u, hu, hrest⟩ := State.issueCmd_of_full (m := mmaCmd f s c k t) h.thread? hl (.mma f) f.la
    exact ⟨u, (exec_mma_goes hf h3 h hc hk).trans (congrArg _ hu), hrest⟩
  · obtain ⟨u, hu, hrest⟩ := State.issueCmd_of_room (m := mstoreCmd f s c k t) h.thread? hw hl rfl (show 1 < 2 by decide) (.mstore f) f.la
    exact ⟨u, (exec_mstore_goes h hc).trans (congrArg _ hu), hrest⟩
  · obtain ⟨u, hu, hrest⟩ := State.issueCmd_of_full (m := mstoreCmd f s c k t) h.thread? hl (.mstore f) f.la
    exact ⟨u, (exec_mstore_goes h hc).trans (congrArg _ hu), hrest⟩

end Sys2Proof.Machine
end

section
/-!
SUPPORT. What the writes of records keep (R316 to R318), and the work of the Lattice unit (R177 to R184): O28.
-/
namespace Sys2Proof.Machine
open Sys2Proof

/-! ### Records -/

/-- A part of the state that neither memory, the directory and its copies, the tenants nor the vectors to the host determine. -/
def OffRings {β : Type} (part : State → β) : Prop :=
  ∀ (s : State) m rw d q cp le tn bo, part { s with
    mem := m, regw := rw, dir := d, dirq := q, copies := cp, leases := le, tenants := tn, boot := bo } = part s

section
variable {β : Type} {part : State → β} (hp : OffRings part)
include hp

theorem OffRings.gather (s : State) (line : Nat) : part (s.gather line) = part s :=
  hp s _ _ _ _ _ _ s.tenants s.boot

theorem OffRings.settleWord (s : State) (w : Nat) : part (s.settleWord w) = part s := by
  have hgather : part (if (SMap.get? s.dir (w / 16)).isSome || s.copies.any (fun p => p.1 / 4096 = w / 16 && !p.2.sw) then
      s.gather (w / 16) else s) = part s := by
    split
    · exact hp.gather s _
    · rfl
  unfold State.settleWord
  dsimp only
  generalize (if (SMap.get? s.dir (w / 16)).isSome || s.copies.any (fun p => p.1 / 4096 = w / 16 && !p.2.sw) then
    s.gather (w / 16) else s) = u at hgather ⊢
  split
  · exact (hp u _ _ u.dir u.dirq u.copies u.leases u.tenants u.boot).trans hgather
  · exact hgather

theorem OffRings.writeHome (s : State) (sw : Bool) (a n : Nat) (v : TWord) : part (s.writeHome sw a n v) = part s := by
  have hsettle : part (if sw then s else s.settleWord (a / 8)) = part s := by
    split
    · rfl
    · exact hp.settleWord s _
  exact (hp (if sw then s else s.settleWord (a / 8)) _ _ _ _ _ _ _ _).trans hsettle

theorem OffRings.writeVa (s : State) (tn va : Nat) (ws : List TWord) : part (s.writeVa tn va ws) = part s := by
  induction ws generalizing s va with
  | nil => rfl
  | cons w r ih =>
    rw [State.writeVa, ih]
    split
    · exact hp.writeHome s _ _ _ _
    · rfl

theorem OffRings.setTenant (s : State) (tn : Nat) (x : Tenant) : part (s.setTenant tn x) = part s :=
  hp s s.mem s.regw s.dir s.dirq s.copies s.leases _ s.boot

theorem OffRings.fireMsix (s : State) (tn : Nat) (fault : Bool) : part (s.fireMsix tn fault) = part s := by
  unfold State.fireMsix
  cases fault
  all_goals
    simp only [Bool.false_eq_true, if_false, if_true]
    split
    · exact hp s s.mem s.regw s.dir s.dirq s.copies s.leases _ _
    · rfl

theorem OffRings.putRec (s : State) (tn : Nat) (fault : Bool) (ws : List Word) : part (s.putRec tn fault ws) = part s := by
  rw [State.putRec, hp.fireMsix, hp.setTenant, hp.writeVa]

theorem OffRings.postRec (s : State) (tn : Nat) (fault : Bool) (ws : List Word) : part (s.postRec tn fault ws) = part s := by
  unfold State.postRec
  cases fault
  all_goals
    simp only [Bool.false_eq_true, if_false, if_true]
    split
    · exact hp.setTenant s tn _
    · split
      · exact hp.setTenant s tn _
      · exact hp.putRec s tn _ ws

theorem OffRings.faultRec (s : State) (tn : Nat) (w0 w1 : Word) : part (s.faultRec tn w0 w1) = part s := hp.postRec s tn true _

end

theorem offRings_cores : OffRings State.cores := fun _ _ _ _ _ _ _ _ _ => rfl
theorem offRings_clusters : OffRings State.clusters := fun _ _ _ _ _ _ _ _ _ => rfl
theorem offRings_next : OffRings State.next := fun _ _ _ _ _ _ _ _ _ => rfl
theorem offRings_nextId : OffRings State.nextId := fun _ _ _ _ _ _ _ _ _ => rfl
theorem offRings_now : OffRings State.now := fun _ _ _ _ _ _ _ _ _ => rfl
theorem offRings_cluster (cl : Nat) : OffRings (fun s => s.cluster cl) := fun _ _ _ _ _ _ _ _ _ => rfl
theorem offRings_core (c : Nat) : OffRings (fun s => s.core c) := fun _ _ _ _ _ _ _ _ _ => rfl

/-! ### A command that is under way -/

section
variable {s : State} {c : Nat} {m : LCmd}

/-- The unit of a command that the hardware fetches next. -/
def State.fetchNext (s : State) (m : LCmd) : Option Nat :=
  (m.units.filter (fun u => !m.got.contains u))[Config.choose s.tick %
    max 1 (m.units.filter (fun u => !m.got.contains u)).length]?

/-- The command after the next pair of its K block that is executed, and the number of the pair it stands at. -/
def LCmd.nextPair (m : LCmd) : LCmd × Nat :=
  let p := m.skipPairs (m.ta * m.tb) (m.exec + m.skip - m.kdone * (m.ta * m.tb))
  let q := if p.2 < m.ta * m.tb then (({ p.1 with exec := p.1.exec + 1 } : LCmd), p.2 + 1) else p
  q.1.skipPairs (m.ta * m.tb) q.2

/-- The command after K block `kdone` has been accumulated. -/
def LCmd.blockDone (m : LCmd) : LCmd :=
  { m with kdone := m.kdone + 1, pins := m.pins.filter (fun p => m.kdone < p % 64) }

theorem LCmd.blockDone_counts (m : LCmd) : m.blockDone.exec = m.exec ∧ m.blockDone.skip = m.skip := ⟨rfl, rfl⟩

/-- The state after the tile of the command has taken up its K block. -/
def State.accumulated (s : State) (c : Nat) (m : LCmd) : State :=
  s.modCore c (fun x => x.setTile m.tile { (s.core c).tile m.tile with
    el := m.accumulate m.kdone ((s.core c).tile m.tile).el, taint := ((s.core c).tile m.tile).taint || m.taint })

theorem State.accumulated_tile (s : State) (c : Nat) {m : LCmd} (h : m.tile < (s.core c).tiles.length) :
    (((s.accumulated c m).core c).tile m.tile).el = m.accumulate m.kdone ((s.core c).tile m.tile).el := by
  rw [State.accumulated, State.core_modCore_same, Core.tile_setTile_same h]

section
variable (hc : s.lcmd? (s.argN 0) (s.argN 1) = some (c, m)) (hbegan : m.began ≠ 0) (hfin : m.fin = false)
  (hkind : m.kind = 0)
include hc hbegan hfin hkind

/-- A line that has been fetched is in its command. -/
theorem exec_tileFetchLine_of_got {u : Nat} (hu : s.fetchNext m = some u) {m' : LCmd} {s' : State}
    (hgot : s.fetchUnit c m u = .got m' s') :
    ∃ w, exec .tileFetchLine s = .next w ∧
      (w.core c) = (s'.core c).setLCmd { m' with got := u :: m'.got, parked := false } ∧ w.mem = s'.mem := by
  rw [State.fetchNext] at hu
  rw [exec_tileFetchLine, execTileFetchLine]
  simp only [hc, hu, hgot]
  rw [if_neg (by simp [hbegan, hfin, hkind])]
  split
  · exact ⟨_, rfl, State.core_modCore_same .., rfl⟩
  · exact ⟨_, rfl, (State.core_post ..).trans (State.core_modCore_same ..), rfl⟩

/-- A line that fails stops its command. -/
theorem exec_tileFetchLine_of_fail {u : Nat} (hu : s.fetchNext m = some u) {status : Nat} {s' : State}
    (hfail : s.fetchUnit c m u = .fail status s') : exec .tileFetchLine s = .next (s'.failCmd c m status) := by
  rw [State.fetchNext] at hu
  rw [exec_tileFetchLine, execTileFetchLine]
  simp only [hc, hu, hfail]
  rw [if_neg (by simp [hbegan, hfin, hkind])]

section
variable (hblocked : (s.core c).blocked m = false) (hparked : m.parked = false)
  (hfirst : s.isFirst (s.argN 0) Core.readyMma m.began = true)
include hblocked hparked hfirst

/-- An MMA on a poisoned tile, or with every sub-array fenced, ends. -/
theorem exec_planePairExecute_of_poison
    (hp : ((s.core c).tile m.tile).poison = true ∨ (s.cluster (s.argN 0)).fence % 256 = 255) :
    exec .planePairExecute s = .next (s.finishCmd c { m with status := 0x0F }) := by
  rw [exec_planePairExecute, execPlanePairExecute]
  simp only [hc]
  rw [if_neg (by simp [hbegan, hfin, hkind]), if_neg (by simp [hblocked, hparked, hfirst]), if_pos (by simpa using hp)]

/-- A pair executes, unless every pair left in the K block is skipped; the last brings the accumulation. -/
theorem exec_planePairExecute_goes (hpois : ((s.core c).tile m.tile).poison = false)
    (hfence : (s.cluster (s.argN 0)).fence % 256 ≠ 255) (hready : m.blockReady m.kdone = true) :
    exec .planePairExecute s =
      if m.nextPair.2 < m.ta * m.tb then .next ((s.modCore c (fun x => x.setLCmd m.nextPair.1)).again .planePairExecute)
      else if m.nextPair.1.kdone + 1 < m.nextPair.1.nk then
        .next (((s.accumulated c m.nextPair.1).modCore c (fun x => x.setLCmd m.nextPair.1.blockDone)).again .planePairExecute)
      else .next ((s.accumulated c m.nextPair.1).finishCmd c m.nextPair.1.blockDone) := by
  rw [exec_planePairExecute, execPlanePairExecute]
  simp only [hc]
  rw [if_neg (by simp [hbegan, hfin, hkind]), if_neg (by simp [hblocked, hparked, hfirst]), if_neg (by simp [hpois, hfence]),
    if_neg (by simp [hready]), LCmd.nextPair]
  rcases m.skipPairs (m.ta * m.tb) (m.exec + m.skip - m.kdone * (m.ta * m.tb)) with ⟨m₁, n₁⟩
  dsimp only
  split
  · rcases ({ m₁ with exec := m₁.exec + 1 } : LCmd).skipPairs (m.ta * m.tb) (n₁ + 1) with ⟨m₂, n₂⟩
    rfl
  · rcases m₁.skipPairs (m.ta * m.tb) n₁ with ⟨m₂, n₂⟩
    rfl

end

end

/-- A finished command reports. -/
theorem exec_mxdone_of_fin (hc : s.lcmd? (s.argN 0) (s.argN 1) = some (c, m)) (hfin : m.fin = true)
    (hord : m.ord = true → ((s.core c).lqBefore m.id).any (fun y => y.owner = m.owner) = false) :
    exec .mxdone s = .next ((((s.setCore c { s.core c with lq := (s.core c).lq.filter (fun y => y.id ≠ m.id) }).acceptCmds
      c).engineMsg c m.owner m.owner 0x06 m.status (if m.kind = 0 then kTag m.kreg else 0)
      ⟨w64 (if m.kind = 0 then (if m.status = 0 then m.skip * 2 ^ 32 + m.exec else 0) else m.count), false⟩)) := by
  rw [exec_mxdone, execMxdone]
  simp only [hc]
  rw [if_pos hfin, State.reportCmd]
  refine congrArg Host.Outcome.next (if_neg ?_)
  rw [Bool.and_eq_true]
  exact fun h => Bool.false_ne_true ((hord h.1).symm.trans h.2)

end

/-! ### Errors, self-tests and repair -/

section
variable (s : State)

theorem exec_tileEccError_spoils : ∃ u, exec .tileEccError s = .next u ∧
    (s.argN 1 < (s.core (s.argN 0)).tiles.length →
      ((u.core (s.argN 0)).tile (s.argN 1)).poison = true ∧
      ((u.core (s.argN 0)).tile (s.argN 1)).el = ((s.core (s.argN 0)).tile (s.argN 1)).el) ∧ u.mem = s.mem := by
  refine ⟨_, rfl, fun h => ?_, rfl⟩
  rw [State.core_modCore_same, Core.tile_setTile_same h]
  exact ⟨rfl, rfl⟩

theorem State.cluster_modCluster_same (cl : Nat) (g : Cluster → Cluster) : (s.modCluster cl g).cluster cl = g (s.cluster cl) := by
  rw [State.modCluster_eq, State.cluster_setCluster_same]

theorem State.latticeRecs_cluster (cl n d : Nat) : (s.latticeRecs cl n).cluster d = s.cluster d :=
  State.foldl_keeps (fun s => s.cluster d) (fun u tn => (offRings_cluster d).faultRec u tn _ _) _ s

/-- The sub-arrays that a mask names. -/
def maskBits (w : Nat) : List Nat := (List.range 8).filter (fun n => w / 2 ^ n % 2 = 1)

theorem mem_maskBits {w n : Nat} : n ∈ maskBits w ↔ n < 8 ∧ w.testBit n = true := by
  simp [maskBits, Nat.testBit_eq_decide_div_mod_eq]

/-- The bits of a mask, ORed in. -/
theorem testBit_foldl_lor (l : List Nat) (m n : Nat) :
    (l.foldl (fun m n => Nat.lor m (2 ^ n)) m).testBit n = (m.testBit n || decide (n ∈ l)) := by
  induction l generalizing m with
  | nil => simp
  | cons x r ih =>
    rw [List.foldl_cons, ih, show Nat.lor m (2 ^ x) = m ||| 2 ^ x from rfl, Nat.testBit_or, Nat.testBit_two_pow]
    simp [Bool.or_assoc, eq_comm]

/-- A self-test at a command boundary fences the sub-arrays that fail it. -/
theorem exec_latticeSelfTest_of_boundary (hcmd : s.inCommand (s.argN 0) = false) :
    ∃ u, exec .latticeSelfTest s = .next u ∧ (u.cluster (s.argN 0)).ran = (s.cluster (s.argN 0)).ran + 1 ∧
      (∀ n, n < 8 → (u.cluster (s.argN 0)).fence.testBit n =
        ((s.cluster (s.argN 0)).fence.testBit n || (s.argN 1).testBit n)) := by
  have hexec : exec .latticeSelfTest s = .next (((maskBits (s.argN 1)).foldl (fun u n => u.latticeRecs (s.argN 0) n) s).modCluster
      (s.argN 0) (fun x => if (maskBits (s.argN 1)).isEmpty then
          { x with ran := x.ran + 1, tests := min (x.tests + 1) (2 ^ 32 - 1), since := 0, users := [] }
        else { x with ran := x.ran + 1, fence := (maskBits (s.argN 1)).foldl (fun m n => Nat.lor m (2 ^ n)) x.fence })) := by
    rw [exec_latticeSelfTest, execLatticeSelfTest]
    exact if_neg (by simp [hcmd])
  have hkeeps := State.foldl_keeps (fun u => u.cluster (s.argN 0)) (fun u n => State.latticeRecs_cluster u (s.argN 0) n (s.argN 0))
    (maskBits (s.argN 1)) s
  refine ⟨_, hexec, ?_, fun n hn => ?_⟩
  · rw [State.cluster_modCluster_same, hkeeps]
    split <;> rfl
  · rw [State.cluster_modCluster_same, hkeeps]
    have hmem : decide (n ∈ maskBits (s.argN 1)) = (s.argN 1).testBit n := by simp [mem_maskBits, hn]
    split
    · next he =>
      rw [List.isEmpty_iff.1 he] at hmem
      simp [← hmem]
    · rw [testBit_foldl_lor, hmem]

/-- A fenced sub-array returns to service. -/
theorem testBit_sub_two_pow {x n : Nat} (h : x / 2 ^ n % 2 = 1) : (x - 2 ^ n).testBit n = false := by
  have hdiv := Nat.sub_mul_div x (2 ^ n) 1
  rw [Nat.mul_one] at hdiv
  rw [Nat.testBit_eq_decide_div_mod_eq, hdiv]
  exact decide_eq_false (by omega)

theorem exec_apexLatticeRepair_clears : ∃ u, exec .apexLatticeRepair s = .next u ∧
    (u.cluster (s.argN 0)).fence.testBit (s.argN 1) = false ∧ u.mem = s.mem ∧ u.cores = s.cores := by
  refine ⟨_, rfl, ?_, rfl, rfl⟩
  rw [State.cluster_modCluster_same]
  split
  · next h => exact testBit_sub_two_pow h
  · next h => rw [Nat.testBit_eq_decide_div_mod_eq]; exact decide_eq_false h

end

/-- Settles O28: what each event of the unit does to its command, its tile or its sub-arrays. -/
theorem latticeWork : Obligations.LatticeWork := by
  unfold Obligations.LatticeWork
  refine ⟨fun s j aged m hq hm => ?_, fun s hq => ?_, fun s c m u m' s' hc hb hf hk hu => exec_tileFetchLine_of_got hc hb hf hk hu,
    fun s c m status s' u hc hb hf hk hu => exec_tileFetchLine_of_fail hc hb hf hk hu,
    fun s c m hc hb hf hk => exec_planePairExecute_of_poison hc hb hf hk,
    fun s c m hc hb hf hk hbl hpk hfirst hpois hfence hready => ?_, fun s c m => exec_mxdone_of_fin, exec_tileEccError_spoils,
    exec_latticeSelfTest_of_boundary, fun s hcmd => ?_, exec_apexLatticeRepair_clears⟩
  · rw [exec_latticeCommandStart, execLatticeCommandStart]
    simp only [hq, hm]
  · rw [exec_latticeCommandStart, execLatticeCommandStart]
    simp only [hq]
  · have hexec := exec_planePairExecute_goes hc hb hf hk hbl hpk hfirst hpois hfence hready
    intro p q r
    have hr : r = m.nextPair := rfl
    clear_value r
    subst hr
    refine ⟨fun hlt => hexec.trans (if_pos hlt), fun hle hmore ht => ?_, fun hle hlast => ?_⟩
    · refine ⟨_, hexec.trans ((if_neg (Nat.not_lt.2 hle)).trans (if_pos hmore)), rfl, ?_⟩
      rw [State.again, State.core_post, State.core_modCore_same]
      exact State.accumulated_tile s c ht
    · obtain ⟨hx, hk⟩ := LCmd.blockDone_counts m.nextPair.1
      exact ⟨s.accumulated c m.nextPair.1, m.nextPair.1.blockDone,
        hexec.trans ((if_neg (Nat.not_lt.2 hle)).trans (if_neg (Nat.not_lt.2 hlast))), rfl, hx, hk,
        fun ht => State.accumulated_tile s c ht⟩
  · rw [exec_latticeSelfTest, execLatticeSelfTest]
    exact if_pos hcmd

end Sys2Proof.Machine
end

section
/-!
SUPPORT. The trap of an instruction that names no stream region (R212, R236): O29.
-/
namespace Sys2Proof.Machine
open Sys2Proof

/-! ### A SAFREE of an address where no region begins -/

/-- A thread in slot 0 of core 0 whose tenant has a trap handler and no region. -/
def noRegion : State := (State.reset.withFetchWord 16 0x0400).modTenant 0 (fun x => { x with trapvec := 16 })

def noRegionFields : Fields := ⟨0, 0, 0, false, false, false, false, 0, 0, 0, 0, 0⟩

theorem goes_noRegion : Goes (.safree noRegionFields) noRegion 0 0 (fetchThread 0) := by
  unfold Goes
  decide

/-- The auxiliary word that the trap handler of slot 0 of core 0 reads. -/
def State.handlerAux (s : State) : Option Word := (s.thread? 0 0).map (fun t => t.trap.aux)

/-- The class of the misuse stands in the auxiliary word by itself, with no subcause. -/
theorem handlerAux_noRegion {u : State} (h : exec (.safree noRegionFields) noRegion = .next u) :
    u.handlerAux = some (w64 (3 * 2 ^ 56)) := by
  rw [exec_safree, execSafree, globalOp, issue_goes goes_noRegion] at h
  cases h
  decide

/-- Refutes O29: the trap of a SAFREE that names no region has misuse class 3, not class 4 with subcause 3. -/
theorem not_streamInstructions : ¬ Obligations.StreamInstructions := by
  unfold Obligations.StreamInstructions
  rintro ⟨-, hfree, -⟩
  have hexec := (hfree noRegionFields noRegion 0 0 (fetchThread 0) goes_noRegion (by decide)).1 (by decide)
  exact absurd (handlerAux_noRegion hexec) (by decide)

end Sys2Proof.Machine
end

section
/-!
SUPPORT. The work of the stream accumulator (R197, R199, R206, R211): O30.
-/
namespace Sys2Proof.Machine
open Sys2Proof

/-! ### Adds and reports of saturation -/

section
variable {s : State}

theorem exec_streamAddApply_of_none (hf : s.flights.find? (fun f => f.id = s.argN 0) = none) :
    exec .streamAddApply s = .next s := by
  rw [exec_streamAddApply, execStreamAddApply]
  simp only [hf]

/-- An add by a thread that is gone, applied without saturation. -/
theorem exec_streamAddApply_of_applied {f : Flight} {src : Nat} {rel : Bool} {s' : State} {ot : Bool}
    (hf : s.flights.find? (fun f => f.id = s.argN 0) = some f) (hkind : f.entry.kind = .streamAdd src rel)
    (hth : s.sameThread f.core f.entry.slot f.entry.inc = none)
    (hadd : s.streamAdd (s.tenantOn f.core) f.entry.va src (f.entry.deltas src) (f.entry.data.any (fun d => d.t)) false f.id =
      .applied s' none ot) :
    exec .streamAddApply s = .next ((({ s' with flights := s'.flights.filter (fun g => g.id ≠ f.id) } : State).countHot
      (f.core / 8) (s.tenantOn f.core) f.entry.leaf).demand (f.core / 8) f.entry.va) := by
  rw [exec_streamAddApply, execStreamAddApply]
  simp only [hf, hkind, hth, hadd]

theorem exec_saovf_of_none (hth : s.sameThread (s.argN 0) (s.argN 1) (s.argN 2) = none) : exec .saovf s = .next s := by
  rw [exec_saovf, execSaovf]
  simp only [hth]

theorem exec_saovf_of_first {t : Thread} (hth : s.sameThread (s.argN 0) (s.argN 1) (s.argN 2) = some t)
    (hsa : t.saovf = none) : exec .saovf s = .next (s.setThread (s.argN 0) (s.argN 1)
      { t with saovf := some ⟨0x0E, (s.argW 0).v, (s.argW 1).v, t.trap.tip⟩ }) := by
  rw [exec_saovf, execSaovf]
  simp only [hth, hsa]
  rfl

/-! ### The order of those that wait for a row -/

section
variable {tn i r : Nat} {g : SRegion} {key : Nat}

/-- Behind another, an add or a snapshot waits. -/
theorem State.rowReady_of_behind {w : Nat} (hw : ((g.rowAt r).wait.filter s.awaits).head? = some w) (hne : w ≠ key) (b : Bool) :
    ∃ u, s.rowReady tn i r g b key = .later u ∧ u.mem = s.mem := by
  unfold State.rowReady
  simp only [hw, Option.getD_some]
  rw [if_pos hne]
  exact ⟨_, rfl, rfl⟩

/-- In front, it is served from a row that is resident, or poisoned. -/
theorem State.rowReady_of_first (hfirst : ∀ w, ((g.rowAt r).wait.filter s.awaits).head? = some w → w = key)
    (hrow : (g.rowAt r).p = true ∨ (g.rowAt r).res = true) (b : Bool) :
    s.rowReady tn i r g b key = .ready (s.setRow tn i r { g.rowAt r with
      wait := ((g.rowAt r).wait.filter s.awaits).filter (fun w => w ≠ key) }) := by
  have hhead : ((g.rowAt r).wait.filter s.awaits).head?.getD key = key := by
    rcases hh : ((g.rowAt r).wait.filter s.awaits).head? with _ | w
    · rfl
    · exact hfirst w hh
  unfold State.rowReady
  simp only [hhead]
  rw [if_neg (by simp), if_pos (by simpa using hrow)]

end

/-! ### Snapshots -/

/-- A SAREAD to registers has no target banks. -/
theorem State.panelCores_of_lanes (tn : Nat) {o : Op} {f : Fields} (hins : o.ins = .saread f) (hlo : f.lo = 0) :
    s.panelCores tn o = [] := by
  rw [State.panelCores, if_neg]
  simp [Op.panel, hins, hlo]

/-- A row of a SAREAD of FP32 elements, resident and without a NaN or an inexact element. -/
theorem exec_radiusSnapshot_of_lanes {t : Thread} {o : Op} {f : Fields} {j : Nat} {a : Access} {i : Nat} {g : SRegion}
    {s' : State} (ho : s.opOf (s.argN 0) (s.argN 1) (s.argN 2) = some (t, o)) (hins : o.ins = .saread f) (hlo : f.lo = 0)
    (hacc : o.pendingAcc = some (j, a)) (hreg : (s.tenant t.tenant).streamAt a.addr = some (i, g))
    (hready : s.rowReady t.tenant i (g.row? a.addr) g false o.id = .ready s') {s1 : State}
    (hs1 : s1 = (s'.countHot (s.argN 0 / 8) t.tenant (s'.argW 0).v).demand (s.argN 0 / 8) a.addr) {x : Row}
    (hx : x = s'.rowOf t.tenant i (g.row? a.addr)) {r : List (Nat × Nat)}
    (hr : r = portLanes fp32 (g.port x.snap (g.col? a.addr) 16) 16) (hp : x.p = false) (hres : x.res = true)
    (hfl : orFlags (r.map Prod.snd) = 0) :
    exec .radiusSnapshot s = .next ((s1.setRow t.tenant i (g.row? a.addr) { x with used := s1.now }).opNext (s.argN 0)
      (s.argN 1) (({ o with data := (packElems 32 (r.map Prod.fst)).map (fun v => (⟨w64 v, x.t || o.ataint⟩ : TWord)) } : Op).perform
        j TWord.zero)) := by
  rw [exec_radiusSnapshot, execRadiusSnapshot]
  simp only [ho, hacc, State.panelCores_of_lanes _ hins hlo, hins, hreg, hready, ← hx, ← hs1]
  rw [if_neg (by simp), if_neg (by simp), if_neg (by simp [hp]), if_pos hres, if_neg (by omega), State.lanesRow, hlo]
  simp only [Nat.zero_ne_one, if_false, ← hr, hfl, if_true, hins]

/-! ### Images -/

theorem findSome?_eq_none_of {α β : Type} {l : List α} {g : α → Option β} (h : ∀ x ∈ l, g x = none) : l.findSome? g = none :=
  List.findSome?_eq_none_iff.2 h

/-- A row leaves to its slot. -/
theorem exec_rowEviction_of_lines {g : SRegion} {fmt : Nat} {ls : List Nat}
    (hg : SMap.get? (s.tenant (s.argN 0)).streams (s.argN 1) = some g) (hfmt : (g.rowAt (s.argN 2)).fmt = some fmt)
    (hls : s.engineLines (s.argN 0) 3 (8 * (s.tenant (s.argN 0)).rowHome (s.argN 1) (s.argN 2) g)
      (rowSlot (s.argN 0) (s.argN 1) (s.argN 2)) (g.slotVa (s.argN 2)) 5 (slotBytes g.len / 128) = .ok ls)
    (hgate : ∀ l ∈ ls, s.homeGate (128 * l) 128 true = none) {x : Row} (hx : x = { g.rowAt (s.argN 2) with
      version := ((g.rowAt (s.argN 2)).version + 1) % 2 ^ 64, res := false, img := true, fmt := none }) {ws : List TWord}
    (hws : ws = (wordsOfBytes (slotBytes g.len) (x.image g.len fmt)).map (fun v => (⟨w64 v, x.t⟩ : TWord))) :
    exec .rowEviction s = .next (((ls.zipIdx.foldl (fun (s : State) p =>
      s.putLine p.1 ((ws.drop (16 * p.2)).take 16)) s).setRow (s.argN 0) (s.argN 1) (s.argN 2)
        { Row.new with img := true, wait := (g.rowAt (s.argN 2)).wait }).evicted (s.argN 0) (s.argN 1) (s.argN 2) true) := by
  subst hws hx
  rw [exec_rowEviction, execRowEviction]
  simp only [hg, hfmt, hls, findSome?_eq_none_of hgate]

/-- A row comes back from its slot. -/
theorem exec_rowReload_of_lines {g : SRegion} {ls : List Nat}
    (hg : SMap.get? (s.tenant (s.argN 0)).streams (s.argN 1) = some g) (hres : (g.rowAt (s.argN 2)).res = false)
    (hp : (g.rowAt (s.argN 2)).p = false) (himg : (g.rowAt (s.argN 2)).img = true)
    (hroom : (s.tenant (s.argN 0)).roomFor (s.argN 1) (s.argN 2) g = true)
    (hls : s.engineLines (s.argN 0) 3 (8 * (s.tenant (s.argN 0)).rowHome (s.argN 1) (s.argN 2) g)
      (rowSlot (s.argN 0) (s.argN 1) (s.argN 2)) (g.slotVa (s.argN 2)) 4 (slotBytes g.len / 128) = .ok ls)
    (hgate : ∀ l ∈ ls, s.homeGate (128 * l) 128 false = none) (hpois : ∀ l ∈ ls, s.mem.poisoned l = false) {s1 : State}
    (hs1 : s1 = ls.foldl (fun (s : State) l => s.applyAdds (128 * l) 128) s) :
    exec .rowReload s = .next (s1.setRow (s.argN 0) (s.argN 1) (s.argN 2)
      { rowOfImage g.len (ls.flatMap s1.lineBytes) (ls.any s1.lineTaint) with
        used := s1.now, wait := (g.rowAt (s.argN 2)).wait }) := by
  have hclean : ls.any (fun l => s.mem.poisoned l) = false := by simpa using hpois
  rw [exec_rowReload, execRowReload]
  simp only [hg, hls, findSome?_eq_none_of hgate, ← hs1]
  rw [if_neg (by simp [hres, hp, himg]), if_neg (by simp [hroom]), if_neg (by simp [hclean])]

theorem exec_sadone_of_evict {e : Evict}
    (he : (s.tenant (s.argN 0)).evicts.find? (fun e => e.id = s.argN 1) = some e) {u : State}
    (hu : u = s.setTenant (s.argN 0) { s.tenant (s.argN 0) with
      evicts := (s.tenant (s.argN 0)).evicts.filter (fun x => x.id ≠ e.id) }) :
    exec .sadone s =
      .next (u.engineMsg ((u.tidCore e.owner).getD 0) e.owner e.owner 0x07 e.status 0 ⟨w64 e.count, false⟩) := by
  subst hu
  rw [exec_sadone, execSadone]
  simp only [he]
  rfl

end

/-- Settles O30: each event with what it finds, and the order of those that wait for a row. -/
theorem streamWork : Obligations.StreamWork := by
  unfold Obligations.StreamWork
  exact ⟨fun s f src rel s' ot => exec_streamAddApply_of_applied, fun s => exec_streamAddApply_of_none,
    fun s tn i r g key => ⟨fun w hw hne => State.rowReady_of_behind hw hne, fun hf hrow => State.rowReady_of_first hf hrow⟩,
    fun s t => exec_saovf_of_first, fun s => exec_saovf_of_none,
    fun s t o f j a i g s' ho hins hlo hacc hreg hready => exec_radiusSnapshot_of_lanes ho hins hlo hacc hreg hready rfl rfl rfl,
    fun s g fmt ls hg hfmt hls hgate => exec_rowEviction_of_lines hg hfmt hls hgate rfl rfl,
    fun s g ls hg hres hp himg hroom hls hgate hpois => exec_rowReload_of_lines hg hres hp himg hroom hls hgate hpois rfl,
    fun s e he => exec_sadone_of_evict he rfl⟩

end Sys2Proof.Machine
end

section
/-!
SUPPORT. Delivery of traps, software traps and the return from a trap (R238, R242, R247): O31.
-/
namespace Sys2Proof.Machine
open Sys2Proof

section
variable {f : Fields} {s : State} {c k : Nat} {t : Thread}

@[simp] theorem State.leaveLine_tid (s : State) (c d k : Nat) (t q : Thread) : (s.leaveLine c t).tid d k q = s.tid d k q := by
  simp only [State.tid, State.tidAt, State.leaveLine_tenant]

/-- A double trap, or one without a handler, stops the thread (R238, R242). -/
theorem State.deliver_of_double (h : s.thread? c k = some t) (hd : t.trap.tip = true ∨ (s.tenant t.tenant).trapvec = 0)
    (tr : Trap) :
    s.deliver c k tr = ((s.leaveLine c t).setThread c k { t with run := .stopped false }).faultRec t.tenant
      (recWord 7 (tr.code * 2 ^ 48)) (s.tid c k t) := by
  simp only [State.deliver, h]
  rw [if_pos (by simpa using hd), State.leaveLine_tid]

/-- Otherwise the handler runs (R238). -/
theorem State.deliver_of_handler (h : s.thread? c k = some t) (htip : t.trap.tip = false)
    (hvec : (s.tenant t.tenant).trapvec ≠ 0) (tr : Trap) :
    s.deliver c k tr = (s.leaveLine c t).withThread c k { t.afresh with
      trap := { t.trap with pc := w64 t.pc, code := w64 tr.code, addr := tr.addr, aux := tr.aux, pk := t.priv, tip := true }
      priv := true, pc := (s.tenant t.tenant).trapvec.toNat / 2 * 2, run := .ready } (s.core c).rf := by
  simp only [State.deliver, h]
  rw [if_neg (by simpa [htip] using hvec), State.setThread_eq_withThread, State.leaveLine_core]

/-- With no operation outstanding the trap is delivered at once (R38). -/
theorem State.raiseAt_of_idle (h : s.thread? c k = some t) (hops : t.ops = []) (code : Nat) (addr aux : Word) (resume : Nat) :
    s.raiseAt c k code addr aux resume = ((s.settle c k).goto c k resume).deliver c k ⟨code, addr, aux, t.trap.tip⟩ := by
  simp only [State.raiseAt, h]
  rw [if_pos (by simp [hops])]

/-- A thread that waits for its operations, with a trap to take at `pc` then. -/
def Thread.trapHeld (t : Thread) (pc : Nat) (tr : Trap) : Thread := { t.afresh with pc := pc, pend := some tr, run := .wait .opsDone }

/-- With operations outstanding the trap waits for them (R38). -/
theorem State.raiseAt_of_busy (h : s.thread? c k = some t) (hops : t.ops ≠ []) (code : Nat) (addr aux : Word) (resume : Nat) :
    s.raiseAt c k code addr aux resume =
      (s.withThread c k (t.trapHeld resume ⟨code, addr, aux, t.trap.tip⟩) (s.core c).rf).post [evt .trapDelivery [c, k]] := by
  simp only [State.raiseAt, h]
  rw [if_neg (by simpa using hops), State.settle, State.modThread_eq h, State.withThread_modThread]
  rfl

/-- The return from a trap (R247). -/
theorem exec_rett_of_even (h : Goes (.rett f) s c k t) (he : t.trap.pc.toNat % 2 = 0) :
    exec (.rett f) s = .next (s.withThread c k { t.done t.trap.pc.toNat s.nextId with
      priv := t.trap.pk, trap := { t.trap with tip := false } } (s.core c).rf) := by
  rw [exec_rett, execRett, issue_goes h, if_neg (by omega), State.settle, State.modThread_eq h.thread?, State.retTrap,
    State.withThread_modThread, State.shortened_of_settled (State.withThread_thread? ..) rfl, State.withThread_withThread]
  rfl

theorem exec_rett_of_odd (h : Goes (.rett f) s c k t) (ho : t.trap.pc.toNat % 2 = 1) :
    exec (.rett f) s = .next (s.trapped c k t 0x13 t.trap.pc 0) := by
  rw [exec_rett, execRett, issue_goes h, if_pos ho]
  rfl

end

/-- Settles O31: a trap's delivery is a double trap's or a handler's, at once or after the thread's operations. -/
theorem traps : Obligations.Traps := by
  unfold Obligations.Traps
  refine ⟨fun s c k t tr h => ⟨fun hd => State.deliver_of_double h hd tr, fun htip hvec => State.deliver_of_handler h htip hvec tr,
      State.leaveLine_mem s c t, State.leaveLine_core s c t⟩, ?_, ?_,
    fun s c k t code addr aux resume h hops => State.raiseAt_of_idle h hops code addr aux resume, ?_,
    fun f s c k t h => ⟨exec_rett_of_odd h, exec_rett_of_even h⟩⟩
  · intro f s c k t h
    rw [exec_trap, execTrap, issue_goes h]
    rfl
  · intro f s c k t h
    rw [exec_svcall, execSvcall, issue_goes h]
    rfl
  · intro s c k t code addr aux resume h hops
    exact ⟨_, State.raiseAt_of_busy h hops code addr aux resume, State.sameStores_setThread s c k _, _,
      State.withThread_thread? .., rfl, rfl, rfl, rfl, rfl, rfl, rfl, rfl, rfl, rfl, rfl, rfl, rfl⟩

end Sys2Proof.Machine
end

section
/-!
SUPPORT. Reading and writing system registers (R157, R241, R242): O32.
-/
namespace Sys2Proof.Machine
open Sys2Proof

section
variable {f : Fields} {s : State} {c k : Nat} {t : Thread}

theorem exec_rdsr_goes (h : Goes (.rdsr f) s c k t) :
    exec (.rdsr f) s = .next (s.answers s c k t f (s.sysRead c t f.imm.toNat)) := by
  rw [exec_rdsr, execRdsr]
  exact issue_answers h rfl rfl

theorem State.readVals_wrsr (hf : plainFields f) (s : State) (c k : Nat) (t : Thread) :
    ∃ v, s.readVals (.wrsr f) c k t f = (v, s) ∧ v.d = s.getG c t f.d :=
  ⟨_, State.readVals_plain (fo := ⟨.K, .no, .none, .rd, .none, .none, .unsigned⟩) rfl hf s c k t, rfl⟩

/-- The state in which the system register `n` of the thread, its tenant or its cluster has been written. -/
def State.sysWritten (s : State) (c k : Nat) (t : Thread) (n : Nat) (v : Word) : State :=
  let u := (s.withThread c k (t.sysWrite n v) (s.core c).rf).modTenant t.tenant (fun x => x.sysWrite n v)
  if n = 15 then u.modCluster (c / 8) (fun x => { x with mxwgt := w64 (v.toNat % 2 ^ 32) }) else u

theorem State.sysWritten_core (n : Nat) (v : Word) (d : Nat) :
    (s.sysWritten c k t n v).core d = (s.withThread c k (t.sysWrite n v) (s.core c).rf).core d := by
  unfold State.sysWritten
  split <;> rfl

theorem State.sysWritten_thread? (n : Nat) (v : Word) : (s.sysWritten c k t n v).thread? c k = some (t.sysWrite n v) :=
  (State.thread?_congr (congrArg (fun x : Core => x.slot k) (State.sysWritten_core n v c))).trans (State.withThread_thread? ..)

theorem State.sysWritten_rf (n : Nat) (v : Word) (d : Nat) : ((s.sysWritten c k t n v).core d).rf = (s.core d).rf := by
  rw [State.sysWritten_core]
  exact ((State.sameStores_setThread s c k (t.sysWrite n v)).2.2.2 d).1

theorem State.sysWritten_mem (n : Nat) (v : Word) : (s.sysWritten c k t n v).mem = s.mem := by
  unfold State.sysWritten
  split <;> rfl

theorem State.sysWritten_next (n : Nat) (v : Word) : (s.sysWritten c k t n v).next = s.next := by
  unfold State.sysWritten
  split <;> rfl

theorem State.sysWritten_tenant (n : Nat) (v : Word) (tn : Nat) :
    (s.sysWritten c k t n v).tenant tn = if tn = t.tenant then (s.tenant tn).sysWrite n v else s.tenant tn := by
  have hset (x : Tenant) : ((s.withThread c k (t.sysWrite n v) (s.core c).rf).setTenant t.tenant x).tenant tn =
      if tn = t.tenant then x else s.tenant tn := State.tenant_setTenant ..
  unfold State.sysWritten
  split
  all_goals
    refine (hset _).trans (ite_congr rfl (fun htn => ?_) fun _ => rfl)
    rw [htn]
    rfl

theorem State.sysWritten_mxwgt (n : Nat) (v : Word) (cl : Nat) :
    ((s.sysWritten c k t n v).cluster cl).mxwgt =
      if cl = c / 8 ∧ n = 15 then w64 (v.toNat % 2 ^ 32) else (s.cluster cl).mxwgt := by
  unfold State.sysWritten
  split
  · next hn =>
    by_cases hcl : cl = c / 8
    · rw [if_pos ⟨hcl, hn⟩, hcl, State.cluster_modCluster_same]
    · rw [if_neg (by simp [hcl]), State.modCluster, State.cluster_setCluster_other _ _ _ _ hcl]
      rfl
  · next hn =>
    rw [if_neg (by simp [hn])]
    rfl

/-- A write of a register that has no effect of its own (R242). -/
theorem exec_wrsr_of_register (hf : plainFields f) (h : Goes (.wrsr f) s c k t) (h10 : f.imm.toNat ≠ 10)
    (h11 : f.imm.toNat ≠ 11) (h16 : f.imm.toNat ≠ 16) {u : State}
    (hu : s.sysWritten c k t f.imm.toNat (s.getG c t f.d).v = u) :
    exec (.wrsr f) s = .next (u.withThread c k ((t.sysWrite f.imm.toNat (s.getG c t f.d).v).done s.next s.nextId)
      (u.core c).rf) := by
  obtain ⟨v, hr, hv⟩ := State.readVals_wrsr hf s c k t
  rw [exec_wrsr, execWrsr, issue_goes h]
  simp only [hr, hv, if_neg h10, if_neg h11, if_neg h16]
  rw [State.modThread_eq h.thread?]
  subst hu
  exact congrArg Host.Outcome.next ((State.finish_shortened (State.sysWritten_thread? ..) _ _).trans
    (by rw [State.sysWritten_next]))

/-- PFRESP (R56, R60): the runtime's answer to a fault. -/
theorem exec_wrsr_of_answer (hf : plainFields f) (h : Goes (.wrsr f) s c k t) (hn : f.imm.toNat = 10) :
    exec (.wrsr f) s = .next (((s.answerFault t.tenant (s.getG c t f.d).v).finish c k).shortened c k t.pc s.nextId) := by
  obtain ⟨v, hr, hv⟩ := State.readVals_wrsr hf s c k t
  rw [exec_wrsr, execWrsr, issue_goes h]
  simp only [hr, hv, if_pos hn]

/-- The core without its litmus hold (R261). -/
def Core.unheld (x : Core) : Core := { x with lthold := false }

/-- Clearing LTHOLD completes at once. -/
theorem exec_wrsr_of_unheld (hf : plainFields f) (h : Goes (.wrsr f) s c k t) (hn : f.imm.toNat = 16)
    (hv0 : (s.getG c t f.d).v.getLsbD 0 = false) {u : State} (hu : (s.modCore c Core.unheld).post [evt .ltholdClear [c]] = u) :
    exec (.wrsr f) s = .next (u.withThread c k (t.done s.next s.nextId) (u.core c).rf) := by
  obtain ⟨v, hr, hv⟩ := State.readVals_wrsr hf s c k t
  have hbit : (s.getG c t f.d).v.bits 0 0 = 0 := by
    have := Word.bits_one (s.getG c t f.d).v 0
    rw [hv0, decide_eq_false_iff_not] at this
    have hlt : (s.getG c t f.d).v.bits 0 0 < 2 := Nat.mod_lt _ (by decide)
    omega
  have hthread : u.thread? c k = some t := by
    subst hu
    exact (State.thread?_modCore s c Core.unheld (fun _ => rfl) c k).trans h.thread?
  have hnext : u.next = s.next := by subst hu; rfl
  rw [exec_wrsr, execWrsr, issue_goes h]
  simp only [hr, hv, hn, hbit, if_pos, if_neg (show ¬(16 = 10) by decide), if_neg (show ¬(16 = 11) by decide)]
  rw [← hnext, ← State.finish_shortened hthread t.pc s.nextId, ← hu]
  rfl

end

/-! ### The registers' writes, one by one -/

theorem Thread.sysWrite_of_other (t : Thread) (v : Word) : ∀ n, 7 < n → t.sysWrite n v = t
  | _ + 8, _ => rfl

theorem Tenant.sysWrite_of_low (x : Tenant) (v : Word) {n : Nat} (h : n < 8) : x.sysWrite n v = x := by
  interval_cases n <;> rfl

theorem Tenant.sysWrite_of_high (x : Tenant) (v : Word) : ∀ n, 20 < n → x.sysWrite n v = x
  | _ + 21, _ => rfl

theorem savesizeOk_iff (v : Word) : savesizeOk v = true ↔ v = 0 ∨ (v.toNat % 4096 = 0 ∧ 0x11000 ≤ v.toNat) := by
  simp [savesizeOk]

/-- A write of TRAPSTAT (R237). -/
theorem Thread.sysWrite_stat (t : Thread) (v : Word) :
    t.sysWrite 1 v = { t with trap := { t.trap with pk := v.getLsbD 1, tip := v.getLsbD 0 } } := by
  simp only [Thread.sysWrite, Word.bits_one]

/-- The complement of the low five bits. -/
theorem testBit_not_five (x n : Nat) (hx : x < 32) : (31 - x).testBit n = (decide (n < 5) && !x.testBit n) := by
  rw [show 31 - x = 2 ^ 5 - (x + 1) by omega]
  exact Nat.testBit_two_pow_sub_succ hx n

theorem Word.testBit_bits (w : Word) (hi lo i : Nat) :
    (w.bits hi lo).testBit i = (decide (i < hi - lo + 1) && w.getLsbD (lo + i)) := by
  rw [Word.bits, bitsOf, Nat.testBit_mod_two_pow, Nat.testBit_div_two_pow, Nat.add_comm i lo]
  rfl

/-- FPSTAT takes the enables, and a 1 clears a sticky flag (R157). -/
theorem getLsbD_fpstatWrite (old new : Word) (n : Nat) : (fpstatWrite old new).getLsbD n =
    if n < 5 then old.getLsbD n && !new.getLsbD n else decide (n < 10) && new.getLsbD n := by
  have hlow : Nat.land (old.bits 4 0) (31 - new.bits 4 0) < 2 ^ 5 :=
    Nat.lt_of_le_of_lt Nat.and_le_left (Nat.mod_lt _ (by decide))
  have hnew : new.bits 4 0 < 32 := Nat.mod_lt _ (by decide)
  have hword : fpstatWrite old new = w64 (2 ^ 5 * new.bits 9 5 + Nat.land (old.bits 4 0) (31 - new.bits 4 0)) := by
    rw [Nat.mul_comm]
    rfl
  rw [hword, w64, BitVec.getLsbD_ofNat, Nat.testBit_two_pow_mul_add _ hlow]
  by_cases hn : n < 5
  · have hand : (Nat.land (old.bits 4 0) (31 - new.bits 4 0)).testBit n =
        ((old.bits 4 0).testBit n && (31 - new.bits 4 0).testBit n) := Nat.testBit_and ..
    have h64 : n < 64 := by omega
    rw [if_pos hn, if_pos hn, hand, testBit_not_five _ _ hnew]
    rw [Word.testBit_bits, Word.testBit_bits]
    simp only [hn, h64, decide_true, Bool.true_and, Nat.zero_add, show 4 - 0 + 1 = 5 from rfl]
  · rw [if_neg hn, if_neg hn, Word.testBit_bits]
    have h5 : 5 + (n - 5) = n := by omega
    simp only [h5, show n - 5 < 9 - 5 + 1 ↔ n < 10 by omega]
    by_cases h10 : n < 10
    · rw [decide_eq_true (show n < 64 by omega), Bool.true_and]
    · simp only [h10, decide_false, Bool.false_and, Bool.and_false]

theorem Tenant.sysWrite_savesize (x : Tenant) (v : Word) :
    (v = 0 ∨ (v.toNat % 4096 = 0 ∧ 0x11000 ≤ v.toNat) → x.sysWrite 13 v = { x with savesize := v }) ∧
    (v ≠ 0 → v.toNat % 4096 ≠ 0 ∨ v.toNat < 0x11000 → x.sysWrite 13 v = x) := by
  refine ⟨fun h => if_pos ((savesizeOk_iff v).2 h), fun h0 h => if_neg ?_⟩
  rw [savesizeOk_iff]
  rintro (hv | ⟨hmod, hsize⟩)
  · exact h0 hv
  · omega

/-- Settles O32: each register's read, and each write's effect on the thread, its tenant and its cluster. -/
theorem systemRegisters : Obligations.SystemRegisters := by
  unfold Obligations.SystemRegisters
  refine ⟨?_, ?_, ?_, ?_, ?_⟩
  · intro f s c k t h
    refine ⟨_, exec_rdsr_goes h, ?_⟩
    refine ⟨?_, ?_, ?_, ?_, ?_, ?_, ?_, ?_, ?_, ?_, ?_, ?_, ?_, ?_, ?_, ?_, ?_, ?_, ?_⟩
    case refine_11 =>
      rintro (hi | hi) <;> rw [hi] <;> rfl
    case refine_18 =>
      intro n hn hi
      rw [hi]
      interval_cases n <;> rfl
    all_goals
      intro hi
      rw [hi]
      rfl
  · intro f s c k t hf h h10 h11 h16
    have hn (n : Nat) (hn : 0 < n) (hi : f.imm ≠ n) : f.imm.toNat ≠ n := by omega
    have h15 : f.imm.toNat = 15 ↔ f.imm = 15 := by omega
    refine ⟨_, _, exec_wrsr_of_register hf h (hn 10 (by decide) h10) (hn 11 (by decide) h11) (hn 16 (by decide) h16) rfl,
      State.withThread_thread? .., State.sysWritten_mem .., fun d => ?_, rfl, State.sysWritten_tenant _ _, fun cl => ?_⟩
    · exact ((State.sameStores_setThread _ c k _).2.2.2 d).1.trans (State.sysWritten_rf ..)
    · simp only [← h15]
      exact State.sysWritten_mxwgt ..
  · intro t x v
    obtain ⟨h13, h13'⟩ := Tenant.sysWrite_savesize x v
    exact ⟨rfl, Thread.sysWrite_stat t v, rfl, rfl, rfl, rfl, rfl, Thread.sysWrite_of_other t v,
      fun n h => Tenant.sysWrite_of_low x v h, rfl, rfl, rfl, h13, h13', rfl, Tenant.sysWrite_of_high x v,
      getLsbD_fpstatWrite t.fpstat v⟩
  · intro f s c k t hf h hi
    exact exec_wrsr_of_answer hf h (by rw [hi]; rfl)
  · intro f s c k t hf h hi hv
    refine ⟨_, exec_wrsr_of_unheld hf h (by rw [hi]; rfl) hv rfl, ?_, rfl, _, State.withThread_thread? .., rfl⟩
    rw [State.withThread_core_same, State.core_post, State.core_modCore_same]
    rfl

end Sys2Proof.Machine
end

section
/-!
SUPPORT. Saving and loading a thread; failed and repaired cores (R245, R246, R248): O33.
-/
namespace Sys2Proof.Machine
open Sys2Proof

/-! ### CTXSV -/

section
variable {f : Fields} {s : State} {c k : Nat} {t : Thread}

theorem State.readVals_ctxsv (hf : plainFields f) (s : State) (c k : Nat) (t : Thread) :
    ∃ v, s.readVals (.ctxsv f) c k t f = (v, s) ∧ v.d = s.getG c t f.d :=
  ⟨_, State.readVals_plain (fo := ⟨.A, .no, .none, .rw, .none, .none, .none⟩) rfl hf s c k t, rfl⟩

theorem State.readVals_ctxld (hf : plainFields f) (s : State) (c k : Nat) (t : Thread) :
    ∃ v, s.readVals (.ctxld f) c k t f = (v, s) ∧ v.d = s.getG c t f.d :=
  ⟨_, State.readVals_plain (fo := ⟨.A, .no, .none, .rw, .none, .none, .none⟩) rfl hf s c k t, rfl⟩

/-- The slot that CTXSV saves holds a thread, and is another one. -/
theorem State.saveSlot_eq {tn : Nat} {id : Word} {j : Nat} {u : Thread} (h : s.saveSlot c k tn id = some (j, u)) :
    s.thread? c j = some u ∧ j ≠ k := by
  unfold State.saveSlot at h
  dsimp only at h
  split at h
  · cases h
  · next hid =>
    split at h
    · next u' hu =>
      split at h
      · cases h
        refine ⟨hu, fun hjk => hid ?_⟩
        simp [hjk]
      · cases h
    · cases h

theorem exec_ctxsv_of_none (hf : plainFields f) (h : Goes (.ctxsv f) s c k t) (ha : t.answer = none)
    (hslot : s.saveSlot c k t.tenant (s.getG c t f.d).v = none) :
    exec (.ctxsv f) s = .next (s.wrote c k t f.d ⟨1, false⟩ s.next) := by
  obtain ⟨v, hr, hv⟩ := State.readVals_ctxsv hf s c k t
  rw [exec_ctxsv, execCtxsv, answered_of_goes h ha, issue_goes h]
  simp only [hr, hv, hslot, hf.1]
  exact congrArg Host.Outcome.next (State.setG_finish_shortened h.thread? ..)

/-- The thread of slot `k` waits for the save of slot `j`. -/
def Thread.saving (t : Thread) (j : Nat) : Thread := { t with run := .wait (.save j), want := some (.save j) }

/-- The thread is asked to stop so that it can be saved. -/
def Thread.toSave (u : Thread) (r : Nat) : Thread := { u with stopReq := r }

theorem exec_ctxsv_of_slot (hf : plainFields f) (h : Goes (.ctxsv f) s c k t) (ha : t.answer = none) {j : Nat} {u : Thread}
    (hslot : s.saveSlot c k t.tenant (s.getG c t f.d).v = some (j, u)) :
    ∃ r, (r = 1 ∨ r = 3) ∧ exec (.ctxsv f) s = .next ((((s.setThread c j (u.toSave r)).modThread c k (Thread.saving · j)).post
      [evt .stopTakesEffect [c, j], evt .contextSaveComplete [c, j]]).shortened c k t.pc s.nextId) := by
  obtain ⟨v, hr, hv⟩ := State.readVals_ctxsv hf s c k t
  rw [exec_ctxsv, execCtxsv, answered_of_goes h ha, issue_goes h]
  simp only [hr, hv, hslot]
  refine ⟨_, ?_, rfl⟩
  split
  · exact .inr rfl
  · split
    · exact .inr rfl
    · exact .inl rfl

theorem exec_ctxsv_of_answer {a : Answer} (h : Answered (.ctxsv f) s c k t a) :
    exec (.ctxsv f) s = .next (s.answers s c k t f ⟨w64 a.code, false⟩) := by
  rw [exec_ctxsv, execCtxsv, answered_of_answer h, State.answers_eq c k t f _ rfl]

/-- CTXSV asks the thread of the other slot to stop, and waits for its save. -/
theorem exec_ctxsv_asks (hf : plainFields f) (h : Goes (.ctxsv f) s c k t) (ha : t.answer = none) {j : Nat} {u : Thread}
    (hslot : s.saveSlot c k t.tenant (s.getG c t f.d).v = some (j, u)) :
    ∃ w v x, exec (.ctxsv f) s = .next w ∧ w.thread? c j = some v ∧ w.thread? c k = some x ∧ v.beingSaved = true ∧
      v = { u with stopReq := v.stopReq } ∧ x.run = .wait (.save j) ∧ x.pc = t.pc ∧ w.mem = s.mem ∧
      evt .contextSaveComplete [c, j] ∈ w.due := by
  obtain ⟨r, hrange, hexec⟩ := exec_ctxsv_of_slot hf h ha hslot
  obtain ⟨-, hjk⟩ := State.saveSlot_eq hslot
  have hk : (s.withThread c j (u.toSave r) (s.core c).rf).thread? c k = some t :=
    (State.withThread_thread?_other s _ _ (fun e => hjk (by cases e; rfl))).trans h.thread?
  have hother : ((c, j) : Nat × Nat) ≠ (c, k) := fun e => hjk (by cases e; rfl)
  rw [State.setThread_eq_withThread, State.modThread_eq hk,
    State.shortened_of_want (pc := t.pc) (t := t.saving j)
      ((State.thread?_post ..).trans (State.withThread_thread? ..)) rfl rfl] at hexec
  refine ⟨_, u.toSave r, t.saving j, hexec, ?_, State.withThread_thread? .., ?_, rfl, rfl, rfl, rfl, ?_⟩
  · rw [State.withThread_thread?_other _ _ _ hother, State.thread?_post, State.withThread_thread?_other _ _ _ hother,
      State.withThread_thread?]
  · obtain rfl | rfl := hrange <;> rfl
  · exact List.mem_append_right _ (by simp)

end

/-! ### CTXLD -/

@[simp] theorem State.abortPacket_next (s : State) (c p : Nat) (recorded : Bool) : (s.abortPacket c p recorded).next = s.next := by
  unfold State.abortPacket
  dsimp only
  split <;> rfl

@[simp] theorem State.releasePorts_next (s : State) (c k : Nat) : (s.releasePorts c k).next = s.next := by
  unfold State.releasePorts
  rw [State.modCore_next]
  refine State.foldl_keeps State.next (fun u p => ?_) _ s
  dsimp only
  split
  · rw [State.modCore_next, State.abortPacket_next]
  · rfl

@[simp] theorem State.bounce_next (s : State) (c : Nat) (m : Msg) (status : Nat) : (s.bounce c m status).next = s.next := by
  unfold State.bounce
  split <;> rfl

@[simp] theorem State.endThread_next (s : State) (c k : Nat) (leave : Bool) : (s.endThread c k leave).next = s.next := by
  unfold State.endThread
  split
  · rfl
  · next t _ =>
    have hleave : (if leave then s.leaveGroup c k else s).next = s.next := by
      split
      · exact State.leaveGroup_next ..
      · rfl
    refine (State.foldl_keeps State.next (fun u m => ?_) t.mail _).trans ((State.releasePorts_next ..).trans hleave)
    split
    · rfl
    · exact State.bounce_next ..

@[simp] theorem State.discardThread_next (s : State) (c slot : Nat) (t : Thread) : (s.discardThread c slot t).next = s.next :=
  State.endThread_next ..

@[simp] theorem State.idleAgain_next (s : State) (c k : Nat) : (s.idleAgain c k).next = s.next := by
  unfold State.idleAgain
  split
  · split <;> rfl
  · rfl

@[simp] theorem State.install_next (s : State) (c slot : Nat) (t : Thread) (inc tn base : Nat) (fresh : Bool) :
    (s.install c slot t inc tn base fresh).next = s.next := by
  unfold State.install
  dsimp only
  rw [State.post_next, State.idleAgain_next]
  split
  · refine (State.modTenant_next ..).trans
      ((State.foldl_keeps State.next (fun u n => State.modCore_next u c _) _ _).trans ?_)
    rw [State.setGs_next]
    rfl
  · refine (State.foldl_keeps State.next (fun u n => State.modCore_next u c _) _ _).trans ?_
    rw [State.setGs_next]
    rfl

section
variable {f : Fields} {s : State} {c k : Nat} {t : Thread} {w : Word}

/-- No store of the core is on its way. -/
theorem State.noStores (hsb : (s.core c).sb = []) (hparked : (s.core c).parked = []) (hflights : ∀ y ∈ s.flights, y.core ≠ c) :
    ((s.core c).sb = [] ∧ (s.core c).parked = []) ∧ ∀ x ∈ s.flights, x.core = c → x.stage = 2 :=
  ⟨⟨hsb, hparked⟩, fun x hx e => absurd e (hflights x hx)⟩

theorem State.put_eq_wrote (hf : plainFields f) (h : s.thread? c k = some t) (v : TWord) :
    ((s.writeReg c k t f.d f.sd v).finish c k).shortened c k t.pc s.nextId = s.wrote c k t f.d v s.next := by
  rw [hf.1]
  exact State.setG_finish_shortened h ..

/-- Status 1: the operand is malformed. -/
theorem exec_ctxld_of_bad (hf : plainFields f) (h : Goes (.ctxld f) s c k t)
    (hw : (s.getG c t f.d).v = w) (hbad : w.bits 63 57 ≠ 0 ∨ w.bits 5 1 ≠ 0) :
    exec (.ctxld f) s = .next (s.wrote c k t f.d ⟨1, false⟩ s.next) := by
  obtain ⟨v, hr, hv⟩ := State.readVals_ctxld hf s c k t
  rw [exec_ctxld, execCtxld, issue_goes h]
  simp only [hr, hv, hw]
  rw [if_pos (by simpa using hbad)]
  exact congrArg Host.Outcome.next (State.put_eq_wrote hf h.thread? _)

section
variable (hf : plainFields f) (h : Goes (.ctxld f) s c k t) (hw : (s.getG c t f.d).v = w) (h63 : w.bits 63 57 = 0)
  (h5 : w.bits 5 1 = 0)
include hf h hw h63 h5

/-- Status 2: the slot holds another thread. -/
theorem exec_ctxld_of_live {v : Thread} (hocc : ((s.core c).slot (w.bits 11 6)).occ = .live v) :
    exec (.ctxld f) s = .next (s.wrote c k t f.d ⟨2, false⟩ s.next) := by
  obtain ⟨v, hr, hv⟩ := State.readVals_ctxld hf s c k t
  rw [exec_ctxld, execCtxld, issue_goes h]
  simp only [hr, hv, hw]
  rw [if_neg (by simp [h63, h5])]
  by_cases hbit : w.bits 0 0 = 1
  · rw [if_pos hbit]
    simp only [hocc]
    exact congrArg Host.Outcome.next (State.put_eq_wrote hf h.thread? _)
  · rw [if_neg hbit, if_pos (by simp [hocc])]
    exact congrArg Host.Outcome.next (State.put_eq_wrote hf h.thread? _)

/-- A saved thread is discarded. -/
theorem exec_ctxld_of_discard (hbit : w.bits 0 0 = 1) {u : Thread} {n : Nat}
    (hocc : ((s.core c).slot (w.bits 11 6)).occ = .reserved u (w.bits 56 12 * 4096) n) :
    exec (.ctxld f) s = .next ((s.discardThread c (w.bits 11 6) u).answers s c k t f TWord.zero) := by
  obtain ⟨v, hr, hv⟩ := State.readVals_ctxld hf s c k t
  rw [exec_ctxld, execCtxld, issue_goes h]
  simp only [hr, hv, hw, h63, h5, hocc, hbit]
  exact congrArg Host.Outcome.next (State.answers_eq c k t f TWord.zero (State.discardThread_next ..))

section
variable (hbit : w.bits 0 0 = 0) (hsb : (s.core c).sb = []) (hparked : (s.core c).parked = [])
  (hflights : ∀ y ∈ s.flights, y.core ≠ c) (hready : s.imageTry c k t (w.bits 56 12 * 4096) [0] = .ready)
  (htiles : ownedTiles (s.imageN t.tenant (w.bits 56 12 * 4096) 0x20) = [])
  (hslot : w.bits 11 6 ≠ 63)
  (hgran : bitsOf (s.imageN t.tenant (w.bits 56 12 * 4096) 0x20) 47 40 ≤ (s.core c).freeGran.length)
  (hahead : (s.core c).scopeAhead k t.since = false)
include hbit hsb hparked hflights hready htiles hslot hgran hahead

omit hslot in
/-- The thread whose image it is, saved before, is loaded again. -/
theorem exec_ctxld_of_saved {u : Thread} {n : Nat}
    (hocc : ((s.core c).slot (w.bits 11 6)).occ = .reserved u (w.bits 56 12 * 4096) n)
    (hok : s.imageOk t.tenant (w.bits 56 12 * 4096) (w.bits 11 6) false = true) :
    exec (.ctxld f) s = .next ((s.install c (w.bits 11 6) u u.inc u.tenant
      (w.bits 56 12 * 4096) false).answers s c k t f TWord.zero) := by
  obtain ⟨v, hr, hv⟩ := State.readVals_ctxld hf s c k t
  have hpages : s.imageTry c k t (w.bits 56 12 * 4096) (imagePages (([] : List Nat).contains 0) (([] : List Nat).contains 1)) =
    .ready := hready
  rw [exec_ctxld, execCtxld, issue_goes h]
  simp only [hr, hv, hw]
  rw [if_neg (by simp [h63, h5]), if_neg (by simp [hbit]), if_neg (by simp [hocc]),
    if_neg (by simpa using State.noStores hsb hparked hflights)]
  simp only [hready, htiles, hpages]
  rw [if_neg (by simp [hocc, hok]), if_neg (by simp [hocc]), if_neg (by simp), if_neg (by simp),
    if_neg (by simp [hgran, hahead])]
  simp only [hocc]
  exact congrArg Host.Outcome.next (State.answers_eq c k t f TWord.zero (State.install_next ..))

/-- A new thread is made from an image. -/
theorem exec_ctxld_of_vacant (hocc : ((s.core c).slot (w.bits 11 6)).occ = .vacant)
    (hok : s.imageOk t.tenant (w.bits 56 12 * 4096) (w.bits 11 6) true = true)
    (hzero : s.imageN t.tenant (w.bits 56 12 * 4096) 0 = 0) :
    exec (.ctxld f) s = .next ((s.install c (w.bits 11 6) (Thread.new t.tenant 0 ⟨0, [], 0, 0, 0, 0, false, 0⟩ [] [] s.now)
      (nextInc ((s.core c).slot (w.bits 11 6)).inc) t.tenant (w.bits 56 12 * 4096) true).answers s c k t f TWord.zero) := by
  obtain ⟨v, hr, hv⟩ := State.readVals_ctxld hf s c k t
  have hpages : s.imageTry c k t (w.bits 56 12 * 4096) (imagePages (([] : List Nat).contains 0) (([] : List Nat).contains 1)) =
    .ready := hready
  rw [exec_ctxld, execCtxld, issue_goes h]
  simp only [hr, hv, hw]
  rw [if_neg (by simp [h63, h5]), if_neg (by simp [hbit]), if_neg (by simp [hocc]),
    if_neg (by simpa using State.noStores hsb hparked hflights)]
  simp only [hready, htiles, hpages]
  rw [if_neg (by simp [hocc, hok]), if_neg (by simp [hzero]), if_neg (by simp), if_neg (by simp),
    if_neg (by simp [hgran, hahead]), if_neg hslot]
  simp only [hocc]
  exact congrArg Host.Outcome.next (State.answers_eq c k t f TWord.zero (State.install_next ..))

end
end
end

/-! ### The end of a save -/

section
variable {s : State} {u : Thread} (h : s.thread? (s.argN 0) (s.argN 1) = some u) (hsave : u.beingSaved = true)
include h hsave

theorem exec_contextSaveComplete_of_running (hrun : ∀ b, u.run ≠ .stopped b) :
    exec .contextSaveComplete s = .next (s.again .contextSaveComplete) := by
  rw [exec_contextSaveComplete, execContextSaveComplete]
  simp only [h]
  rw [if_neg (by simp [hsave])]

section
variable {b : Bool} (hrun : u.run = .stopped b) (hquiet : s.saveQuiet (s.argN 0) (s.argN 1) u = true)
include hrun hquiet

theorem exec_contextSaveComplete_of_segment
    (hseg : (u.seg 7).limit < 0x10800 ∨ (u.seg 7).has 'W' = false ∨ (u.seg 7).base % 4096 ≠ 0) :
    exec .contextSaveComplete s = .next (s.saveFails (s.argN 0) (s.argN 1) 2) := by
  rw [exec_contextSaveComplete, execContextSaveComplete]
  simp only [h, hrun]
  rw [if_neg (by simp [hsave]), if_neg (by simp [hquiet]), if_pos (by simpa [or_assoc] using hseg)]

section
variable (hlimit : 0x10800 ≤ (u.seg 7).limit) (hwrite : (u.seg 7).has 'W' = true) (hbase : (u.seg 7).base % 4096 = 0)
include hlimit hwrite hbase

theorem exec_contextSaveComplete_of_mail (hmail : 16 < (u.mail ++ u.held).length) :
    exec .contextSaveComplete s = .next (s.saveFails (s.argN 0) (s.argN 1) 3) := by
  rw [exec_contextSaveComplete, execContextSaveComplete]
  simp only [h, hrun]
  rw [if_neg (by simp [hsave]), if_neg (by simp [hquiet]), if_neg (by simp [hlimit, hwrite, hbase]), if_pos hmail]

theorem exec_contextSaveComplete_of_saved (hmail : (u.mail ++ u.held).length ≤ 16) {tr : Tr}
    (hpages : s.savePages u.tenant (s.argN 0) (s.argN 1) (u.seg 7).base (imagePages
      ((s.core (s.argN 0)).owns 0 (s.tid (s.argN 0) (s.argN 1) u)) ((s.core (s.argN 0)).owns 1 (s.tid (s.argN 0) (s.argN 1) u)))
      = .tr tr) :
    exec .contextSaveComplete s = .next ((s.reserve (s.argN 0) (s.argN 1) u (u.mail ++ u.held)).saved
      (s.argN 0) (s.argN 1) 0) := by
  rw [exec_contextSaveComplete, execContextSaveComplete]
  simp only [h, hrun]
  rw [if_neg (by simp [hsave]), if_neg (by simp [hquiet]), if_neg (by simp [hlimit, hwrite, hbase]), if_neg (by omega)]
  simp only [hpages]

end
end
end

/-! ### Core-fatal errors -/

theorem offRings_flights : OffRings State.flights := fun _ _ _ _ _ _ _ _ _ => rfl

/-- The stores on their way, which neither the rings nor the cores determine. -/
theorem State.poisonRow_flights (s : State) (tn va : Nat) : (s.poisonRow tn va).flights = s.flights := by
  unfold State.poisonRow
  split <;> rfl

theorem State.poisonEntry_flights (s : State) (c : Nat) (e : SBEntry) : (s.poisonEntry c e).flights = s.flights := by
  unfold State.poisonEntry
  split
  · rfl
  · split
    · exact State.poisonRow_flights ..
    · split <;> rfl

theorem State.poisonPiece_flights (s : State) (m : TUCmd) (n : Nat) : (s.poisonPiece m n).flights = s.flights := by
  unfold State.poisonPiece
  dsimp only
  split
  · rfl
  · split
    · split
      · rfl
      · split
        · exact State.poisonRow_flights ..
        · split <;> rfl
    · split <;> rfl
    · split <;> rfl

theorem State.poisonCopy_flights (s : State) (m : TUCmd) : (s.poisonCopy m).flights = s.flights := by
  unfold State.poisonCopy
  split
  · exact State.foldl_keeps State.flights (fun u n => State.poisonPiece_flights u m n) _ s
  · rfl

/-- The core after it has stopped: nothing of it is on its way, and its slots are vacant. -/
theorem State.stopCore_core (s : State) (c : Nat) :
    ((s.stopCore c).core c).dead = true ∧ ((s.stopCore c).core c).sb = [] ∧ ((s.stopCore c).core c).tu = [] ∧
      ∀ k, (s.stopCore c).thread? c k = none := by
  unfold State.stopCore
  dsimp only
  generalize List.foldl _ _ (s.core c).lost = u
  have hslot (k : Nat) : (SMap.get ((u.core c).slots.map (fun p => (p.1, { p.2 with occ := Occupant.vacant }))) k
      Slot.reset).occ = .vacant := congrArg Slot.occ (SMap.get_map _ (fun x : Slot => { x with occ := .vacant }) k Slot.reset)
  refine ⟨?_, ?_, ?_, fun k => ?_⟩
  · rw [State.core_modCore_same]
  · rw [State.core_modCore_same]
  · rw [State.core_modCore_same]
  · simp only [State.thread?, Core.slot]
    rw [State.core_modCore_same]
    simp only [hslot]

theorem State.stopCore_flights (s : State) (c : Nat) : ∀ f ∈ (s.stopCore c).flights, f.core ≠ c := by
  have hflights : (s.stopCore c).flights = s.flights.filter (fun f => f.core ≠ c) := by
    unfold State.stopCore
    dsimp only
    refine (State.foldl_keeps State.flights (fun u p => ?_) _ _).trans ?_
    · rfl
    · refine (State.foldl_keeps State.flights (fun u p => State.poisonCopy_flights u p) _ _).trans ?_
      exact State.foldl_keeps State.flights (fun u p => State.poisonEntry_flights u c p) _ _
  intro f hf
  rw [hflights] at hf
  simpa using (List.mem_filter.1 hf).2

theorem exec_coreFatalError_of_alive {s : State} (h : (s.core (s.argN 0)).dead = false) :
    ∃ u, exec .coreFatalError s = .next u ∧ u.cores = (s.stopCore (s.argN 0)).cores ∧
      u.flights = (s.stopCore (s.argN 0)).flights := by
  have hkeeps {β : Type} {part : State → β} (hp : OffRings part) (p : Nat × Tenant) (u : State) (ws : Word × Word)
      (b : Bool) : part (if b then u else u.faultRec p.1 ws.1 ws.2) = part u := by
    split
    · rfl
    · exact hp.faultRec ..
  rw [exec_coreFatalError, execCoreFatalError]
  dsimp only
  rw [if_neg (by simp [h])]
  exact ⟨_, rfl, State.foldl_keeps State.cores (fun u p => hkeeps offRings_cores p u (_, _) _) _ _,
    State.foldl_keeps State.flights (fun u p => hkeeps offRings_flights p u (_, _) _) _ _⟩

/-- A dead core comes back (R248). -/
theorem exec_apexCoreRepair_of_dead {s : State} (hdead : (s.core (s.argN 0)).dead = true)
    (hfenced : (s.core (s.argN 0)).fenced = false) :
    ∃ u, exec .apexCoreRepair s = .next u ∧ (u.core (s.argN 0)).dead = false ∧
      (u.core (s.argN 0)).banks = (s.core (s.argN 0)).plan ∧ (u.core (s.argN 0)).plan = (s.core (s.argN 0)).plan ∧
      (u.core (s.argN 0)).late = s.waitingFor (s.argN 0) ∧ (u.core (s.argN 0)).rf = Core.reset.rf ∧
      (u.core (s.argN 0)).win = Core.reset.win ∧ (u.core (s.argN 0)).perf = Core.reset.perf := by
  rw [exec_apexCoreRepair, execApexCoreRepair]
  dsimp only
  rw [if_neg (by simp [hdead, hfenced])]
  refine ⟨_, rfl, ?_⟩
  rw [State.core_post, State.core_setCore_same]
  exact ⟨rfl, rfl, rfl, rfl, rfl, rfl, rfl⟩

/-- The core that leaves its partition. -/
def Core.outOfUse (x : Core) : Core := { x with fenced := true, pubWin := 0 }

theorem exec_apexCoreFence_of_dead {s : State} (hdead : (s.core (s.argN 0)).dead = true) :
    ∃ es, exec .apexCoreFence s = .next ((s.modCore (s.argN 0) Core.outOfUse).post es) := by
  rw [exec_apexCoreFence, execApexCoreFence]
  dsimp only
  rw [if_pos hdead]
  have hnone (u : State) : u = u.post [] := by rw [State.post, List.append_nil]
  split
  · split
    · exact ⟨_, rfl⟩
    · exact ⟨[], congrArg Host.Outcome.next (hnone _)⟩
  · exact ⟨[], congrArg Host.Outcome.next (hnone _)⟩

/-- Settles O33: each instruction's cases, and what the events of saves and dead cores leave. -/
theorem threadImages : Obligations.ThreadImages := by
  unfold Obligations.ThreadImages
  refine ⟨fun f s c k t hf h ha => ⟨exec_ctxsv_of_none hf h ha, fun j u hslot => exec_ctxsv_asks hf h ha hslot⟩,
    fun f s c k t a h => exec_ctxsv_of_answer h, ?_, ?_, ?_, ?_, ?_, ?_⟩
  · intro f s c k t hf h w occ
    have hw : (s.getG c t f.d).v = w := rfl
    have hocc : ((s.core c).slot (w.bits 11 6)).occ = occ := rfl
    clear_value occ w
    refine ⟨exec_ctxld_of_bad hf h hw, fun h63 h5 hl => ?_, fun u n h63 h5 hbit ho =>
      exec_ctxld_of_discard hf h hw h63 h5 hbit (hocc.trans ho), fun h63 h5 hbit hsb hparked hflights hready htiles hslot hgran
        hahead => ⟨fun u n ho hok => ?_, fun ho hok hzero => ?_⟩⟩
    · obtain ⟨v, hv⟩ := hl
      exact exec_ctxld_of_live hf h hw h63 h5 (hocc.trans hv)
    · exact exec_ctxld_of_saved hf h hw h63 h5 hbit hsb hparked hflights hready htiles hgran hahead (hocc.trans ho) hok
    · exact exec_ctxld_of_vacant hf h hw h63 h5 hbit hsb hparked hflights hready htiles hslot hgran hahead (hocc.trans ho) hok
        hzero
  · intro s u b h hsave hrun hquiet base
    exact ⟨exec_contextSaveComplete_of_segment h hsave hrun hquiet,
      fun hl hwr hb hm => exec_contextSaveComplete_of_mail h hsave hrun hquiet hl hwr hb hm,
      fun tr hl hwr hb hm hp => exec_contextSaveComplete_of_saved h hsave hrun hquiet hl hwr hb hm hp⟩
  · exact fun s u h hsave hrun => exec_contextSaveComplete_of_running h hsave hrun
  · intro s h
    obtain ⟨u, hexec, hcores, hflights⟩ := exec_coreFatalError_of_alive h
    obtain ⟨hdead, hsb, htu, hnone⟩ := State.stopCore_core s (s.argN 0)
    have hcore : u.core (s.argN 0) = (s.stopCore (s.argN 0)).core (s.argN 0) := by rw [State.core, hcores, State.core]
    refine ⟨u, hexec, by rw [hcore, hdead], by rw [hcore, hsb], by rw [hcore, htu], fun k => ?_, ?_⟩
    · rw [State.thread?_congr (congrArg (fun x : Core => x.slot k) hcore), hnone]
    · rw [hflights]
      exact State.stopCore_flights s _
  · exact fun s hdead hfenced => exec_apexCoreRepair_of_dead hdead hfenced
  · intro s hdead
    obtain ⟨es, hexec⟩ := exec_apexCoreFence_of_dead hdead
    refine ⟨_, hexec, ?_, ?_, rfl⟩
    all_goals
      rw [State.core_post, State.core_modCore_same]
      rfl

end Sys2Proof.Machine
end

section
/-!
SUPPORT. Taint, BRK, profiling and hash jobs (R305 to R307, R311, R313): O34.
-/
namespace Sys2Proof.Machine
open Sys2Proof

section
variable {f : Fields} {s : State} {c k : Nat} {t : Thread}

theorem exec_tntrd_goes (hf : plainFields f) (h : Goes (.tntrd f) s c k t) :
    exec (.tntrd f) s = .next (s.wrote c k t f.d ⟨if (s.getG c t f.a).t then 1 else 0, false⟩ s.next) := by
  rw [exec_tntrd, execTntrd]
  exact compute_plain h hf _ (State.readVals_plain (fo := ⟨.A, .no, .none, .wr, .rd, .none, .none⟩) rfl hf s c k t)

theorem exec_tntclr_goes (h : Goes (.tntclr f) s c k t) :
    exec (.tntclr f) s = .next (s.wrote c k t f.d ⟨(s.getG c t f.d).v, false⟩ s.next) := by
  rw [exec_tntclr, execTntclr, issue_goes h]
  exact congrArg Host.Outcome.next (State.setG_finish_shortened h.thread? ..)

theorem exec_brk_of_off (h : Goes (.brk f) s c k t) (hoff : (s.tenant t.tenant).tntctl.getLsbD 1 = false) :
    exec (.brk f) s = .next (s.moved c k t s.next) := by
  rw [exec_brk, execBrk, issue_goes h]
  dsimp only
  rw [if_neg]
  · exact congrArg Host.Outcome.next (State.finish_shortened h.thread? ..)
  · rw [State.finish, State.settle, State.advance, State.goto, State.tenant_modThread, State.tenant_modThread]
    rw [← decide_eq_false_iff_not, Word.bits_one, hoff]

/-- A thread whose BRK has completed in debug mode. -/
def Thread.broken (t : Thread) (n : Nat) : Thread := { t with brk := some n }

theorem exec_brk_of_debug (h : Goes (.brk f) s c k t) (hon : (s.tenant t.tenant).tntctl.getLsbD 1 = true) :
    exec (.brk f) s = .next (s.withThread c k ((t.done s.next s.nextId).broken f.imm.toNat) (s.core c).rf) := by
  rw [exec_brk, execBrk, issue_goes h]
  dsimp only
  rw [if_pos]
  · rw [State.finish, State.settle, State.advance, State.goto, State.modThread_eq h.thread?, State.withThread_modThread,
      State.withThread_modThread, State.shortened_of_settled (State.withThread_thread? ..) rfl, State.withThread_withThread]
    rfl
  · rw [State.finish, State.settle, State.advance, State.goto, State.tenant_modThread, State.tenant_modThread]
    exact of_decide_eq_true ((Word.bits_one ..).trans hon)

theorem exec_perfrd_goes (h : Goes (.perfrd f) s c k t) :
    exec (.perfrd f) s = .next (s.answers s c k t f ⟨w64 (SMap.get (s.core c).perf f.imm.toNat 0), true⟩) := by
  rw [exec_perfrd, execPerfrd]
  exact issue_answers h rfl rfl

/-! ### PGHASH -/

theorem exec_pghash_of_bad (h : Goes (.pghash f) s c k t) {w : Word} (hw : (s.getG c t f.d).v = w)
    (hbad : w.bits 63 62 = 3 ∨ w.bits 61 40 ≠ 0 ∨ vaOf t f.hi (s.gOff c t f) % 2 ^ 57 % 65536 ≠ 0) :
    exec (.pghash f) s = .next (s.wrote c k t f.d ⟨1, false⟩ s.next) := by
  have hcond (p q : Bool) : (decide (w.bits 63 62 = 3) || decide (w.bits 61 40 ≠ 0) ||
      decide (vaOf t f.hi (gOffset (s.getG c t f.a).v f.imm) % 2 ^ 57 % 65536 ≠ 0) || p || q) = true := by
    rw [State.gOff] at hbad
    simp only [Bool.or_eq_true, decide_eq_true_eq]
    tauto
  rw [exec_pghash, execPghash, issue_goes h]
  simp only [hw]
  rw [if_pos (hcond _ _)]
  exact congrArg Host.Outcome.next (State.setG_finish_shortened h.thread? ..)

/-- The job that PGHASH of `n` units starts. -/
def State.hashJob (s : State) (c k : Nat) (t : Thread) (f : Fields) (n : Nat) (w : Word) : HashJob :=
  { id := s.nextId, owner := s.tid c k t, va := vaOf t f.hi (s.gOff c t f) % 2 ^ 57,
    out := vaOf t f.hi (s.getG c t (f.d + 1)).v.toNat % 2 ^ 57, n := n, period := none, count := 0, busy := true,
    next := s.now + 2 ^ 24 * (w.bits 39 32 + 1) }

/-- The state in which job `j` has been queued at die `d`. -/
def State.withJob (s : State) (d : Nat) (j : HashJob) : State :=
  (({ s with nextId := s.nextId + 1 } : State).setJobs d (s.jobs d ++ [j])).post [evt .hashJobComplete [d, j.id]]

theorem exec_pghash_of_ok (h : Goes (.pghash f) s c k t) {w : Word} (hw : (s.getG c t f.d).v = w) (h62 : w.bits 63 62 = 0)
    (h40 : w.bits 61 40 = 0) (hva : vaOf t f.hi (s.gOff c t f) % 2 ^ 57 % 65536 = 0)
    (hout : (s.getG c t (f.d + 1)).v.toNat % 64 = 0) (hn : w.bits 31 0 ≠ 0) (hn' : w.bits 31 0 ≤ 2 ^ 20)
    (hin : s.gOff c t f + 65536 * w.bits 31 0 ≤ (t.seg f.hi).limit)
    (htree : (s.getG c t (f.d + 1)).v.toNat + treeBytes (w.bits 31 0) ≤ (t.seg f.hi).limit)
    (hread : (t.seg f.hi).has 'R' = true) (hwrite : (t.seg f.hi).has 'W' = true)
    (hok : s.hashOutOk t.tenant (vaOf t f.hi (s.getG c t (f.d + 1)).v.toNat % 2 ^ 57) (treeBytes (w.bits 31 0)) = true) :
    exec (.pghash f) s = .next ((s.withJob (s.hashDie c t.tenant (vaOf t f.hi (s.gOff c t f) % 2 ^ 57))
      (s.hashJob c k t f (w.bits 31 0) w)).withThread c k (t.done s.next s.nextId) (t.putG (s.core c).rf f.d ⟨0, false⟩)) := by
  rw [State.gOff] at hva hin
  rw [exec_pghash, execPghash, issue_goes h]
  simp only [hw, h62, h40, hva]
  rw [if_neg (by simp [hout, hn]; omega), if_neg (by decide), if_neg (by rw [hread, hwrite, hok]; simp; omega), if_neg (by simp)]
  refine congrArg Host.Outcome.next ?_
  exact State.setG_finish_shortened (s := s.withJob _ (s.hashJob c k t f (w.bits 31 0) w)) h.thread? ..

end

/-! ### The events of a hash job -/

theorem exec_hashJobComplete_waits {s : State} {j : HashJob}
    (hj : (s.jobs (s.argN 0)).find? (fun j => j.id = s.argN 1) = some j) (hbusy : j.busy = true)
    (hwait : s.hashWaits (tidTenant j.owner) j = true) : exec .hashJobComplete s = .next (s.again .hashJobComplete) := by
  rw [exec_hashJobComplete, execHashJobComplete]
  simp only [hj]
  rw [if_neg (by simp [hbusy]), if_pos hwait]

theorem State.jobs_setJobs_same (s : State) (d : Nat) (l : List HashJob) : (s.setJobs d l).jobs d = l := SMap.get_set_same ..

/-- The job has started again. -/
def HashJob.restarted (x j : HashJob) (p : Nat) : HashJob :=
  if x.id = j.id then { x with busy := true, next := j.next + 2 ^ 24 * (p + 1) } else x

theorem HashJob.restarted_id (x j : HashJob) (p : Nat) : (x.restarted j p).id = x.id := by
  unfold HashJob.restarted
  split <;> rfl

theorem exec_hashPeriodicTimer_of_due {s : State} {j : HashJob} {p : Nat}
    (hj : (s.jobs (s.argN 0)).find? (fun j => j.id = s.argN 1) = some j) (hp : j.period = some p) (hdue : j.next ≤ s.now) :
    exec .hashPeriodicTimer s = .next
      (((s.setJobs (s.argN 0) ((s.jobs (s.argN 0)).map (HashJob.restarted · j p))).post
        (if j.busy then [] else [evt .hashJobComplete [s.argN 0, j.id]])).again .hashPeriodicTimer) := by
  rw [exec_hashPeriodicTimer, execHashPeriodicTimer]
  simp only [hj, hp]
  rw [if_neg (by omega)]
  cases j.busy
  · rfl
  · exact congrArg (fun u : State => Host.Outcome.next (u.again .hashPeriodicTimer)) (by
      rw [if_pos rfl, if_pos rfl, State.post, List.append_nil]
      rfl)

/-- Settles O34: each instruction's cases, and the two events of a hash job. -/
theorem taintAndDebug : Obligations.TaintAndDebug := by
  unfold Obligations.TaintAndDebug
  refine ⟨fun f s c k t hf h => exec_tntrd_goes hf h, fun f s c k t h => exec_tntclr_goes h,
    fun f s c k t h => ⟨exec_brk_of_off h, exec_brk_of_debug h⟩, fun f s c k t h => exec_perfrd_goes h, ?_,
    fun s j hj hb hw => exec_hashJobComplete_waits hj hb hw, ?_, ?_⟩
  · intro f s c k t h w va out d
    refine ⟨exec_pghash_of_bad h rfl, fun h62 h40 hva hout hn hn' hin htree hread hwrite hok => ?_⟩
    refine ⟨_, _, _, exec_pghash_of_ok h rfl h62 h40 hva hout hn hn' hin htree hread hwrite hok,
      State.jobs_setJobs_same .., rfl, rfl, rfl, rfl, rfl, List.mem_append_right _ (List.mem_singleton_self _), rfl,
      State.withThread_thread? .., rfl, fun hd => ?_⟩
    rw [State.getG_withThread, if_neg hd, Thread.putG, if_neg hd]
    exact SMap.get_set_same ..
  · intro s j hj hbusy hper hwait
    rw [exec_hashJobComplete, execHashJobComplete]
    simp only [hj]
    rw [if_neg (by simp [hbusy]), if_neg (by simp [hwait])]
    simp only [hper]
    rfl
  · intro s j p hj hp
    refine ⟨fun hnow => ?_, fun hdue => ⟨_, exec_hashPeriodicTimer_of_due hj hp hdue, rfl, fun hidle => ?_, fun x hx hid => ?_⟩⟩
    · rw [exec_hashPeriodicTimer, execHashPeriodicTimer]
      simp only [hj, hp]
      rw [if_pos hnow]
    · rw [hidle]
      exact List.mem_append_left _ (List.mem_append_right _ (List.mem_singleton_self _))
    · obtain ⟨y, -, rfl⟩ := List.mem_map.1 ((State.jobs_setJobs_same s (s.argN 0) _) ▸ hx)
      have hid' : y.id = j.id := (HashJob.restarted_id y j p) ▸ hid
      rw [HashJob.restarted, if_pos hid']

end Sys2Proof.Machine
end

section
/-!
SUPPORT. What the operations of memory, its directory, copies and rings leave of the state: everything else (R61, R90 to R104).
-/
namespace Sys2Proof.Machine
open Sys2Proof

/-- The state `s` with the memory, the directory, the copies, the bridge, the records, the caches and the events of `u`. -/
def State.homesOf (s u : State) : State :=
  { s with
    mem := u.mem, regw := u.regw, dir := u.dir, dirq := u.dirq, copies := u.copies, notices := u.notices, leases := u.leases,
    resident := u.resident, halves := u.halves, halfWait := u.halfWait, hot := u.hot, addl := u.addl, tenants := u.tenants,
    boot := u.boot, due := u.due, clusters := u.clusters }

/-- Two states that differ in no more than that. -/
def State.HomesOnly (s u : State) : Prop := u = s.homesOf u

section
variable {s u w : State}

theorem State.HomesOnly.refl (s : State) : s.HomesOnly s := rfl

theorem State.HomesOnly.trans (h : s.HomesOnly u) (h' : u.HomesOnly w) : s.HomesOnly w := by
  rw [State.HomesOnly, h] at h'
  exact h'

theorem State.HomesOnly.next (h : s.HomesOnly u) : u.next = s.next := (congrArg State.next h).trans rfl
theorem State.HomesOnly.cores (h : s.HomesOnly u) : u.cores = s.cores := (congrArg State.cores h).trans rfl
theorem State.HomesOnly.flights (h : s.HomesOnly u) : u.flights = s.flights := (congrArg State.flights h).trans rfl
theorem State.HomesOnly.nextId (h : s.HomesOnly u) : u.nextId = s.nextId := (congrArg State.nextId h).trans rfl
theorem State.HomesOnly.now (h : s.HomesOnly u) : u.now = s.now := (congrArg State.now h).trans rfl
theorem State.HomesOnly.arg (h : s.HomesOnly u) : u.arg = s.arg := (congrArg State.arg h).trans rfl

theorem State.HomesOnly.core (h : s.HomesOnly u) (c : Nat) : u.core c = s.core c := by
  rw [State.core, State.core, h.cores]

theorem State.HomesOnly.thread? (h : s.HomesOnly u) (c k : Nat) : u.thread? c k = s.thread? c k := by
  rw [State.thread?, State.thread?, h.core]

/-- One after the other. -/
theorem State.HomesOnly.foldl {α : Type} {g : State → α → State} (hg : ∀ v x, State.HomesOnly v (g v x)) (l : List α)
    (s : State) : s.HomesOnly (l.foldl g s) := by
  induction l generalizing s with
  | nil => exact .refl s
  | cons x r ih => exact (hg s x).trans (ih _)

end

/-- What no operation on the rings changes, no operation on the homes does. -/
theorem offRings_homesOf (w : State) : OffRings (fun u => u.homesOf w) := fun _ _ _ _ _ _ _ _ _ => rfl

/-- What keeps all beyond memory, the directory, the tenants and the vectors keeps all beyond the homes. -/
theorem State.HomesOnly.of_homesOf {s u : State} (h : ∀ w, u.homesOf w = s.homesOf w) : s.HomesOnly u := h u

section
variable (s : State)

theorem State.homesOnly_setMem (m : Mem) : s.HomesOnly { s with mem := m } := rfl
theorem State.homesOnly_gather (line : Nat) : s.HomesOnly (s.gather line) := rfl
theorem State.homesOnly_discardLine (line : Nat) : s.HomesOnly (s.discardLine line) := rfl
theorem State.homesOnly_writeHome (sw : Bool) (a n : Nat) (v : TWord) : s.HomesOnly (s.writeHome sw a n v) :=
  .of_homesOf fun w => (offRings_homesOf w).writeHome s sw a n v
theorem State.homesOnly_postRec (tn : Nat) (fault : Bool) (ws : List Word) : s.HomesOnly (s.postRec tn fault ws) :=
  .of_homesOf fun w => (offRings_homesOf w).postRec s tn fault ws
theorem State.homesOnly_post (es : List Event) : s.HomesOnly (s.post es) := rfl
theorem State.homesOnly_modTenant (tn : Nat) (g : Tenant → Tenant) : s.HomesOnly (s.modTenant tn g) := rfl

theorem State.homesOnly_setEntry (tn ia : Nat) (e : Word) : s.HomesOnly (s.setEntry tn ia e) := by
  unfold State.setEntry
  split
  · exact s.homesOnly_writeHome ..
  · exact .refl s

theorem State.homesOnly_invalidatePage (tn va : Nat) : s.HomesOnly (s.invalidatePage tn va) := by
  refine State.HomesOnly.foldl (fun u cl => ?_) _ s
  dsimp only
  split <;> rfl

theorem State.homesOnly_applyList (w : Nat) : s.HomesOnly (s.applyList w) := by
  unfold State.applyList
  split
  · exact .refl s
  · split
    · exact .refl s
    · exact .trans (u := { s with addl := _ }) rfl (State.homesOnly_writeHome ..)

theorem State.homesOnly_applyAdds (a n : Nat) : s.HomesOnly (s.applyAdds a n) :=
  State.HomesOnly.foldl (g := fun (u : State) (p : Nat × AddList) => u.applyList p.1) (fun u p => u.homesOnly_applyList p.1) _ s

theorem State.homesOnly_countHot (cl tn : Nat) (leaf : Word) : s.HomesOnly (s.countHot cl tn leaf) := by
  unfold State.countHot
  dsimp only
  split
  · exact .refl s
  · split
    · exact .refl s
    · split
      · exact .trans (u := { s with hot := SMap.set s.hot _ _ }) rfl (State.homesOnly_postRec _ tn false _)
      · rfl

theorem State.homesOnly_pokeRings (tn line : Nat) : s.HomesOnly (s.pokeRings tn line) := by
  refine State.HomesOnly.foldl (fun u p => ?_) _ s
  split
  · split
    · split <;> rfl
    · rfl
  · rfl

/-! ### Copies -/

theorem State.homesOnly_dropBanks (line cl : Nat) : s.HomesOnly (s.dropBanks line cl) :=
  State.HomesOnly.foldl (g := fun (u : State) h => u.dropCopy line h) (fun _ _ => rfl) _ s

theorem State.homesOnly_dropCluster (line cl : Nat) : s.HomesOnly (s.dropCluster line cl) :=
  .trans (u := s.dropCopy line cl) rfl (State.homesOnly_dropBanks ..)

theorem State.homesOnly_writeBack (line holder : Nat) : s.HomesOnly (s.writeBack line holder) := by
  unfold State.writeBack
  split <;> rfl

theorem State.homesOnly_writeBackCluster (line cl : Nat) : s.HomesOnly (s.writeBackCluster line cl) :=
  (s.homesOnly_writeBack line cl).trans (State.HomesOnly.foldl (fun u h => u.homesOnly_writeBack line h) _ _)

theorem State.homesOnly_mayEvict (line cl : Nat) : s.HomesOnly (s.mayEvict line cl) := by
  unfold State.mayEvict
  split <;> rfl

theorem State.homesOnly_sendLine (line cl : Nat) (own : Bool) : s.HomesOnly (s.sendLine line cl own) := by
  unfold State.sendLine
  split
  · rfl
  · exact .trans (u := s.setCopy line cl _) rfl (State.homesOnly_mayEvict ..)

theorem State.homesOnly_dirtyWord (line holder i : Nat) (v : TWord) : s.HomesOnly (s.dirtyWord line holder i v) := by
  unfold State.dirtyWord
  split <;> rfl

theorem State.homesOnly_unregister (w : Nat) : s.HomesOnly (s.unregister w) := by
  unfold State.unregister
  split <;> rfl

/-! ### The directory -/

theorem State.homesOnly_grantOwner (line cl : Nat) : s.HomesOnly (s.grantOwner line cl) := by
  have hbanks : s.HomesOnly (if cl = s.homeOf line then s else s.dropBanks line (s.homeOf line)) := by
    split
    · exact .refl s
    · exact s.homesOnly_dropBanks ..
  exact hbanks.trans rfl

theorem State.homesOnly_dirGetS (line cl : Nat) : s.HomesOnly (s.dirGetS line cl) := by
  unfold State.dirGetS
  split
  · split
    · rfl
    · exact .trans (u := s.setDir line _) rfl (State.homesOnly_sendLine ..)
  · split
    · rfl
    · split
      · exact s.homesOnly_sendLine ..
      · split
        · exact .trans (u := s.setDir line _) rfl (State.homesOnly_sendLine ..)
        · exact .trans (u := s.setDir line _) rfl (State.homesOnly_sendLine ..)
  · split
    · rfl
    · exact .trans (u := s.setDir line _) rfl (State.homesOnly_sendLine ..)
  · split <;> rfl
  · rfl

theorem State.homesOnly_dirInvalidate (line cl : Nat) (inv : List Nat) : s.HomesOnly (s.dirInvalidate line cl inv) := by
  unfold State.dirInvalidate
  split
  · exact s.homesOnly_grantOwner ..
  · rfl

theorem State.homesOnly_dirGetM (line cl : Nat) : s.HomesOnly (s.dirGetM line cl) := by
  unfold State.dirGetM
  split
  · exact s.homesOnly_grantOwner ..
  · exact s.homesOnly_dirInvalidate ..
  · exact s.homesOnly_dirInvalidate ..
  · split <;> rfl
  · rfl

theorem State.homesOnly_serveDir (line : Nat) : s.HomesOnly (s.serveDir line) := by
  refine .trans (u := { s with dirq := SMap.del s.dirq line }) rfl (State.HomesOnly.foldl (fun u r => ?_) _ _)
  split
  · exact u.homesOnly_dirGetM ..
  · exact u.homesOnly_dirGetS ..

/-- The lease of a line ends, and its sharers are those of a list. -/
theorem State.homesOnly_sharers (line : Nat) (l : List Nat) :
    s.HomesOnly (if l.isEmpty then ({ s with leases := SMap.del s.leases line } : State).clearDir line
      else ({ s with leases := SMap.del s.leases line } : State).setDir line (.ptr l)) := by
  split <;> rfl

theorem State.homesOnly_recallDone (line o cl : Nat) (write keep : Bool) : s.HomesOnly (s.recallDone line o cl write keep) := by
  unfold State.recallDone
  refine (s.homesOnly_writeBack line o).trans ?_
  generalize s.writeBack line o = u
  dsimp only
  split
  · exact ((u.homesOnly_dropCluster line o).trans (State.homesOnly_grantOwner ..)).trans (State.homesOnly_serveDir ..)
  · refine .trans ?_ (State.homesOnly_serveDir ..)
    refine .trans ?_ (State.homesOnly_sendLine ..)
    rcases u.copy? line o with _ | cp
    · exact u.homesOnly_sharers line _
    · cases keep
      · exact (u.homesOnly_dropCluster line o).trans (State.homesOnly_sharers _ line _)
      · exact .trans (u := u.setCopy line o _) rfl (State.homesOnly_sharers _ line _)

theorem State.homesOnly_countAck (line cl : Nat) : s.HomesOnly (s.countAck line cl) := by
  unfold State.countAck
  split
  · split
    · rfl
    · split
      · exact (s.homesOnly_grantOwner ..).trans (State.homesOnly_serveDir ..)
      · rfl
  · rfl

/-- A notice of a cluster is on its way. -/
theorem State.homesOnly_noted (line cl : Nat) : s.HomesOnly { s with notices := s.notices ++ [(cl, line)] } := rfl

theorem State.homesOnly_dirNotice (line cl : Nat) : s.HomesOnly (s.dirNotice line cl) := by
  have hdrop := s.homesOnly_dropCluster line cl
  have hback := (s.homesOnly_writeBack line cl).trans (State.homesOnly_dropCluster _ line cl)
  unfold State.dirNotice
  generalize s.dropCluster line cl = u at hdrop
  generalize (s.writeBack line cl).dropCluster line cl = v at hback
  dsimp only
  split
  · exact hdrop
  · split
    · exact hdrop
    · refine hdrop.trans ?_
      split <;> rfl
  · exact hdrop.trans rfl
  · split
    · exact hdrop
    · exact hback.trans rfl
  · split
    · exact (hdrop.trans (u.homesOnly_noted line cl)).trans (State.homesOnly_countAck ..)
    · exact hdrop
  · split
    · exact hdrop
    · exact hback.trans (State.homesOnly_recallDone ..)

/-! ### The capacity of a slice, and software-coherent stores -/

theorem State.homesOnly_unresident (line : Nat) : s.HomesOnly (s.unresident line) := rfl

theorem State.homesOnly_evictHome (cl line : Nat) : s.HomesOnly (s.evictHome cl line) :=
  ((s.homesOnly_writeBackCluster line cl).trans (State.homesOnly_dropBanks _ line cl)).trans (State.homesOnly_unresident ..)

theorem State.homesOnly_evictRemote (line cl : Nat) : s.HomesOnly (s.evictRemote line cl) := by
  unfold State.evictRemote
  split
  · exact (s.homesOnly_writeBackCluster line cl).trans (State.homesOnly_dropCluster ..)
  · exact s.homesOnly_dirNotice ..

/-- The registered words of a line are written into its home copy. -/
theorem State.homesOnly_recalled (x : Nat) : s.HomesOnly { s with
    mem := (s.regw.filter (fun p => p.1 / 16 = x)).foldl (fun m p => m.setWord p.1 p.2.w) s.mem
    regw := s.regw.filter (fun p => p.1 / 16 ≠ x) } := rfl

theorem State.homesOnly_makeRoom {cl line : Nat} {u : State} (h : s.makeRoom cl line = some u) : s.HomesOnly u := by
  unfold State.makeRoom at h
  dsimp only at h
  split at h
  · cases h; rfl
  · split at h
    · cases h; exact s.homesOnly_evictHome ..
    · cases h; exact s.homesOnly_evictRemote ..
    · split at h
      · cases h
      · cases h; exact (s.homesOnly_recalled _).trans (State.homesOnly_evictHome ..)

theorem State.homesOnly_fillBanks (c line : Nat) (sw : Bool) : s.HomesOnly (s.fillBanks c line sw) := by
  unfold State.fillBanks
  dsimp only
  split
  · exact .trans (u := s.setCopy line _ _) rfl (State.homesOnly_mayEvict ..)
  · rfl

/-- A line comes into a slice, where there is room. -/
theorem State.homesOnly_taken (cl line : Nat) : s.HomesOnly ((s.makeRoom cl line).elim s fun u =>
    (u.setCopy line cl ⟨u.homeWords line, [], false, true⟩).mayEvict line cl) := by
  rcases h : s.makeRoom cl line with _ | u
  · rfl
  · exact (s.homesOnly_makeRoom h).trans (.trans (u := u.setCopy line cl _) rfl (State.homesOnly_mayEvict ..))

theorem State.homesOnly_fillSw (c line : Nat) : s.HomesOnly (s.fillSw c line) := by
  have htaken := s.homesOnly_taken (c / 8) line
  unfold State.fillSw
  dsimp only
  split
  · exact s.homesOnly_fillBanks ..
  · rcases h : s.makeRoom (c / 8) line with _ | u
    · dsimp only
      split
      · exact s.homesOnly_fillBanks ..
      · rfl
    · rw [h] at htaken
      dsimp only
      split
      · exact htaken.trans (State.homesOnly_fillBanks ..)
      · exact htaken

theorem State.homesOnly_swStore (c w : Nat) (g : TWord → TWord) : s.HomesOnly (s.swStore c w g) := by
  unfold State.swStore
  dsimp only
  refine (s.homesOnly_fillSw c (w / 16)).trans ?_
  split
  · exact State.homesOnly_dirtyWord ..
  · split
    · exact State.homesOnly_dirtyWord ..
    · rfl

theorem State.homesOnly_drainLater (c h : Nat) : s.HomesOnly (s.drainLater c h) := by
  unfold State.drainLater
  split <;> rfl

theorem State.homesOnly_dirtyHalf (h : Nat) : s.HomesOnly (s.dirtyHalf h) := rfl

theorem State.homesOnly_needHalf (h : Nat) (own : Bool) : s.HomesOnly (s.needHalf h own) := by
  unfold State.needHalf
  split
  · rfl
  · split <;> rfl

theorem State.homesOnly_homeGate {pa n : Nat} {own : Bool} {u : State} (h : s.homeGate pa n own = some u) : s.HomesOnly u := by
  unfold State.homeGate at h
  dsimp only at h
  split at h
  · cases h; rfl
  · split at h
    · next v hv =>
      cases h
      split at hv
      · unfold State.backInvalidate at hv
        split at hv <;> cases hv
        rfl
      · cases hv
    · split at h
      · split at h
        · cases h
        · cases h
          exact State.HomesOnly.foldl (fun v i => v.homesOnly_needHalf i own) _ s
      · unfold State.needLine at h
        split at h
        · cases h
        · split at h <;> cases h <;> rfl

/-- A half of the write-combine buffer drains: of its core only the buffer changes. -/
theorem State.drainHalf_cases (c h : Nat) : s.HomesOnly (s.drainHalf c h) ∨
    ∃ q, (s.modCore c (fun x => { x with wc := x.wc.filter (fun y => y.half ≠ q) })).HomesOnly (s.drainHalf c h) := by
  unfold State.drainHalf
  split
  · exact .inl rfl
  · next e _ =>
    dsimp only
    split
    · next u hu => exact .inl ((s.homesOnly_homeGate hu).trans (u.homesOnly_drainLater ..))
    · refine .inr ⟨e.half, ?_⟩
      generalize s.modCore c _ = u
      have hhot := u.homesOnly_countHot (c / 8) (u.tenantOf (128 * (e.half / 2))) e.leaf
      have hstores (w : State) : w.HomesOnly (if w.mem.poisoned (e.half / 2) then w
          else e.words.foldl (fun s i => s.swStore c (8 * e.half + i) (e.applyTo i)) w) := by
        split
        · rfl
        · exact State.HomesOnly.foldl (fun v i => v.homesOnly_swStore ..) _ _
      have hwords (w : State) : w.HomesOnly (((if w.mem.poisoned (e.half / 2) then w
          else { w with mem := e.words.foldl (fun m i => m.setWord (8 * e.half + i) (e.applyTo i (m.word (8 * e.half + i))))
                          w.mem }).pokeRings (u.tenantOf (128 * (e.half / 2))) (e.half / 2)).dirtyHalf h) := by
        split
        · exact (w.homesOnly_pokeRings _ _).trans (State.homesOnly_dirtyHalf ..)
        · refine (w.homesOnly_setMem (e.words.foldl (fun m i =>
            m.setWord (8 * e.half + i) (e.applyTo i (m.word (8 * e.half + i)))) w.mem)).trans ?_
          exact (State.homesOnly_pokeRings ..).trans (State.homesOnly_dirtyHalf ..)
      split
      · split
        · exact hhot.trans (hstores _)
        · exact hstores u
      · exact .trans hhot (.trans (State.homesOnly_gather _ (e.half / 2)) (hwords _))

end

end Sys2Proof.Machine
end

section
/-!
SUPPORT. Instructions on lines, pages and segments (R66 to R69, R103, R104): O35.
-/
namespace Sys2Proof.Machine
open Sys2Proof

/-! ### What the flush of a line and the switch of a page keep -/

section
variable (s : State)

theorem State.homesOnly_mergeLine (tn line : Nat) : s.HomesOnly (s.mergeLine tn line).2 := rfl

theorem State.homesOnly_flushSw (c line : Nat) (keep : Bool) : s.HomesOnly (s.flushSw c line keep).2 := by
  have hdrop (l : List Nat) : s.HomesOnly (l.foldl (fun u h => u.dropCopy line h) s) :=
    State.HomesOnly.foldl (g := fun (u : State) h => u.dropCopy line h) (fun _ _ => rfl) l s
  have hback (u : State) (l : List Nat) : u.HomesOnly (l.foldl (fun u h => u.writeBack line h) u) :=
    State.HomesOnly.foldl (fun v h => v.homesOnly_writeBack line h) l u
  unfold State.flushSw
  dsimp only
  split
  · exact hback s _
  · refine (hdrop (if c / 8 = s.homeOf line then [bankHolder c] else [c / 8, bankHolder c])).trans ?_
    split
    · exact .refl _
    · exact (hback _ _).trans (State.homesOnly_dropBanks ..)

theorem State.homesOnly_flushDie (c line : Nat) : s.HomesOnly (s.flushDie c line).2 :=
  State.HomesOnly.foldl (fun u w => u.homesOnly_unregister w) _ s

/-- An owner gives a line up. -/
theorem State.homesOnly_released (line : Nat) (p : Prop) [Decidable p] : s.HomesOnly
    (if p then ({ s with leases := SMap.del s.leases line } : State).clearDir line else s) := by
  split <;> rfl

theorem State.homesOnly_notify (tn : Nat) (w0 w1 : Word) : s.HomesOnly (s.notify tn w0 w1) := s.homesOnly_postRec ..

theorem State.homesOnly_flushModule (c line : Nat) (inv : Bool) : s.HomesOnly (s.flushModule c line inv).2 := by
  have hbanks : s.HomesOnly (if inv then s.dropBanks line (c / 8) else s) := by
    split
    · exact s.homesOnly_dropBanks ..
    · rfl
  unfold State.flushModule
  dsimp only
  split
  · rfl
  · split
    · split
      · exact hbanks.trans (State.homesOnly_released ..)
      · exact hbanks
    · split
      · split
        · exact s.homesOnly_dirNotice ..
        · rfl
      · dsimp only
        split
        · exact s.homesOnly_dirNotice ..
        · rfl

theorem State.homesOnly_flushLine (c : Nat) (tr : Tr) (inv : Bool) : s.HomesOnly (s.flushLine c tr inv).2 := by
  unfold State.flushLine
  refine (s.homesOnly_applyAdds (128 * (tr.pa / 128)) 128).trans ?_
  dsimp only
  split
  · exact State.homesOnly_flushSw ..
  · split
    · exact State.homesOnly_flushDie ..
    · exact State.homesOnly_flushModule ..

theorem State.drainHalf_next (c h : Nat) : (s.drainHalf c h).next = s.next := by
  obtain hd | ⟨q, hd⟩ := s.drainHalf_cases c h
  · exact hd.next
  · exact hd.next

theorem State.flushGate_next (c line : Nat) : (s.flushGate c line).2.next = s.next :=
  State.foldl_keeps State.next (fun u h => u.drainHalf_next c (h - hostBase / 64)) _ s

theorem State.flushFrom_next {s u : State} {c k : Nat} {t : Thread} {lo : Nat} {inv : Bool} {n i q r : Nat}
    (h : s.flushFrom c k t lo inv n i q = .done r u) : u.next = s.next := by
  induction n generalizing s i q with
  | zero =>
    cases h
    rfl
  | succ m ih =>
    rw [State.flushFrom] at h
    dsimp only at h
    split at h
    · cases h
    · cases h
    · split at h
      · exact ih h
      · split at h
        · cases h
        · exact (ih h).trans (((State.homesOnly_flushLine _ c _ inv).next).trans (State.flushGate_next ..))

/-- One line of a page is switched. -/
def switchLine (tn : Nat) (sw : Bool) (q : Nat × State) (line : Nat) : Nat × State :=
  let s := q.2.applyAdds (128 * line) 128
  if sw then (q.1, s.gather line) else (q.1 + (s.mergeLine tn line).1, (s.mergeLine tn line).2)

theorem State.switchLines_eq (tn : Nat) (lines : List Nat) (sw : Bool) :
    s.switchLines tn lines sw = lines.foldl (switchLine tn sw) (0, s) := rfl

theorem homesOnly_switchLine (tn : Nat) (sw : Bool) (q : Nat × State) (line : Nat) :
    q.2.HomesOnly (switchLine tn sw q line).2 := by
  have hadds := q.2.homesOnly_applyAdds (128 * line) 128
  unfold switchLine
  split
  · exact hadds.trans (State.homesOnly_gather ..)
  · exact hadds.trans (State.homesOnly_mergeLine ..)

theorem State.homesOnly_switchLines (tn : Nat) (lines : List Nat) (sw : Bool) : s.HomesOnly (s.switchLines tn lines sw).2 := by
  rw [State.switchLines_eq]
  refine List.foldlRecOn (motive := fun q : Nat × State => s.HomesOnly q.2) lines (switchLine tn sw) (.refl s) ?_
  exact fun q hq line _ => hq.trans (homesOnly_switchLine tn sw q line)

/-- The leaf of a page whose lines have been switched, with the CONFLICT record. -/
def leafSwitched (tn va en : Nat) (e : Word) (sw : Bool) (r : Nat × State) : Nat × State :=
  let s := (r.2.setEntry tn en (setBit (setBit e 55 sw) 53 false)).invalidatePage tn va
  let s := s.post ((s.cores.filter (fun p => !p.2.parked.isEmpty)).map (fun p => evt .storeBufferDrain [p.1]))
  if r.1 = 0 then (0, s)
  else
    let key := Leaf.frame e
    let count := min 65535 (SMap.get (s.tenant tn).conflicts key 0 + r.1)
    let s := s.modTenant tn (fun t => { t with conflicts := SMap.set t.conflicts key count })
    (r.1, s.notify tn (recWord 3 (key % 2 ^ 48)) (w64 (count * 2 ^ 48 + r.1 % 2 ^ 32)))

theorem homesOnly_leafSwitched (tn va en : Nat) (e : Word) (sw : Bool) (r : Nat × State) :
    r.2.HomesOnly (leafSwitched tn va en e sw r).2 := by
  have hleaf := (State.homesOnly_setEntry r.2 tn en (setBit (setBit e 55 sw) 53 false)).trans
    (State.homesOnly_invalidatePage _ tn va)
  unfold leafSwitched
  dsimp only
  split
  · exact hleaf.trans (State.homesOnly_post ..)
  · exact (hleaf.trans (State.homesOnly_post ..)).trans ((State.homesOnly_modTenant ..).trans (State.homesOnly_notify ..))

theorem State.switchPage_eq (tn va l en : Nat) (e : Word) (sw : Bool) : s.switchPage tn va l en e sw =
    leafSwitched tn va en e sw (if Leaf.cm e = sw then (0, s) else
      s.switchLines tn ((s.tenant tn).linesOf e (Leaf.frame e) (pageSize l)) sw) := rfl

theorem State.homesOnly_switchPage (tn va l en : Nat) (e : Word) (sw : Bool) : s.HomesOnly (s.switchPage tn va l en e sw).2 := by
  rw [State.switchPage_eq]
  refine .trans ?_ (homesOnly_leafSwitched ..)
  split
  · rfl
  · exact s.homesOnly_switchLines ..

theorem State.beginMig_next (tn : Nat) (owner : Word) (va l en : Nat) (e : Word) (dst : Nat) :
    (s.beginMig tn owner va l en e dst).next = s.next :=
  ((State.homesOnly_setEntry s tn en (setBit e 53 true)).trans (State.homesOnly_invalidatePage _ tn va)).next

end

/-! ### SEGLD, SEGRD -/

section
variable {f : Fields} {s : State} {c k : Nat} {t : Thread}

theorem State.readWord_of_plain {va : Nat} {tr : Tr} (h : s.lookup (c / 8) va 0 = some tr) (hcl : Leaf.cl tr.leaf = 0)
    (hp : s.poisoned tr.pa = false) : s.readWord c k t va = .val ((s.applyAdds tr.pa 8).loadItem c k s.nextId tr 8) := by
  have hload : loadRefusal tr 8 = 0 := by
    rw [loadRefusal, hcl]
    rfl
  rw [State.readWord, State.pageFor_of_lookup h]
  simp only [hload, hp]
  rfl

section
variable {w0 w1 : TWord} (h : Goes (.segld f) s c k t) (hops : t.ops = []) (hal : s.gOff c t f % 16 = 0)
  (h0 : memG t f.hi (s.gOff c t f) 8 'R' = none) (h8 : memG t f.hi (s.gOff c t f + 8) 8 'R' = none)
  (hw0 : s.readWord c k t (vaOf t f.hi (s.gOff c t f)) = .val w0)
  (hw1 : s.readWord c k t (vaOf t f.hi (s.gOff c t f + 8)) = .val w1)
include h hops hal h0 h8 hw0 hw1

theorem exec_segld_of_ok (hcheck : segCheck w0.v w1.v = none) :
    exec (.segld f) s = .next (s.withThread c k { t.done s.next s.nextId with segs := setNth t.segs f.d (segOf w0.v w1.v) }
      (s.core c).rf) := by
  rw [State.gOff] at *
  rw [exec_segld, execSegld, issue_goes h]
  simp only [hops, h0, h8, hal, hw0, hw1, hcheck]
  refine congrArg Host.Outcome.next ?_
  rw [if_neg (by decide), State.modThread_eq h.thread?, if_neg (by simp)]
  exact (State.finish_shortened (State.withThread_thread? ..) _ _).trans (by rw [State.withThread_withThread]; rfl)

theorem exec_segld_of_trap {code : Nat} (hcheck : segCheck w0.v w1.v = some code) :
    exec (.segld f) s = .next (s.trapped c k t code (w64 (w0.v.bits 56 0)) (w64 f.d)) := by
  rw [State.gOff] at *
  rw [exec_segld, execSegld, issue_goes h]
  simp only [hops, h0, h8, hal, hw0, hw1, hcheck]
  rfl

end

theorem exec_segrd_goes (h : Goes (.segrd f) s c k t) : exec (.segrd f) s = .next (s.answers s c k t f
    ⟨w64 (if f.fx = 0 then (t.seg f.a).base else if f.fx = 1 then (t.seg f.a).limit else (t.seg f.a).rights), false⟩) := by
  rw [exec_segrd, execSegrd]
  refine issue_answers h ?_ rfl
  rcases f.fx with _ | _ | n <;> rfl

/-! ### What an instruction finds at its port -/

theorem State.pageFor_of_declined {va acc cause : Nat} (h : s.lookup (c / 8) va acc = none)
    (hd : t.declined = some (pageOf va, cause)) : s.pageFor c k t va acc = .declined cause := by
  rw [State.pageFor, h]
  simp only [hd, if_true]

theorem State.pageFor_of_missing {va acc : Nat} (h : s.lookup (c / 8) va acc = none) (hd : t.declined = none) :
    s.pageFor c k t va acc = .parked ((s.startWalk t.tenant 0 c k va acc).park c k (.page va)) := by
  rw [State.pageFor, h]
  simp only [hd]

/-! ### XLATE -/

theorem exec_xlate_of_limit (h : Goes (.xlate f) s c k t) (hl : (t.seg f.hi).limit < s.gOff c t f + 1) :
    exec (.xlate f) s = .next (s.trapped c k t 0x04 (w64 (s.gOff c t f)) (w64 f.hi)) := by
  rw [State.gOff] at *
  rw [exec_xlate, execXlate, issue_goes h]
  dsimp only
  rw [if_pos hl]
  rfl

section
variable (h : Goes (.xlate f) s c k t) (hl : s.gOff c t f + 1 ≤ (t.seg f.hi).limit)
include h hl

theorem exec_xlate_of_lookup {tr : Tr} (hp : s.lookup (c / 8) (vaOf t f.hi (s.gOff c t f)) 6 = some tr) :
    exec (.xlate f) s = .next (s.answers s c k t f ⟨xlateWord tr (vaOf t f.hi (s.gOff c t f)), (s.getG c t f.a).t⟩) := by
  rw [State.gOff] at *
  rw [exec_xlate, execXlate]
  refine issue_answers h ?_ rfl
  rw [if_neg (by omega)]
  simp only [State.pageFor_of_lookup hp]

theorem exec_xlate_of_declined {cause : Nat} (hp : s.lookup (c / 8) (vaOf t f.hi (s.gOff c t f)) 6 = none)
    (hd : t.declined = some (pageOf (vaOf t f.hi (s.gOff c t f)), cause)) :
    exec (.xlate f) s = .next (s.answers s c k t f ⟨w64 cause, (s.getG c t f.a).t⟩) := by
  rw [State.gOff] at *
  rw [exec_xlate, execXlate]
  refine issue_answers h ?_ rfl
  rw [if_neg (by omega)]
  simp only [State.pageFor_of_declined hp hd]

theorem exec_xlate_of_missing (hp : s.lookup (c / 8) (vaOf t f.hi (s.gOff c t f)) 6 = none) (hd : t.declined = none) :
    exec (.xlate f) s = .next ((s.startWalk t.tenant 0 c k (vaOf t f.hi (s.gOff c t f)) 6).waits s c k t
      (.page (vaOf t f.hi (s.gOff c t f)))) := by
  rw [State.gOff] at *
  rw [exec_xlate, execXlate]
  refine issue_waits h ?_
  rw [if_neg (by omega)]
  simp only [State.pageFor_of_missing hp hd]

end

/-! ### PGHOT -/

theorem Word.bits_63_1 (w : Word) : w.bits 63 1 = w.toNat / 2 := by
  have := w.isLt
  rw [Word.bits, bitsOf, Nat.mod_eq_of_lt]
  · rfl
  · omega

/-- The operand d of an instruction that reads and writes gd for an address. -/
theorem State.readVals_ranged {i : Instr} (hform : i.form = some ⟨.A, .no, .seg, .rw, .base, .none, .signed⟩)
    (hroles : i.roles ⟨.A, .no, .seg, .rw, .base, .none, .signed⟩ f = (.rw, .base, .none)) (hf : plainFields f) (s : State)
    (c k : Nat) (t : Thread) : (s.readVals i c k t f).1.d = s.getG c t f.d := by
  rw [State.readVals_plain hform hf, hroles]
  rfl

section
variable (hf : plainFields f)
include hf

/-- A plain instruction that writes gd and goes on. -/
theorem issue_wrote {i : Instr} {w : TWord} (h : Goes i s c k t) {body : Nat → Nat → Thread → State → State}
    (hbody : body c k t s = (s.writeReg c k t f.d f.sd w).finish c k) :
    issue i s body = .next (s.wrote c k t f.d w s.next) := by
  rw [issue_goes h, hbody, hf.1]
  exact congrArg Host.Outcome.next (State.setG_finish_shortened h.thread? ..)

theorem exec_pghot_of_bad (h : Goes (.pghot f) s c k t) (hg : (s.getG c t f.d).v.toNat / 2 ≠ 0) :
    exec (.pghot f) s = .next (s.wrote c k t f.d ⟨allOnes, true⟩ s.next) := by
  rw [exec_pghot, execPghot]
  refine issue_wrote hf h ?_
  simp only [State.readVals_ranged (i := .pghot f) rfl rfl hf, Word.bits_63_1]
  rw [if_pos hg]

section
variable (h : Goes (.pghot f) s c k t) (hg : (s.getG c t f.d).v.toNat / 2 = 0) (hl : s.gOff c t f + 1 ≤ (t.seg f.hi).limit)
include h hg hl

theorem exec_pghot_of_record {tr : Tr} (hp : s.lookup (c / 8) (vaOf t f.hi (s.gOff c t f)) 6 = some tr)
    (hh : Leaf.h tr.leaf = false) (ht : Leaf.ht tr.leaf = true) :
    exec (.pghot f) s = .next ((if (s.getG c t f.d).v = 1
      then { s with hot := SMap.set s.hot (hotKey t.tenant tr.leaf) (mkHot 0 0 0 0 1) } else s).answers s c k t f
      ⟨SMap.get s.hot (hotKey t.tenant tr.leaf) (mkHot 0 0 0 0 1), true⟩) := by
  have hone : (s.getG c t f.d).v.bits 0 0 = 1 ↔ (s.getG c t f.d).v = 1 := by
    rw [Word.bits, bitsOf]
    constructor
    · intro hb
      exact BitVec.eq_of_toNat_eq (by simp at hb ⊢; omega)
    · intro hb
      rw [hb]
      rfl
  rw [State.gOff] at *
  rw [exec_pghot, execPghot]
  refine issue_answers h ?_ (by split <;> rfl)
  simp only [State.readVals_ranged (i := .pghot f) rfl rfl hf, Word.bits_63_1]
  rw [if_neg (by omega), if_neg (by omega)]
  simp only [State.pageFor_of_lookup hp, State.readHot, hh, ht, hone, Bool.not_true, Bool.or_self, Bool.false_eq_true, if_false,
    decide_eq_true_eq]

theorem exec_pghot_of_none {tr : Tr} (hp : s.lookup (c / 8) (vaOf t f.hi (s.gOff c t f)) 6 = some tr)
    (hh : Leaf.h tr.leaf = true ∨ Leaf.ht tr.leaf = false) :
    exec (.pghot f) s = .next (s.wrote c k t f.d ⟨32, true⟩ s.next) := by
  rw [State.gOff] at *
  rw [exec_pghot, execPghot]
  refine issue_wrote hf h ?_
  simp only [State.readVals_ranged (i := .pghot f) rfl rfl hf, Word.bits_63_1]
  rw [if_neg (by omega), if_neg (by omega)]
  simp only [State.pageFor_of_lookup hp, State.readHot]
  rw [if_pos (by simpa using hh)]

theorem exec_pghot_of_declined {cause : Nat} (hp : s.lookup (c / 8) (vaOf t f.hi (s.gOff c t f)) 6 = none)
    (hd : t.declined = some (pageOf (vaOf t f.hi (s.gOff c t f)), cause)) :
    exec (.pghot f) s = .next (s.wrote c k t f.d ⟨0, true⟩ s.next) := by
  rw [State.gOff] at *
  rw [exec_pghot, execPghot]
  refine issue_wrote hf h ?_
  simp only [State.readVals_ranged (i := .pghot f) rfl rfl hf, Word.bits_63_1]
  rw [if_neg (by omega), if_neg (by omega)]
  simp only [State.pageFor_of_declined hp hd]

end

end

/-! ### PGMIG -/

section
variable (hf : plainFields f) (h : Goes (.pgmig f) s c k t)
include hf h

/-- The accesses that used the old translation have been performed. -/
theorem exec_pgmig_of_quiet {lo n : Nat} (hpart : t.part = [1, lo, n]) (hquiet : s.pageBusy t.tenant lo n = false) :
    exec (.pgmig f) s = .next (s.wrote c k t f.d ⟨0, (s.getG c t f.a).t || (s.getG c t f.d).t⟩ s.next) := by
  rw [exec_pgmig, execPgmig]
  refine issue_wrote hf h ?_
  simp only [State.readVals_ranged (i := .pgmig f) rfl rfl hf, hpart, hquiet]
  rfl

section
variable (hpart : t.part = []) (hl : s.gOff c t f + 1 ≤ (t.seg f.hi).limit)
include hpart hl

theorem exec_pgmig_of_declined {cause : Nat} (hp : s.lookup (c / 8) (vaOf t f.hi (s.gOff c t f) % 2 ^ 57) 6 = none)
    (hd : t.declined = some (pageOf (vaOf t f.hi (s.gOff c t f) % 2 ^ 57), cause)) :
    exec (.pgmig f) s = .next (s.wrote c k t f.d ⟨1, (s.getG c t f.a).t || (s.getG c t f.d).t⟩ s.next) := by
  rw [State.gOff] at *
  rw [exec_pgmig, execPgmig]
  refine issue_wrote hf h ?_
  simp only [State.readVals_ranged (i := .pgmig f) rfl rfl hf, hpart]
  rw [if_neg (by omega)]
  simp only [State.pageFor_of_declined hp hd]
  rfl

section
variable {tr : Tr} (hp : s.lookup (c / 8) (vaOf t f.hi (s.gOff c t f) % 2 ^ 57) 6 = some tr)
include hp

theorem exec_pgmig_of_refused (hst : s.pgmigStatus t.tenant tr (s.getG c t f.d).v.toNat ≠ 0) :
    exec (.pgmig f) s = .next (s.wrote c k t f.d ⟨w64 (s.pgmigStatus t.tenant tr (s.getG c t f.d).v.toNat),
      (s.getG c t f.a).t || (s.getG c t f.d).t⟩ s.next) := by
  rw [State.gOff] at *
  rw [exec_pgmig, execPgmig]
  refine issue_wrote hf h ?_
  simp only [State.readVals_ranged (i := .pgmig f) rfl rfl hf, hpart]
  rw [if_neg (by omega)]
  simp only [State.pageFor_of_lookup hp]
  rw [if_pos hst]

section
variable (hst : s.pgmigStatus t.tenant tr (s.getG c t f.d).v.toNat = 0) {l en : Nat} {e : Word}
  (hw : s.walk t.tenant (vaOf t f.hi (s.gOff c t f) % 2 ^ 57) 6 = .leaf l en e) {s2 : State}
  (h2 : s.beginMig t.tenant (s.tid c k t) (vaOf t f.hi (s.gOff c t f) % 2 ^ 57) l en e (s.getG c t f.d).v.toNat = s2)
include hst hw h2

theorem exec_pgmig_of_free (hbusy : s2.pageBusy t.tenant (vaOf t f.hi (s.gOff c t f) % 2 ^ 57 / pageSize l * pageSize l)
      (pageSize l) = false) :
    exec (.pgmig f) s = .next (s2.answers s c k t f ⟨0, (s.getG c t f.a).t || (s.getG c t f.d).t⟩) := by
  rw [State.gOff] at *
  rw [exec_pgmig, execPgmig]
  refine issue_answers h ?_ (h2 ▸ State.beginMig_next ..)
  simp only [State.readVals_ranged (i := .pgmig f) rfl rfl hf, hpart]
  rw [if_neg (by omega)]
  simp only [State.pageFor_of_lookup hp, hst, hw, h2, hbusy]
  rfl

theorem exec_pgmig_of_busy (hbusy : s2.pageBusy t.tenant (vaOf t f.hi (s.gOff c t f) % 2 ^ 57 / pageSize l * pageSize l)
      (pageSize l) = true) :
    exec (.pgmig f) s = .next ((s2.continue c k [1, vaOf t f.hi (s.gOff c t f) % 2 ^ 57 / pageSize l * pageSize l,
      pageSize l]).shortened c k t.pc s.nextId) := by
  rw [State.gOff] at *
  rw [exec_pgmig, execPgmig, issue_goes h]
  simp only [State.readVals_ranged (i := .pgmig f) rfl rfl hf, hpart]
  rw [if_neg (by omega)]
  simp only [State.pageFor_of_lookup hp, hst, hw, h2, hbusy]
  rfl

end
end
end
end

/-! ### CFLUSH, CINV -/

theorem not_noRights {r w : Bool} (h : r = true ∨ w = true) : ¬(!(r || w)) = true := by
  obtain rfl | rfl := h <;> simp

section
variable {i : Instr} {inv : Bool} (hf : plainFields f) (hform : i.form = some ⟨.A, .no, .seg, .rw, .base, .none, .signed⟩)
  (hroles : i.roles ⟨.A, .no, .seg, .rw, .base, .none, .signed⟩ f = (.rw, .base, .none)) (h : Goes i s c k t)
include hf hform hroles h

theorem flushOp_of_empty (hlen : (s.getG c t f.d).v.toNat = 0) :
    flushOp i f s inv = .next (s.wrote c k t f.d ⟨0, true⟩ s.next) := by
  rw [flushOp]
  refine issue_wrote hf h ?_
  simp only [State.readVals_ranged hform hroles hf]
  rw [if_pos hlen]

theorem flushOp_of_long (hlen : 2 ^ 24 < (s.getG c t f.d).v.toNat) :
    flushOp i f s inv = .next (s.wrote c k t f.d ⟨allOnes, true⟩ s.next) := by
  rw [flushOp]
  refine issue_wrote hf h ?_
  simp only [State.readVals_ranged hform hroles hf]
  rw [if_neg (by omega), if_pos hlen]

section
variable (hpos : (s.getG c t f.d).v.toNat ≠ 0) (hlen : (s.getG c t f.d).v.toNat ≤ 2 ^ 24)
include hpos hlen

theorem flushOp_of_limit (hl : (t.seg f.hi).limit < s.gOff c t f + (s.getG c t f.d).v.toNat) :
    flushOp i f s inv = .next (s.trapped c k t 0x04 (w64 (s.gOff c t f)) (w64 f.hi)) := by
  rw [State.gOff] at *
  rw [flushOp, issue_goes h]
  simp only [State.readVals_ranged hform hroles hf]
  rw [if_neg hpos, if_neg (by omega), if_pos hl]
  rfl

section
variable (hl : s.gOff c t f + (s.getG c t f.d).v.toNat ≤ (t.seg f.hi).limit)
  (hright : (t.seg f.hi).has 'R' = true ∨ (t.seg f.hi).has 'W' = true)
include hl hright

theorem flushOp_of_ops (hops : t.ops ≠ []) : flushOp i f s inv = .next (s.waits s c k t .opsDone) := by
  rw [State.gOff] at *
  rw [flushOp]
  refine issue_waits h ?_
  simp only [State.readVals_ranged hform hroles hf]
  rw [if_neg hpos, if_neg (by omega), if_neg (by omega), if_neg (not_noRights hright), if_pos (by simpa using hops)]

section
variable (hops : t.ops = [])
include hops

theorem flushOp_of_stores (hst : s.storesOf c k ≠ []) : flushOp i f s inv = .next (s.waits s c k t .stores) := by
  rw [State.gOff] at *
  rw [flushOp]
  refine issue_waits h ?_
  simp only [State.readVals_ranged hform hroles hf]
  rw [if_neg hpos, if_neg (by omega), if_neg (by omega), if_neg (not_noRights hright), if_neg (by simp [hops]),
    if_pos (by simpa using hst)]

section
variable (hst : s.storesOf c k = []) (hpart : t.part = []) {lo n : Nat}
  (hlo : vaOf t f.hi (s.gOff c t f) / 128 * 128 = lo)
  (hn : (vaOf t f.hi (s.gOff c t f) + (s.getG c t f.d).v.toNat + 127) / 128 - vaOf t f.hi (s.gOff c t f) / 128 = n)
include hst hpart hlo hn

theorem flushOp_of_done {q : Nat} {u : State} (hdone : s.flushFrom c k t lo inv n 0 0 = .done q u) :
    flushOp i f s inv = .next (u.answers s c k t f ⟨w64 q, true⟩) := by
  rw [State.gOff] at *
  rw [flushOp]
  refine issue_answers h ?_ (State.flushFrom_next hdone)
  simp only [State.readVals_ranged hform hroles hf]
  rw [if_neg hpos, if_neg (by omega), if_neg (by omega), if_neg (not_noRights hright), if_neg (by simp [hops]),
    if_neg (by simp [hst])]
  simp only [hpart, hlo, hn, Nat.sub_zero, hdone]

theorem flushOp_of_parked {u : State} (hdone : s.flushFrom c k t lo inv n 0 0 = .parked u) :
    flushOp i f s inv = .next (u.shortened c k t.pc s.nextId) := by
  rw [State.gOff] at *
  rw [flushOp, issue_goes h]
  simp only [State.readVals_ranged hform hroles hf]
  rw [if_neg hpos, if_neg (by omega), if_neg (by omega), if_neg (not_noRights hright), if_neg (by simp [hops]),
    if_neg (by simp [hst])]
  simp only [hpart, hlo, hn, Nat.sub_zero, hdone]

end
end
end
end
end

/-- A range of one line, whose page is known and which waits for nothing. -/
theorem State.flushFrom_line {lo : Nat} {tr : Tr} {inv : Bool} (hp : s.lookup (c / 8) lo 0 = some tr) (hcl : Leaf.cl tr.leaf < 2)
    (hgate : (s.flushGate c (tr.pa / 128)).1 = true) :
    s.flushFrom c k t lo inv 1 0 0 = .done (((s.flushGate c (tr.pa / 128)).2.flushLine c tr inv).1.toNat)
      ((s.flushGate c (tr.pa / 128)).2.flushLine c tr inv).2 := by
  rw [State.flushFrom]
  dsimp only
  rw [Nat.mul_zero, Nat.add_zero, State.pageFor_of_lookup hp]
  dsimp only
  rw [if_neg (by omega), if_neg (by simp [hgate]), State.flushFrom, Nat.zero_add]

/-! ### SETCOH -/

section
variable (hf : plainFields f) (h : Goes (.setcoh f) s c k t)
include hf h

section
variable (hpart : ∀ va rem q n ws, t.part ≠ [1, va, rem, q, n, ws])
include hpart

theorem exec_setcoh_of_limit (hl : (t.seg f.hi).limit < s.gOff c t f + (s.getG c t f.d).v.bits 39 0) :
    exec (.setcoh f) s = .next (s.trapped c k t 0x04 (w64 (s.gOff c t f)) (w64 f.hi)) := by
  rw [State.gOff] at *
  rw [exec_setcoh, execSetcoh, issue_goes h]
  simp only [State.readVals_ranged (i := .setcoh f) rfl rfl hf]
  rw [if_pos hl]
  rfl

section
variable (hl : s.gOff c t f + (s.getG c t f.d).v.bits 39 0 ≤ (t.seg f.hi).limit)
include hl

theorem exec_setcoh_of_right (hw : (t.seg f.hi).has 'W' = false) :
    exec (.setcoh f) s = .next (s.trapped c k t 0x05 (w64 (s.gOff c t f)) (w64 f.hi)) := by
  rw [State.gOff] at *
  rw [exec_setcoh, execSetcoh, issue_goes h]
  simp only [State.readVals_ranged (i := .setcoh f) rfl rfl hf]
  rw [if_neg (by omega), if_pos (by simp [hw])]
  rfl

theorem exec_setcoh_of_malformed (hw : (t.seg f.hi).has 'W' = true)
    (hbad : (s.getG c t f.d).v.bits 62 40 ≠ 0 ∨ (s.getG c t f.d).v.bits 39 0 = 0) :
    exec (.setcoh f) s = .next (s.wrote c k t f.d ⟨w64 (2 ^ 56), (s.getG c t f.a).t || (s.getG c t f.d).t⟩ s.next) := by
  rw [State.gOff] at *
  rw [exec_setcoh, execSetcoh]
  refine issue_wrote hf h ?_
  simp only [State.readVals_ranged (i := .setcoh f) rfl rfl hf]
  rw [if_neg (by omega), if_neg (by simp [hw]), if_pos (by simpa using hbad), Bool.or_false]

end
end

section
variable (hl : s.gOff c t f + (s.getG c t f.d).v.bits 39 0 ≤ (t.seg f.hi).limit) (hw : (t.seg f.hi).has 'W' = true)
  (h62 : (s.getG c t f.d).v.bits 62 40 = 0) (hlen : (s.getG c t f.d).v.bits 39 0 ≠ 0) (hpart : t.part = [])
include hl hw h62 hlen hpart

theorem exec_setcoh_of_page {st : Nat} (hpages : s.pagesOf c k t ((s.getG c t f.d).v.bits 39 0 / 4096 + 1)
      (vaOf t f.hi (s.gOff c t f) % 2 ^ 57) ((s.getG c t f.d).v.bits 39 0) = .bad st) :
    exec (.setcoh f) s = .next (s.wrote c k t f.d ⟨w64 (st * 2 ^ 56), (s.getG c t f.a).t || (s.getG c t f.d).t⟩ s.next) := by
  rw [State.gOff] at *
  rw [exec_setcoh, execSetcoh]
  refine issue_wrote hf h ?_
  simp only [State.readVals_ranged (i := .setcoh f) rfl rfl hf, hpart]
  rw [if_neg (by omega), if_neg (by simp [hw]), if_neg (by simp [h62, hlen])]
  simp only [hpages, Bool.or_false]

theorem exec_setcoh_begins {l en : Nat} {e : Word} (hpages : s.pagesOf c k t ((s.getG c t f.d).v.bits 39 0 / 4096 + 1)
      (vaOf t f.hi (s.gOff c t f) % 2 ^ 57) ((s.getG c t f.d).v.bits 39 0) = .ok)
    (hwalk : s.walk t.tenant (vaOf t f.hi (s.gOff c t f) % 2 ^ 57) 6 = .leaf l en e) (hwb : Leaf.wb e = false) :
    exec (.setcoh f) s = .next ((((s.setEntry t.tenant en (setBit e 53 true)).invalidatePage t.tenant
      (vaOf t f.hi (s.gOff c t f) % 2 ^ 57)).continue c k [1, vaOf t f.hi (s.gOff c t f) % 2 ^ 57,
        (s.getG c t f.d).v.bits 39 0, 0, 0, 1]).shortened c k t.pc s.nextId) := by
  rw [State.gOff] at *
  rw [exec_setcoh, execSetcoh, issue_goes h]
  simp only [State.readVals_ranged (i := .setcoh f) rfl rfl hf, hpart]
  rw [if_neg (by omega), if_neg (by simp [hw]), if_neg (by simp [h62, hlen])]
  simp only [hpages, State.setcohStep]
  rw [if_neg hlen]
  simp only [hwalk]
  rw [if_pos (by rfl), if_neg (by simp [hwb])]

end

section
variable {va rem q n l en : Nat} {e : Word} (hpart : t.part = [1, va, rem, q, n, 1]) (hrem : rem ≠ 0)
  (hwalk : s.walk t.tenant va 6 = .leaf l en e)
include hpart hrem hwalk

theorem exec_setcoh_waits (hbusy : (s.pageBusy t.tenant va (pageSize l) ||
      ((s.tenant t.tenant).linesOf e (Leaf.frame e) (pageSize l)).any s.lineBusy) = true) :
    exec (.setcoh f) s = .next ((s.continue c k [1, va, rem, q, n, 1]).shortened c k t.pc s.nextId) := by
  rw [exec_setcoh, execSetcoh, issue_goes h]
  simp only [State.readVals_ranged (i := .setcoh f) rfl rfl hf, hpart, State.setcohStep]
  rw [if_neg hrem]
  simp only [hwalk]
  rw [if_neg (by decide), if_pos hbusy]

section
variable (hbusy : (s.pageBusy t.tenant va (pageSize l) ||
  ((s.tenant t.tenant).linesOf e (Leaf.frame e) (pageSize l)).any s.lineBusy) = false) {r : Nat × State}
  (hr : s.switchPage t.tenant va l en e ((s.getG c t f.d).v.getLsbD 63) = r)
include hbusy hr

theorem exec_setcoh_goes_on (hmore : pageSize l < rem) :
    exec (.setcoh f) s = .next ((r.2.continue c k [1, va + pageSize l, rem - pageSize l, q + 1, n + r.1, 0]).shortened
      c k t.pc s.nextId) := by
  rw [exec_setcoh, execSetcoh, issue_goes h]
  simp only [State.readVals_ranged (i := .setcoh f) rfl rfl hf, hpart, State.setcohStep]
  rw [if_neg hrem]
  simp only [hwalk]
  rw [if_neg (by decide), if_neg (by simp [hbusy])]
  simp only [Word.bits_one, hr]
  rw [if_neg (by omega)]

theorem exec_setcoh_ends (hlast : rem ≤ pageSize l) :
    exec (.setcoh f) s = .next (r.2.answers s c k t f ⟨w64 ((q + 1) % 2 ^ 24 * 2 ^ 32 + min (n + r.1) (2 ^ 32 - 1)),
      (s.getG c t f.a).t || (s.getG c t f.d).t || decide (n + r.1 ≠ 0)⟩) := by
  rw [exec_setcoh, execSetcoh]
  refine issue_answers h ?_ (hr ▸ (State.homesOnly_switchPage ..).next)
  simp only [State.readVals_ranged (i := .setcoh f) rfl rfl hf, hpart, State.setcohStep]
  rw [if_neg hrem]
  simp only [hwalk]
  rw [if_neg (by decide), if_neg (by simp [hbusy])]
  simp only [Word.bits_one, hr]
  rw [if_pos hlast]

end
end
end

end

theorem segCheck_of_ok {w0 w1 : Word} (h6 : w0.bits 6 0 = 0) (h : w0.bits 56 0 + w1.bits 39 0 ≤ 2 ^ 57) :
    segCheck w0 w1 = none := by
  rw [segCheck, if_neg (by omega), if_neg (by omega)]

theorem segCheck_of_align {w0 w1 : Word} (h6 : w0.bits 6 0 ≠ 0) : segCheck w0 w1 = some 0x13 := if_pos h6

theorem segCheck_of_limit {w0 w1 : Word} (h6 : w0.bits 6 0 = 0) (h : 2 ^ 57 < w0.bits 56 0 + w1.bits 39 0) :
    segCheck w0 w1 = some 0x04 := by
  rw [segCheck, if_neg (by omega), if_pos h]
  rfl

/-- CFLUSH and CINV. -/
def flushInstr (i : Bool) (f : Fields) : Instr := if i then .cinv f else .cflush f

theorem exec_flushInstr (i : Bool) (f : Fields) (s : State) : exec (flushInstr i f) s = flushOp (flushInstr i f) f s i := by
  cases i <;> rfl

theorem flushInstr_form (i : Bool) (f : Fields) : (flushInstr i f).form = some ⟨.A, .no, .seg, .rw, .base, .none, .signed⟩ := by
  cases i <;> rfl

theorem flushInstr_roles (i : Bool) (f : Fields) :
    (flushInstr i f).roles ⟨.A, .no, .seg, .rw, .base, .none, .signed⟩ f = (.rw, .base, .none) := by
  cases i <;> rfl

/-- Settles O35: each instruction's cases, by what its page and its range come to. -/
theorem pageInstructions : Obligations.PageInstructions := by
  unfold Obligations.PageInstructions
  refine ⟨?_, fun s c k t va tr h hcl hp => State.readWord_of_plain h hcl hp, fun f s c k t h => exec_segrd_goes h,
    fun f s c k t h => ⟨exec_xlate_of_limit h, fun hl => ⟨fun tr => exec_xlate_of_lookup h hl,
      fun cause => exec_xlate_of_declined h hl, exec_xlate_of_missing h hl⟩⟩,
    fun f s c k t hf h => ⟨exec_pghot_of_bad hf h, fun hg hl => ⟨fun tr => exec_pghot_of_record hf h hg hl,
      fun tr => exec_pghot_of_none hf h hg hl, fun cause => exec_pghot_of_declined hf h hg hl⟩⟩,
    fun f s c k t hf h hpart hl => ⟨fun cause => exec_pgmig_of_declined hf h hpart hl, fun tr hp =>
      ⟨exec_pgmig_of_refused hf h hpart hl hp, fun l en e hst hw =>
        ⟨exec_pgmig_of_free hf h hpart hl hp hst hw rfl, exec_pgmig_of_busy hf h hpart hl hp hst hw rfl⟩⟩⟩,
    fun _ _ _ _ _ _ _ _ => rfl, fun f s c k t lo n hf h hpart hq => exec_pgmig_of_quiet hf h hpart hq, ?_, ?_, ?_⟩
  · intro f s c k t w0 w1 h hops hal h0 h8 hw0 hw1
    exact ⟨fun h6 hle => exec_segld_of_ok h hops hal h0 h8 hw0 hw1 (segCheck_of_ok h6 hle),
      fun h6 => exec_segld_of_trap h hops hal h0 h8 hw0 hw1 (segCheck_of_align h6),
      fun h6 hlt => exec_segld_of_trap h hops hal h0 h8 hw0 hw1 (segCheck_of_limit h6 hlt)⟩
  · intro i f s c k t hf h e va len n
    have he : e = flushOp (flushInstr i f) f s i := exec_flushInstr i f s
    have hform := flushInstr_form i f
    have hroles := flushInstr_roles i f
    clear_value e
    subst he
    refine ⟨flushOp_of_empty hf hform hroles h, flushOp_of_long hf hform hroles h, flushOp_of_limit hf hform hroles h,
      fun hpos hlen hl hright => ⟨flushOp_of_ops hf hform hroles h hpos hlen hl hright,
        flushOp_of_stores hf hform hroles h hpos hlen hl hright, fun hops hst hpart => ⟨fun q u =>
          flushOp_of_done hf hform hroles h hpos hlen hl hright hops hst hpart rfl rfl, fun u =>
          flushOp_of_parked hf hform hroles h hpos hlen hl hright hops hst hpart rfl rfl, fun tr hn hp hcl hgate => ?_⟩⟩⟩
    rw [flushOp_of_done hf hform hroles h hpos hlen hl hright hops hst hpart rfl hn (State.flushFrom_line hp hcl hgate)]
    cases ((s.flushGate c (tr.pa / 128)).2.flushLine c tr i).1 <;> rfl
  · intro f s c k t hf h hpart g len va tt
    exact ⟨exec_setcoh_of_limit hf h hpart, fun hl => ⟨exec_setcoh_of_right hf h hpart hl, fun hw =>
      ⟨exec_setcoh_of_malformed hf h hpart hl hw, fun st h62 hlen hp => exec_setcoh_of_page hf h hl hw h62 hlen hp,
        fun l en e h62 hlen hp => exec_setcoh_begins hf h hl hw h62 hlen hp⟩⟩⟩
  · intro f s c k t va rem q n l en e hf h hpart hrem hwalk w r
    exact ⟨exec_setcoh_waits hf h hpart hrem hwalk, fun hb hm => exec_setcoh_goes_on hf h hpart hrem hwalk hb rfl hm,
      fun hb hm => exec_setcoh_ends hf h hpart hrem hwalk hb rfl hm⟩

end Sys2Proof.Machine
end

section
/-!
SUPPORT. Walks, faults, migrations, poison and a window that shrinks (R45 to R48, R54 to R56, R60): O36.
-/
namespace Sys2Proof.Machine
open Sys2Proof

/-! ### Tables without a key -/

theorem SMap.get?_del_same {α : Type} (m : SMap α) (k : Nat) : SMap.get? (SMap.del m k) k = none := by
  induction m with
  | nil => rfl
  | cons p r ih =>
    obtain ⟨j, v⟩ := p
    rw [SMap.del]
    split
    · exact ih
    · next h => rw [SMap.get?, if_neg h, ih]

theorem SMap.get?_del_other {α : Type} (m : SMap α) {k j : Nat} (h : j ≠ k) : SMap.get? (SMap.del m k) j = SMap.get? m j := by
  induction m with
  | nil => rfl
  | cons p r ih =>
    obtain ⟨i, v⟩ := p
    rw [SMap.del]
    split
    · next hi => rw [ih, SMap.get?, if_neg (by omega)]
    · rw [SMap.get?, SMap.get?, ih]

/-! ### A line written as zero -/

theorem Mem.byte_zeroLine {m : Mem} (h : m.wf = true) (l x : Nat) :
    ((m.zeroLine l).byte x).toNat = if x / 128 = l then 0 else (m.byte x).toNat := by
  have hbyte : (m.zeroLine l).byte x = (m.writeN (128 * l) 128 0).byte x := by
    simp only [Mem.zeroLine, Mem.byte]
  rw [hbyte]
  by_cases hx : x / 128 = l
  · have hin : x % 128 < 128 := Nat.mod_lt x (by omega)
    have hzero := Mem.byte_writeN h (a := 128 * l) (v := 0) hin
    rw [show 128 * l + x % 128 = x by omega, Nat.zero_div] at hzero
    rw [if_pos hx, hzero]
  · rw [if_neg hx, Mem.byte_writeN_other h _ (by omega)]

/-- The lines of a list written as zero. -/
theorem Mem.byte_zeroLines {m : Mem} (h : m.wf = true) (ls : List Nat) (x : Nat) :
    ((ls.foldl Mem.zeroLine m).byte x).toNat = if x / 128 ∈ ls then 0 else (m.byte x).toNat := by
  induction ls generalizing m with
  | nil => simp
  | cons l r ih =>
    rw [List.foldl_cons, ih (Mem.zeroLine_wf h l), Mem.byte_zeroLine h]
    by_cases hr : x / 128 ∈ r
    · rw [if_pos hr, if_pos (List.mem_cons_of_mem _ hr)]
    · rw [if_neg hr]
      by_cases hl : x / 128 = l
      · rw [if_pos hl, if_pos (List.mem_cons.2 (.inl hl))]
      · rw [if_neg hl, if_neg (by simp [hl, hr])]

theorem Mem.readN_eq_zero {m : Mem} {a n : Nat} (h : ∀ x, a ≤ x → x < a + n → (m.byte x).toNat = 0) : m.readN a n = 0 := by
  induction n generalizing a with
  | zero => rfl
  | succ n ih =>
    rw [Mem.readN, h a (Nat.le_refl _) (by omega), ih (fun x hx hx' => h x (by omega) (by omega))]

theorem Mem.word_zeroLines {m : Mem} (h : m.wf = true) {ls : List Nat} {w : Nat} (hw : w / 16 ∈ ls) :
    ((ls.foldl Mem.zeroLine m).word w).v = 0 := by
  have hread : (ls.foldl Mem.zeroLine m).readN (8 * w) 8 = 0 := Mem.readN_eq_zero fun x hx hx' => by
    rw [Mem.byte_zeroLines h, if_pos (by rwa [show x / 128 = w / 16 by omega])]
  rw [Mem.word, hread]
  rfl

/-! ### Walks -/

section
variable {s : State} {w : Walk} (hw : s.walk? (s.argN 0) = some w)
include hw

theorem exec_walkStart_of_free (hfree : (s.die w.die).walks < 128) :
    exec .walkStart s = .next (((s.setWalk { w with busy := true }).setDie w.die
      { s.die w.die with walks := (s.die w.die).walks + 1 }).post [evt .pageWalkDone [w.id]]) := by
  rw [exec_walkStart, execWalkStart]
  simp only [hw]
  rw [if_neg (by omega)]
  rfl

theorem exec_walkStart_of_full (hfull : 128 ≤ (s.die w.die).walks) : exec .walkStart s = .next (s.again .walkStart) := by
  rw [exec_walkStart, execWalkStart]
  simp only [hw]
  rw [if_pos hfull]

/-- The walker of the die is free again. -/
def State.walkEnded (s : State) (w : Walk) : State :=
  s.setDie w.die { s.die w.die with walks := (s.die w.die).walks - 1 }

omit hw in
theorem State.walkEnded_walk (tn va acc : Nat) : (s.walkEnded w).walk tn va acc = s.walk tn va acc :=
  State.SameExtents.walk (s := s) (u := s.walkEnded w) ⟨rfl, rfl, fun _ => ⟨rfl, rfl⟩⟩ tn va acc

section
variable (hbusy : w.busy = true) (hwho : w.who < 7)
include hbusy hwho

theorem exec_pageWalkDone_of_leaf {l en : Nat} {e : Word} {pa : Nat} (hleaf : s.walk w.tenant w.va w.acc = .leaf l en e)
    (hpa : (s.tenant w.tenant).physical e (Leaf.frame e + w.va % pageSize l) = some pa) :
    exec .pageWalkDone s = .next (((s.walkEnded w).dropWalk w.id).fillTlb (w.core / 8) w.va l e pa) := by
  have hleaf' := (State.walkEnded_walk (s := s) (w := w) w.tenant w.va w.acc).trans hleaf
  have hpa' : ((s.walkEnded w).tenant w.tenant).physical e (Leaf.frame e + w.va % pageSize l) = some pa := hpa
  have hfree : s.modDie w.die (fun d => { d with walks := d.walks - 1 }) = s.walkEnded w := rfl
  rw [exec_pageWalkDone, execPageWalkDone]
  simp only [hw, hfree]
  rw [if_neg (by simp [hbusy]), if_neg (by simp; omega)]
  simp only [hleaf', hpa', Option.getD_some]

section
variable {cause level ia : Nat} (hfault : s.walk w.tenant w.va w.acc = .fault cause level ia)
include hfault

theorem exec_pageWalkDone_of_fault (hacc : w.acc ≠ 6) :
    exec .pageWalkDone s = .next ((s.walkEnded w).postFault w cause level ia) := by
  have hfault' := (State.walkEnded_walk (s := s) (w := w) w.tenant w.va w.acc).trans hfault
  have hfree : s.modDie w.die (fun d => { d with walks := d.walks - 1 }) = s.walkEnded w := rfl
  rw [exec_pageWalkDone, execPageWalkDone]
  simp only [hw, hfree]
  rw [if_neg (by simp [hbusy]), if_neg (by simp; omega)]
  simp only [hfault', if_neg hacc]

theorem exec_pageWalkDone_of_none (hacc : w.acc = 6) :
    exec .pageWalkDone s = .next ((s.walkEnded w).declineWalk { w with cause := cause }) := by
  have hfault' := (State.walkEnded_walk (s := s) (w := w) w.tenant w.va w.acc).trans hfault
  have hfree : s.modDie w.die (fun d => { d with walks := d.walks - 1 }) = s.walkEnded w := rfl
  rw [exec_pageWalkDone, execPageWalkDone]
  simp only [hw, hfree]
  rw [if_neg (by simp [hbusy]), if_neg (by simp; omega)]
  simp only [hfault', if_pos hacc]

end
end
end

section
variable {s : State}

/-- The runtime's answer to a record (R55). -/
theorem State.answerFault_of_record {tn : Nat} {v : Word} {w : Walk}
    (hw : s.walks.find? (fun w => w.tenant = tn && w.record = some (v.bits 31 0)) = some w) :
    (v.getLsbD 63 = false → s.answerFault tn v = (s.setWalk { w with record := none }).post [evt .walkStart [w.id]]) ∧
    (v.getLsbD 63 = true → s.answerFault tn v = s.declineWalk w) := by
  have hbit : (v.bits 63 63 = 1) ↔ v.getLsbD 63 = true := by rw [← Word.bits_one, decide_eq_true_iff]
  unfold State.answerFault
  simp only [hw, hbit]
  exact ⟨fun h => if_neg (by rw [h]; decide), fun h => if_pos h⟩

theorem State.answerFault_of_none {tn : Nat} {v : Word}
    (hw : s.walks.find? (fun w => w.tenant = tn && w.record = some (v.bits 31 0)) = none) : s.answerFault tn v = s := by
  unfold State.answerFault
  simp only [hw]

/-! ### Invalidations -/

/-- A translation cache without the entries of a host page. -/
def Cluster.withoutHost (x : Cluster) (ia : Nat) : Cluster :=
  { x with tlb := x.tlb.filter (fun e => !(Leaf.h e.leaf && Leaf.frame e.leaf / 4096 = ia / 4096)) }

/-- The caches of some clusters without the entries of a host page. -/
def State.withoutHost (s : State) (ia : Nat) (cls : List Nat) : State :=
  cls.foldl (fun s cl => if (s.cluster cl).tlb.isEmpty then s else s.setCluster cl ((s.cluster cl).withoutHost ia)) s

theorem State.homesOnly_withoutHost (s : State) (ia : Nat) (cls : List Nat) : s.HomesOnly (s.withoutHost ia cls) := by
  refine State.HomesOnly.foldl (fun u cl => ?_) cls s
  split <;> rfl

theorem State.withoutHost_keeps {β : Type} (part : State → β) (hpart : ∀ (u : State) cl x, part (u.setCluster cl x) = part u)
    (s : State) (ia : Nat) (cls : List Nat) : part (s.withoutHost ia cls) = part s := by
  refine State.foldl_keeps part (fun u cl => ?_) cls s
  split
  · rfl
  · exact hpart ..

/-- An entry of a host page in the cache of a cluster. -/
def State.caches (s : State) (cl ia : Nat) : Prop :=
  ∃ e ∈ (s.cluster cl).tlb, Leaf.h e.leaf = true ∧ Leaf.frame e.leaf / 4096 = ia / 4096

/-- Dropping the entries of one cluster gives no other one any. -/
theorem State.not_caches_step {u : State} {ia cl d : Nat} (h : d = cl ∨ ¬ u.caches d ia) :
    ¬ (if (u.cluster cl).tlb.isEmpty then u else u.setCluster cl ((u.cluster cl).withoutHost ia)).caches d ia := by
  rintro ⟨e, he, hh, hframe⟩
  split at he
  · next hempty =>
    obtain rfl | h := h
    · rw [List.isEmpty_iff.1 hempty] at he
      cases he
    · exact h ⟨e, he, hh, hframe⟩
  · by_cases hd : d = cl
    · rw [hd, State.cluster_setCluster_same] at he
      have := (List.mem_filter.1 he).2
      simp [hh, hframe] at this
    · rw [State.cluster_setCluster_other _ _ _ _ hd] at he
      exact (h.resolve_left hd) ⟨e, he, hh, hframe⟩

theorem State.not_caches_withoutHost (s : State) (ia : Nat) {cls : List Nat} {d : Nat} (h : d ∈ cls ∨ ¬ s.caches d ia) :
    ¬ (s.withoutHost ia cls).caches d ia := by
  induction cls generalizing s with
  | nil => exact h.resolve_left (by simp)
  | cons cl r ih =>
    refine ih (s := if (s.cluster cl).tlb.isEmpty then s else s.setCluster cl ((s.cluster cl).withoutHost ia)) ?_
    obtain h | h := h
    · obtain rfl | h := List.mem_cons.1 h
      · exact .inr (State.not_caches_step (.inl rfl))
      · exact .inl h
    · exact .inr (State.not_caches_step (.inr h))

/-- The host's mapping of a page, changed. -/
def Tenant.remapped (t : Tenant) (page p : Nat) : Tenant :=
  { t with hostMap := if p = 0 then SMap.del t.hostMap page else SMap.set t.hostMap page (p - 1) }

theorem Tenant.get?_remapped (t : Tenant) (page p : Nat) :
    SMap.get? (t.remapped page p).hostMap page = if p = 0 then none else some (p - 1) := by
  unfold Tenant.remapped
  dsimp only
  split
  · exact SMap.get?_del_same ..
  · rw [SMap.get?_set, if_pos rfl]

/-- A host page is mapped elsewhere, or no longer (R56); `q` is what it was mapped to. -/
def State.remapped (u : State) (tn ia p : Nat) (q : Option Nat) : State :=
  (u.modTenant tn (Tenant.remapped · (ia / 4096) p)).post (q.elim [] (fun q => [evt .atsInvalidation [tn, ia, p, q + 1]]))

theorem exec_atsInvalidation_of_new (h : s.argN 3 = 0) : exec .atsInvalidation s =
    .next ((s.withoutHost (s.argN 1) (s.tenant (s.argN 0)).slices).remapped (s.argN 0) (s.argN 1) (s.argN 2)
      (SMap.get? (s.tenant (s.argN 0)).hostMap (s.argN 1 / 4096))) := by
  have harg : (s.withoutHost (s.argN 1) (s.tenant (s.argN 0)).slices).argN 0 = s.argN 0 := by
    rw [State.argN, (State.homesOnly_withoutHost ..).arg, State.argN]
  have hexec : exec .atsInvalidation s = .next ((s.withoutHost (s.argN 1) (s.tenant (s.argN 0)).slices).remapped
      ((s.withoutHost (s.argN 1) (s.tenant (s.argN 0)).slices).argN 0) (s.argN 1) (s.argN 2)
      (SMap.get? (s.tenant (s.argN 0)).hostMap (s.argN 1 / 4096))) := by
    rw [exec_atsInvalidation, execAtsInvalidation]
    dsimp only
    rw [if_neg (by omega)]
    rcases SMap.get? (s.tenant (s.argN 0)).hostMap (s.argN 1 / 4096) with _ | q
    · exact congrArg Host.Outcome.next (by rw [State.remapped, State.post, Option.elim_none, List.append_nil]; rfl)
    · rfl
  rw [hexec, harg]

theorem exec_atsInvalidation_of_old (h : s.argN 3 ≠ 0) : exec .atsInvalidation s =
    .next (if s.hostPageBusy (s.argN 3 - 1) then s.again .atsInvalidation else s) := by
  rw [exec_atsInvalidation, execAtsInvalidation]
  dsimp only
  rw [if_pos h]
  split <;> rfl

/-! ### Migrations -/

section
variable {m : Mig} (hm : s.migs.find? (fun m => m.id = s.argN 0) = some m)
include hm

section
variable (hcopied : m.copied = false)
include hcopied

theorem exec_migrationCopy_of_busy (hbusy : s.pageBusy m.tenant m.va (pageSize m.level) = true) :
    exec .migrationCopy s = .next (s.again .migrationCopy) := by
  rw [exec_migrationCopy, execMigrationCopy]
  simp only [hm]
  rw [if_neg (by simp [hcopied]), if_pos hbusy]

section
variable (hbusy : s.pageBusy m.tenant m.va (pageSize m.level) = false)
include hbusy

theorem exec_migrationCopy_of_line {a b : Nat} (hmore : m.next * 128 < pageSize m.level)
    (ha : (s.tenant m.tenant).second (m.oldIA + 128 * m.next) = some a)
    (hb : (s.tenant m.tenant).second (m.newIA + 128 * m.next) = some b) :
    exec .migrationCopy s = .next (if s.lineBusy (a / 128) then s.again .migrationCopy else
      ((s.copyLine m.tenant (a / 128) (b / 128)).setMig { m with next := m.next + 1 }).again .migrationCopy) := by
  rw [exec_migrationCopy, execMigrationCopy]
  simp only [hm]
  rw [if_neg (by simp [hcopied]), if_neg (by simp [hbusy]), if_pos hmore]
  simp only [ha, hb]
  split <;> rfl

theorem exec_migrationCopy_of_last (hlast : pageSize m.level ≤ m.next * 128) {e : Word}
    (he : s.entryWord m.tenant m.entry = e) :
    exec .migrationCopy s = .next ((((s.setEntry m.tenant m.entry (w64 (e.bits 63 48 * 2 ^ 48
      + m.newIA % 2 ^ 48 / 4096 * 4096 + e.bits 11 0))).invalidatePage m.tenant m.va).setMig { m with copied := true }).post
        [evt .migrationDrainDone [m.id]]) := by
  rw [exec_migrationCopy, execMigrationCopy]
  simp only [hm, he]
  rw [if_neg (by simp [hcopied]), if_neg (by simp [hbusy]), if_neg (by omega)]

end
end
end

theorem State.engineMsg_keeps (s : State) (c : Nat) (src dst : Word) (kind status tag : Nat) (pay : TWord) :
    s.SameStores (s.engineMsg c src dst kind status tag pay) ∧ (s.engineMsg c src dst kind status tag pay).migs = s.migs := by
  have hsend (u : State) (hu : s.SameStores u ∧ u.migs = s.migs) (m : Msg) :
      s.SameStores (u.transmit c [] m) ∧ (u.transmit c [] m).migs = s.migs := hu
  have hocc (o : Occupant) : s.SameStores (s.setOcc c (tidSlot src) o) ∧ (s.setOcc c (tidSlot src) o).migs = s.migs :=
    ⟨s.sameStores_setCore rfl rfl rfl rfl rfl rfl, rfl⟩
  unfold State.engineMsg
  dsimp only
  split
  · split
    · exact hsend _ (hocc _) _
    · exact hsend s ⟨.refl s, rfl⟩ _
  · split
    · exact hsend _ (hocc _) _
    · exact hsend s ⟨.refl s, rfl⟩ _
  · exact hsend s ⟨.refl s, rfl⟩ _

theorem State.homesOnly_unresidents (s : State) (ls : List Nat) : s.HomesOnly (ls.foldl State.unresident s) :=
  State.HomesOnly.foldl (g := State.unresident) (fun _ _ => rfl) ls s

theorem State.homesOnly_discardLines (s : State) (ls : List Nat) : s.HomesOnly (ls.foldl State.discardLine s) :=
  State.HomesOnly.foldl (g := State.discardLine) (fun _ _ => rfl) ls s

theorem State.mem_discarded (s : State) (ls ds : List Nat) :
    (ds.foldl State.discardLine (ls.foldl State.unresident s)).mem = s.mem :=
  (State.foldl_keeps (g := State.discardLine) State.mem (fun _ _ => rfl) ds _).trans
    (State.foldl_keeps (g := State.unresident) State.mem (fun _ _ => rfl) ls s)

theorem exec_migrationDrainDone_of_copied {m : Mig} (hm : s.migs.find? (fun m => m.id = s.argN 0) = some m)
    (hcopied : m.copied = true) :
    ∃ u, exec .migrationDrainDone s = .next u ∧ (∀ x ∈ u.migs, x.id ≠ m.id) ∧
      u.mem = ((s.setEntry m.tenant m.entry (setBit (s.entryWord m.tenant m.entry) 53 false)).invalidatePage m.tenant
        m.va).mem ∧ ∀ c, (u.core c).rf = (s.core c).rf := by
  rw [exec_migrationDrainDone, execMigrationDrainDone]
  simp only [hm]
  rw [if_neg (by simp [hcopied])]
  have hleaf := (s.homesOnly_setEntry m.tenant m.entry (setBit (s.entryWord m.tenant m.entry) 53 false)).trans
    (State.homesOnly_invalidatePage _ m.tenant m.va)
  generalize (s.setEntry m.tenant m.entry (setBit (s.entryWord m.tenant m.entry) 53 false)).invalidatePage m.tenant m.va = v
    at hleaf
  have hlines (ls ds : List Nat) : s.HomesOnly (ds.foldl State.discardLine (ls.foldl State.unresident v)) :=
    hleaf.trans ((v.homesOnly_unresidents ls).trans (State.homesOnly_discardLines ..))
  refine ⟨_, rfl, fun x hx => ?_, ?_, fun c => ?_⟩
  · rw [State.post_migs, (State.engineMsg_keeps ..).2] at hx
    simpa using (List.mem_filter.1 hx).2
  · rw [State.post_mem, (State.engineMsg_keeps ..).1.1]
    exact State.mem_discarded v _ _
  · rw [State.core_post, ((State.engineMsg_keeps ..).1.2.2.2 c).1]
    exact congrArg Core.rf ((hlines _ _).core c)

/-! ### Poison (R47) -/

theorem exec_poisonDetected_of_memory (h : s.argN 0 < 2 ^ 34) {line : Nat}
    (hline : (if s.argN 0 < 2 ^ 33 then s.argN 0 else hostBase / 128 + (s.argN 0 - 2 ^ 33)) = line) :
    exec .poisonDetected s = .next (({ s with mem := s.mem.setPoison line true } : State).poisonRec
      (s.tenantOf (128 * line)) (s.vaOfLine (s.tenantOf (128 * line)) line) (s.argN 1)) := by
  have hsame : (if 2 ^ 33 ≤ s.argN 0 then hostBase / 128 + (s.argN 0 - 2 ^ 33) else s.argN 0) = line := by
    rw [← hline]
    split <;> split <;> omega
  rw [exec_poisonDetected, execPoisonDetected]
  simp only [hsame]
  rw [if_neg (by omega)]

theorem exec_poisonDetected_of_pool (h : 2 ^ 34 ≤ s.argN 0) {tn : Nat} (htn : s.ownerOf ((poolLine (s.argN 0)).1 / 8) = some tn) :
    exec .poisonDetected s = .next ((s.modCore (poolLine (s.argN 0)).1 (fun x =>
      { x with win := x.win.setPoison (poolLine (s.argN 0)).2 true })).poisonRec tn 0 (s.argN 1)) := by
  rw [exec_poisonDetected, execPoisonDetected]
  simp only [htn]
  rw [if_pos h]

/-! ### A window that shrinks (R45) -/

/-- A line of a leaving frame is forgotten and written as zero. -/
def State.scrubLine (s : State) (line : Nat) : State :=
  { (s.discardLine line).unresident line with mem := s.mem.zeroLine line }

/-- The lines of a frame of 64 KiB. -/
def frameLines (frame : Nat) : List Nat := (List.range 512).map (frame * 512 + ·)

/-- No add is pending in a frame. -/
def State.withoutAdds (s : State) (frame : Nat) : State :=
  { s with addl := s.addl.filter (fun p => p.1 / 8192 ≠ frame) }

theorem State.withoutAdds_mem (s : State) (frame : Nat) : (s.withoutAdds frame).mem = s.mem := rfl
theorem State.withoutAdds_tenants (s : State) (frame : Nat) : (s.withoutAdds frame).tenants = s.tenants := rfl

theorem State.addl_withoutAdds (s : State) (frame : Nat) : ∀ p ∈ (s.withoutAdds frame).addl, p.1 / 8192 ≠ frame := by
  intro p hp
  simpa using (List.mem_filter.1 hp).2

theorem State.mem_scrubLines (s : State) (ls : List Nat) : (ls.foldl State.scrubLine s).mem = ls.foldl Mem.zeroLine s.mem :=
  (List.foldl_hom State.mem (g₁ := State.scrubLine) (g₂ := Mem.zeroLine) (fun _ _ => rfl)).symm

theorem State.tenants_scrubLine (s : State) (line : Nat) : (s.scrubLine line).tenants = s.tenants := by
  rw [State.scrubLine]
  rfl

theorem State.tenants_scrubLines (s : State) (ls : List Nat) : (ls.foldl State.scrubLine s).tenants = s.tenants :=
  State.foldl_keeps State.tenants State.tenants_scrubLine ls s

theorem State.scrubFrame_eq (s : State) (frame : Nat) :
    s.scrubFrame frame = ((frameLines frame).foldl State.scrubLine s).withoutAdds frame := by
  unfold State.scrubFrame frameLines
  generalize List.range 512 = is
  rw [List.foldl_map]
  rfl

theorem State.scrubFrame_tenants (s : State) (frame : Nat) : (s.scrubFrame frame).tenants = s.tenants := by
  rw [State.scrubFrame_eq, State.withoutAdds_tenants, State.tenants_scrubLines]

theorem State.scrubFrame_mem (s : State) (frame : Nat) : (s.scrubFrame frame).mem = (frameLines frame).foldl Mem.zeroLine s.mem := by
  rw [State.scrubFrame_eq, State.withoutAdds_mem, State.mem_scrubLines]

theorem State.word_scrubFrame (hwf : s.mem.wf = true) (frame : Nat) {i j : Nat} (hi : i < 512) (hj : j < 16) :
    ((s.scrubFrame frame).mem.word (16 * (512 * frame + i) + j)).v = 0 := by
  rw [State.scrubFrame_mem]
  exact Mem.word_zeroLines hwf (List.mem_map.2 ⟨i, List.mem_range.2 hi, by omega⟩)

theorem State.addl_scrubFrame (frame : Nat) : ∀ p ∈ (s.scrubFrame frame).addl, p.1 / 8192 ≠ frame := by
  rw [State.scrubFrame_eq]
  exact State.addl_withoutAdds _ frame

theorem State.forgetPhysical_tenants (s : State) (tn lo hi : Nat) : (s.forgetPhysical tn lo hi).tenants = s.tenants := by
  refine State.foldl_keeps State.tenants (fun u cl => ?_) _ s
  dsimp only
  split <;> rfl

/-- A frame is taken out of the window of a tenant. -/
def State.withoutFrame (s : State) (tn key : Nat) : State :=
  s.modTenant tn (fun t => { t with window := SMap.del t.window key })

section
variable {frame : Nat} (hframe : SMap.get? (s.tenant (s.argN 0)).window (s.argN 1 / 65536) = some frame)
  {u : State} (hu : s.forgetPhysical (s.argN 0) (65536 * frame) (65536 * frame + 65536) = u)
include hframe hu

theorem exec_apexWindowShrink_of_busy (hbusy : u.frameBusy frame = true) :
    exec .apexWindowShrink s = .next (u.again .apexWindowShrink) := by
  rw [exec_apexWindowShrink, execApexWindowShrink]
  simp only [hframe, hu]
  rw [if_pos hbusy]

theorem exec_apexWindowShrink_of_free (hbusy : u.frameBusy frame = false) {v : State} (hv : u.scrubFrame frame = v) :
    ∃ evs, exec .apexWindowShrink s = .next ((v.withoutFrame (s.argN 0) (s.argN 1 / 65536)).post evs) := by
  rw [exec_apexWindowShrink, execApexWindowShrink]
  simp only [hframe, hu, hv]
  rw [if_neg (by simp [hbusy])]
  split
  · exact ⟨_, rfl⟩
  · exact ⟨[], congrArg Host.Outcome.next (by rw [State.post, List.append_nil]; rfl)⟩

end

theorem State.window_withoutFrame (tn key : Nat) :
    ((s.withoutFrame tn key).tenant tn).window = SMap.del (s.tenant tn).window key := by
  rw [State.withoutFrame, State.tenant_modTenant_same]

theorem State.tenant_congr {s u : State} (h : u.tenants = s.tenants) (n : Nat) : u.tenant n = s.tenant n := by
  rw [State.tenant, State.tenant, h]

end

/-- Settles O36: walks and their answers are lemmas about one branch each; an invalidation leaves no cache of the tenant an
entry of the page, and a frame that leaves a window reads zero. -/
theorem pageWork : Obligations.PageWork := by
  unfold Obligations.PageWork
  refine ⟨fun s w hw => exec_walkStart_of_free hw, fun s w hw => exec_walkStart_of_full hw,
    fun s w l en e pa hw hb hwho hl hpa => exec_pageWalkDone_of_leaf hw hb hwho hl hpa,
    fun s w cause level ia hw hb hwho hacc hf => exec_pageWalkDone_of_fault hw hb hwho hf hacc,
    fun s w cause level ia hw hb hwho hacc hf => exec_pageWalkDone_of_none hw hb hwho hf hacc,
    fun s w hw => ?_, fun s hw => ?_, fun s => rfl, fun s hnew => ?_, fun s hold => exec_atsInvalidation_of_old hold,
    fun s m hm hc => ?_, fun s m hm hc => exec_migrationDrainDone_of_copied hm hc, fun s h => ?_,
    fun s tn h htn => exec_poisonDetected_of_pool h htn, fun s => rfl, fun s frame hframe => ?_⟩
  · obtain ⟨hretry, hdecline⟩ := State.answerFault_of_record hw
    exact ⟨fun h => congrArg Host.Outcome.next (hretry h), fun h => congrArg Host.Outcome.next (hdecline h)⟩
  · exact congrArg Host.Outcome.next (State.answerFault_of_none hw)
  · have hkeeps := s.homesOnly_withoutHost (s.argN 1) (s.tenant (s.argN 0)).slices
    refine ⟨_, exec_atsInvalidation_of_new hnew, s.withoutHost_keeps State.mem (fun _ _ _ => rfl) .., hkeeps.cores,
      fun cl hcl e he hh hframe => s.not_caches_withoutHost (s.argN 1) (.inl hcl) ⟨e, he, hh, hframe⟩, ?_, fun p hp => ?_⟩
    · rw [State.remapped, State.tenant_post, State.tenant_modTenant_same, Tenant.get?_remapped]
    · rw [State.remapped, State.post_due, hp]
      exact List.mem_append_right _ (List.mem_singleton.2 rfl)
  · refine ⟨exec_migrationCopy_of_busy hm hc, fun a b hbusy hmore ha hb => ?_,
      fun hbusy hlast => exec_migrationCopy_of_last hm hc hbusy hlast rfl⟩
    rw [exec_migrationCopy_of_line hm hc hbusy hmore ha hb]
    exact ⟨fun h => by rw [if_pos h], fun h => by rw [if_neg (by simp [h])]⟩
  · exact exec_poisonDetected_of_memory h rfl
  · intro u
    have hu : s.forgetPhysical (s.argN 0) (65536 * frame) (65536 * frame + 65536) = u := rfl
    have htenants : u.tenants = s.tenants := s.forgetPhysical_tenants ..
    clear_value u
    refine ⟨exec_apexWindowShrink_of_busy hframe hu, fun hbusy hwf => ?_⟩
    have hmem := fun i hi j hj => State.word_scrubFrame (s := u) hwf frame (i := i) hi (j := j) hj
    have haddl := u.addl_scrubFrame frame
    have hscrubbed := u.scrubFrame_tenants frame
    generalize hv : u.scrubFrame frame = v at hmem haddl hscrubbed
    obtain ⟨evs, hexec⟩ := exec_apexWindowShrink_of_free hframe hu hbusy hv
    have hwindow : ((v.withoutFrame (s.argN 0) (s.argN 1 / 65536)).tenant (s.argN 0)).window
        = SMap.del (s.tenant (s.argN 0)).window (s.argN 1 / 65536) := by
      rw [State.window_withoutFrame, State.tenant_congr (hscrubbed.trans htenants)]
    refine ⟨_, hexec, ?_, hmem, haddl, fun p hp => ?_⟩
    · rw [State.tenant_post, hwindow, SMap.get?_del_same]
    · rw [State.tenant_post, hwindow, SMap.get?_del_other _ hp]

end Sys2Proof.Machine
end

section
/-!
SUPPORT. Copies, sync words and prefetch descriptors (R117, R120 to R124): O37.
-/
namespace Sys2Proof.Machine
open Sys2Proof

theorem Word.bits_low (w : Word) (n : Nat) : w.bits n 0 = w.toNat % 2 ^ (n + 1) := by
  rw [Word.bits, bitsOf, Nat.pow_zero, Nat.div_one, Nat.sub_zero]

/-! ### A command enters the transfer unit -/

/-- What the three copy instructions share. -/
theorem copyInstr_copyForm {mk : Fields → Instr} {op : Nat} (hexec : ∀ f s, exec (mk f) s = copyInstr (mk f) op f s) :
    CopyForm mk op := by
  intro f s c k t h r m ctl code
  have hr : s.readVals (mk f) c k t f = r := rfl
  have hm : r.2.copyCmd op f c k t r.1.d = m := rfl
  have hnext : r.2.next = s.next := State.readVals_next ..
  clear_value r m
  rw [hexec, copyInstr]
  refine ⟨fun hfull => issue_waits h (if_pos hfull), fun hroom hsrc hdst => issue_completed h ?_ hnext⟩
  simp only [hr, hm]
  have hfetch : ((if (decide (m.skind = 2) && s.viewMissing c t.tenant m.hsrc) = true then [m.hsrc] else []) ++
      if (decide (m.dkind = 2) && s.viewMissing c t.tenant m.hdst) = true then [m.hdst] else []) = [] := by
    simp only [List.append_eq_nil_iff, ite_eq_right_iff, Bool.and_eq_true, decide_eq_true_iff]
    exact ⟨fun hv => absurd hv.2 (by simp [hsrc hv.1]), fun hv => absurd hv.2 (by simp [hdst hv.1])⟩
  rw [hfetch, if_neg (by omega), if_neg (by simp)]
  rfl

/-! ### Sync words -/

theorem State.wakeGen_next (s : State) (c off gen : Nat) : (s.wakeGen c off gen).next = s.next := by
  refine State.foldl_keeps State.next (fun u p => ?_) _ s
  split
  · split
    · split
      · exact State.modThread_next ..
      · rfl
    · rfl
  · rfl

section
variable {f : Fields} {s : State} {c k : Nat} {t : Thread}

section
variable (h : Goes (.swinit f) s c k t)
include h

theorem exec_swinit_of_error {code : Nat} {addr aux : Word} (hmem : s.memLAt t (t.ptr f.d).v 16 = .error (code, addr, aux)) :
    exec (.swinit f) s = .next (s.trapped c k t code addr aux) := by
  rw [exec_swinit, execSwinit, issue_goes h]
  simp only [hmem]
  rfl

section
variable {tc off : Nat} (hmem : s.memLAt t (t.ptr f.d).v 16 = .ok (tc, off)) (hopen : (s.core tc).shut = false)
include hmem hopen

theorem exec_swinit_of_follows (hfollows : s.initFollows c k t tc off = true) :
    exec (.swinit f) s = .next (s.waits s c k t .storeSpace) := by
  rw [exec_swinit, execSwinit]
  refine issue_waits h ?_
  simp only [hmem]
  rw [if_neg (by simp [hopen]), if_pos hfollows]

/-- A sync word takes its target, and its count and generation become 0, unless its line is poisoned. -/
def State.syncSet (s : State) (tc off : Nat) (v : Word) : State :=
  if (s.core tc).win.poisoned (off / 128) then s
  else s.modCore tc (fun x => { x with
    win := (x.win.store off 8 ⟨w64 (v.toNat % 2 ^ 32), false⟩).store (off + 8) 8 TWord.zero })

theorem exec_swinit_of_free (hfollows : s.initFollows c k t tc off = false) {v : Vals} {u : State}
    (hr : s.readVals (.swinit f) c k t f = (v, u)) :
    exec (.swinit f) s = .next (((u.syncSet tc off v.a.v).wakeGen tc off 0).completed c k s.next s.nextId) := by
  have hnext : ((u.syncSet tc off v.a.v).wakeGen tc off 0).next = s.next := by
    rw [State.wakeGen_next, ← next_of_readVals hr, State.syncSet]
    split <;> rfl
  rw [exec_swinit, execSwinit]
  refine issue_completed h ?_ hnext
  simp only [hmem, hr, Word.bits_low]
  rw [if_neg (by simp [hopen]), if_neg (by simp [hfollows])]
  rfl

end
end

section
variable (h : Goes (.swwait f) s c k t)
include h

theorem exec_swwait_of_other {tc off : Nat} (hmem : s.memLAt t (t.ptr f.a).v 16 = .ok (tc, off)) (hother : tc ≠ c) :
    exec (.swwait f) s = .next (s.trapped c k t 0x14 (w64 off) 0) := by
  rw [exec_swwait, execSwwait, issue_goes h]
  simp only [hmem]
  rw [if_pos hother]
  rfl

variable (hf : plainFields f) {off : Nat} (hmem : s.memLAt t (t.ptr f.a).v 16 = .ok (c, off)) (hopen : (s.core c).shut = false)
  {gen : Nat} (hgen : (s.core c).win.readN (off + 8) 4 = gen)
include hf hmem hopen hgen

theorem exec_swwait_of_same (hsame : (s.getG c t f.d).v.toNat % 2 ^ 32 = gen) :
    exec (.swwait f) s = .next (s.waits s c k t (.syncWord off gen)) := by
  rw [exec_swwait, execSwwait]
  refine issue_waits h ?_
  simp only [hmem, hgen, State.readVals_plain (i := .swwait f) rfl hf]
  rw [if_neg (by simp), if_neg (by simp [hopen]), if_pos (by rw [← hsame, ← Word.bits_low]; rfl)]

theorem exec_swwait_of_ended (hended : (s.getG c t f.d).v.toNat % 2 ^ 32 ≠ gen) :
    exec (.swwait f) s = .next (s.wrote c k t f.d ⟨w64 gen, false⟩ s.next) := by
  rw [exec_swwait, execSwwait]
  refine issue_wrote hf h ?_
  simp only [hmem, hgen, State.readVals_plain (i := .swwait f) rfl hf]
  rw [if_neg (by simp), if_neg (by simp [hopen]), if_neg (by rw [← Word.bits_low] at hended; exact hended)]

end

/-! ### Prefetch descriptors -/

section
variable (h : Goes (.sdesc f) s c k t) {r : Nat → TWord} (hr : (fun i => s.getG c t (f.a + i)) = r) {free : Option Nat}
  (hfree : (List.range 16).find? (fun n => (SMap.get? (s.cluster (c / 8)).pdesc n).isNone) = free)
include h hr hfree

theorem exec_sdesc_of_fail {e : Nat}
    (hfail : sdescFail (t.seg ((r 3).v.bits 63 61)) (r 0).v.toNat (r 1).v.toInt (r 2).v.toNat (r 3).v free = some e) :
    exec (.sdesc f) s = .next (s.answers s c k t f ⟨w64 (2 ^ 63 + e), (r 0).t || (r 1).t || (r 2).t || (r 3).t⟩) := by
  subst hr
  rw [exec_sdesc, execSdesc]
  refine issue_answers h ?_ rfl
  dsimp only at hfail ⊢
  rw [hfree, hfail]
  simp [List.range_succ, Bool.or_assoc]

theorem exec_sdesc_of_room {n : Nat}
    (hpass : sdescFail (t.seg ((r 3).v.bits 63 61)) (r 0).v.toNat (r 1).v.toInt (r 2).v.toNat (r 3).v free = none)
    (hn : free = some n) :
    exec (.sdesc f) s = .next (((s.setCluster (c / 8) { s.cluster (c / 8) with
        pdesc := SMap.set (s.cluster (c / 8)).pdesc n ⟨c, t.seg ((r 3).v.bits 63 61),
          ((t.seg ((r 3).v.bits 63 61)).base + (r 0).v.toNat) / 128 * 128, (r 1).v.toInt, (r 2).v.toNat, (r 3).v.getLsbD 60,
          (r 3).v.bits 59 57, (r 3).v.bits 15 0, 0, 0⟩ }).post [evt .prefetchIssue [c / 8, n]]).answers s c k t f
      ⟨w64 n, (r 0).t || (r 1).t || (r 2).t || (r 3).t⟩) := by
  subst hr hn
  rw [exec_sdesc, execSdesc]
  refine issue_answers h ?_ rfl
  dsimp only at hpass ⊢
  rw [hfree, hpass]
  simp [List.range_succ, Bool.or_assoc, Word.bits_one]

end

section
variable (h : Goes (.sdstop f) s c k t) {v : Vals} {u : State} (hr : s.readVals (.sdstop f) c k t f = (v, u))
include h hr

theorem exec_sdstop_of_own {d : PDesc} (hd : SMap.get? (u.cluster (c / 8)).pdesc v.a.v.toNat = some d) (hcore : d.core = c) :
    exec (.sdstop f) s = .next ((u.setCluster (c / 8) { u.cluster (c / 8) with
      pdesc := SMap.del (u.cluster (c / 8)).pdesc v.a.v.toNat }).completed c k s.next s.nextId) := by
  have hnext : u.next = s.next := next_of_readVals hr
  rw [exec_sdstop, execSdstop]
  refine issue_completed h ?_ hnext
  simp only [hr, hd]
  rw [if_pos hcore]

theorem exec_sdstop_of_none (hd : SMap.get? (u.cluster (c / 8)).pdesc v.a.v.toNat = none) :
    exec (.sdstop f) s = .next (u.completed c k s.next s.nextId) := by
  rw [exec_sdstop, execSdstop]
  refine issue_completed h ?_ (next_of_readVals hr)
  simp only [hr, hd]

end

end

/-- Settles O37: the copies share one lemma; the sync words and the descriptors have a lemma for each outcome. -/
theorem copyInstructions : Obligations.CopyInstructions := by
  unfold Obligations.CopyInstructions
  refine ⟨copyInstr_copyForm exec_cpy, copyInstr_copyForm exec_cpy2d, copyInstr_copyForm exec_cpyq,
    fun f s c k t tc off h hmem hopen => ⟨exec_swinit_of_follows h hmem hopen,
      fun hfollows => exec_swinit_of_free h hmem hopen hfollows rfl⟩,
    fun f s c k t code addr aux h hmem => exec_swinit_of_error h hmem,
    fun f s c k t off hf h hmem hopen => ⟨exec_swwait_of_same h hf hmem hopen rfl, exec_swwait_of_ended h hf hmem hopen rfl⟩,
    fun f s c k t tc off h hmem hother => exec_swwait_of_other h hmem hother,
    fun f s c k t h => ⟨fun e hfail => exec_sdesc_of_fail h rfl rfl hfail,
      fun n hpass hn => exec_sdesc_of_room h rfl rfl hpass hn⟩,
    fun f s c k t h => ⟨fun d hd hcore => exec_sdstop_of_own h rfl hd hcore, fun hd => exec_sdstop_of_none h rfl hd⟩⟩

end Sys2Proof.Machine
end

section
/-!
SUPPORT. The work of the transfer unit (R115, R117 to R119, R121, R123): O38.
-/
namespace Sys2Proof.Machine
open Sys2Proof

/-! ### A command is accepted, a piece moves, a command completes -/

section
variable {s : State} {m : TUCmd} (hm : (s.core (s.argN 0)).tuCmd? (s.argN 1) = some m)
include hm

theorem exec_tuCommandAccept_of_checked (hchecked : m.checked = true) : exec .tuCommandAccept s =
    .next ((s.setTu (s.argN 0) { m with accepted := true, left := m.pieces }).post
      (m.pieces.map (fun n => evt .tuLineTransfer [s.argN 0, m.id, n]))) := by
  rw [exec_tuCommandAccept, execTuCommandAccept]
  simp only [hm, hchecked]
  rfl

theorem exec_tuCommandAccept_of_failed (hchecked : m.checked = false) : exec .tuCommandAccept s =
    .next ((s.setTu (s.argN 0) { m with accepted := true, left := [] }).post [evt .copydone [s.argN 0, m.id]]) := by
  rw [exec_tuCommandAccept, execTuCommandAccept]
  simp only [hm, hchecked, TUCmd.after, Bool.and_false]
  rfl

/-- The command after a piece has moved: `k` bytes of it have been written. -/
def TUCmd.pieceMoved (m : TUCmd) (n k : Nat) (held : Bool) : TUCmd :=
  { m with left := m.left.filter (fun x => x ≠ n), moved := m.moved + k, counted := if held then m.counted + k else m.counted }

theorem exec_tuLineTransfer_of_done {o len k : Nat} {g : Gathered} {u v : State} {st : Option (Int × Nat)}
    (hleft : m.left.contains (s.argN 2) = true) (hpiece : (m.rowPieces (s.argN 2 / m.perRow))[s.argN 2 % m.perRow]? = some (o, len))
    (hgot : s.gatherParts (s.argN 0) m (s.argN 2 / m.perRow)
      (cuts (cutOf m.skind m.src) (cutStart m.skind m.srcBase m.src m.sstride (s.argN 2 / m.perRow)) o (o + len))
      ⟨[], none, false⟩ = .got g u) (hput : u.putPiece (s.argN 0) m (s.argN 2 / m.perRow) o g = .done k st v) {held : Bool}
    (hheld : (v.core (s.argN 0)).tuHeld m = held) {w : TUCmd}
    (hw : ((m.note g.fail).note st).pieceMoved (s.argN 2) k held = w) :
    exec .tuLineTransfer s = .next (((if held then v else v.countSync w k).setTu (s.argN 0) w).post
      (if w.left = [] then [w.after (s.argN 0)] else [])) := by
  subst hw
  rw [exec_tuLineTransfer, execTuLineTransfer]
  simp only [hm, hpiece, hleft, hgot, hput, hheld, List.isEmpty_iff]
  rfl

theorem exec_copydone_of_held (hheld : (s.core (s.argN 0)).tuHeld m = true) : exec .copydone s = .next (s.again .copydone) := by
  rw [exec_copydone, execCopydone]
  simp only [hm]
  rw [if_pos hheld]

theorem exec_copydone_of_free (hheld : (s.core (s.argN 0)).tuHeld m = false) {u : State}
    (hu : (s.modCore (s.argN 0) (fun x => { x with tu := x.tu.filter (fun y => y.id ≠ m.id) })).releaseHeld (s.argN 0) = u) :
    exec .copydone s = .next (if m.target = 0 then u else
      u.engineMsg (s.argN 0) m.owner m.target mkCOPYDONE m.status m.tag ⟨w64 m.moved, false⟩) := by
  rw [exec_copydone, execCopydone]
  simp only [hm, hu]
  rw [if_neg (by simp [hheld])]
  split <;> rfl

theorem exec_cpyqPush_of_credit {qc x : Nat} (hmem : s.memL (tidTenant m.owner) (rowPtr m.dst 0 0 0) 1 = .ok (qc, x))
    (hcredit : m.credit = true) :
    exec .cpyqPush s = .next (({ ({ s with nextId := s.nextId + 1 } : State).setTu (s.argN 0)
        { m with pushed := true, asked := false } with flits := s.flits ++
          [⟨s.nextId, 0, qc, m.q, ⟨m.handle, false, false, slotId m.owner⟩, true, s.argN 0, 4, []⟩] } : State).post
      [evt .queueWordArrival [s.nextId], evt .copydone [s.argN 0, m.id]]) := by
  rw [exec_cpyqPush, execCpyqPush]
  simp only [hm, hmem]
  rw [if_pos hcredit]
  rfl

end

/-! ### Bytes are counted into a sync word -/

theorem syncStep_counts {target count gen n : Nat} (htarget : 0 < target) (hcount : count + n < 2 ^ 32) (hgen : gen < 2 ^ 32) :
    (syncStep target count gen n).1 < target ∧
    ((syncStep target count gen n).2 + 2 ^ 32 - gen) % 2 ^ 32 * target + (syncStep target count gen n).1 = count + n := by
  have hquot : (count + n) / target < 2 ^ 32 := Nat.lt_of_le_of_lt (Nat.div_le_self _ _) hcount
  have hgens : ((gen + (count + n) / target) % 2 ^ 32 + 2 ^ 32 - gen) % 2 ^ 32 = (count + n) / target := by
    generalize (count + n) / target = q at hquot ⊢
    omega
  rw [syncStep, Nat.mod_eq_of_lt hcount]
  rw [if_neg (by omega)]
  exact ⟨Nat.mod_lt _ htarget, by rw [hgens, Nat.mul_comm]; exact Nat.div_add_mod ..⟩

/-! ### A descriptor prefetches its next line -/

section
variable {s : State} {d : PDesc} (hd : SMap.get? (s.cluster (s.argN 0)).pdesc (s.argN 1) = some d) (hmore : d.issued < d.extent)
  (hlead : d.issued < d.ic + d.lead) {va : Int} (hva : (d.base : Int) + d.stride * (d.issued : Int) = va)
include hd hmore hlead hva

theorem exec_prefetchIssue_of_end (hend : va < (d.seg.base : Int) ∨ ((d.seg.base + d.seg.limit : Nat) : Int) ≤ va) :
    exec .prefetchIssue s = .next (s.setCluster (s.argN 0) { s.cluster (s.argN 0) with
        pdesc := SMap.del (s.cluster (s.argN 0)).pdesc (s.argN 1) }) := by
  rw [exec_prefetchIssue, execPrefetchIssue]
  simp only [hd, hva]
  rw [if_neg (by simp; omega), if_pos (by simpa using hend)]

section
variable (hlo : (d.seg.base : Int) ≤ va) (hhi : va < ((d.seg.base + d.seg.limit : Nat) : Int))
include hlo hhi

/-- The descriptor's next line has been dealt with. -/
def State.lineIssued (s u : State) (d : PDesc) : State :=
  (u.modCluster (s.argN 0) (fun x => { x with pdesc := SMap.set x.pdesc (s.argN 1) { d with issued := d.issued + 1 } })).again
    .prefetchIssue

section
variable {tr : Tr} (htr : s.lookup (s.argN 0) (va.toNat % 2 ^ 57) 6 = some tr)
include htr

theorem exec_prefetchIssue_of_skip (hskip : loadRefusal tr 1 ≠ 0 ∨ s.poisoned tr.pa = true ∨ s.portFull (s.argN 0) = true) :
    exec .prefetchIssue s = .next (s.lineIssued s d) := by
  rw [exec_prefetchIssue, execPrefetchIssue]
  simp only [hd, hva]
  rw [if_neg (by simp; omega), if_neg (by simp; omega)]
  simp only [htr]
  rw [if_pos (by simpa [or_assoc] using hskip)]
  rfl

theorem exec_prefetchIssue_of_line (hrefusal : loadRefusal tr 1 = 0) (hpoison : s.poisoned tr.pa = false)
    (hport : s.portFull (s.argN 0) = false) (hload : s.descLoad (s.argN 0) < 1024) :
    exec .prefetchIssue s = .next (s.lineIssued (s.post [⟨.l2Request, ⟨[if d.c then 8 * s.argN 0 + d.named else d.core, 64,
      tr.pa, d.c.toNat, s.argN 1], [⟨tr.leaf, false⟩]⟩⟩]) d) := by
  rw [exec_prefetchIssue, execPrefetchIssue]
  simp only [hd, hva]
  rw [if_neg (by simp; omega), if_neg (by simp; omega)]
  simp only [htr]
  rw [if_neg (by simp [hrefusal, hpoison, hport]), if_neg (by omega)]
  rfl

end

theorem exec_prefetchIssue_of_walk (htr : s.lookup (s.argN 0) (va.toNat % 2 ^ 57) 6 = none)
    (hwalk : s.walks.find? (fun w => w.who = 9 && w.core / 8 = s.argN 0 && w.slot = s.argN 1
      && pageOf w.va = pageOf (va.toNat % 2 ^ 57)) = none) :
    exec .prefetchIssue s = .next ((s.startWalk ((s.ownerOf (s.argN 0)).getD 0) 9 d.core (s.argN 1) (va.toNat % 2 ^ 57)
      6).again .prefetchIssue) := by
  rw [exec_prefetchIssue, execPrefetchIssue]
  simp only [hd, hva]
  rw [if_neg (by simp; omega), if_neg (by simp; omega)]
  simp only [htr, hwalk]

end
end

/-- Settles O38: a lemma for each outcome of the unit's events. -/
theorem copyWork : Obligations.CopyWork := by
  unfold Obligations.CopyWork
  refine ⟨fun s m hm => ⟨exec_tuCommandAccept_of_checked hm, exec_tuCommandAccept_of_failed hm⟩,
    fun s m o len g u k st v hm hleft hpiece hgot hput =>
      exec_tuLineTransfer_of_done hm hleft hpiece hgot hput rfl rfl,
    fun s m hm hheld => ?_, fun s m hm hheld => exec_copydone_of_held hm hheld,
    fun s m qc x hm hmem hcredit => exec_cpyqPush_of_credit hm hmem hcredit, fun s => rfl,
    fun target count gen n htarget hcount hgen => syncStep_counts htarget hcount hgen,
    fun s d hd hmore hlead => ?_⟩
  · have hdone := exec_copydone_of_free hm hheld rfl
    exact ⟨fun h => hdone.trans (by rw [if_pos h]), fun h => hdone.trans (by rw [if_neg h]; rfl)⟩
  · exact ⟨exec_prefetchIssue_of_end hd hmore hlead rfl, fun hlo hhi =>
      ⟨fun tr htr => ⟨exec_prefetchIssue_of_skip hd hmore hlead rfl hlo hhi htr,
        exec_prefetchIssue_of_line hd hmore hlead rfl hlo hhi htr⟩,
        exec_prefetchIssue_of_walk hd hmore hlead rfl hlo hhi⟩⟩

end Sys2Proof.Machine
end

section
/-!
SUPPORT. The work of Chord and of granted scopes (R75 to R78, R80, R82, R131): O39.
-/
namespace Sys2Proof.Machine
open Sys2Proof

/-! ### A request of a view instruction -/

section
variable {s : State} {r : ViewReq} {t : Thread} {f : Fields} (hr : s.vreqs.find? (fun r => r.id = s.argN 0) = some r)
  (ht : s.thread? r.core r.slot = some t) (hf : r.ins.fields = some f)
include hr ht hf

section
variable (hdone : r.done = false)
include hdone

theorem exec_viewOpRequest_of_ok {out : List TWord} {u : State}
    (hop : s.viewOp r.id r.ins r.core t.tenant r.read = .ok out none u) :
    exec .viewOpRequest s = .next ((u.completeView r t f out).endView r) := by
  rw [exec_viewOpRequest, execViewOpRequest]
  simp only [hr, ht, hf, hop]
  rw [if_neg (by simp [hdone])]

theorem exec_viewOpRequest_of_trap {code addr : Nat} {h : Word}
    (hop : s.viewOp r.id r.ins r.core t.tenant r.read = .trap code addr h) :
    exec .viewOpRequest s = .next (((s.endView r).wake r.core r.slot).raise r.core r.slot code (w64 addr) h) := by
  rw [exec_viewOpRequest, execViewOpRequest]
  simp only [hr, ht, hf, hop]
  rw [if_neg (by simp [hdone])]

/-- The ports of a tenant that hold an entry of a view. -/
def State.portsOf (u : State) (tn ri vi : Nat) : List Nat :=
  (u.tenant tn).slices.filter (fun cl => (u.cluster cl).vcache.any (fun e => e.region = ri && e.view = vi))

/-- Chord has performed a request, and the ports that hold an entry of the view are told to drop it. -/
def State.viewGone (u : State) (r : ViewReq) (tn : Nat) (out : List TWord) (ri vi : Nat) : State :=
  { u.post ((u.portsOf tn ri vi).map (fun cl => evt .viewInvalidate [cl, ri, vi])) with
    vreqs := u.vreqs.map (fun (x : ViewReq) => if x.id = r.id then { r with done := true, out := out, region := ri, view := vi } else x) }

theorem exec_viewOpRequest_of_gone {out : List TWord} {ri vi : Nat} {u : State}
    (hop : s.viewOp r.id r.ins r.core t.tenant r.read = .ok out (some (ri, vi)) u) :
    exec .viewOpRequest s = .next ((u.viewGone r t.tenant out ri vi).again .viewOpRequest) := by
  rw [exec_viewOpRequest, execViewOpRequest]
  simp only [hr, ht, hf, hop]
  rw [if_neg (by simp [hdone])]
  rfl

end

theorem exec_viewOpRequest_of_done (hdone : r.done = true) :
    exec .viewOpRequest s = .next (if s.invalidating t.tenant r.region r.view then s.again .viewOpRequest
      else (s.completeView r t f r.out).endView r) := by
  rw [exec_viewOpRequest, execViewOpRequest]
  simp only [hr, ht, hf]
  rw [if_pos hdone]
  split <;> rfl

end

/-! ### The view caches -/

theorem exec_viewCacheFetch_of_new {s : State} {tn : Nat} {v : View} (htn : s.ownerOf (s.argN 0) = some tn)
    (hv : (s.tenant tn).checkHandle tn (s.argW 0).v = .ok v) (hnew : s.viewEntry (s.argN 0) (s.argW 0).v = none) {r : Region}
    (hr : (s.tenant tn).region (hRegion (s.argW 0).v) = r) :
    exec .viewCacheFetch s = .next (s.modCluster (s.argN 0) (fun x => { x with vcache :=
      (⟨hRegion (s.argW 0).v, hView (s.argW 0).v, hGen (s.argW 0).v, v.start, v.len, r.epoch, r.sh⟩ :: x.vcache).take 256 })) := by
  rw [exec_viewCacheFetch, execViewCacheFetch]
  simp only [htn, hv, hnew, hr]
  rfl

/-! ### Freed granules -/

section
variable (s : State)

theorem State.homesOnly_scrubLine (line : Nat) : s.HomesOnly (s.scrubLine line) := rfl

theorem State.homesOnly_scrubLines (ls : List Nat) : s.HomesOnly (ls.foldl State.scrubLine s) :=
  State.HomesOnly.foldl State.homesOnly_scrubLine ls s

theorem State.homesOnly_forgetPhysical (tn lo hi : Nat) : s.HomesOnly (s.forgetPhysical tn lo hi) := by
  refine State.HomesOnly.foldl (fun u cl => ?_) _ s
  dsimp only
  split <;> rfl

theorem State.forgetPhysical_mem (tn lo hi : Nat) : (s.forgetPhysical tn lo hi).mem = s.mem := by
  refine State.foldl_keeps State.mem (fun u cl => ?_) _ s
  dsimp only
  split <;> rfl

theorem State.HomesOnly.die {s u : State} (h : s.HomesOnly u) (d : Nat) : u.die d = s.die d := by
  rw [State.die, State.die, ((congrArg State.dies h).trans rfl : u.dies = s.dies)]

/-- The lines of a granule frame of 4 KiB. -/
def granuleLines (f : Nat) : List Nat := (List.range 32).map (32 * f + ·)

theorem mem_granuleLines {f i : Nat} (hi : i < 32) : 32 * f + i ∈ granuleLines f :=
  List.mem_map.2 ⟨i, List.mem_range.2 hi, rfl⟩

/-- A frame that Chord takes back is retired. -/
def State.retiring (d f : Nat) : State :=
  s.modDie d (fun y => { y with frees := y.frees.map (fun x => if x.frame = f then { x with retired := true } else x) })

theorem State.frees_retiring (d f : Nat) : ∀ x ∈ ((s.retiring d f).die d).frees, x.frame = f → x.retired = true := by
  intro x hx hframe
  rw [State.retiring, State.modDie, State.die_setDie_same] at hx
  obtain ⟨y, -, rfl⟩ := List.mem_map.1 hx
  split at hframe
  · next h => rw [if_pos h]
  · next h => exact absurd hframe h

end

section
variable {s : State} {y : Free} (hy : (s.die (s.argN 0)).frees.find? (fun x => x.frame = s.argN 1 && !x.retired) = some y)
include hy

theorem exec_granuleFreeStart_of_later
    (hearlier : (s.die (s.argN 0)).frees.any (fun x => x.op = y.op && x.granule < y.granule && !x.retired) = true) :
    exec .granuleFreeStart s = .next (s.again .granuleFreeStart) := by
  rw [exec_granuleFreeStart, execGranuleFreeStart]
  simp only [hy]
  rw [if_pos hearlier]

theorem exec_granuleFreeStart_of_first
    (hearlier : (s.die (s.argN 0)).frees.any (fun x => x.op = y.op && x.granule < y.granule && !x.retired) = false) :
    exec .granuleFreeStart s = .next ((((granuleLines (s.argN 1)).foldl State.scrubLine (s.retiring (s.argN 0) (s.argN 1))).forgetPhysical
      y.tenant (4096 * s.argN 1) (4096 * s.argN 1 + 4096)).post [evt .granuleDrainDone [s.argN 0, s.argN 1]]) := by
  rw [exec_granuleFreeStart, execGranuleFreeStart, granuleLines]
  generalize List.range 32 = is
  simp only [hy]
  rw [if_neg (by simp [hearlier]), List.foldl_map]
  rfl

end

theorem State.word_scrubLines {s : State} (hwf : s.mem.wf = true) {ls : List Nat} {w : Nat} (hw : w / 16 ∈ ls) :
    ((ls.foldl State.scrubLine s).mem.word w).v = 0 := by
  rw [State.mem_scrubLines]
  exact Mem.word_zeroLines hwf hw

/-- Records of freed runs leave the granules that are back. -/
theorem State.granules_postFreed (s : State) (d tn ri ep n : Nat) :
    ((s.postFreed d tn ri ep n).die d).granules = (s.die d).granules := by
  induction n generalizing s with
  | zero => rfl
  | succ n ih =>
    rw [State.postFreed]
    split
    · rfl
    · dsimp only
      split
      · rfl
      · rw [ih]
        split
        · rw [(State.homesOnly_notify ..).die, State.modDie, State.die_setDie_same]
        · rw [State.modDie, State.die_setDie_same]

section
variable {s : State} {x : Free}
  (hx : (s.die (s.argN 0)).frees.find? (fun x => x.frame = s.argN 1 && x.retired && !x.done) = some x)
include hx

theorem exec_granuleDrainDone_of_busy (hbusy : s.granuleBusy (s.argN 1) = true) :
    exec .granuleDrainDone s = .next (s.again .granuleDrainDone) := by
  rw [exec_granuleDrainDone, execGranuleDrainDone]
  simp only [hx]
  rw [if_pos hbusy]

theorem exec_granuleDrainDone_of_free (hbusy : s.granuleBusy (s.argN 1) = false) :
    ∃ u, exec .granuleDrainDone s = .next u ∧ s.argN 1 ∈ (u.die (s.argN 0)).granules := by
  rw [exec_granuleDrainDone, execGranuleDrainDone]
  simp only [hx]
  rw [if_neg (by simp [hbusy])]
  refine ⟨_, rfl, ?_⟩
  rw [State.granules_postFreed, State.modDie, State.die_setDie_same]
  exact List.mem_append_right _ (List.mem_singleton.2 rfl)

end

/-! ### Scopes that wait for granules (R131) -/

section
variable {s : State} {t : Thread} {n : Nat} (ht : s.thread? (s.argN 0) (s.argN 1) = some t) (hrun : t.run = .wait (.granules n))
include ht hrun

theorem exec_scopeSpaceGrant_eq : exec .scopeSpaceGrant s =
    .next (if n ≤ (s.core (s.argN 0)).freeGran.length && !(s.core (s.argN 0)).scopeAhead (s.argN 1) t.since then
      s.wake (s.argN 0) (s.argN 1) else s) := by
  rw [exec_scopeSpaceGrant, execScopeSpaceGrant]
  simp only [ht, hrun]
  split <;> rfl

theorem State.wake_waiting : s.wake (s.argN 0) (s.argN 1) =
    s.withThread (s.argN 0) (s.argN 1) { t with run := .ready } (s.core (s.argN 0)).rf := by
  rw [State.wake, State.modThread_eq ht, hrun]

end

/-- Settles O39: a lemma for each outcome of Chord's events; the scrubbed frame reads zero and its granule comes back. -/
theorem viewWork : Obligations.ViewWork := by
  unfold Obligations.ViewWork
  refine ⟨fun s r t f out u hr ht hf hdone hop => exec_viewOpRequest_of_ok hr ht hf hdone hop,
    fun s r t f code addr h hr ht hf hdone hop => exec_viewOpRequest_of_trap hr ht hf hdone hop,
    fun s r t f out ri vi u hr ht hf hdone hop => ⟨_, exec_viewOpRequest_of_gone hr ht hf hdone hop, rfl,
      List.mem_append_right _ (List.mem_singleton.2 rfl), fun cl hcl hholds => ?_⟩,
    fun s r t f hr ht hf hdone => ?_, fun s tn v htn hv hnew => exec_viewCacheFetch_of_new htn hv hnew rfl,
    fun s => ⟨_, rfl, rfl, rfl, fun e => ?_⟩, fun s y hy => ⟨exec_granuleFreeStart_of_later hy, fun hfirst hwf => ?_⟩,
    fun s x hx => ⟨exec_granuleDrainDone_of_busy hx, exec_granuleDrainDone_of_free hx⟩, fun s t n ht hrun => ?_⟩
  · have hport : cl ∈ u.portsOf t.tenant ri vi := List.mem_filter.2 ⟨hcl, hholds⟩
    exact List.mem_append_left _ (List.mem_append_right _ (List.mem_map.2 ⟨cl, hport, rfl⟩))
  · have hexec := exec_viewOpRequest_of_done hr ht hf hdone
    exact ⟨fun h => hexec.trans (by rw [if_pos h]), fun h => hexec.trans (by rw [if_neg (by simp [h])])⟩
  · rw [State.cluster_modCluster_same, List.mem_filter]
    simp [← not_and_or]
  · have hretired := s.frees_retiring (s.argN 0) (s.argN 1)
    have hmem : (s.retiring (s.argN 0) (s.argN 1)).mem.wf = true := hwf
    rw [exec_granuleFreeStart_of_first hy hfirst]
    generalize s.retiring (s.argN 0) (s.argN 1) = v at hretired hmem
    refine ⟨_, rfl, fun i hi j hj => ?_, ?_, List.mem_append_right _ (List.mem_singleton.2 rfl)⟩
    · rw [State.post_mem, State.forgetPhysical_mem]
      refine State.word_scrubLines hmem ?_
      rw [show (16 * (32 * s.argN 1 + i) + j) / 16 = 32 * s.argN 1 + i by omega]
      exact mem_granuleLines hi
    · rw [State.die_post, (State.homesOnly_forgetPhysical ..).die, (State.homesOnly_scrubLines ..).die]
      exact hretired
  · have hexec := exec_scopeSpaceGrant_eq ht hrun
    refine ⟨fun ⟨hroom, hfirst⟩ => hexec.trans ?_, fun hfull => hexec.trans ?_⟩
    · rw [if_pos (by simp [hroom, hfirst]), State.wake_waiting ht hrun]
    · rw [if_neg (by simp; omega)]

end Sys2Proof.Machine
end

section
/-!
SUPPORT. Words, credits and messages on their way (R125, R126, R139 to R147): O40.
-/
namespace Sys2Proof.Machine
open Sys2Proof

/-! ### Credits (R139) -/

section
variable {s : State}

theorem exec_creditRequest_of_dead (hdead : (s.core (s.argN 0)).dead = true) :
    exec .creditRequest s = .next (s.again .creditRequest) := by
  rw [exec_creditRequest, execCreditRequest]
  dsimp only
  rw [if_pos hdead]

theorem exec_creditRequest_of_conf (hdead : (s.core (s.argN 0)).dead = false) {q : InQ}
    (hq : nthD (s.core (s.argN 0)).inq (s.argN 1) InQ.reset = q) (hconf : q.conf = true) :
    exec .creditRequest s = .next ((s.setCore (s.argN 0) { s.core (s.argN 0) with
      inq := setNth (s.core (s.argN 0)).inq (s.argN 1) { q with reqs := q.reqs ++ [(s.argN 2, s.argN 3)] } }).serveQueue
      (s.argN 0) (s.argN 1)) := by
  rw [exec_creditRequest, execCreditRequest]
  simp only [hq]
  rw [if_neg (by simp [hdead]), if_pos hconf]

/-- What the first of the requests that wait is granted. -/
theorem State.serveQueue_due {c i p o : Nat} {r : List (Nat × Nat)} {q : InQ} (hq : nthD (s.core c).inq i InQ.reset = q)
    (hreqs : q.reqs = (p, o) :: r) :
    (q.free = 0 → (s.serveQueue c i).due = s.due) ∧
    (q.free ≠ 0 → evt .creditGrant [p, o, min 8 q.free, 4 * c + i] ∈ (s.serveQueue c i).due) := by
  have hdue : (s.serveQueue c i).due = s.due ++ (serveCredits q.reqs.length c i q).2 := by
    rw [← hq]
    rfl
  have hserve : serveCredits q.reqs.length c i q = if q.free = 0 then (q, []) else
      ((serveCredits r.length c i { q with reqs := r, cred := q.cred + min 8 q.free }).1,
        evt .creditGrant [p, o, min 8 q.free, 4 * c + i] ::
          (serveCredits r.length c i { q with reqs := r, cred := q.cred + min 8 q.free }).2) := by
    obtain ⟨conf, n, bank, off, held, cred, reqs⟩ := q
    subst hreqs
    rfl
  rw [hdue, hserve]
  refine ⟨fun hfull => ?_, fun hroom => List.mem_append_right _ ?_⟩
  · rw [if_pos hfull, List.append_nil]
  · rw [if_neg hroom]
    exact List.mem_cons_self ..

section
variable {z : OutQ} (hz : nthD (s.core (s.argN 0)).outq (s.argN 1) OutQ.reset = z) (ho : s.argN 1 ≠ 4)
include hz ho

theorem exec_creditGrant_of_asked (hmine : z.conf = true ∧ z.core = s.argN 3 / 4 ∧ z.tq = s.argN 3 % 4 ∧ z.asked = true)
    (hsum : z.cred + s.argN 2 ≤ 8) :
    exec .creditGrant s = .next (s.modCore (s.argN 0) (fun y =>
      { y with outq := setNth y.outq (s.argN 1) { z with asked := false, cred := min 8 (z.cred + s.argN 2) } })) := by
  obtain ⟨hconf, hcore, htq, hasked⟩ := hmine
  rw [exec_creditGrant, execCreditGrant]
  simp only [hz]
  rw [if_neg ho, if_pos (by simp [hconf, hcore, htq, hasked]), if_pos hsum]

theorem exec_creditGrant_of_stale (hasked : z.asked = false) :
    exec .creditGrant s = .next (s.post [evt .creditReturn [s.argN 3 / 4, s.argN 3 % 4, s.argN 2]]) := by
  rw [exec_creditGrant, execCreditGrant]
  simp only [hz]
  rw [if_neg ho, if_neg (by simp [hasked])]

end

/-! ### Words on their way -/

theorem State.released_of_pending {c : Nat} {after : List Nat} (h : s.performed c after = false) :
    s.released c after = (false, s) := by
  rw [State.released, if_pos (by simp [h])]

theorem State.released_of_performed {c : Nat} {after : List Nat} (h : s.performed c after = true) :
    s.released c after = ((s.drainWC c).wcEmpty c, s.drainWC c) := by
  rw [State.released, if_neg (by simp [h])]

/-- When a word in flight may be observed (R257). -/
theorem State.flitReady_cases (s : State) (f : Flit) : (f.release = false → s.flitReady f = (true, s)) ∧
    (f.release = true → s.performed f.srcC f.after = false → s.flitReady f = (false, s)) ∧
    (f.release = true → s.performed f.srcC f.after = true →
      s.flitReady f = ((s.drainWC f.srcC).wcEmpty f.srcC, s.drainWC f.srcC)) := by
  refine ⟨fun h => ?_, fun h hp => ?_, fun h hp => ?_⟩
  · rw [State.flitReady, if_neg (by simp [h])]
  · rw [State.flitReady, if_pos h, State.released_of_pending hp]
  · rw [State.flitReady, if_pos h, State.released_of_performed hp]

section
variable {f : Flit} {u : State}

section
variable (hf : s.flits.find? (fun f => f.id = s.argN 0 && f.kind = 0) = some f)
include hf

theorem exec_queueWordArrival_of_behind (hahead : s.flitAhead f = true) :
    exec .queueWordArrival s = .next (s.again .queueWordArrival) := by
  rw [exec_queueWordArrival, execQueueWordArrival]
  simp only [hf]
  rw [if_pos hahead]

variable (hahead : s.flitAhead f = false)
include hahead

theorem exec_queueWordArrival_of_ready (hready : s.flitReady f = (true, u)) :
    exec .queueWordArrival s = .next ((u.dropFlit f.id).modCore f.core (fun x =>
      let q := nthD x.inq f.port InQ.reset
      { x with inq := setNth x.inq f.port { q with held := q.held ++ [⟨f.word.w, f.cpy⟩], cred := q.cred - 1 } })) := by
  rw [exec_queueWordArrival, execQueueWordArrival]
  simp only [hf, hready]
  rw [if_neg (by simp [hahead])]
  rfl

theorem exec_queueWordArrival_of_waiting (hready : s.flitReady f = (false, u)) :
    exec .queueWordArrival s = .next (u.again .queueWordArrival) := by
  rw [exec_queueWordArrival, execQueueWordArrival]
  simp only [hf, hready]
  rw [if_neg (by simp [hahead])]
  rfl

end

theorem exec_streamWordArrival_of_ready (hf : s.flits.find? (fun f => f.id = s.argN 0 && f.kind = 1) = some f)
    (hahead : s.flitAhead f = false) {d : InPort} (hd : nthD (s.core f.core).inp f.port InPort.reset = d)
    (hrx : d.rx = some (f.srcC, f.srcP)) (hroom : d.buf.length < 64) (hready : s.flitReady f = (true, u)) :
    exec .streamWordArrival s = .next ((u.dropFlit f.id).modCore f.core (fun x => { x with
      inp := setNth x.inp f.port { d with rx := if f.word.last then none else some (f.srcC, f.srcP),
                                          heads := d.heads.filter (fun h => h ≠ (f.srcC, f.srcP)),
                                          buf := d.buf ++ [f.word] } })) := by
  rw [exec_streamWordArrival, execStreamWordArrival]
  simp only [hf, hd, hready]
  rw [if_neg (by simp [hahead]), if_neg (by simp [hrx]), if_neg (by simp; omega)]
  rfl

end

section
variable {o : OutPort} (ho : nthD (s.core (s.argN 0)).outp (s.argN 1) OutPort.reset = o)
include ho

theorem exec_streamForceClose_eq : exec .streamForceClose s =
    .next (if o.opened && decide (s.now < o.since + 2 ^ 16) then s.again .streamForceClose
      else s.abortPacket (s.argN 0) (s.argN 1) true) := by
  rw [exec_streamForceClose, execStreamForceClose]
  simp only [ho]
  split <;> rfl

theorem State.abortPacket_of_closed (hclosed : o.opened = false) : s.abortPacket (s.argN 0) (s.argN 1) true = s := by
  unfold State.abortPacket
  simp only [ho]
  exact if_pos (by simp [hclosed])

end

theorem exec_mxWriteWait_of_ready {t : Thread} {l : List Nat} (ht : s.thread? (s.argN 0) (s.argN 1) = some t)
    (hrun : t.run = .wait (.operands l)) (hl : l.contains (124 + s.argN 2) = true)
    (hready : s.writeReady t.tenant (s.argN 0) (s.argN 1) t.since (124 + s.argN 2) = .yes) :
    exec .mxWriteWait s = .next (s.withThread (s.argN 0) (s.argN 1) { t with run := .ready } (s.core (s.argN 0)).rf) := by
  rw [exec_mxWriteWait, execMxWriteWait]
  simp only [ht, hrun]
  rw [if_pos (by simp [hready]; simpa using hl), State.wake, State.modThread_eq ht, hrun]

/-! ### Messages (R125, R126) -/

section
variable {n : NetMsg} (hn : s.net.find? (fun m => m.id = s.argN 0) = some n)
include hn

theorem exec_messageArrival_of_alone (hahead : s.msgAhead n = false) (hafter : n.after = []) : exec .messageArrival s =
    .next (({ s with net := s.net.filter (fun m => m.id ≠ n.id) } : State).deliverMsg n.core n.msg) := by
  rw [exec_messageArrival, execMessageArrival]
  simp only [hn, hafter]
  rw [if_neg (by simp [hahead])]
  rfl

theorem exec_messageArrival_of_behind (hahead : s.msgAhead n = true) :
    exec .messageArrival s = .next (s.again .messageArrival) := by
  rw [exec_messageArrival, execMessageArrival]
  simp only [hn]
  rw [if_pos hahead]

theorem exec_messageArrival_of_pending (hafter : n.after ≠ []) (hpending : s.performed n.core n.after = false) :
    exec .messageArrival s = .next (s.again .messageArrival) := by
  have hempty : n.after.isEmpty = false := by simpa using hafter
  rw [exec_messageArrival, execMessageArrival]
  simp only [hn, State.released_of_pending hpending, hempty]
  split <;> rfl

end

/-- The oldest message of a core's outbound buffer that may leave it. -/
def State.departing (s : State) (c : Nat) : Option NetMsg :=
  (s.core c).outbox.find? (fun n => s.performed c n.after &&
    !(s.core c).outbox.any (fun m => m.id < n.id && m.msg.src = n.msg.src))

/-- A message leaves its core. -/
def State.departed (u : State) (c : Nat) (n : NetMsg) : State :=
  ({ u.modCore c (fun x => { x with outbox := x.outbox.filter (fun m => m.id ≠ n.id) }) with
    net := u.net ++ [{ n with after := [] }] } : State).post [evt .messageArrival [n.id]]

theorem exec_messageDepart_of_released {n : NetMsg} (hn : s.departing (s.argN 0) = some n)
    (hdrained : (s.drainWC (s.argN 0)).wcEmpty (s.argN 0) = true) :
    exec .messageDepart s = .next ((s.drainWC (s.argN 0)).departed (s.argN 0) n) := by
  unfold State.departing at hn
  have hperformed : s.performed (s.argN 0) n.after = true := by
    have hfirst := List.find?_some hn
    rw [Bool.and_eq_true] at hfirst
    exact hfirst.1
  rw [exec_messageDepart, execMessageDepart]
  simp only [hn]
  split
  · next hnil =>
    rw [hnil] at hn
    cases hn
  · simp only [State.released_of_performed hperformed, hdrained]
    rfl

theorem State.outbox_departed (u : State) (c : Nat) (n : NetMsg) : ∀ m ∈ ((u.departed c n).core c).outbox, m.id ≠ n.id := by
  intro m hm
  have hout : ((u.departed c n).core c).outbox = (u.core c).outbox.filter (fun m => m.id ≠ n.id) :=
    congrArg Core.outbox (State.core_modCore_same u c (fun x => { x with outbox := x.outbox.filter (fun m => m.id ≠ n.id) }))
  rw [hout] at hm
  simpa using (List.mem_filter.1 hm).2

end

/-- Settles O40: a lemma for each outcome of the events of queues, ports and messages. -/
theorem queueWork : Obligations.QueueWork := by
  unfold Obligations.QueueWork
  refine ⟨fun s hdead hconf => exec_creditRequest_of_conf hdead rfl hconf, fun s hdead => exec_creditRequest_of_dead hdead,
    fun s c i p o r q hq hreqs => State.serveQueue_due hq.symm hreqs,
    fun s ho => ⟨exec_creditGrant_of_asked rfl ho, exec_creditGrant_of_stale rfl ho⟩, fun s => rfl,
    fun s f u hf hahead hready => exec_queueWordArrival_of_ready hf hahead hready,
    fun s f hf hahead => exec_queueWordArrival_of_behind hf hahead,
    fun s f u hf hahead hready => exec_queueWordArrival_of_waiting hf hahead hready, State.flitReady_cases,
    fun s f u hf hahead hrx hroom hready => exec_streamWordArrival_of_ready hf hahead rfl hrx hroom hready, fun s => ?_,
    fun s t l ht hrun hl hready => exec_mxWriteWait_of_ready ht hrun hl hready,
    fun s n hn hahead hafter => exec_messageArrival_of_alone hn hahead hafter, fun s n hn hwait => ?_,
    fun s n hn hdrained => ⟨_, exec_messageDepart_of_released hn hdrained, rfl, State.outbox_departed _ _ n,
      List.mem_append_right _ (List.mem_singleton.2 rfl)⟩⟩
  · intro o
    have hexec := exec_streamForceClose_eq (s := s) (o := o) rfl
    refine ⟨fun hopen hyoung => hexec.trans ?_, fun hclosed => hexec.trans ?_, fun hopen hold => hexec.trans ?_⟩
    · rw [if_pos (by simpa [hopen] using hyoung)]
    · rw [if_neg (by simp [hclosed]), State.abortPacket_of_closed rfl hclosed]
    · rw [if_neg (by simp; omega)]
  · obtain hahead | ⟨hafter, hpending⟩ := hwait
    · exact exec_messageArrival_of_behind hn hahead
    · exact exec_messageArrival_of_pending hn hafter hpending

end Sys2Proof.Machine
end

section
/-!
SUPPORT. Admission of threads, spawn requests and axis episodes (R224, R226, R230, R290): O41.
-/
namespace Sys2Proof.Machine
open Sys2Proof

/-! ### Admission -/

section
variable {s u : State} (hu : s.refill (s.argN 0) = u) (hserves : u.serves (s.argN 0) = true)
include hu hserves

theorem exec_admission_of_waiter {k : Nat} (hwaiter : (u.core (s.argN 0)).scopeWaiter = some k) :
    exec .admission s = .next (u.post [evt .scopeSpaceGrant [s.argN 0, k]]) := by
  rw [exec_admission, execAdmission]
  simp only [hu, hwaiter]
  rw [if_neg (by simp [hserves])]

variable (hwaiter : (u.core (s.argN 0)).scopeWaiter = none)
include hwaiter

theorem exec_admission_of_spawn (hlaunch : (u.core (s.argN 0)).launch = none) {q : SpawnReq} {k : Nat}
    (hq : (u.core (s.argN 0)).spawns.find? (fun q => q.arrived) = some q) (hk : u.spawnSlot (s.argN 0) q = some k) {v : State}
    (hv : u.modCore (s.argN 0) (fun y => { y with spawns := y.spawns.filter (fun r => r.id ≠ q.id) }) = v) :
    exec .admission s = .next ((({ v with tick := v.tick + 1 } : State).enrol (s.argN 0) k q.cont).post
      [evt .spawnAnswer [q.src, q.slot, q.id, 1], evt .admission [s.argN 0]]) := by
  rw [exec_admission, execAdmission]
  simp only [hu, hwaiter, hlaunch, hq, hk, hv]
  rw [if_neg (by simp [hserves])]

theorem exec_admission_of_fifo {j k n : Nat} {q : Cont} (hq : (u.core (s.argN 0)).spawns.find? (fun q => q.arrived) = none)
    (hj : u.pickFifo (s.argN 0) = some j) (hfifo : (u.core (s.argN 0)).fifo[j]? = some (q, n))
    (hk : u.slotFor (s.argN 0) q = some k) {v : State}
    (hv : u.modCore (s.argN 0) (fun y =>
      { y with fifo := (y.fifo.take j).map (fun p => (p.1, p.2 + 1)) ++ y.fifo.drop (j + 1) }) = v) :
    exec .admission s = .next ((({ v with tick := v.tick + 1 } : State).enrol (s.argN 0) k q).post [evt .admission [s.argN 0]]) := by
  rw [exec_admission, execAdmission]
  simp only [hu, hwaiter, hq, hj, hfifo, hk, hv]
  rw [if_neg (by simp [hserves])]

end

theorem State.setGs_mem (s : State) (c : Nat) (t : Thread) (n : Nat) (vs : List TWord) : (s.setGs c t n vs).mem = s.mem := by
  induction vs generalizing s n with
  | nil => rfl
  | cons v r ih =>
    rw [State.setGs, ih, State.setG]
    split <;> rfl

theorem State.enrol_mem {s : State} {c k : Nat} {x : Cont} (h2 : x.origin ≠ 2) (h3 : x.origin ≠ 3) :
    (s.enrol c k x).mem = s.mem := by
  simp only [State.enrol, if_neg h2, if_neg h3]
  exact State.setGs_mem ..

/-! ### Spawn requests -/

section
variable {s : State} {q : SpawnReq} (hq : (s.core (s.argN 0)).spawns.find? (fun q => q.id = s.argN 1) = some q)
include hq

theorem exec_spawnRequestArrival_of_pending (hpending : s.performed q.src q.after = false) :
    exec .spawnRequestArrival s = .next (s.again .spawnRequestArrival) := by
  rw [exec_spawnRequestArrival, execSpawnRequestArrival]
  simp only [hq, State.released_of_pending hpending]
  rfl

/-- A spawn request has reached its target core. -/
def State.spawnArrived (s : State) (c : Nat) (q : SpawnReq) : State :=
  (s.modCore c (fun y => { y with
    spawns := y.spawns.filter (fun r => r.id ≠ q.id) ++ [{ q with arrived := true, since := s.now }] })).post
    (evt .admission [c] :: (if q.full then [] else [evt .spawnAdmitTimeout [c, q.id]]))

theorem exec_spawnRequestArrival_of_released (hperformed : s.performed q.src q.after = true)
    (hdrained : (s.drainWC q.src).wcEmpty q.src = true) :
    exec .spawnRequestArrival s = .next ((s.drainWC q.src).spawnArrived (s.argN 0) q) := by
  rw [exec_spawnRequestArrival, execSpawnRequestArrival]
  simp only [hq, State.released_of_performed hperformed, hdrained]
  rfl

theorem exec_spawnAdmitTimeout_of_early (hearly : s.now < q.since + 64 ∨ s.couldAdmit (s.argN 0) q = true) :
    exec .spawnAdmitTimeout s = .next (s.again .spawnAdmitTimeout) := by
  rw [exec_spawnAdmitTimeout, execSpawnAdmitTimeout]
  simp only [hq]
  rw [if_pos (by simpa using hearly)]

theorem exec_spawnAdmitTimeout_of_late (hlate : q.since + 64 ≤ s.now) (hcould : s.couldAdmit (s.argN 0) q = false) :
    exec .spawnAdmitTimeout s = .next ((s.modCore (s.argN 0) (fun y =>
      { y with spawns := y.spawns.filter (fun r => r.id ≠ q.id) })).post
        [⟨.spawnAnswer, ⟨[q.src, q.slot, q.id, 0], [⟨w64 q.cont.pc, false⟩]⟩⟩, evt .admission [s.argN 0],
          evt .launchDone [q.cont.task.bits 63 60, taskLaunch q.cont.task]]) := by
  rw [exec_spawnAdmitTimeout, execSpawnAdmitTimeout]
  simp only [hq]
  rw [if_neg (by simp [hcould]; omega)]

end

theorem State.spawns_spawnArrived (s : State) (c : Nat) (q : SpawnReq) :
    { q with arrived := true, since := s.now } ∈ ((s.spawnArrived c q).core c).spawns := by
  rw [State.spawnArrived, State.core_post, State.core_modCore_same]
  exact List.mem_append_right _ (List.mem_singleton.2 rfl)

/-- The thread that waits for an answer has it. -/
theorem State.reply_waiting {s : State} {c k : Nat} {t : Thread} {w : Wait} (ht : s.thread? c k = some t)
    (hrun : t.run = .wait w) (a : Answer) :
    s.reply c k w a = s.withThread c k { t with run := .ready, answer := some a } (s.core c).rf := by
  rw [State.reply, State.modThread_eq ht, if_pos hrun]

/-! ### Axis episodes (R290) -/

section
variable {s : State} {n : Nat}

theorem State.axisEnds_of_started (hheld : (s.axisCtx n).held = true) {cl : Nat} (hcl : cl ∈ s.axisRect (s.axisCtx n))
    (hshort : s.axisCount n cl < (s.axisCtx n).p) {b : Nat} (hb : (s.axisCtx n).start = some b) :
    s.axisEnds n = some (b + 2 ^ (12 + (s.axisCtx n).tmo)) := by
  have hall : (s.axisRect (s.axisCtx n)).all (fun cl => (s.axisCtx n).p ≤ s.axisCount n cl) = false := by
    rw [List.all_eq_false]
    exact ⟨cl, hcl, by simp; omega⟩
  unfold State.axisEnds
  simp only [hheld, hall, hb]
  rfl

section
variable (hheld : (s.axisCtx (s.argN 0)).held = true)
include hheld

theorem exec_axisEpisodeComplete_of_all
    (hall : ∀ cl ∈ s.axisRect (s.axisCtx (s.argN 0)), (s.axisCtx (s.argN 0)).p ≤ s.axisCount (s.argN 0) cl) :
    exec .axisEpisodeComplete s = .next (s.axisNext (s.argN 0) s.now none) := by
  rw [exec_axisEpisodeComplete, execAxisEpisodeComplete]
  exact if_pos (by simpa [hheld] using hall)

section
variable {cl : Nat} (hcl : cl ∈ s.axisRect (s.axisCtx (s.argN 0)))
  (hshort : s.axisCount (s.argN 0) cl < (s.axisCtx (s.argN 0)).p)
include hcl hshort

omit hheld in
theorem exec_axisEpisodeComplete_of_short : exec .axisEpisodeComplete s = .next s := by
  rw [exec_axisEpisodeComplete, execAxisEpisodeComplete]
  exact if_neg (by simpa using fun _ => ⟨cl, hcl, hshort⟩)

section
variable {b : Nat} (hep : (s.axisCtx (s.argN 0)).ep = s.argN 1) (hb : (s.axisCtx (s.argN 0)).start = some b)
include hep hb

theorem exec_axisEpisodeTimeout_of_early (hearly : s.now < b + 2 ^ (12 + (s.axisCtx (s.argN 0)).tmo)) :
    exec .axisEpisodeTimeout s = .next (s.again .axisEpisodeTimeout) := by
  rw [exec_axisEpisodeTimeout, execAxisEpisodeTimeout]
  simp only [State.axisEnds_of_started hheld hcl hshort hb]
  rw [if_neg (by simp [hep]), if_neg (by omega)]

theorem exec_axisEpisodeTimeout_of_late (hlate : b + 2 ^ (12 + (s.axisCtx (s.argN 0)).tmo) ≤ s.now) :
    exec .axisEpisodeTimeout s = .next (s.axisNext (s.argN 0) (b + 2 ^ (12 + (s.axisCtx (s.argN 0)).tmo))
      (some (s.axisMissing (s.argN 0)))) := by
  have hends := State.axisEnds_of_started hheld hcl hshort hb
  rw [exec_axisEpisodeTimeout, execAxisEpisodeTimeout]
  simp only [hends, State.axisFail]
  rw [if_neg (by simp [hep]), if_pos hlate, if_pos hlate]

end
end
end
end

/-- Settles O41: a lemma for each outcome of the events of admission, of spawn requests and of axis episodes. -/
theorem admissionWork : Obligations.AdmissionWork := by
  unfold Obligations.AdmissionWork
  refine ⟨fun s j q n k => ?_, fun s q k => ?_, fun s k => ?_, fun s c k x h2 h3 => ?_, fun s q hq => ⟨?_, ?_, ?_, ?_⟩,
    fun s t ht hrun => congrArg Host.Outcome.next (State.reply_waiting ht hrun _), fun s hheld => ?_⟩
  · exact fun hserves hwaiter hq hj hfifo hk => exec_admission_of_fifo rfl hserves hwaiter hq hj hfifo hk rfl
  · exact fun hserves hwaiter hlaunch hq hk => exec_admission_of_spawn rfl hserves hwaiter hlaunch hq hk rfl
  · exact fun hserves hwaiter => exec_admission_of_waiter rfl hserves hwaiter
  · exact ⟨_, State.enrol_thread? h3, rfl, rfl, rfl, rfl, rfl, rfl, State.enrol_mem h2 h3⟩
  · exact exec_spawnRequestArrival_of_pending hq
  · refine fun hperformed hdrained => ⟨_, exec_spawnRequestArrival_of_released hq hperformed hdrained,
      State.spawns_spawnArrived .., List.mem_append_right _ (List.mem_cons_self ..), fun hfull => ?_⟩
    rw [State.spawnArrived, State.post_due, hfull]
    exact List.mem_append_right _ (List.mem_cons_of_mem _ (List.mem_singleton.2 rfl))
  · exact exec_spawnAdmitTimeout_of_early hq
  · exact exec_spawnAdmitTimeout_of_late hq
  · exact ⟨exec_axisEpisodeComplete_of_all hheld, fun cl hcl hshort => ⟨exec_axisEpisodeComplete_of_short hcl hshort,
      fun b hep hb => ⟨exec_axisEpisodeTimeout_of_early hheld hcl hshort hep hb,
        exec_axisEpisodeTimeout_of_late hheld hcl hshort hep hb⟩⟩⟩

end Sys2Proof.Machine
end

section
/-!
SUPPORT. Rings, doorbells and host access to memory (R315 to R319): O42.
-/
namespace Sys2Proof.Machine
open Sys2Proof

/-! ### Control words (R315) -/

theorem getLsbD_setBit (w : Word) {i : Nat} (hi : i < 64) (on : Bool) (j : Nat) :
    (setBit w i on).getLsbD j = if j = i then on else w.getLsbD j := by
  have hbit : (w64 (2 ^ i)).getLsbD j = decide (j = i) := by
    rw [w64, BitVec.getLsbD_ofNat, Nat.testBit_two_pow]
    by_cases h : j = i
    · simp [h, hi]
    · simp [h, Ne.symm h]
  unfold setBit
  cases on
  · rw [if_neg (by simp), BitVec.getLsbD_and, BitVec.getLsbD_not, hbit]
    by_cases hj : j = i
    · simp only [hj, decide_true, Bool.not_true, Bool.and_false, if_true]
    · rw [if_neg hj, decide_eq_false hj]
      rcases Nat.lt_or_ge j 64 with hlt | hge
      · rw [decide_eq_true hlt, Bool.not_false, Bool.and_true, Bool.and_true]
      · rw [BitVec.getLsbD_of_ge w j hge, Bool.false_and]
  · rw [if_pos rfl, BitVec.getLsbD_or, hbit]
    by_cases hj : j = i
    · simp only [hj, decide_true, Bool.or_true, if_true]
    · rw [if_neg hj, decide_eq_false hj, Bool.or_false]

theorem ctlEn_eq (w : Word) : ctlEn w = w.getLsbD 63 := Word.bits_one w 63

theorem ctlEn_ctlWrite (old new : Word) : ctlEn (ctlWrite old new) = ctlEn new := by
  unfold ctlWrite
  split
  · rw [ctlEn_eq, getLsbD_setBit _ (by omega), if_pos rfl]
  · have hword : (w64 (new.bits 63 62 * 2 ^ 62 + new.bits 4 0)).bits 63 63 = new.bits 63 63 := by
      simp only [Word.bits, bitsOf, w64_toNat]
      omega
    rw [ctlEn, hword, ctlEn]

theorem bits_setBit_63 (w : Word) (on : Bool) {hi lo : Nat} (hlo : lo ≤ hi) (hhi : hi < 63) :
    (setBit w 63 on).bits hi lo = w.bits hi lo := by
  refine Nat.eq_of_testBit_eq fun i => ?_
  rw [Word.testBit_bits, Word.testBit_bits, getLsbD_setBit _ (by omega)]
  by_cases h : i < hi - lo + 1
  · rw [if_neg (by omega)]
  · rw [decide_eq_false h, Bool.false_and, Bool.false_and]

/-- While a ring is enabled its size and SRC stay. -/
theorem ctlWrite_of_enabled {old : Word} (h : ctlEn old = true) (new : Word) :
    ctlSize (ctlWrite old new) = ctlSize old ∧ ctlSrc (ctlWrite old new) = ctlSrc old := by
  rw [ctlWrite, if_pos h, ctlSize, ctlSize, ctlSrc, ctlSrc, bits_setBit_63 _ _ (by omega) (by omega),
    bits_setBit_63 _ _ (by omega) (by omega)]
  exact ⟨rfl, rfl⟩

/-! ### Doorbells -/

section
variable {s : State} {tn q v : Nat} {r : Ring} (hr : (s.tenant tn).ring q = r)
include hr

theorem State.doorbell_of_closed (h : s.doorOpen tn = false ∨ ctlSrc r.ctl = true) : s.doorbell tn q v = s := by
  unfold State.doorbell
  simp only [hr]
  exact if_pos (by simpa using h)

section
variable (hopen : s.doorOpen tn = true) (hsrc : ctlSrc r.ctl = false)
include hopen hsrc

theorem State.doorbell_of_disabled (hen : ctlEn r.ctl = false) :
    s.doorbell tn q v = s.modRing tn q (fun r => { r with wp := v % 2 ^ 32 }) := by
  unfold State.doorbell
  simp only [hr]
  rw [if_neg (by simp [hopen, hsrc]), if_neg (by simp [hen])]

theorem State.doorbell_of_enabled (hen : ctlEn r.ctl = true) (hroom : (v % 2 ^ 32 + 2 ^ 32 - r.rp) % 2 ^ 32 ≤ ctlSize r.ctl)
    (hon : (v % 2 ^ 32 + 2 ^ 32 - r.acc) % 2 ^ 32 ≤ 2 ^ 31) :
    s.doorbell tn q v = (s.modRing tn q (fun r => { r with wp := v % 2 ^ 32, acc := v % 2 ^ 32 })).prompt tn q := by
  unfold State.doorbell
  simp only [hr]
  rw [if_neg (by simp [hopen, hsrc]), if_pos hen]
  unfold State.submit
  simp only [hr]
  exact if_neg (by simp only [Bool.or_eq_true, decide_eq_true_iff]; omega)

end
end

section
variable {s : State} (hopen : s.doorOpen (s.argN 0) = true)
include hopen

theorem exec_lqctl_of_ring (hq : s.argN 1 < 5) {u : State}
    (hu : s.modRing (s.argN 0) (s.argN 1) (fun r => { r with ctl := ctlWrite r.ctl (s.argW 0).v }) = u) :
    exec .lqctl s = .next (if !ctlEn ((s.tenant (s.argN 0)).ring (s.argN 1)).ctl && ctlEn (s.argW 0).v
      then u.enable (s.argN 0) (s.argN 1) else u) := by
  rw [exec_lqctl, execLqctl]
  simp only [hu]
  rw [if_neg (by simp [hopen]), if_pos hq]

omit hopen in
theorem State.fireMsix_waiting (tn : Nat) :
    ((s.fireMsix tn false).tenant tn).nq.waiting = (s.tenant tn).nq.waiting := by
  unfold State.fireMsix
  simp only [Bool.false_eq_true, if_false]
  split
  · have hfired := congrArg (fun t : Tenant => t.nq.waiting)
      (State.tenant_setTenant_same s tn { s.tenant tn with nq := { (s.tenant tn).nq with fired := true } })
    exact hfired
  · rfl

/-- Software has consumed records of the notification ring. -/
theorem exec_ringRpWrite_of_empty (hnq : s.argN 1 ≠ 1) (hwaiting : (s.tenant (s.argN 0)).nq.waiting = []) :
    exec .ringRpWrite s = .next ((s.modTenant (s.argN 0) (fun t =>
      { t with nq := { t.nq with rp := s.argN 2 % 2 ^ 32, fired := false } })).fireMsix (s.argN 0) false) := by
  have hnone : (((s.modTenant (s.argN 0) (fun t =>
      { t with nq := { t.nq with rp := s.argN 2 % 2 ^ 32, fired := false } })).fireMsix (s.argN 0) false).tenant
        (s.argN 0)).nq.waiting = [] := by
    rw [State.fireMsix_waiting, State.tenant_modTenant_same]
    exact hwaiting
  rw [exec_ringRpWrite, execRingRpWrite]
  simp only [hnq, if_false, decide_false]
  rw [if_neg (by simp [hopen]), hnone, State.drainRecs]

theorem exec_doorbellRegWrite_of_base (hoff : s.argN 1 < 2 ^ 20) :
    exec .doorbellRegWrite s = .next (s.modTenant (s.argN 0) (fun t => t.setBase (s.argN 1) (s.argW 0).v.toNat)) := by
  rw [exec_doorbellRegWrite, execDoorbellRegWrite]
  dsimp only
  rw [if_pos hoff, if_pos hopen]

end

section
variable {s : State}

theorem exec_msixVectorUnmask_of_notify (h : s.argN 0 % 8 = 0) :
    exec .msixVectorUnmask s = .next ((s.modTenant (s.argN 0 / 8) (fun t =>
      { t with nq := { t.nq with mask := false } })).fireMsix (s.argN 0 / 8) false) := by
  rw [exec_msixVectorUnmask, execMsixVectorUnmask]
  simp only [h]

theorem exec_msixVectorUnmask_of_fault (h : s.argN 0 % 8 = 1) :
    exec .msixVectorUnmask s = .next ((s.modTenant (s.argN 0 / 8) (fun t =>
      { t with fq := { t.fq with mask := false } })).fireMsix (s.argN 0 / 8) true) := by
  rw [exec_msixVectorUnmask, execMsixVectorUnmask]
  simp only [h]

/-! ### Host access to memory (R319) -/

section
variable {pa : Nat} (hpa : s.hdmPa (s.argN 0) = some pa) (hpop : populated pa = true)
include hpa hpop

theorem exec_hostMemAccess_of_error {tn : Nat} (hown : s.windowOwner pa = some tn) (htdi : (s.tenant tn).tdi = 3) :
    exec .hostMemAccess s = .next s := by
  rw [exec_hostMemAccess, execHostMemAccess]
  simp only [hpa, hown, htdi]
  rw [if_neg (by simp [hpop]), if_pos (by simp)]

section
variable (hown : s.windowOwner pa = none)
include hown

theorem exec_hostMemAccess_of_busy
    (hbusy : s.lineBusy (pa / 128) = true ∨ (s.argN 1 = 1 ∧ s.pinned (pa / 128) = true)) :
    exec .hostMemAccess s = .next (s.again .hostMemAccess) := by
  rw [exec_hostMemAccess, execHostMemAccess]
  simp only [hpa, hown]
  rw [if_neg (by simp [hpop]), if_neg (by simp), if_pos (by simpa using hbusy)]

section
variable (hbusy : s.lineBusy (pa / 128) = false) {u : State} (hu : s.applyAdds (pa / 128 * 128) 128 = u)
include hbusy hu

theorem exec_hostMemAccess_of_write (hwrite : s.argN 1 = 1) (hpinned : s.pinned (pa / 128) = false)
    (hpoison : u.poisoned pa = false) : exec .hostMemAccess s =
      .next ((u.writeHome false (pa / 8 * 8) 8 ⟨(s.argW 0).v, false⟩).unresident (pa / 128)) := by
  have harg : u.argW 0 = s.argW 0 := by
    rw [State.argW, ← hu, (s.homesOnly_applyAdds ..).arg, State.argW]
  have hargN : u.argN 1 = 1 := by
    rw [State.argN, ← hu, (s.homesOnly_applyAdds ..).arg]
    exact hwrite
  rw [exec_hostMemAccess, execHostMemAccess]
  simp only [hpa, hown, hu]
  rw [if_neg (by simp [hpop]), if_neg (by simp), if_neg (by simp [hbusy, hpinned]), if_pos hargN, if_neg (by simp [hpoison]), harg]

theorem exec_hostMemAccess_of_read (hread : s.argN 1 ≠ 1) (hneed : u.needLine (pa / 128) = none) :
    exec .hostMemAccess s = .next { (u.gatherShared (pa / 128)).touchLine (pa / 128) with
      hostHeld := insSorted ((u.gatherShared (pa / 128)).touchLine (pa / 128)).hostHeld (pa / 64) } := by
  have hargN : u.argN 1 ≠ 1 := by
    rw [State.argN, ← hu, (s.homesOnly_applyAdds ..).arg]
    exact hread
  rw [exec_hostMemAccess, execHostMemAccess]
  simp only [hpa, hown, hu]
  rw [if_neg (by simp [hpop]), if_neg (by simp), if_neg (by simp [hbusy, hread]), if_neg hargN]
  simp only [hneed]

end
end
end

theorem State.touchLine_mem (s : State) (line : Nat) : (s.touchLine line).mem = s.mem := by
  unfold State.touchLine
  split <;> rfl

theorem exec_birsp_of_idle (h : s.flights = []) :
    exec .birsp s = .next { s with hostHeld := s.hostHeld.filter (fun x => x ≠ s.argN 0) } := by
  rw [exec_birsp, execBirsp]
  simp only [h]
  rfl

end

/-- Settles O42: the control word bit by bit, and a lemma for each outcome of the doorbell page and of host access. -/
theorem hostRings : Obligations.HostRings := by
  unfold Obligations.HostRings
  refine ⟨fun s => ⟨rfl, rfl, rfl⟩, fun s tn q v => ⟨State.doorbell_of_closed rfl, State.doorbell_of_disabled rfl,
      State.doorbell_of_enabled rfl⟩, fun s hopen hq => exec_lqctl_of_ring hopen hq rfl,
    fun old new => ⟨fun h => ctlWrite_of_enabled h new, ctlEn_ctlWrite old new⟩,
    fun s hopen hnq hwaiting => exec_ringRpWrite_of_empty hopen hnq hwaiting,
    fun s => ⟨exec_msixVectorUnmask_of_notify, exec_msixVectorUnmask_of_fault⟩,
    fun s hoff hopen => exec_doorbellRegWrite_of_base hopen hoff,
    fun s pa hpa hpop hown => ⟨exec_hostMemAccess_of_busy hpa hpop hown, fun hbusy =>
      ⟨exec_hostMemAccess_of_write hpa hpop hown hbusy rfl, fun hread hneed =>
        ⟨_, exec_hostMemAccess_of_read hpa hpop hown hbusy rfl hread hneed, State.touchLine_mem .., mem_insSorted.2 (.inl rfl)⟩⟩⟩,
    fun s pa tn hpa hpop hown htdi => exec_hostMemAccess_of_error hpa hpop hown htdi, fun s => rfl,
    fun s h => exec_birsp_of_idle h⟩

end Sys2Proof.Machine
end

section
/-!
SUPPORT. Outstanding operations reach memory and complete (R25, R61, R92, R338): O43.
-/
namespace Sys2Proof.Machine
open Sys2Proof

/-! ### The request of an operation -/

section
variable {s : State} {t : Thread} {o : Op}

theorem exec_l2Request_of_prefetch (h : s.argN 1 = 64) :
    exec .l2Request s = .next (s.prefetchLine (s.argN 0) (s.argN 2) (s.argN 3 = 1) (s.argW 0).v) := by
  rw [exec_l2Request, execL2Request]
  dsimp only
  rw [if_pos h]

/-- A request that is not refused does what its kind asks. -/
theorem exec_l2Request_of_kind (hk : s.argN 1 ≠ 64) (ho : s.opOf (s.argN 0) (s.argN 1) (s.argN 2) = some (t, o))
    (hrefusal : o.refusal = none) :
    ((o.kind = .load ∨ o.kind = .loadAcq) → exec .l2Request s = .next (s.loadProgress (s.argN 0) (s.argN 1) t o false)) ∧
    (o.kind = .amo → exec .l2Request s = .next (s.amoProgress (s.argN 0) (s.argN 1) t o)) ∧
    (o.kind = .bpack → exec .l2Request s = .next (s.packProgress (s.argN 0) (s.argN 1) t o)) ∧
    (o.kind = .saread → exec .l2Request s = .next (s.sareadProgress (s.argN 0) (s.argN 1) t o)) ∧
    (o.kind = .pref → exec .l2Request s = .next (s.prefetch (s.argN 0) (s.argN 1) t o)) := by
  have hexec : exec .l2Request s = execL2Request s := rfl
  simp only [execL2Request, ho, hrefusal] at hexec
  rw [if_neg hk, if_neg (by simp)] at hexec
  refine ⟨fun hkind => ?_, fun hkind => ?_, fun hkind => ?_, fun hkind => ?_, fun hkind => ?_⟩
  · obtain hkind | hkind := hkind <;> rw [hexec, hkind]
  · rw [hexec, hkind]
  · rw [hexec, hkind]
  · rw [hexec, hkind]
  · rw [hexec, hkind]

theorem exec_forwardedLoad_of_load (ho : s.opOf (s.argN 0) (s.argN 1) (s.argN 2) = some (t, o)) (hrefusal : o.refusal = none)
    (hkind : o.kind = .load ∨ o.kind = .loadAcq) {j : Nat} {a : Access} {tr : Tr} (hpending : o.pendingAcc = some (j, a))
    (hplace : s.placeOf (s.argN 0) o a 0 = some tr) :
    exec .forwardedLoad s = .next (if s.recalling (tr.pa / 8) then s.post [evt .l2Request [s.argN 0, s.argN 1, o.id]]
      else s.loadProgress (s.argN 0) (s.argN 1) t o true) := by
  rw [exec_forwardedLoad, execForwardedLoad]
  simp only [ho, hrefusal, hpending, hplace]
  rw [if_neg (by obtain h | h := hkind <;> simp [h])]
  split <;> rfl

end

/-! ### The accesses of a load (R61, R92) -/

section
variable {s : State} {c k j : Nat} {t : Thread} {o : Op} {a : Access} {tr : Tr} {fwd : Bool}

section
variable (hpending : o.pendingAcc = some (j, a)) (hfollow : s.mustFollow c t o a = false) (hplace : s.placeOf c o a 0 = some tr)
include hpending hfollow hplace

theorem State.loadProgress_of_retired (hview : o.space = .view) (hretired : s.retired tr.pa = true) :
    s.loadProgress c k t o fwd = s.opNext c k (o.refuse j 0x07 0) := by
  unfold State.loadProgress
  simp only [hpending, hplace]
  rw [if_neg (by simp [hfollow]), if_pos (by simp [hview, hretired])]
  rfl

section
variable (hretired : o.space = .view → s.retired tr.pa = false) (hrefusal : ∀ n, loadRefusal tr n = 0)
include hretired hrefusal

theorem State.loadProgress_of_poison (hpoison : s.poisoned tr.pa = true) :
    s.loadProgress c k t o fwd = s.opNext c k (o.refuse j 0x10 0) := by
  unfold State.loadProgress
  simp only [hpending, hplace, hrefusal]
  rw [if_neg (by simp [hfollow]), if_neg (by simpa using hretired), if_neg (by simp), if_pos hpoison]
  rfl

variable (hpoison : s.poisoned tr.pa = false)
include hpoison

theorem State.loadProgress_of_here (hhere : s.servedHere c k o tr a.size = true) (hadds : s.addsDue tr.pa a.size = false) :
    s.loadProgress c k t o fwd = s.loadNow c k j o a tr := by
  unfold State.loadProgress
  simp only [hpending, hplace, hrefusal]
  rw [if_neg (by simp [hfollow]), if_neg (by simpa using hretired), if_neg (by simp), if_neg (by simp [hpoison]),
    if_pos (by simp [hhere, hadds])]

section
variable (hhere : s.servedHere c k o tr a.size = false)
include hhere

theorem State.loadProgress_of_full (hsent : o.sent = false) (hfull : s.portFull (c / 8) = true) :
    s.loadProgress c k t o fwd = s.post [evt .l2Request [c, k, o.id]] := by
  unfold State.loadProgress
  simp only [hpending, hplace, hrefusal]
  rw [if_neg (by simp [hfollow]), if_neg (by simpa using hretired), if_neg (by simp), if_neg (by simp [hpoison]),
    if_neg (by simp [hhere]), if_pos (by simp [hsent, hfull])]

theorem State.loadProgress_of_away (hport : o.sent = true ∨ s.portFull (c / 8) = false) :
    s.loadProgress c k t o fwd = s.loadAtHome c k j t o a tr fwd := by
  have hsend : ¬(!o.sent && s.portFull (c / 8)) = true := by obtain h | h := hport <;> simp [h]
  unfold State.loadProgress
  simp only [hpending, hplace, hrefusal]
  rw [if_neg (by simp [hfollow]), if_neg (by simpa using hretired), if_neg (by simp), if_neg (by simp [hpoison]),
    if_neg (by simp [hhere]), if_neg hsend]

end
end
end

section
variable {u : State} (hreach : (s.modThread c k (fun t => t.setOp { o with sent := true })).reach c tr a.size = .now u)
  (hrecall : u.recalling (tr.pa / 8) = false) (hadds : u.addsDue tr.pa a.size = false)
include hreach hrecall hadds

theorem State.loadAtHome_of_elsewhere (helse : u.elsewhere c (tr.pa / 8) = true) :
    s.loadAtHome c k j t o a tr false = u.post [evt .forwardedLoad [c, k, o.id]] := by
  unfold State.loadAtHome
  simp only [hreach]
  rw [if_neg (by simp [hrecall, hadds]), if_pos (by simp [helse])]

theorem State.loadAtHome_of_home (helse : u.elsewhere c (tr.pa / 8) = false) :
    s.loadAtHome c k j t o a tr fwd = (((((u.applyAdds tr.pa a.size).countHot (c / 8) t.tenant
      tr.leaf).touchLine (tr.pa / 128)).cacheLine c tr).loadNow c k j { o with sent := true } a tr) := by
  unfold State.loadAtHome
  simp only [hreach]
  rw [if_neg (by simp [hrecall, hadds]), if_neg (by simp [helse])]

end
end

/-! ### A line is filled (R338) -/

section
variable {s : State}

theorem exec_hbmFill_of_none (h : s.makeRoom (s.homeOf (s.argN 0)) (s.argN 0) = none) :
    exec .hbmFill s = .next (s.again .hbmFill) := by
  rw [exec_hbmFill, execHbmFill]
  simp only [h]

theorem exec_hbmFill_of_some {u : State} (h : s.makeRoom (s.homeOf (s.argN 0)) (s.argN 0) = some u) :
    exec .hbmFill s = .next { u with resident := SMap.set u.resident (s.argN 0) u.now } := by
  rw [exec_hbmFill, execHbmFill]
  simp only [h]

theorem State.makeRoom_of_room {cl line : Nat} (h : (s.inSet cl line).length < 16) : s.makeRoom cl line = some s := by
  unfold State.makeRoom
  exact if_pos h

/-! ### An operation ends -/

section
variable {t : Thread} {o : Op} (ho : s.opOf (s.argN 0) (s.argN 1) (s.argN 2) = some (t, o))
include ho

theorem exec_longLatencyComplete_of_done {u : State} (hended : o.ended = true) (hrefusal : o.refusal = none)
    (hdone : s.writeResults (s.argN 0) (s.argN 1) t o = .done u) :
    exec .longLatencyComplete s = .next ((u.watchOp (s.argN 0) (s.argN 1) o).modThread (s.argN 0) (s.argN 1)
      (fun t => t.dropOp o.id)) := by
  rw [exec_longLatencyComplete, execLongLatencyComplete]
  simp only [ho, hended, hrefusal, State.completeOp, hdone]
  rw [if_neg (by simp), if_neg (by simp)]

theorem exec_deferredTrap_of_refusal {a : Access} (hrefusal : o.refusal = some a) (hended : o.kind = .store → o.ended = true) :
    exec .deferredTrap s = .next ((s.modThread (s.argN 0) (s.argN 1) (fun t => t.dropOp o.id)).addDefer (s.argN 0) (s.argN 1)
      a.refuse (o.trapAddr a) a.cause o.pc o.id o.tip) := by
  rw [exec_deferredTrap, execDeferredTrap]
  simp only [ho, hrefusal]
  rw [if_neg (by simpa using hended)]

end

/-- A change of a thread writes no register. -/
theorem State.rf_modThread (c k : Nat) (g : Thread → Thread) (d : Nat) : ((s.modThread c k g).core d).rf = (s.core d).rf :=
  State.modThread_coreField (φ := Core.rf) (fun _ _ _ => rfl) s c k g d

/-- The trap of an operation waits at the thread, with the access's code and the operation's place in the order. -/
theorem State.addDefer_waits {c k : Nat} {v : Thread} (hv : s.thread? c k = some v) (code : Nat) (addr : Word)
    (cause fpc ord : Nat) (tip : Bool) : ∃ w, (s.addDefer c k code addr cause fpc ord tip).thread? c k = some w ∧
      ∃ d ∈ w.defers, d.trap.code = code ∧ d.ord = ord := by
  rw [State.addDefer, State.thread?_modThread_same hv]
  exact ⟨_, rfl, _, List.mem_append_left _ (List.mem_append_right _ (List.mem_singleton.2 rfl)), rfl, rfl⟩

end

/-- Settles O43: a lemma for each outcome of the requests of operations, of fills, and of the end of an operation. -/
theorem operationWork : Obligations.OperationWork := by
  unfold Obligations.OperationWork
  refine ⟨fun s t o hk ho hrefusal => exec_l2Request_of_kind hk ho hrefusal, fun s h => exec_l2Request_of_prefetch h,
    fun s c k j t o a tr fwd hpending hfollow hplace => ⟨State.loadProgress_of_retired hpending hfollow hplace,
      fun hretired hrefusal => ⟨State.loadProgress_of_poison hpending hfollow hplace hretired hrefusal, fun hpoison =>
        ⟨State.loadProgress_of_here hpending hfollow hplace hretired hrefusal hpoison,
          State.loadProgress_of_full hpending hfollow hplace hretired hrefusal hpoison,
          State.loadProgress_of_away hpending hfollow hplace hretired hrefusal hpoison⟩⟩⟩,
    fun s u c k j t o a tr fwd hreach hrecall hadds => ⟨fun hfwd helse => ?_, State.loadAtHome_of_home hreach hrecall hadds⟩,
    fun s t o j a tr ho hrefusal hkind hpending hplace => ?_,
    fun s => ⟨exec_hbmFill_of_none, fun u => exec_hbmFill_of_some, fun cl line => State.makeRoom_of_room⟩,
    fun s t o u ho hended hrefusal hdone => exec_longLatencyComplete_of_done ho hended hrefusal hdone,
    fun s t o a ho hrefusal hended => ⟨exec_deferredTrap_of_refusal ho hrefusal hended, fun v hv => ?_⟩⟩
  · rw [hfwd]
    exact State.loadAtHome_of_elsewhere hreach hrecall hadds helse
  · have hexec := exec_forwardedLoad_of_load ho hrefusal hkind hpending hplace
    exact ⟨fun h => hexec.trans (by rw [if_pos h]), fun h => hexec.trans (by rw [if_neg (by simp [h])])⟩
  · obtain ⟨w, hw, hd⟩ := State.addDefer_waits (State.thread?_modThread_same hv (fun t => t.dropOp o.id)) a.refuse (o.trapAddr a)
      a.cause o.pc o.id o.tip
    exact ⟨_, w, exec_deferredTrap_of_refusal ho hrefusal hended,
      fun d => (State.rf_modThread ..).trans (State.rf_modThread ..), hw, hd⟩

end Sys2Proof.Machine
end

section
/-!
SUPPORT. Stores leave the buffer and are performed (R60, R91, R92, R254, R256, R261): O44.
-/
namespace Sys2Proof.Machine
open Sys2Proof

/-! ### The head of the store buffer -/

section
variable {s : State} (hdead : (s.core (s.argN 0)).dead = false) (hparked : (s.core (s.argN 0)).parked = []) {e : SBEntry}
  {r : List SBEntry} (hsb : (s.core (s.argN 0)).sb = e :: r)

/-- Core `c` with no parked write. -/
def State.unparked (s : State) (c : Nat) : State := s.modCore c (fun x => { x with parked := [] })

/-- Core `c` with the rest of its store buffer. -/
def State.withSb (s : State) (c : Nat) (r : List SBEntry) : State := s.modCore c (fun x => { x with sb := r })

include hdead hparked hsb

theorem exec_storeBufferDrain_of_stop
    (hstop : (((s.core (s.argN 0)).lthold && !(s.unparked (s.argN 0)).holdLifted (s.argN 0)) ||
      (!e.loc && (s.unparked (s.argN 0)).portFull (s.argN 0 / 8))) = true) :
    exec .storeBufferDrain s = .next ((s.unparked (s.argN 0)).again .storeBufferDrain) := by
  have hu : s.modCore (s.argN 0) (fun x => { x with parked := [] }) = s.unparked (s.argN 0) := rfl
  have hsb' : ((s.unparked (s.argN 0)).core (s.argN 0)).sb = e :: r := by
    rw [State.unparked, State.core_modCore_same, hsb]
  have hlt : ((s.unparked (s.argN 0)).core (s.argN 0)).lthold = (s.core (s.argN 0)).lthold := by
    rw [State.unparked, State.core_modCore_same]
  rw [exec_storeBufferDrain, execStoreBufferDrain]
  simp only [hparked, State.releaseParked, hu, hsb', hlt]
  rw [if_neg (by simp [hdead]), if_pos hstop]

section
variable (hstop : (((s.core (s.argN 0)).lthold && !(s.unparked (s.argN 0)).holdLifted (s.argN 0)) ||
      (!e.loc && (s.unparked (s.argN 0)).portFull (s.argN 0 / 8))) = false)
include hstop

theorem exec_storeBufferDrain_of_go {u : State} (hu : (s.unparked (s.argN 0)).withSb (s.argN 0) r = u) :
    exec .storeBufferDrain s = .next (if u.migrating (s.tenantOn (s.argN 0)) e
      then u.modCore (s.argN 0) (fun x => { x with parked := x.parked ++ [e] }) else u.sendStore (s.argN 0) e) := by
  have hs1 : s.modCore (s.argN 0) (fun x => { x with parked := [] }) = s.unparked (s.argN 0) := rfl
  have hs2 : (s.unparked (s.argN 0)).modCore (s.argN 0) (fun x => { x with sb := r }) = u := hu
  have hsb' : ((s.unparked (s.argN 0)).core (s.argN 0)).sb = e :: r := by
    rw [State.unparked, State.core_modCore_same, hsb]
  have hlt : ((s.unparked (s.argN 0)).core (s.argN 0)).lthold = (s.core (s.argN 0)).lthold := by
    rw [State.unparked, State.core_modCore_same]
  rw [exec_storeBufferDrain, execStoreBufferDrain]
  simp only [hparked, State.releaseParked, hs1, hsb', hlt, hs2, List.any_nil, Bool.false_or]
  rw [if_neg (by simp [hdead]), if_neg (by rw [hstop]; simp)]
  split <;> rfl

end
end

theorem State.sb_withSb (s : State) (c : Nat) (r : List SBEntry) : ((s.withSb c r).core c).sb = r := by
  rw [State.withSb, State.core_modCore_same]

/-! ### A store in flight (R61, R91, R109, R252) -/

section
variable {s : State} {f : Flight} (hf : s.flights.find? (fun f => f.id = s.argN 0) = some f)
include hf

theorem exec_storeRegistration_of_done (hstage : f.stage = 2) : exec .storeRegistration s = .next s := by
  rw [exec_storeRegistration, execStoreRegistration]
  simp only [hf]
  rw [if_pos hstage]

theorem exec_storeRegistration_of_words (hstage : f.stage = 1) : exec .storeRegistration s = .next (s.storeDie f f.left) := by
  rw [exec_storeRegistration, execStoreRegistration]
  simp only [hf]
  rw [if_neg (by omega), if_pos hstage]

section
variable (h2 : f.stage ≠ 2) (h1 : f.stage ≠ 1)
include h2 h1

theorem exec_storeRegistration_of_follows (hfollow : s.storeMustFollow f = true) :
    exec .storeRegistration s = .next (s.retryStore f.id) := by
  rw [exec_storeRegistration, execStoreRegistration]
  simp only [hf]
  rw [if_neg h2, if_neg h1, if_pos hfollow]

section
variable (hfollow : s.storeMustFollow f = false)
include hfollow

theorem exec_storeRegistration_of_older (hkind : f.entry.kind = .release) (hold : s.olderOf f.core f.entry ≠ []) :
    exec .storeRegistration s = .next (s.retryStore f.id) := by
  have hwait : s.mayPerform f.core f.entry = (false, s) := by
    rw [State.mayPerform, hkind, if_pos (by simp [StKind.releases]), if_neg (by simpa using hold)]
  rw [exec_storeRegistration, execStoreRegistration]
  simp only [hf, hwait]
  rw [if_neg h2, if_neg h1, if_neg (by simp [hfollow])]
  rfl

section
variable (hthread : s.sameThread f.core f.entry.slot f.entry.inc = none)
include hthread

theorem exec_storeRegistration_of_global (hkind : f.entry.kind = .plain ∨ f.entry.kind = .nonTemporal) (hloc : f.entry.loc = false)
    (hwide : f.entry.wide = false) : exec .storeRegistration s = .next (s.storeAtHome f) := by
  have hgo : s.mayPerform f.core f.entry = (true, s) := by
    obtain h | h := hkind <;> rw [State.mayPerform, h, if_neg (by simp [StKind.releases])]
  rw [exec_storeRegistration, execStoreRegistration]
  simp only [hf, hgo, hthread, hloc, hwide]
  rw [if_neg h2, if_neg h1, if_neg (by simp [hfollow])]
  obtain h | h := hkind <;> rw [h] <;> rfl

theorem exec_storeRegistration_of_local (hkind : f.entry.kind = .plain) (hloc : f.entry.loc = true) :
    exec .storeRegistration s = .next (s.storeAtBank f false) := by
  have hgo : s.mayPerform f.core f.entry = (true, s) := by
    rw [State.mayPerform, hkind, if_neg (by simp [StKind.releases])]
  rw [exec_storeRegistration, execStoreRegistration]
  simp only [hf, hgo, hthread, hloc, hkind]
  rw [if_neg h2, if_neg h1, if_neg (by simp [hfollow])]
  rfl

end
end
end
end

section
variable {s : State} {f : Flight}

theorem State.storeAtBank_of_gone
    (hgone : s.barred f.entry.core f.id = true ∨ (s.core f.entry.core).pubWin < f.entry.addr + f.entry.size) :
    s.storeAtBank f false = s.refuseStore f 0x14 (w64 f.entry.addr) := by
  unfold State.storeAtBank
  exact if_pos (by simpa using hgone)

theorem State.storeAtBank_of_there (hbarred : s.barred f.entry.core f.id = false)
    (hwin : f.entry.addr + f.entry.size ≤ (s.core f.entry.core).pubWin) (hdead : (s.core f.entry.core).dead = false) :
    s.storeAtBank f false = (s.storeLocal f.entry.core f.entry).performed' f := by
  unfold State.storeAtBank
  dsimp only
  rw [if_neg (by simp [hbarred]; omega), if_neg (by simp [hdead]), if_neg (by simp)]

/-! ### A store at its home slice (R91, R92) -/

section
variable (hhost : f.entry.host = false) (hsw : f.entry.sw = false) (hsh : f.entry.sh ≤ 2)
include hhost hsw hsh

theorem State.storeAtHome_of_gate {u : State} (hgate : s.homeGate f.entry.addr f.entry.size true = some u) :
    s.storeAtHome f = u.retryStore f.id := by
  unfold State.storeAtHome
  simp only [hgate]
  rw [if_neg (by simp [hhost]), if_neg (by simp [hsw]), if_neg (by omega)]

theorem State.storeAtHome_of_die (hgate : s.homeGate f.entry.addr f.entry.size true = none) :
    s.storeAtHome f = (((s.applyAdds f.entry.addr f.entry.size).countHot
      (f.core / 8) (s.tenantOn f.core) f.entry.leaf).touchLine (f.entry.addr / 128)).storeDie f f.entry.words := by
  unfold State.storeAtHome
  simp only [hgate]
  rw [if_neg (by simp [hhost]), if_neg (by simp [hsw]), if_neg (by omega)]

end

/-- A word of a store: it waits for a recall, it asks for one, or it is applied. -/
theorem State.registerWord_cases (w : Nat) : (s.recalling w = true → s.registerWord f w = ([w], s)) ∧
    (s.recalling w = false → s.elsewhere f.core w = true → s.registerWord f w = ([w], s.askRecall w f.id)) ∧
    (s.recalling w = false → s.elsewhere f.core w = false → s.registerWord f w = ([], s.storeWordDie f.core f.entry w)) := by
  unfold State.registerWord
  exact ⟨fun h => if_pos h, fun h he => (if_neg (by simp [h])).trans (if_pos he),
    fun h he => (if_neg (by simp [h])).trans (if_neg (by simp [he]))⟩

end

/-! ### The write-combine buffer, and the litmus hold -/

section
variable {s : State}

theorem exec_wcDrainTimeout_of_none
    (h : (s.core (s.argN 0)).wc.find? (fun e => e.half = hostBase / 64 + s.argN 1) = none) :
    exec .wcDrainTimeout s = .next s := by
  rw [exec_wcDrainTimeout, execWcDrainTimeout]
  simp only [h]

theorem exec_wcDrainTimeout_of_some {e : WCEntry}
    (h : (s.core (s.argN 0)).wc.find? (fun e => e.half = hostBase / 64 + s.argN 1) = some e) :
    exec .wcDrainTimeout s =
      .next (if e.born + 1024 ≤ s.now then s.drainHalf (s.argN 0) (s.argN 1) else s.again .wcDrainTimeout) := by
  rw [exec_wcDrainTimeout, execWcDrainTimeout]
  simp only [h]
  split <;> rfl

/-- The stores of core `c` that the litmus hold takes back. -/
def Flight.heldBack (c : Nat) (f : Flight) : Bool :=
  f.core = c && f.stage ≠ 2 && !(f.stage = 1 && f.left.length < f.entry.words.length)

theorem State.holdStores_keeps (s : State) (c : Nat) :
    ((s.holdStores c).core c).lthold = true ∧ (s.holdStores c).mem = s.mem ∧
    ((s.holdStores c).core c).sb = (s.flights.filter (Flight.heldBack c)).map (fun f => f.entry) ++ (s.core c).sb ∧
    (s.holdStores c).flights = s.flights.filter (fun f => !Flight.heldBack c f) := by
  have hcore : (s.holdStores c).core c = { s.core c with
      lthold := true, sb := (s.flights.filter (Flight.heldBack c)).map (fun f => f.entry) ++ (s.core c).sb } := by
    unfold State.holdStores
    dsimp only
    rw [State.core_post, State.core_modCore_same]
    rfl
  rw [hcore]
  exact ⟨rfl, rfl, rfl, rfl⟩

end

/-- Settles O44: a lemma for each outcome of the events of stores; the litmus hold takes the entries back in order. -/
theorem storeWork : Obligations.StoreWork := by
  unfold Obligations.StoreWork
  refine ⟨fun s e r hdead hparked hsb => ?_, fun s f hf h2 h1 => ⟨exec_storeRegistration_of_follows hf h2 h1,
      exec_storeRegistration_of_older hf h2 h1, fun hfollow hkind hloc hwide hthread =>
        exec_storeRegistration_of_global hf h2 h1 hfollow hthread hkind hloc hwide, fun hfollow hkind hloc hthread => ?_⟩,
    fun s f hf h => exec_storeRegistration_of_words hf h, fun s f hf h => exec_storeRegistration_of_done hf h,
    fun s f hhost hsw hsh => ⟨fun u => State.storeAtHome_of_gate hhost hsw hsh, State.storeAtHome_of_die hhost hsw hsh⟩,
    fun s f w => State.registerWord_cases w, fun s => ⟨_, rfl, rfl, rfl, fun f => ?_⟩,
    fun s => ⟨rfl, exec_wcDrainTimeout_of_none, fun e he => ?_⟩, fun s => ⟨_, rfl, s.holdStores_keeps _⟩, fun s => ?_⟩
  · intro s1 stop
    refine ⟨exec_storeBufferDrain_of_stop hdead hparked hsb, fun hstop => ?_⟩
    have hexec := exec_storeBufferDrain_of_go hdead hparked hsb hstop rfl
    refine ⟨fun hmig => ⟨_, hexec.trans (congrArg Host.Outcome.next (if_neg (Bool.eq_false_iff.1 hmig))), rfl, ?_, rfl, ?_⟩,
      fun hmig => ⟨_, hexec.trans (congrArg Host.Outcome.next (if_pos hmig)), rfl, ?_, ?_, rfl⟩⟩
    · exact State.sb_withSb ..
    · exact List.mem_append_right _ (List.mem_singleton.2 rfl)
    · rw [State.core_modCore_same]
      exact State.sb_withSb ..
    · rw [State.core_modCore_same, State.withSb, State.core_modCore_same, State.unparked, State.core_modCore_same]
      rfl
  · have hexec := exec_storeRegistration_of_local hf h2 h1 hfollow hthread hkind hloc
    exact ⟨fun hgone => hexec.trans (by rw [State.storeAtBank_of_gone hgone]),
      fun hbarred hwin hdead => hexec.trans (by rw [State.storeAtBank_of_there hbarred hwin hdead])⟩
  · rw [List.mem_filter]
    simp [← not_and_or]
  · have hexec := exec_wcDrainTimeout_of_some he
    exact ⟨fun h => hexec.trans (by rw [if_neg (by omega)]), fun h => hexec.trans (by rw [if_pos h])⟩
  · exact ⟨fun h => (if_pos h), fun h => (if_neg (by simp [h]))⟩

end Sys2Proof.Machine
end

section
/-!
SUPPORT. Waking, traps that wait, stops, and the window of floating-point reports (R26, R38, R238 to R240, R243, R308 to R310): O45.
-/
namespace Sys2Proof.Machine
open Sys2Proof

/-! ### Parked instructions -/

section
variable {s : State} {c k : Nat} {t : Thread}

section
variable (ht : s.thread? (s.argN 0) (s.argN 1) = some t)
include ht

theorem exec_instructionWake_of_ops (hrun : t.run = .wait .opsDone) : exec .instructionWake s =
    .next (if s.mayWake (s.argN 0) (s.argN 1) t .opsDone then s.wake (s.argN 0) (s.argN 1) else s.again .instructionWake) := by
  rw [exec_instructionWake, execInstructionWake]
  simp only [ht, hrun]
  split <;> rfl

theorem exec_instructionWake_of_ready (hrun : t.run = .ready) : exec .instructionWake s = .next s := by
  rw [exec_instructionWake, execInstructionWake]
  simp only [ht, hrun]

/-! ### Traps that wait -/

section
variable {p : Trap} (hpend : t.pend = some p)
include hpend

theorem exec_trapDelivery_of_busy (hops : t.ops ≠ []) : exec .trapDelivery s = .next (s.again .trapDelivery) := by
  rw [exec_trapDelivery, execTrapDelivery]
  simp only [ht, hpend]
  rw [if_neg (by simp), if_pos (by simpa using hops)]

theorem exec_trapDelivery_of_due {q : Trap} {v : Thread} (hops : t.ops = []) (hrun : ∀ b, t.run ≠ .stopped b)
    (hdue : t.dueTrap = some (q, v)) :
    exec .trapDelivery s = .next ((s.setThread (s.argN 0) (s.argN 1) v).deliver (s.argN 0) (s.argN 1) q) := by
  rw [exec_trapDelivery, execTrapDelivery]
  simp only [ht, hpend, hdue]
  rw [if_neg (by simp), if_neg (by simp [hops])]

end

/-! ### Stops -/

section
variable (hrun : ∀ b, t.run ≠ .stopped b)
include hrun

theorem exec_stopRequest_of_running : exec .stopRequest s = .next ((s.withThread (s.argN 0) (s.argN 1)
    { t with stopReq := if t.stopReq = 0 ∨ t.stopReq = 2 then 2 else 3 } (s.core (s.argN 0)).rf).post
      [evt .stopTakesEffect [s.argN 0, s.argN 1]]) := by
  rw [exec_stopRequest, execStopRequest]
  simp only [ht, State.askStop, State.setThread_eq_withThread, Bool.or_eq_true, decide_eq_true_iff]

section
variable (hreq : t.stopReq ≠ 0)
include hreq

theorem exec_stopTakesEffect_of_mayStop (hmay : (s.core (s.argN 0)).mayStop (s.argN 1) t = true) :
    exec .stopTakesEffect s = .next (s.takeStop (s.argN 0) (s.argN 1) t) := by
  rw [exec_stopTakesEffect, execStopTakesEffect]
  simp only [ht]
  split
  · next b hb => exact absurd hb (hrun b)
  · rw [if_neg hreq, if_pos hmay]
  · rw [if_neg hreq, if_pos hmay]

section
variable (hmay : (s.core (s.argN 0)).mayStop (s.argN 1) t = false)
include hmay

theorem exec_stopTakesEffect_of_later (hlater : t.run = .ready ∨ t.atBoundary = false ∨ t.ops ≠ [] ∨ t.defers = []) :
    exec .stopTakesEffect s = .next (s.again .stopTakesEffect) := by
  rw [exec_stopTakesEffect, execStopTakesEffect]
  simp only [ht]
  split
  · next b hb => exact absurd hb (hrun b)
  · next w hw =>
    have hnone : ¬(t.atBoundary && t.ops.isEmpty && !t.defers.isEmpty) = true := by
      obtain h | h | h | h := hlater
      · rw [hw] at h
        cases h
      · simp [h]
      · simp [h]
      · simp [h]
    rw [if_neg hreq, if_neg (by simp [hmay]), if_neg hnone]
  · rw [if_neg hreq, if_neg (by simp [hmay])]

theorem exec_stopTakesEffect_of_due {tr : Trap} {v : Thread} (hready : t.run ≠ .ready) (hboundary : t.atBoundary = true)
    (hops : t.ops = []) (hdefers : t.defers ≠ []) (hdue : t.dueTrap = some (tr, v)) :
    exec .stopTakesEffect s = .next ((((s.abandon (s.argN 0) t).setThread (s.argN 0) (s.argN 1) v).deliver (s.argN 0)
      (s.argN 1) tr).again .stopTakesEffect) := by
  rw [exec_stopTakesEffect, execStopTakesEffect]
  simp only [ht]
  split
  · next b hb => exact absurd hb (hrun b)
  · rw [if_neg hreq, if_neg (by simp [hmay]), if_pos (by simp [hboundary, hops, hdefers]), hdue]
  · next h => exact absurd h hready

end
end

/-- A debug stop of a thread at a boundary, with one of the three reasons. -/
theorem State.debugNow_of_hit (hreq : t.stopReq = 0) (hmay : (s.core (s.argN 0)).mayStop (s.argN 1) t = true) {bp : Option Nat}
    (hbp : (if t.resumed then none else (s.core (s.argN 0)).breakHit (s.argN 1) t.pc) = bp)
    (hhit : bp ≠ none ∨ t.watch ≠ none ∨ t.brk ≠ none) :
    s.debugNow (s.argN 0) (s.argN 1) = .next (s.debugStop (s.argN 0) (s.argN 1) t bp) := by
  rw [State.debugNow]
  simp only [ht, hbp]
  exact if_pos (by simpa [hmay, hreq, or_assoc] using hhit)

end
end

/-! ### DRES -/

/-- What DRES makes of one slot that debug has stopped. -/
def State.dresSlot (s : State) (c m k : Nat) : State :=
  if m / 2 ^ k % 2 = 0 then s
  else
    match s.thread? c k with
    | none => s
    | some t =>
      if t.run = .stopped true then
        (s.setThread c k { t with mail := t.mail ++ t.held, held := [], resumed := true, run := t.resumed' }).idleAgain c k
      else s

theorem exec_dres_eq (s : State) :
    exec .dres s = .next ((List.range 64).foldl (fun u k => u.dresSlot (s.argN 0) (s.argW 0).v.toNat k) s) := rfl

theorem State.idleAgain_keeps (s : State) (c j : Nat) :
    (s.idleAgain c j).mem = s.mem ∧ ∀ k, (s.idleAgain c j).thread? c k = s.thread? c k := by
  unfold State.idleAgain
  split
  · split <;> exact ⟨rfl, fun _ => rfl⟩
  · exact ⟨rfl, fun _ => rfl⟩

/-- A slot that DRES looks at leaves memory and every other slot. -/
theorem State.dresSlot_keeps (s : State) (c m j : Nat) :
    (s.dresSlot c m j).mem = s.mem ∧ ∀ k, k ≠ j → (s.dresSlot c m j).thread? c k = s.thread? c k := by
  unfold State.dresSlot
  split
  · exact ⟨rfl, fun _ _ => rfl⟩
  · split
    · exact ⟨rfl, fun _ _ => rfl⟩
    · split
      · refine ⟨(State.idleAgain_keeps ..).1, fun k hk => ?_⟩
        rw [(State.idleAgain_keeps ..).2, State.setThread_eq_withThread, State.withThread_thread?_other _ _ _ (fun e => hk (by cases e; rfl))]
      · exact ⟨rfl, fun _ _ => rfl⟩

/-- DRES lets a slot go on that debug has stopped, where its bit is set. -/
theorem State.dresSlot_thread? (ht : s.thread? c k = some t) (hrun : t.run = .stopped true) (hdeleg : t.deleg = none) (w : Word) :
    (s.dresSlot c w.toNat k).thread? c k = some (if w.getLsbD k then
      { t with mail := t.mail ++ t.held, held := [], resumed := true, run := .ready } else t) := by
  have hresumed : t.resumed' = .ready := by rw [Thread.resumed', hdeleg]
  have hbit : (w.toNat / 2 ^ k % 2 = 0) ↔ w.getLsbD k = false := by
    rw [BitVec.getLsbD, Nat.testBit_eq_decide_div_mod_eq]
    simp
  unfold State.dresSlot
  simp only [hbit, ht, hrun, hresumed]
  by_cases hw : w.getLsbD k = false
  · rw [if_pos hw, if_neg (by simp [hw])]
    exact ht
  · rw [if_neg hw, if_pos trivial, if_pos (by simpa using hw)]
    rw [(State.idleAgain_keeps ..).2, State.setThread_eq_withThread, State.withThread_thread?]

/-- Slots that DRES looks at leave memory and every other slot. -/
theorem State.dresSlots_keep (s : State) (c m : Nat) (ks : List Nat) :
    (ks.foldl (fun u k => u.dresSlot c m k) s).mem = s.mem ∧
    ∀ k, k ∉ ks → (ks.foldl (fun u k => u.dresSlot c m k) s).thread? c k = s.thread? c k := by
  induction ks generalizing s with
  | nil => exact ⟨rfl, fun _ _ => rfl⟩
  | cons j r ih =>
    obtain ⟨hmem, hthread⟩ := s.dresSlot_keeps c m j
    refine ⟨(ih _).1.trans hmem, fun k hk => ?_⟩
    rw [List.mem_cons, not_or] at hk
    exact ((ih _).2 k hk.2).trans (hthread k hk.1)

/-- Each slot goes on once. -/
theorem State.dresSlots_thread? (ht : s.thread? c k = some t) (hrun : t.run = .stopped true) (hdeleg : t.deleg = none)
    (w : Word) {ks : List Nat} (hks : ks.Nodup) (hk : k ∈ ks) :
    (ks.foldl (fun u k => u.dresSlot c w.toNat k) s).thread? c k = some (if w.getLsbD k then
      { t with mail := t.mail ++ t.held, held := [], resumed := true, run := .ready } else t) := by
  induction ks generalizing s with
  | nil => cases hk
  | cons j r ih =>
    obtain ⟨hj, hr⟩ := List.nodup_cons.1 hks
    by_cases hjk : k = j
    · subst hjk
      exact ((State.dresSlots_keep _ c w.toNat r).2 k hj).trans (State.dresSlot_thread? ht hrun hdeleg w)
    · exact ih (((s.dresSlot_keeps c w.toNat j).2 k hjk).trans ht) hr ((List.mem_cons.1 hk).resolve_left hjk)

end

/-! ### The window of floating-point reports (R240) -/

section
variable {s : State} {e : FPEntry} (he : firstEntry (s.core (s.argN 0)).fpwin = some e)
include he

theorem exec_fpWindowEnd_of_early
    (hearly : s.now / 64 ≤ e.cycle / 64 ∨ (s.core (s.argN 0)).converting (e.cycle / 64) = true) :
    exec .fpWindowEnd s = .next (s.again .fpWindowEnd) := by
  rw [exec_fpWindowEnd, execFpWindowEnd]
  simp only [he]
  rw [if_pos (by simpa using hearly)]

/-- The entries of a window, and the others. -/
def Core.windowOf (x : Core) (w : Nat) : List FPEntry := x.fpwin.filter (fun x => x.cycle / 64 = w)
def State.windowClosed (s : State) (c w : Nat) : State :=
  s.modCore c (fun x => { x with fpwin := (s.core c).fpwin.filter (fun x => x.cycle / 64 ≠ w) })

omit he in
theorem State.thread?_windowClosed (c w k : Nat) : (s.windowClosed c w).thread? c k = s.thread? c k := by
  refine State.thread?_congr ?_
  rw [State.windowClosed, State.core_modCore_same]
  rfl

theorem exec_fpWindowEnd_of_thread {t : Thread} (hlate : e.cycle / 64 < s.now / 64)
    (hconv : (s.core (s.argN 0)).converting (e.cycle / 64) = false) (ht : s.sameThread (s.argN 0) e.slot e.inc = some t)
    (hfpx : t.fpx = none) :
    exec .fpWindowEnd s = .next ((s.windowClosed (s.argN 0) (e.cycle / 64)).setThread (s.argN 0) e.slot { t with
      fpx := some ⟨0x0A, e.addr, w64 (min 65535 (((s.core (s.argN 0)).windowOf (e.cycle / 64)).length - 1) * 2 ^ 48
        + e.flags % 32 * 2 ^ 40 + e.pc % 2 ^ 40), t.trap.tip⟩ }) := by
  have ht' : (s.windowClosed (s.argN 0) (e.cycle / 64)).sameThread (s.argN 0) e.slot e.inc = some t := by
    rw [← ht, State.sameThread, State.sameThread, State.thread?_windowClosed]
  have hclosed : s.modCore (s.argN 0) (fun x => { x with
      fpwin := (s.core (s.argN 0)).fpwin.filter (fun x => x.cycle / 64 ≠ e.cycle / 64) }) =
      s.windowClosed (s.argN 0) (e.cycle / 64) := rfl
  rw [exec_fpWindowEnd, execFpWindowEnd]
  simp only [he, hclosed, ht', hfpx]
  rw [if_neg (by simp [hconv]; omega)]
  rfl

end

theorem State.fpwin_windowClosed (s : State) (c k w : Nat) (t : Thread) :
    ∀ x ∈ (((s.windowClosed c w).setThread c k t).core c).fpwin, x.cycle / 64 ≠ w := by
  intro x hx
  rw [State.setThread_core_same, State.windowClosed, State.core_modCore_same] at hx
  simpa using (List.mem_filter.1 hx).2

/-- Settles O45: a lemma for each outcome of the events of threads; DRES is followed slot by slot. -/
theorem threadWork : Obligations.ThreadWork := by
  unfold Obligations.ThreadWork
  refine ⟨fun s t ht hrun => ?_, fun s t ht hrun => exec_instructionWake_of_ready ht hrun,
    fun s t p ht hpend => ⟨exec_trapDelivery_of_busy ht hpend, fun q v hops hrun hdue => exec_trapDelivery_of_due ht hpend hops hrun hdue⟩,
    fun t d r htip hdefers => ?_, fun t htip hdefers => ?_, fun s t ht hrun => exec_stopRequest_of_running ht hrun,
    fun s t ht hrun hreq => ⟨exec_stopTakesEffect_of_mayStop ht hrun hreq, exec_stopTakesEffect_of_later ht hrun hreq,
      fun tr v hmay => exec_stopTakesEffect_of_due ht hrun hreq hmay⟩,
    fun s t ht hrun hreq hmay => ?_, fun s k t ht hk hrun hdeleg => ?_, fun s e he => ⟨exec_fpWindowEnd_of_early he,
      fun t hlate hconv ht hfpx => ⟨_, exec_fpWindowEnd_of_thread he hlate hconv ht hfpx, rfl, State.fpwin_windowClosed _ _ _ _ _, ?_⟩⟩⟩
  · have hexec := exec_instructionWake_of_ops ht hrun
    refine ⟨fun h => hexec.trans ?_, fun h => hexec.trans ?_⟩
    · rw [if_pos (by simp [State.mayWake, h]), State.wake, State.modThread_eq ht, hrun]
    · rw [if_neg (by simp [State.mayWake, h])]
  · simp only [Thread.dueTrap, hdefers, htip]
    rfl
  · refine ⟨fun p hsa => ?_, fun p hsa hfpx => ?_, fun p hsa hfpx hpend => ?_⟩
    · simp only [Thread.dueTrap, hdefers, htip, hsa]
    · simp only [Thread.dueTrap, hdefers, htip, hsa, hfpx]
    · simp only [Thread.dueTrap, hdefers, htip, hsa, hfpx, hpend]
  · exact fun hhit => ⟨State.debugNow_of_hit ht hrun hreq hmay rfl hhit, State.debugNow_of_hit ht hrun hreq hmay rfl hhit⟩
  · exact ⟨_, exec_dres_eq s, (State.dresSlots_keep ..).1,
      State.dresSlots_thread? ht hrun hdeleg _ List.nodup_range (List.mem_range.2 hk)⟩
  · rw [State.setThread_eq_withThread, State.withThread_thread?]
    rfl

end Sys2Proof.Machine
end

section
/-!
SUPPORT. Events of coherence: fills, grants, notices, leases (R91 to R101): O46.
-/
namespace Sys2Proof.Machine
open Sys2Proof

/-! ### Requests at the directory (R93, R94) -/

section
variable {s : State}

/-- A request of a live cluster that waits for no EVACK is served at the directory, once there is room. -/
theorem dirRequest_of_room {i : Instr} {serve : State → Nat → Nat → State} {u : State} (halive : s.alive (s.argN 0) = true)
    (hnotice : s.notices.contains (s.argN 0, s.argN 1) = false) (hroom : s.makeRoom (s.argN 0) (s.argN 1) = some u) :
    dirRequest i s serve =
      .next (serve (u.countHot (s.argN 0) (u.tenantOf (128 * s.argN 1)) (s.argW 0).v) (s.argN 1) (s.argN 0)) := by
  have harg : u.argW 0 = s.argW 0 := by rw [State.argW, (s.homesOnly_makeRoom hroom).arg, State.argW]
  rw [dirRequest]
  simp only [hroom, harg]
  rw [if_neg (by simp [halive]), if_neg (by rw [hnotice]; simp)]

section
variable {line cl : Nat}

theorem State.dirGetS_of_none (hcl : cl ≠ s.homeOf line) (hd : s.dirOf line = none) :
    s.dirGetS line cl = (s.setDir line (.ptr [cl])).sendLine line cl false := by
  unfold State.dirGetS
  simp only [hd]
  exact if_neg hcl

theorem State.dirGetS_of_ptr (hcl : cl ≠ s.homeOf line) {l : List Nat} (hd : s.dirOf line = some (.ptr l))
    (hnew : l.contains cl = false) (hroom : l.length < 4) :
    s.dirGetS line cl = (s.setDir line (.ptr (l ++ [cl]))).sendLine line cl false := by
  unfold State.dirGetS
  simp only [hd]
  rw [if_neg hcl, if_neg (by rw [hnew]; simp), if_pos hroom]

/-- A request that meets another owner recalls it. -/
theorem State.dirGet_of_owned {o : Nat} (hd : s.dirOf line = some (.owned o)) (ho : o ≠ cl) (w : Bool) :
    (if w then s.dirGetM line cl else s.dirGetS line cl) =
      (s.setDir line (.recalling o cl w)).post [evt .ownerRecall [o, line]] := by
  cases w
  · unfold State.dirGetS
    simp only [hd, Bool.false_eq_true, if_false]
    exact if_neg ho
  · unfold State.dirGetM
    simp only [hd, if_true]
    exact if_neg ho

/-- A request that meets a transition waits for its end. -/
theorem State.dirGet_of_waiting {k w : Nat} {inv : List Nat} (hd : s.dirOf line = some (.waiting k w inv)) (wr : Bool) :
    (if wr then s.dirGetM line cl else s.dirGetS line cl) = s.queueDir line ⟨cl, wr⟩ := by
  cases wr
  · unfold State.dirGetS
    simp only [hd]
    rfl
  · unfold State.dirGetM
    simp only [hd]
    rfl

theorem State.dirGetM_of_none (hd : s.dirOf line = none) : s.dirGetM line cl = s.grantOwner line cl := by
  unfold State.dirGetM
  simp only [hd]

theorem State.dirGetM_of_ptr {l : List Nat} (hd : s.dirOf line = some (.ptr l)) (hothers : l.filter (fun x => x ≠ cl) ≠ []) :
    s.dirGetM line cl = (s.setDir line (.waiting (l.filter (fun x => x ≠ cl)).length cl (l.filter (fun x => x ≠ cl)))).post
      ((l.filter (fun x => x ≠ cl)).map (fun x => evt .inv [x, line])) := by
  unfold State.dirGetM
  simp only [hd]
  rw [State.dirInvalidate, if_neg (by rw [List.isEmpty_iff]; exact hothers)]

end

/-! ### Acknowledgements, notices and recalls (R94, R95) -/

theorem exec_invAck_of_waiting {k w : Nat} {inv : List Nat} (hd : s.dirOf (s.argN 1) = some (.waiting k w inv))
    (hmem : s.argN 0 ∈ inv) : exec .invAck s = .next (if k ≤ 1 then (s.grantOwner (s.argN 1) w).serveDir (s.argN 1)
      else s.setDir (s.argN 1) (.waiting (k - 1) w (inv.filter (fun x => x ≠ s.argN 0)))) := by
  rw [exec_invAck, execInvAck, State.countAck]
  simp only [hd]
  rw [if_neg (by simpa using hmem)]

theorem exec_inv_of_holder (hnotice : s.notices.contains (s.argN 0, s.argN 1) = false) :
    exec .inv s = .next ((({ s with notices := s.notices.filter (fun p => p ≠ (s.argN 0, s.argN 1)) } : State).dropCluster
      (s.argN 1) (s.argN 0)).post [evt .invAck [s.argN 0, s.argN 1]]) := by
  rw [exec_inv, execInv]
  rw [if_neg (by rw [hnotice]; simp)]

theorem exec_evictionNotice_of_held (halive : s.alive (s.argN 0) = true) (hheld : s.heldBy (s.argN 1) (s.argN 0) ≠ [])
    (hnotice : s.notices.contains (s.argN 0, s.argN 1) = false) :
    exec .evictionNotice s = .next (if (s.heldBy (s.argN 1) (s.argN 0)).any (fun cp => cp.sw)
      then (s.writeBackCluster (s.argN 1) (s.argN 0)).dropCluster (s.argN 1) (s.argN 0)
      else s.dirNotice (s.argN 1) (s.argN 0)) := by
  rw [exec_evictionNotice, execEvictionNotice]
  rw [if_neg (by simp [halive, hheld]), if_neg (by rw [hnotice]; simp), State.evictRemote]

theorem exec_ownerRecall_eq : exec .ownerRecall s =
    .next (if s.alive (s.argN 0) then s.post [evt .ownerRecallAnswer [s.argN 0, s.argN 1]] else s) := by
  rw [exec_ownerRecall, execOwnerRecall]
  split <;> rfl

theorem exec_ownerRecallAnswer_of_recalling {o c : Nat} {w : Bool} (hd : s.dirOf (s.argN 1) = some (.recalling o c w)) :
    exec .ownerRecallAnswer s = .next (if o = s.argN 0 then s.recallDone (s.argN 1) o c w true else s) := by
  rw [exec_ownerRecallAnswer, execOwnerRecallAnswer]
  simp only [hd]
  split <;> rfl

theorem exec_ownershipGrant_of_copy {cp : Copy} (hd : s.dirOf (s.argN 1) = some (.owned (s.argN 0)))
    (hcp : s.copy? (s.argN 1) (s.argN 0) = some cp) :
    exec .ownershipGrant s = .next ((s.setCopy (s.argN 1) (s.argN 0) { cp with owned := true }).retryFlights
      (fun f => f.stage = 3 && f.core / 8 = s.argN 0 && f.entry.addr / 128 = s.argN 1)) := by
  rw [exec_ownershipGrant, execOwnershipGrant]
  simp only [hd, hcp]
  rw [if_neg (by simp)]

/-! ### Leases (R100) -/

/-- A cluster's leases are renewed. -/
def State.renewed (s : State) (cl : Nat) : State :=
  { s with
    leases := s.leases.map (fun p => if s.ownerOfLine p.1 = some cl then (p.1, s.now) else p)
    halves := s.halves.map (fun p =>
      if 2 ≤ p.2.st && s.homeOf (lineOfHalf p.1) = cl then (p.1, { p.2 with since := s.now }) else p) }

theorem exec_leaseHeartbeat_of_alive (halive : s.alive (s.argN 0) = true) :
    exec .leaseHeartbeat s = .next (s.renewed (s.argN 0)) := by
  rw [exec_leaseHeartbeat, execLeaseHeartbeat]
  exact if_neg (by simp [halive])

theorem State.renewed_leases (cl : Nat) : ∀ p ∈ (s.renewed cl).leases, s.ownerOfLine p.1 = some cl → p.2 = s.now := by
  intro p hp howner
  obtain ⟨q, -, rfl⟩ := List.mem_map.1 hp
  split at howner
  · next h => rw [if_pos h]
  · next h => exact absurd howner h

theorem State.renewed_halves (cl : Nat) :
    ∀ p ∈ (s.renewed cl).halves, 2 ≤ p.2.st → s.homeOf (lineOfHalf p.1) = cl → p.2.since = s.now := by
  intro p hp hst hhome
  obtain ⟨q, -, rfl⟩ := List.mem_map.1 hp
  split at hst
  · next h => rw [if_pos h]
  · next h =>
    rw [if_neg h] at hhome
    exact absurd (by simp [hst, hhome]) h

section
variable {o b : Nat} (hl : s.leaseOf (s.argN 0) (s.argN 1) = some (o, b))
include hl

theorem exec_leaseExpiry_of_lease : exec .leaseExpiry s =
    .next (if b + 2 ^ 22 ≤ s.now then s.post [evt .leasecheck [s.argN 0, s.argN 1]] else s) := by
  rw [exec_leaseExpiry, execLeaseExpiry]
  simp only [hl]
  split <;> rfl

theorem exec_leasecheck_of_alive (halive : s.alive o = true) : exec .leasecheck s =
    .next (if s.argN 1 = 0 then { s with leases := SMap.set s.leases (s.argN 0) s.now }
      else s.setHalf (s.argN 0) { s.half (s.argN 0) with since := s.now }) := by
  rw [exec_leasecheck, execLeasecheck]
  simp only [hl]
  rw [if_pos halive]
  rfl

theorem exec_leasecheckTimeout_of_alive (halive : s.alive o = true) : exec .leasecheckTimeout s = .next s := by
  rw [exec_leasecheckTimeout, execLeasecheckTimeout]
  simp only [hl]
  rw [if_pos halive]

section
variable (hdead : s.alive o = false)
include hdead

theorem exec_leasecheck_of_dead : exec .leasecheck s =
    .next (s.post [evt .leasecheckTimeout [s.argN 0, s.argN 1, s.now + 2 ^ 16]]) := by
  rw [exec_leasecheck, execLeasecheck]
  simp only [hl]
  rw [if_neg (by simp [hdead])]

theorem exec_leasecheckTimeout_of_early (hearly : s.now < s.argN 2) :
    exec .leasecheckTimeout s = .next (s.again .leasecheckTimeout) := by
  rw [exec_leasecheckTimeout, execLeasecheckTimeout]
  simp only [hl]
  rw [if_neg (by simp [hdead]), if_pos hearly]

theorem exec_leasecheckTimeout_of_late (hlate : s.argN 2 ≤ s.now) : exec .leasecheckTimeout s =
    .next (if s.argN 1 = 0 then (s.revertLine (s.argN 0)).markLost (s.argN 0) o
      else (s.revertHalf (s.argN 0)).markLost (lineOfHalf (s.argN 0)) o) := by
  rw [exec_leasecheckTimeout, execLeasecheckTimeout]
  simp only [hl]
  rw [if_neg (by simp [hdead]), if_neg (by omega)]
  split <;> rfl

end
end

/-! ### The host bridge (R97, R98) -/

theorem State.allocHalf_arg {h : Nat} {u : State} (hu : s.allocHalf h = some u) : u.arg = s.arg := by
  unfold State.allocHalf at hu
  dsimp only at hu
  split at hu
  · obtain rfl := Option.some.inj hu
    rfl
  · split at hu
    · obtain rfl := Option.some.inj hu
      rfl
    · cases hu

theorem State.allocHalf_of_room (h : Nat) (hroom : s.halves.length < 131072) :
    s.allocHalf h = some (s.setHalf h { s.half h with busy := true, used := s.now }) := by
  unfold State.allocHalf
  exact if_pos (by simp [hroom])

theorem exec_hostHalfRequest_of_entry {u : State} (hwait : s.halfWait = []) (hu : s.allocHalf (s.argN 0) = some u) :
    exec .hostHalfRequest s = .next (u.post [evt .hostHalfResponse [s.argN 0, s.argN 1]]) := by
  have harg : u.argN 1 = s.argN 1 := by rw [State.argN, State.allocHalf_arg hu, State.argN]
  rw [exec_hostHalfRequest, execHostHalfRequest]
  simp only [hwait, List.isEmpty_nil, if_true, hu, harg]

theorem exec_hostHalfRequest_of_wait (hwait : s.halfWait ≠ [] ∨ s.allocHalf (s.argN 0) = none) : exec .hostHalfRequest s =
    .next (({ s with halfWait := s.halfWait ++ [2 * s.argN 0 + s.argN 1 % 2] } : State).post [evt .bridgeEntryFreed [s.argN 0]]) := by
  have hnone : (if s.halfWait.isEmpty then s.allocHalf (s.argN 0) else none) = none := by
    obtain h | h := hwait
    · rw [if_neg (by rw [List.isEmpty_iff]; exact h)]
    · rw [h, ite_self]
  rw [exec_hostHalfRequest, execHostHalfRequest]
  simp only [hnone]

theorem State.half_setHalf_same (h : Nat) (x : Half) : (s.setHalf h x).half h = x := by
  rw [State.half, State.setHalf, SMap.get_set_same]

theorem State.half_post (es : List Event) (h : Nat) : (s.post es).half h = s.half h := rfl

theorem exec_hostHalfResponse_keeps : ∃ u, exec .hostHalfResponse s = .next u ∧ u.mem = s.mem ∧
    (u.half (s.argN 0)).busy = false ∧ (u.half (s.argN 0)).st = max (s.half (s.argN 0)).st (if s.argN 1 = 1 then 2 else 1) := by
  have hexec : exec .hostHalfResponse s = execHostHalfResponse s := rfl
  unfold execHostHalfResponse at hexec
  dsimp only at hexec
  have hmem : (if (s.half (s.argN 0)).st = 0 then s.refreshHalf (s.argN 0) else s).mem = s.mem := by split <;> rfl
  generalize (if (s.half (s.argN 0)).st = 0 then s.refreshHalf (s.argN 0) else s) = v at hexec hmem
  refine ⟨_, hexec, hmem, ?_⟩
  rw [State.retryFlights, State.half_post, State.half_setHalf_same]
  generalize max (s.half (s.argN 0)).st (if s.argN 1 = 1 then 2 else 1) = st
  split
  · next h =>
    rw [Bool.and_eq_true, decide_eq_true_iff] at h
    exact ⟨rfl, h.1.symm⟩
  · exact ⟨rfl, rfl⟩

theorem exec_bridgeEntryFreed_of_entry {x : Nat} {r : List Nat} {u : State} (hwait : s.halfWait = x :: r)
    (hu : s.allocHalf (x / 2) = some u) : exec .bridgeEntryFreed s =
      .next (({ u with halfWait := r } : State).post [evt .hostHalfResponse [x / 2, x % 2]]) := by
  rw [exec_bridgeEntryFreed, execBridgeEntryFreed]
  simp only [hwait, hu]

theorem exec_bridgeEntryFreed_of_none {x : Nat} {r : List Nat} (hwait : s.halfWait = x :: r) (hu : s.allocHalf (x / 2) = none) :
    exec .bridgeEntryFreed s = .next (s.again .bridgeEntryFreed) := by
  rw [exec_bridgeEntryFreed, execBridgeEntryFreed]
  simp only [hwait, hu]

section
variable {h : Half} (hh : SMap.get? s.halves (s.argN 0) = some h)
include hh

theorem exec_hostSnoop_of_busy (hbusy : s.lineBusy (lineOfHalf (s.argN 0)) = true) :
    exec .hostSnoop s = .next (s.again .hostSnoop) := by
  rw [exec_hostSnoop, execHostSnoop]
  simp only [hh]
  rw [if_neg (by simp), if_pos hbusy]

section
variable (hbusy : s.lineBusy (lineOfHalf (s.argN 0)) = false)
include hbusy

theorem exec_hostSnoop_of_read (hread : s.argN 1 ≠ 1) {u : State} (hu : s.gatherShared (lineOfHalf (s.argN 0)) = u) :
    exec .hostSnoop s = .next (u.setHalf (s.argN 0) { u.half (s.argN 0) with st := min 1 (u.half (s.argN 0)).st }) := by
  rw [exec_hostSnoop, execHostSnoop]
  simp only [hh, hu]
  rw [if_neg (by simp), if_neg (by simp [hbusy]), if_neg hread]

theorem exec_hostSnoop_of_own (hown : s.argN 1 = 1) (hvals : s.arg.vals = []) : ∃ u, exec .hostSnoop s = .next u ∧
    u.mem = (s.gather (lineOfHalf (s.argN 0))).mem ∧ SMap.get? u.halves (s.argN 0) = none := by
  have hvals' : (s.gather (lineOfHalf (s.argN 0))).arg.vals = [] := hvals
  rw [exec_hostSnoop, execHostSnoop]
  simp only [hh]
  rw [if_neg (by simp), if_neg (by simp [hbusy]), if_pos hown]
  refine ⟨_, rfl, ?_, SMap.get?_del_same ..⟩
  dsimp only
  rw [hvals']
  rfl

end
end

/-! ### Recalled words (R92) -/

section
variable {w : Nat} {r : RegWord} (hr : SMap.get? s.regw w = some r)
include hr

theorem State.unregister_flights : (s.unregister w).flights = s.flights := by
  rw [State.unregister, hr]

theorem State.recallEnds_of_none (hnone : ∀ f ∈ s.flights, r.asker ≠ some f.id) : s.recallEnds w r = s.unregister w := by
  have hfind : (s.unregister w).flights.find? (fun f => r.asker = some f.id && f.left.contains w) = none := by
    rw [State.unregister_flights hr, List.find?_eq_none]
    exact fun f hf => by simp [hnone f hf]
  unfold State.recallEnds
  simp only [hfind]

theorem State.recallEnds_of_flight {f : Flight}
    (hf : s.flights.find? (fun f => r.asker = some f.id && f.left.contains w) = some f) {v : State}
    (hv : (s.unregister w).storeWordDie f.core f.entry w = v) :
    s.recallEnds w r = if f.left.filter (fun x => x ≠ w) = [] then v.performed' f
      else v.setFlight { f with left := f.left.filter (fun x => x ≠ w) } := by
  rw [← State.unregister_flights hr] at hf
  unfold State.recallEnds
  simp only [hf, hv, List.isEmpty_iff]

theorem State.unregister_word (hwf : s.mem.wf = true) : (s.unregister w).mem.word w = r.w ∧ SMap.get? (s.unregister w).regw w = none := by
  rw [State.unregister, hr]
  exact ⟨(Mem.word_setWord hwf w w r.w).trans (if_pos rfl), SMap.get?_del_same ..⟩

end

section
variable {r : RegWord} (hr : SMap.get? s.regw (s.argN 0) = some r)
include hr

theorem exec_recallWord_of_asked (hasked : r.asker.isSome = true) :
    exec .recallWord s = .next (s.post [evt .recallAnswer [s.argN 0]]) := by
  rw [exec_recallWord, execRecallWord]
  simp only [hr]
  rw [if_pos hasked]

theorem exec_recallAnswer_of_asked (hasked : r.asker.isSome = true) :
    exec .recallAnswer s = .next (s.recallEnds (s.argN 0) r) := by
  rw [exec_recallAnswer, execRecallAnswer]
  simp only [hr]
  rw [if_pos hasked]

theorem exec_registrantWriteBack_of_some : exec .registrantWriteBack s = .next (s.recallEnds (s.argN 0) r) := by
  rw [exec_registrantWriteBack, execRegistrantWriteBack]
  simp only [hr]

end
end

/-- Settles O46: a lemma for each outcome of the events of the directory, of the leases, of the bridge and of recalled words. -/
theorem coherenceWork : Obligations.CoherenceWork := by
  unfold Obligations.CoherenceWork
  refine ⟨fun s u halive hnotice hroom => ⟨dirRequest_of_room halive hnotice hroom, dirRequest_of_room halive hnotice hroom⟩,
    fun s line cl hcl => ⟨State.dirGetS_of_none hcl, fun l => State.dirGetS_of_ptr hcl, fun o => State.dirGet_of_owned,
      State.dirGetM_of_none, fun l => State.dirGetM_of_ptr, fun k w inv => State.dirGet_of_waiting⟩,
    fun s k w inv hd hmem => ?_, fun s hnotice => exec_inv_of_holder hnotice, fun s halive hheld hnotice => ?_,
    fun s => ⟨_, rfl, rfl, rfl, fun p => ?_⟩, fun s => exec_ownerRecall_eq, fun s o c w hd => ?_,
    fun s cp hd hcp => exec_ownershipGrant_of_copy hd hcp,
    fun s halive => ⟨_, exec_leaseHeartbeat_of_alive halive, rfl, rfl, State.renewed_leases _, State.renewed_halves _⟩,
    fun s o b hl => ⟨exec_leaseExpiry_of_lease hl,
      fun halive => ⟨exec_leasecheckTimeout_of_alive hl halive, exec_leasecheck_of_alive hl halive⟩,
      fun hdead => ⟨exec_leasecheck_of_dead hl hdead, exec_leasecheckTimeout_of_early hl hdead,
        exec_leasecheckTimeout_of_late hl hdead⟩⟩,
    fun s => ⟨fun u => exec_hostHalfRequest_of_entry, exec_hostHalfRequest_of_wait, State.allocHalf_of_room⟩,
    fun s => exec_hostHalfResponse_keeps,
    fun s x r hwait => ⟨fun u => exec_bridgeEntryFreed_of_entry hwait, exec_bridgeEntryFreed_of_none hwait⟩,
    fun s h hh => ⟨exec_hostSnoop_of_busy hh, fun hbusy hread => exec_hostSnoop_of_read hh hbusy hread rfl,
      exec_hostSnoop_of_own hh⟩,
    fun s r hr => ⟨fun hasked => ⟨exec_recallWord_of_asked hr hasked, exec_recallAnswer_of_asked hr hasked⟩,
      exec_registrantWriteBack_of_some hr⟩,
    fun s w r hr => ⟨State.recallEnds_of_none hr, State.unregister_word hr, fun f hf => State.recallEnds_of_flight hr hf rfl⟩⟩
  · have hexec := exec_invAck_of_waiting hd hmem
    exact ⟨fun h => hexec.trans (by rw [if_pos h]), fun h => hexec.trans (by rw [if_neg (by omega)])⟩
  · have hexec := exec_evictionNotice_of_held halive hheld hnotice
    refine ⟨fun hplain => hexec.trans ?_, fun cp hcp hsw => hexec.trans ?_⟩
    · rw [if_neg (by simpa using hplain)]
    · rw [if_pos (List.any_eq_true.2 ⟨cp, hcp, hsw⟩)]
  · rw [List.mem_filter]
    simp
  · have hexec := exec_ownerRecallAnswer_of_recalling hd
    exact ⟨fun h => hexec.trans (by rw [if_pos h]), fun h => hexec.trans (by rw [if_neg h])⟩

end Sys2Proof.Machine
end

section
/-!
SUPPORT. Launches from entry to end (R220 to R223): O47.
-/
namespace Sys2Proof.Machine
open Sys2Proof

/-! ### The check of a header (R221) -/

section
variable {h : List Word} {cores : Nat}

theorem hdrFault_of_noRegs (hregs : hdrRegs h = 0) : hdrFault h cores = some (1, 0x16) := if_pos hregs

theorem hdrFault_of_manyRegs (hregs : 128 < hdrRegs h) : hdrFault h cores = some (2, 0x16) := by
  rw [hdrFault, if_neg (by omega), if_pos hregs]

/-- A header is sound exactly when no check of the chain fails. -/
theorem hdrFault_eq_none_iff : hdrFault h cores = none ↔
    ¬ hdrRegs h = 0 ∧ ¬ 128 < hdrRegs h ∧
    ¬ ((nthD h 0 0).bits 15 0 ≠ 1 || (nthD h 0 0).bits 31 16 ≠ 0 || (nthD h 2 0).bits 63 41 ≠ 0 || nthD h 15 0 ≠ 0
      || hdrEntry h % 2 = 1) = true ∧
    ¬ (hdrC h + hdrS h + hdrF h ≠ 12 || hdrF h = 0) = true ∧
    ¬ (hdrN h = 0 || 131072 < hdrN h || (hdrDet h && 63 * cores < hdrN h)) = true := by
  have hchain {p : Prop} [Decidable p] {a : Nat × Nat} {b : Option (Nat × Nat)} :
      (if p then some a else b) = none ↔ ¬ p ∧ b = none := by
    by_cases hp : p
    · simp [hp]
    · simp [hp]
  rw [hdrFault, hchain, hchain, hchain, hchain, hchain]
  simp only [and_true]

end

/-! ### Taking an entry (R219 to R221) -/

/-- The dispatcher has dealt with the entry at a queue's read pointer, and comes again for the next one. -/
def State.entryTaken (s : State) (tn q : Nat) : State :=
  let s := s.modTenant tn (fun t =>
    let r := nthD t.lq q Ring.reset
    { t with lq := setNth t.lq q { r with rp := (r.rp + 1) % 2 ^ 32 } })
  if (nthD (s.tenant tn).lq q Ring.reset).acc ≠ (nthD (s.tenant tn).lq q Ring.reset).rp
  then s.again .launchEntryTaken else s

/-- A tenant's cores go by its partition. -/
theorem State.coresOf_modTenant (s : State) (tn : Nat) (g : Tenant → Tenant)
    (hquads : (g (s.tenant tn)).quads = (s.tenant tn).quads) : (s.modTenant tn g).coresOf tn = s.coresOf tn := by
  rw [State.coresOf, State.coresOf, State.tenant_modTenant_same, hquads]
  rfl

/-- An accepted launch joins its tenant's launches, and its cores and its creation come next. -/
def State.launchAccepted (s : State) (tn l : Nat) (la : Launch) : State :=
  (s.modTenant tn (fun t => { t with nextLaunch := (l + 1) % 65536, launches := SMap.set t.launches l la })).post
    ((s.coresOf tn).map (fun c => evt .poolPlanReady [tn, l, c]) ++ [evt .launchCreate [tn, l]])

section
variable (s : State) (tn q : Nat)

theorem State.entryTaken_mem : (s.entryTaken tn q).mem = s.mem := by
  unfold State.entryTaken
  dsimp only
  split <;> rfl

theorem State.mem_entryTaken_due {e : Event} (he : e ∈ s.due) : e ∈ (s.entryTaken tn q).due := by
  unfold State.entryTaken
  dsimp only
  split
  · exact List.mem_append_left _ he
  · exact he

theorem State.entryTaken_tenant : ((s.entryTaken tn q).tenant tn).launches = (s.tenant tn).launches ∧
    ((s.entryTaken tn q).tenant tn).nextLaunch = (s.tenant tn).nextLaunch := by
  unfold State.entryTaken
  dsimp only
  split
  · exact ⟨by rw [State.again, State.tenant_post, State.tenant_modTenant_same],
      by rw [State.again, State.tenant_post, State.tenant_modTenant_same]⟩
  · exact ⟨by rw [State.tenant_modTenant_same], by rw [State.tenant_modTenant_same]⟩

theorem State.launchAccepted_tenant (l : Nat) (la : Launch) :
    ((s.launchAccepted tn l la).tenant tn).launches = SMap.set (s.tenant tn).launches l la ∧
    ((s.launchAccepted tn l la).tenant tn).nextLaunch = (l + 1) % 65536 := by
  rw [State.launchAccepted, State.tenant_post, State.tenant_modTenant_same]
  exact ⟨rfl, rfl⟩

end

section
variable {s : State}

/-- An entry whose header the dispatcher reads and finds sound. -/
theorem exec_launchEntryTaken_of_sound {e : Word} {h : List Word} {s1 s2 : State}
    (htdi : (s.tenant (s.argN 0)).tdi ≠ 3) (hready : (s.tenant (s.argN 0)).queueReady (s.argN 1) = true)
    (hroom : (s.tenant (s.argN 0)).launches.length < 4096)
    (hfirst : ∀ p, p < 4 → s.argN 1 < p → (s.tenant (s.argN 0)).queueReady p = false)
    (hentry : s.dispatcherRead (s.argN 0) ((nthD (s.tenant (s.argN 0)).lq (s.argN 1) Ring.reset).base +
      16 * ((nthD (s.tenant (s.argN 0)).lq (s.argN 1) Ring.reset).rp %
        ctlSize (nthD (s.tenant (s.argN 0)).lq (s.argN 1) Ring.reset).ctl)) 1 = .ok [e] s1)
    (hheader : s1.dispatcherRead (s.argN 0) (e.toNat / 128 * 128) 16 = .ok h s2)
    (hsound : hdrFault h (s2.coresOf (s.argN 0)).length = none) :
    exec .launchEntryTaken s = .next ((s2.launchAccepted (s.argN 0)
      (freeLaunch (s.tenant (s.argN 0)).launches 4097 (s.tenant (s.argN 0)).nextLaunch)
      ⟨h, e.toNat, s.argN 1, 0, false, 0, 0, s2.coresOf (s.argN 0), false⟩).entryTaken (s.argN 0) (s.argN 1)) := by
  have hq := hready
  rw [Tenant.queueReady] at hq
  simp only [Bool.and_eq_true] at hq
  obtain ⟨⟨hen, hmore⟩, -⟩ := hq
  have hany : ((List.range 4).any fun p => decide (s.argN 1 < p) && (s.tenant (s.argN 0)).queueReady p) = false := by
    rw [List.any_eq_false]
    intro p hp
    rw [List.mem_range] at hp
    by_cases hlt : s.argN 1 < p
    · simp [hfirst p hp hlt]
    · simp [hlt]
  rw [exec_launchEntryTaken, execLaunchEntryTaken]
  dsimp only
  rw [if_neg (by simpa [hen, htdi] using hmore), if_neg (by rw [hready, hany]; simp; omega), hentry]
  dsimp only [List.headD]
  rw [hheader]
  dsimp only
  rw [hsound]
  simp only [State.coresOf_modTenant]
  rfl

end

/-! ### The pool plan (R221) -/

/-- A bank of a core is brought into a plan. -/
def Core.planBank (bs : List Bank) (x : Core) (b : Nat) : Core :=
  if nthD x.banks b .cache = nthD bs b .cache then x else x.setBank b (nthD bs b .cache)

/-- Banks of a core are brought into a plan, one after the other. -/
def Core.planned (bs : List Bank) (ls : List Nat) (x : Core) : Core :=
  { ls.foldl (Core.planBank bs) x with moving := false, plan := bs }

theorem Core.replaceQueue_keeps (x : Core) (i b : Nat) :
    (x.replaceQueue i b).banks = x.banks ∧ (x.replaceQueue i b).rf = x.rf := by
  unfold Core.replaceQueue
  dsimp only
  split
  · split <;> exact ⟨rfl, rfl⟩
  · exact ⟨rfl, rfl⟩

/-- A new mode of a bank, and queues that take other places, leave the registers. -/
theorem Core.setBank_eq (x : Core) (b : Nat) (m : Bank) :
    (x.setBank b m).banks = setNth x.banks b m ∧ (x.setBank b m).rf = x.rf := by
  have hkeep {α : Type} (part : Core → α) (hpart : ∀ y i, part (Core.replaceQueue y i b) = part y) (y : Core) :
      part ((List.range 4).foldl (fun x i => x.replaceQueue i b) y) = part y :=
    List.foldlRecOn (motive := fun z => part z = part y) _ _ rfl (fun z hz i _ => (hpart z i).trans hz)
  unfold Core.setBank
  dsimp only
  split
  · exact ⟨hkeep Core.banks (fun y i => (y.replaceQueue_keeps i b).1) _,
      hkeep Core.rf (fun y i => (y.replaceQueue_keeps i b).2) _⟩
  · exact ⟨rfl, rfl⟩

section
variable (bs : List Bank) (x : Core) (b : Nat)

theorem Core.planBank_rf : (x.planBank bs b).rf = x.rf := by
  unfold Core.planBank
  split
  · rfl
  · exact (x.setBank_eq b _).2

theorem Core.planBank_length : (x.planBank bs b).banks.length = x.banks.length := by
  unfold Core.planBank
  split
  · rfl
  · rw [(x.setBank_eq b _).1, setNth_length]

theorem Core.planBank_same (hb : b < x.banks.length) :
    nthD (x.planBank bs b).banks b .cache = nthD bs b .cache := by
  unfold Core.planBank
  split
  · assumption
  · rw [(x.setBank_eq b _).1, nthD_setNth_same _ _ _ _ hb]

/-- A bank that is in the plan stays so. -/
theorem Core.planBank_keeps {j : Nat} (hj : nthD x.banks j .cache = nthD bs j .cache) :
    nthD (x.planBank bs b).banks j .cache = nthD bs j .cache := by
  unfold Core.planBank
  split
  · exact hj
  · next hne =>
    have hjb : j ≠ b := fun h => hne (h ▸ hj)
    rw [(x.setBank_eq b _).1, nthD_setNth_other _ hjb, hj]

theorem Core.planned_rf (ls : List Nat) : (x.planned bs ls).rf = x.rf :=
  List.foldlRecOn (motive := fun y : Core => y.rf = x.rf) ls _ rfl (fun y hy j _ => (y.planBank_rf bs j).trans hy)

theorem Core.foldl_planBank_keeps (ls : List Nat) {j : Nat} (hj : nthD x.banks j .cache = nthD bs j .cache) :
    nthD (ls.foldl (Core.planBank bs) x).banks j .cache = nthD bs j .cache :=
  List.foldlRecOn (motive := fun y : Core => nthD y.banks j .cache = nthD bs j .cache) ls _ hj
    (fun y hy i _ => y.planBank_keeps bs i hy)

/-- Every bank that is gone over ends in the plan. -/
theorem Core.planned_bank (ls : List Nat) (hmem : b ∈ ls) (hb : b < x.banks.length) :
    nthD (x.planned bs ls).banks b .cache = nthD bs b .cache := by
  unfold Core.planned
  dsimp only
  induction ls generalizing x with
  | nil => cases hmem
  | cons i r ih =>
    rcases List.mem_cons.1 hmem with rfl | hr
    · exact Core.foldl_planBank_keeps bs _ r (x.planBank_same bs b hb)
    · exact ih _ hr (by rw [Core.planBank_length]; exact hb)

end

theorem State.flushBanks_core (s : State) (c j : Nat) : (s.flushBanks c).core j = s.core j := by
  unfold State.flushBanks
  rw [State.foldl_keeps (fun u => u.core j), State.foldl_keeps (fun u => u.core j)]
  · exact fun u p => (State.homesOnly_unregister u p.1).core j
  · intro u p
    dsimp only
    split <;> rfl

section
variable {s : State} {la : Launch} (hla : SMap.get? (s.tenant (s.argN 0)).launches (s.argN 1) = some la)
include hla

theorem exec_poolPlanReady_of_same (hsame : (s.core (s.argN 2)).banks = planBanks la.hdr) :
    exec .poolPlanReady s = .next (s.modCore (s.argN 2) (fun x => { x with plan := planBanks la.hdr })) := by
  rw [exec_poolPlanReady, execPoolPlanReady]
  simp only [hla]
  rw [if_pos hsame]

theorem exec_poolPlanReady_of_busy (hother : (s.core (s.argN 2)).banks ≠ planBanks la.hdr)
    (hbusy : s.planFree (s.argN 0) (s.argN 1) (s.argN 2) (planBanks la.hdr) = false) :
    exec .poolPlanReady s = .next (s.again .poolPlanReady) := by
  rw [exec_poolPlanReady, execPoolPlanReady]
  simp only [hla]
  rw [if_neg hother, if_pos (by rw [hbusy]; rfl)]

theorem exec_poolPlanReady_of_free (hother : (s.core (s.argN 2)).banks ≠ planBanks la.hdr)
    (hfree : s.planFree (s.argN 0) (s.argN 1) (s.argN 2) (planBanks la.hdr) = true)
    (hwindow : s.windowBusy (s.argN 2) = false) :
    exec .poolPlanReady s = .next ((s.flushBanks (s.argN 2)).modCore (s.argN 2)
      (Core.planned (planBanks la.hdr) (List.range 11))) := by
  rw [exec_poolPlanReady, execPoolPlanReady]
  simp only [hla]
  rw [if_neg hother, if_neg (by rw [hfree]; simp), if_neg (by rw [hwindow]; simp)]
  rfl

end

/-! ### Creation (R222, R226) -/

section
variable {s : State} {la : Launch} (hla : SMap.get? (s.tenant (s.argN 0)).launches (s.argN 1) = some la)
  (hnew : la.created = false)
include hla hnew

/-- What creation does with a launch still to be created. -/
theorem exec_launchCreate_of_group (hgroup : la.group ≠ 0) : exec .launchCreate s =
    .next (s.placeLanes (s.argN 0) (s.argN 1) la (hdrN la.hdr - la.placed) la.placed) := by
  rw [exec_launchCreate, execLaunchCreate]
  simp only [hla]
  rw [if_neg (by rw [hnew]; simp), if_pos hgroup]

theorem exec_launchCreate_of_unplanned (hgroup : la.group = 0)
    (hother : ∃ c ∈ s.coresOf (s.argN 0), (s.core c).banks ≠ planBanks la.hdr) :
    exec .launchCreate s = .next ((s.askPlans (s.argN 0) (s.argN 1) la).again .launchCreate) := by
  have hall : ((s.coresOf (s.argN 0)).all fun c => decide ((s.core c).banks = planBanks la.hdr)) = false := by
    obtain ⟨c, hc, hne⟩ := hother
    exact List.all_eq_false.2 ⟨c, hc, by simpa using hne⟩
  rw [exec_launchCreate, execLaunchCreate]
  simp only [hla]
  rw [if_neg (by rw [hnew]; simp), if_neg (by rw [hgroup]; simp), if_pos (by rw [hall]; simp)]

theorem exec_launchCreate_of_planned {g : Nat} {u : State} (hgroup : la.group = 0) (hcores : s.coresOf (s.argN 0) ≠ [])
    (hplan : ∀ c ∈ s.coresOf (s.argN 0), (s.core c).banks = planBanks la.hdr) (hdet : hdrDet la.hdr = false)
    (hnewGroup : s.newGroup (s.argN 0) (hdrN la.hdr) = some (g, u)) :
    exec .launchCreate s = .next ((u.modLaunch (s.argN 0) (s.argN 1)
      (fun _ => { la with group := g, cores := s.coresOf (s.argN 0) })).placeLanes (s.argN 0) (s.argN 1)
        { la with group := g, cores := s.coresOf (s.argN 0) } (hdrN la.hdr) 0) := by
  have hall : ((s.coresOf (s.argN 0)).all fun c => decide ((s.core c).banks = planBanks la.hdr)) = true :=
    List.all_eq_true.2 fun c hc => by simpa using hplan c hc
  rw [exec_launchCreate, execLaunchCreate]
  simp only [hla, hnewGroup]
  rw [if_neg (by rw [hnew]; simp), if_neg (by rw [hgroup]; simp), if_neg (by rw [hall, hdet]; simpa using hcores),
    if_neg (by rw [hdet]; simp)]

end

section
variable {s : State} {tn l : Nat} {la : Launch} {n lane : Nat}

theorem State.placeLanes_of_room (hroom : s.fifoRoom (nthD la.cores (lane % la.cores.length) 0) tn = true) :
    s.placeLanes tn l la (n + 1) lane = (s.pushFifo (nthD la.cores (lane % la.cores.length) 0)
      (laneCont tn l la.group la.hdr lane)).placeLanes tn l la n (lane + 1) := by
  rw [State.placeLanes]
  exact if_pos hroom

theorem State.placeLanes_of_full (hfull : s.fifoRoom (nthD la.cores (lane % la.cores.length) 0) tn = false) :
    s.placeLanes tn l la (n + 1) lane =
      (s.modLaunch tn l (fun x => { x with placed := lane })).again .launchCreate := by
  rw [State.placeLanes]
  exact if_neg (by rw [hfull]; simp)

end

/-! ### The end of a launch (R223) -/

section
variable {s : State} {la : Launch} (hla : SMap.get? (s.tenant (s.argN 0)).launches (s.argN 1) = some la)
include hla

theorem exec_launchDone_of_live (hlive : la.created = false ∨ la.lost = true ∨ s.carried (s.argN 0) (s.argN 1) = true) :
    exec .launchDone s = .next s := by
  rw [exec_launchDone, execLaunchDone]
  simp only [hla]
  rw [if_pos]
  rcases hlive with h | h | h
  · simp [h]
  · simp [h]
  · simp [h]

theorem exec_launchDone_of_over (hcreated : la.created = true) (hlost : la.lost = false)
    (hcarried : s.carried (s.argN 0) (s.argN 1) = false) (hadds : s.addl = [])
    (hcores : ∀ p ∈ s.cores, p.2.launch ≠ some (s.argN 0, s.argN 1)) :
    exec .launchDone s = .next ((s.modTenant (s.argN 0) (fun t =>
      { t with launches := SMap.del t.launches (s.argN 1) })).notify (s.argN 0) (w64 (6 * 2 ^ 56 + s.argN 1))
      (w64 la.admitted)) := by
  have hheld : s.cores.filter (fun p => p.2.launch = some (s.argN 0, s.argN 1)) = [] :=
    List.filter_eq_nil_iff.2 fun p hp => by simpa using hcores p hp
  have hsame : { s with addl := [] } = s := by rw [← hadds]
  rw [exec_launchDone, execLaunchDone]
  simp only [hla]
  rw [if_neg (by rw [hcreated, hlost, hcarried]; simp)]
  simp only [hadds, List.filter_nil, List.foldl_nil, hsame, hheld]
  rfl

end

/-- Settles O47: the check of a header, then a lemma for each outcome of the events of a launch. -/
theorem launchWork : Obligations.LaunchWork := by
  unfold Obligations.LaunchWork
  refine ⟨fun h cores => ⟨hdrFault_of_noRegs, hdrFault_of_manyRegs, ?_⟩, ?_,
    fun s la hla => ⟨exec_poolPlanReady_of_same hla, exec_poolPlanReady_of_busy hla, fun hfree hwindow hother =>
      ⟨_, exec_poolPlanReady_of_free hla hother hfree hwindow, ?_⟩⟩,
    fun s la g u hla hnew => ⟨exec_launchCreate_of_group hla hnew, exec_launchCreate_of_unplanned hla hnew,
      exec_launchCreate_of_planned hla hnew⟩,
    fun s tn l la n lane => ⟨State.placeLanes_of_room, State.placeLanes_of_full⟩,
    fun s la hla => ⟨exec_launchDone_of_live hla, exec_launchDone_of_over hla⟩⟩
  · rw [hdrFault_eq_none_iff]
    simp only [Bool.or_eq_true, Bool.and_eq_true, decide_eq_true_eq, not_or, not_and, not_not, ne_eq, not_lt, and_assoc]
    constructor
    · rintro ⟨hr, hr', hv, hf, hz, hw, hodd, hrest⟩
      exact ⟨by omega, hr', hv, hf, hz, hw, by omega, hrest⟩
    · rintro ⟨hr, hr', hv, hf, hz, hw, hodd, hrest⟩
      exact ⟨by omega, hr', hv, hf, hz, hw, by omega, hrest⟩
  · intro s e h s1 s2 tn q t r htdi hready hroom hfirst hentry hheader hsound l
    obtain ⟨hlaunches, hnext⟩ := State.entryTaken_tenant (s2.launchAccepted tn l
      ⟨h, e.toNat, q, 0, false, 0, 0, s2.coresOf tn, false⟩) tn q
    obtain ⟨hset, hnum⟩ := State.launchAccepted_tenant s2 tn l ⟨h, e.toNat, q, 0, false, 0, 0, s2.coresOf tn, false⟩
    refine ⟨_, exec_launchEntryTaken_of_sound htdi hready hroom hfirst hentry hheader hsound, State.entryTaken_mem _ _ _,
      (congrArg (fun m => SMap.get? m l) (hlaunches.trans hset)).trans ?_, hnext.trans hnum,
      State.mem_entryTaken_due _ _ _ ?_, fun c hc => State.mem_entryTaken_due _ _ _ ?_⟩
    · rw [SMap.get?_set, if_pos rfl]
    · exact List.mem_append_right _ (List.mem_append_right _ (List.mem_singleton_self _))
    · exact List.mem_append_right _ (List.mem_append_left _ (List.mem_map_of_mem hc))
  · rw [State.core_modCore_same, State.flushBanks_core]
    exact ⟨rfl, rfl, Core.planned_rf _ _ _, fun b hb hlen => Core.planned_bank _ _ _ _ (List.mem_range.2 hb) hlen⟩

end Sys2Proof.Machine
end

section
/-!
SUPPORT. The work of Locus (R264 to R286): O48.
-/
namespace Sys2Proof.Machine
open Sys2Proof

/-! ### Attempts at a LOCK (R268 to R270, R274) -/

section
variable {s : State} {q : SyncReq} (hq : s.req? (s.argN 0) = some q)
include hq

theorem exec_lockAttempt_of_plain (hkind : q.kind ≠ 2) : exec .lockAttempt s =
    (if s.windowOver q.obj = true then .next (s.again .lockAttempt) else .next ((s.attempt q).measured q.obj)) := by
  rw [exec_lockAttempt, execLockAttempt]
  simp only [hq, if_neg hkind]
  rfl

/-- The attempt of a SYDLG is a release of its requester (R279). -/
theorem exec_lockAttempt_of_body {ok : Bool} {s1 : State} (hkind : q.kind = 2)
    (hreleased : s.released q.core q.after = (ok, s1)) : exec .lockAttempt s =
      (if (!ok || s1.windowOver q.obj) = true then .next (s1.again .lockAttempt)
       else .next ((s1.attempt q).measured q.obj)) := by
  rw [exec_lockAttempt, execLockAttempt]
  simp only [hq, if_pos hkind, hreleased]

end

section
variable {s : State} {q : SyncReq}

theorem State.attempt_of_noLock (hlock : s.oKind q.obj ≠ 1) : s.attempt q = s.answerReq q 18 := by
  rw [State.attempt]
  exact if_pos hlock

theorem State.attempt_of_own (hlock : s.oKind q.obj = 1) (hheld : s.oH q.obj = true) (howner : (s.obj q.obj).owner = q.tid) :
    s.attempt q = s.answerReq q 20 := by
  rw [State.attempt]
  dsimp only
  rw [if_neg (not_not_intro hlock), if_pos (by simp [hheld, howner])]

/-- A free LOCK in QUEUE mode with nobody queued goes to who asks. -/
theorem State.attempt_of_free (hlock : s.oKind q.obj = 1) (hfree : s.oH q.obj = false) (hmode : s.oMode q.obj = 2)
    (hqueue : (s.obj q.obj).queue = []) :
    s.attempt q = (s.takeLock q.obj q.tid).answerReq q (if q.kind = 2 then 6 else 1) := by
  rw [State.attempt]
  dsimp only
  rw [if_neg (not_not_intro hlock), if_neg (by simp [hfree])]
  split
  · omega
  · rw [if_pos (by simp [hfree, hqueue]), if_neg (by simp [hmode])]
    rfl

/-- A try at a LOCK that another holds fails, in every mode. -/
theorem State.attempt_of_try (hlock : s.oKind q.obj = 1) (hheld : s.oH q.obj = true) (howner : (s.obj q.obj).owner ≠ q.tid)
    (hkind : q.kind = 1) : s.attempt q = s.answerReq q 2 := by
  rw [State.attempt]
  dsimp only
  rw [if_neg (not_not_intro hlock), if_neg (by simp [howner])]
  split
  · rw [if_neg (by simp [hheld]), if_pos hkind]
  · rw [if_neg (by simp [hheld]), if_pos hkind]

/-- An acquire of a LOCK in QUEUE mode that another holds is queued. -/
theorem State.attempt_of_held (hlock : s.oKind q.obj = 1) (hheld : s.oH q.obj = true) (howner : (s.obj q.obj).owner ≠ q.tid)
    (hmode : s.oMode q.obj = 2) (hkind : q.kind = 0) (hnew : ∀ e ∈ (s.obj q.obj).queue, e.req ≠ q.id) :
    s.attempt q = (s.setObj q.obj { s.obj q.obj with
      queue := (s.obj q.obj).queue ++ [⟨q.tid, q.lane, q.id, false⟩] }).answerReq q 3 := by
  have hany : ((s.obj q.obj).queue.any fun e => decide (e.req = q.id)) = false :=
    List.any_eq_false.2 fun e he => by simpa using hnew e he
  rw [State.attempt]
  dsimp only
  rw [if_neg (not_not_intro hlock), if_neg (by simp [howner])]
  split
  · omega
  · rw [if_neg (by simp [hheld]), if_neg (by rw [hkind]; decide), hany, if_neg Bool.false_ne_true, hkind]
    rfl

end

/-! ### Retries, releases and withdrawals (R268, R274, R286) -/

section
variable {s : State} {q : SyncReq} (hq : s.req? (s.argN 0) = some q)
include hq

theorem exec_flagRetry_of_early (hearly : s.now < s.argN 1) : exec .flagRetry s = .next (s.again .flagRetry) := by
  rw [exec_flagRetry, execFlagRetry]
  simp only [hq]
  rw [if_pos (by simp [hearly])]

section
variable (hwin : s.windowOver q.obj = false)
include hwin

theorem exec_flagRetry_of_spin (hdue : s.argN 1 ≤ s.now)
    (hspin : ((s.obj q.obj).spin.any fun x => x.req = q.id) = true) :
    exec .flagRetry s = .next ((s.attempt q).measured q.obj) := by
  rw [exec_flagRetry, execFlagRetry]
  simp only [hq]
  rw [if_neg (by rw [hwin]; simpa using hdue), if_pos hspin]

theorem exec_flagRetry_of_queued (hdue : s.argN 1 ≤ s.now)
    (hspin : ((s.obj q.obj).spin.any fun x => x.req = q.id) = false)
    (hqueued : ((s.obj q.obj).queue.any fun e => e.req = q.id) = true) :
    exec .flagRetry s = .next (s.answerReq q 3) := by
  rw [exec_flagRetry, execFlagRetry]
  simp only [hq]
  rw [if_neg (by rw [hwin]; simpa using hdue), if_neg (by rw [hspin]; simp), if_pos hqueued]

theorem exec_grantAck_of_owner (hgrant : (s.dropReq q.id).oGF q.obj = true)
    (howner : ((s.dropReq q.id).obj q.obj).owner = q.tid) : exec .grantAck s = .next
      ((((s.dropReq q.id).putObj q.obj 0 51 51 0).toFlag q.obj (s.dropReq q.id).now).measured q.obj) := by
  rw [exec_grantAck, execGrantAck]
  simp only [hq]
  rw [if_neg (by rw [hwin]; simp), if_pos (by simp [hgrant, howner])]

theorem exec_grantReturned_of_owner (hheld : (s.dropReq q.id).oH q.obj = true)
    (howner : ((s.dropReq q.id).obj q.obj).owner = q.tid) : exec .grantReturned s = .next
      (((((s.dropReq q.id).putObj q.obj 0 51 51 0).releaseLock q.obj).toFlag q.obj (s.dropReq q.id).now).measured q.obj) := by
  rw [exec_grantReturned, execGrantReturned]
  simp only [hq]
  rw [if_neg (by rw [hwin]; simp), if_pos (by simp [hheld, howner])]

section
variable (hdue : s.requestDue q.ref = false)
include hdue

/-- What a withdrawal takes out, where its request waits at the object. -/
theorem exec_lockWithdrawal_of_queued
    (hqueued : (((s.dropReq q.id).obj q.obj).queue.any fun x => x.req = q.ref) = true) :
    exec .lockWithdrawal s = .next ((((s.dropReq q.id).setObj q.obj { (s.dropReq q.id).obj q.obj with
      spin := ((s.dropReq q.id).obj q.obj).spin.filter (fun x => x.req ≠ q.ref),
      queue := ((s.dropReq q.id).obj q.obj).queue.filter (fun x => x.req ≠ q.ref),
      wait := ((s.dropReq q.id).obj q.obj).wait.filter (fun x => x.req ≠ q.ref) }).measured q.obj).post
        [evt .timeout [q.core, q.slot, q.ref]]) := by
  rw [exec_lockWithdrawal, execLockWithdrawal]
  simp only [hq]
  rw [if_neg (by rw [hdue, hwin]; simp), if_pos (by rw [hqueued]; simp)]

theorem exec_lockWithdrawal_of_absent (hspin : ((s.dropReq q.id).obj q.obj).spin = [])
    (hqueue : ((s.dropReq q.id).obj q.obj).queue = []) (hwait : ((s.dropReq q.id).obj q.obj).wait = []) :
    exec .lockWithdrawal s = .next (s.dropReq q.id) := by
  rw [exec_lockWithdrawal, execLockWithdrawal]
  simp only [hq]
  rw [if_neg (by rw [hdue, hwin]; simp), if_neg (by rw [hspin, hqueue, hwait]; simp)]

end
end
end

section
variable {s s1 : State} {q : SyncReq} (hq : s.req? (s.argN 0) = some q)
  (hreleased : s.released q.core q.after = (true, s1)) (hwin : s1.windowOver q.obj = false)
  (hack : (s1.reqs.any fun x => x.kind = 6 && x.tid = q.tid && x.obj = q.obj) = false) (hlock : s1.oKind q.obj = 1)
include hq hreleased hwin hack hlock

/-- What a release does once what it orders is done and its grant is acknowledged: it is the owner's, or it is refused. -/
theorem exec_lockRelease_eq : exec .lockRelease s =
    (if (!(s1.oH q.obj && (s1.obj q.obj).owner = q.tid)) = true then .next (s1.answerReq q 19)
     else .next (((s1.releaseLock q.obj).measured q.obj).answerReq q 1)) := by
  rw [exec_lockRelease, execLockRelease]
  simp only [hq, hreleased]
  rw [if_neg (by rw [hwin, hack]; simp), if_neg (not_not_intro hlock)]

end

section
variable {s : State} {l : Nat} (hmode : s.oMode l = 2) (hplain : s.oSP l = false ∨ (s.obj l).delTid = none)
include hmode hplain

/-- The release of a LOCK in QUEUE mode that does not go over to a delegate. -/
theorem State.releaseLock_of_head {h : Option QEnt} (hhead : s.headOf l = h) :
    s.releaseLock l = h.elim (s.freeLock l) (s.grantTo l) := by
  have hstay : (s.oSP l && (s.obj l).delTid.isSome) = false := by
    rcases hplain with h | h
    · rw [h, Bool.false_and]
    · rw [h, Option.isSome_none, Bool.and_false]
  rw [State.releaseLock]
  simp only [hmode]
  rw [hstay, if_neg Bool.false_ne_true, hhead]
  cases h <;> rfl

end

/-! ### Answers at the core (R276) -/

section
variable {s : State} {q : SyncReq} {w : Wait} (hq : s.req? (s.argN 0) = some q) (hwait : s.waiting q = some w)
include hq hwait

theorem exec_locusAnswer_of_enrolled (hans : q.ans = 3) : exec .locusAnswer s = .next s := by
  rw [exec_locusAnswer, execLocusAnswer]
  simp only [hq, hwait]
  rw [if_pos hans]

theorem exec_locusAnswer_of_fail (hans : q.ans = 2) (hkind : q.kind ≠ 1)
    (hlive : (s.reqs.any fun x => x.kind = 5 && x.ref = q.id) = false) : exec .locusAnswer s =
      .next ((s.setReq { q with fails := q.fails + 1 }).post [evt .flagRetry [q.id, s.now + backoff q.fails]]) := by
  rw [exec_locusAnswer, execLocusAnswer]
  simp only [hq, hwait]
  rw [if_neg (by omega), if_pos (by simp [hans, hkind])]
  simp only [hlive, Bool.false_eq_true, if_false]

/-- An OK of an acquire or a try: one LOCK more is held. -/
theorem exec_locusAnswer_of_taken (hans : q.ans = 1) (hkind : q.kind ≤ 1) : exec .locusAnswer s =
    .next (((s.dropReq q.id).countLock q.core q.slot true).reply q.core q.slot w ⟨1, q.carried, q.obj⟩) := by
  rw [exec_locusAnswer, execLocusAnswer]
  simp only [hq, hwait, hans]
  rw [if_neg (by decide), if_neg (by simp), if_pos (by simp [hkind])]

/-- An OK of a release: one LOCK less is held. -/
theorem exec_locusAnswer_of_released (hans : q.ans = 1) (hkind : q.kind = 4) : exec .locusAnswer s =
    .next (((s.dropReq q.id).countLock q.core q.slot false).reply q.core q.slot w ⟨1, q.carried, q.obj⟩) := by
  rw [exec_locusAnswer, execLocusAnswer]
  simp only [hq, hwait, hans]
  rw [if_neg (by decide), if_neg (by simp), if_neg (by simp [hkind]), if_pos (by simp [hkind])]

end

section
variable {s : State} {q : SyncReq} {w : Wait} (hq : s.req? (s.argN 2) = some q)
  (hwait : (s.dropReq q.id).waiting q = some w)
include hq hwait

theorem exec_grant_of_phase (hkind : q.kind = 9) :
    exec .grant s = .next ((s.dropReq q.id).reply q.core q.slot w ⟨1, TWord.zero, q.obj⟩) := by
  rw [exec_grant, execGrant]
  simp only [hq, hwait]
  rw [if_pos hkind]

theorem exec_grant_of_acquire (hkind : q.kind = 0) : exec .grant s =
    .next (((((s.dropReq q.id).countLock q.core q.slot true).reply q.core q.slot w
      ⟨1, q.carried, q.obj⟩)).sendReq (SyncReq.new 6 q.obj q.tid q.core q.slot)).2 := by
  have hwon : q.won = 1 := if_neg (by omega)
  rw [exec_grant, execGrant]
  simp only [hq, hwait, hwon]
  rw [if_neg (by omega)]

theorem exec_timeout_of_waiting :
    exec .timeout s = .next ((s.dropReq q.id).reply q.core q.slot w ⟨5, TWord.zero, q.obj⟩) := by
  rw [exec_timeout, execTimeout]
  simp only [hq, hwait]

end

/-- The timeout of a thread that still waits, and whose request is not withdrawn yet. -/
theorem exec_syncTimeoutExpiry_of_waiting {s : State} {t : Thread} (ht : s.thread? (s.argN 0) (s.argN 1) = some t)
    (hrun : t.run = .wait (.locus (s.argN 2))) (hlive : (s.reqs.any fun q => q.kind = 5 && q.ref = s.argN 2) = false) :
    exec .syncTimeoutExpiry s =
      (if s.now < s.argN 3 then .next (s.again .syncTimeoutExpiry) else .next (s.withdraw (s.argN 2))) := by
  rw [exec_syncTimeoutExpiry, execSyncTimeoutExpiry]
  simp only [ht]
  rw [if_pos (by rw [hlive]; simp [hrun])]

/-! ### Windows and delegates (R270, R272, R273) -/

section
variable {s : State} (hlock : s.oKind (s.argN 0) = 1)
include hlock

theorem exec_locusWindowEnd_of_lock : exec .locusWindowEnd s =
    (if s.windowOver (s.argN 0) = true then .next ((s.windowEnd (s.argN 0)).again .locusWindowEnd)
     else .next (s.again .locusWindowEnd)) := by
  rw [exec_locusWindowEnd, execLocusWindowEnd]
  exact if_neg (not_not_intro hlock)

theorem windowOver_of_lock : s.windowOver (s.argN 0) =
    decide ((s.obj (s.argN 0)).winEnd ≠ 0 ∧ (s.obj (s.argN 0)).winEnd ≤ s.now) := by
  rw [State.windowOver, hlock]
  simp

end

theorem exec_delegateAdmitted_of_new {s : State} {t : Thread} {d : Deleg}
    (ht : s.thread? (s.argN 1) (s.argN 2) = some t)
    (hd : t.deleg = some d) (hremote : d.remote = true) (hobj : d.obj = s.argN 0) (hreq : d.req = 0) (hret : d.ret ≠ 1)
    (hwin : s.windowOver (s.argN 0) = false) (hnew : (s.obj (s.argN 0)).delTid ≠ some (s.tid (s.argN 1) (s.argN 2) t)) :
    let s1 := s.modObj (s.argN 0) (fun o => { o with delTid := some (s.tid (s.argN 1) (s.argN 2) t) })
    exec .delegateAdmitted s = .next ((if s1.oMode (s.argN 0) = 2 && s1.oSP (s.argN 0) && !s1.oH (s.argN 0)
      then s1.enterDelegate (s.argN 0) else s1).measured (s.argN 0)) := by
  rw [exec_delegateAdmitted, execDelegateAdmitted]
  simp only [ht, hd]
  rw [if_neg (by simp [hremote, hobj, hreq]), if_neg hret, if_neg (by rw [hwin]; simp), if_neg hnew]

theorem exec_delegateBodyExit_of_waiting {s s1 : State} {q : SyncReq} {w : Wait}
    (hreleased : s.released (s.delegateAt (s.argN 0)).1
      (s.storesOf (s.delegateAt (s.argN 0)).1 (s.delegateAt (s.argN 0)).2) = (true, s1))
    (hwin : s1.windowOver (s.argN 0) = false) (hq : s1.req? (s1.argN 1) = some q) (hwait : s1.waiting q = some w) :
    exec .delegateBodyExit s = .next (((((s1.reply q.core q.slot w ⟨7, s1.argW 0, s.argN 0⟩).dropReq q.id).dispatch
      (s.argN 0)).measured (s.argN 0))) := by
  rw [exec_delegateBodyExit, execDelegateBodyExit]
  simp only [hreleased]
  rw [if_neg (by rw [hwin]; simp)]
  simp only [hq, hwait]

/-! ### Phases (R271, R275) -/

section
variable {s : State} {y : Combine} (hy : (s.cluster (s.argN 0)).comb.find? (fun y => y.obj = s.argN 1) = some y)
include hy

theorem exec_combinerForward_of_cluster (hlevel : s.argN 1 < 2 ^ 60) :
    let s1 := s.setCluster (s.argN 0) { s.cluster (s.argN 0) with
      comb := (s.cluster (s.argN 0)).comb.filter (fun z => z.obj ≠ s.argN 1) }
    exec .combinerForward s = .next (s1.combineAt (s1.dieCombiner (s1.tenantOf (128 * s.argN 1))
      (s.argN 0)) (s.argN 1 + 2 ^ 60) y.count) := by
  rw [exec_combinerForward, execCombinerForward]
  simp only [hy]
  rw [if_neg (by unfold dieLevel; omega)]
  rfl

theorem exec_combinerForward_of_die (hlevel : 2 ^ 60 ≤ s.argN 1) :
    let s1 := s.setCluster (s.argN 0) { s.cluster (s.argN 0) with
      comb := (s.cluster (s.argN 0)).comb.filter (fun z => z.obj ≠ s.argN 1) }
    s1.oKind (s.argN 1 - 2 ^ 60) = 2 →
      exec .combinerForward s = .next (s1.arriveHome (s.argN 1 - 2 ^ 60) y.count true) := by
  intro s1 hphase
  rw [exec_combinerForward, execCombinerForward]
  simp only [hy]
  exact (if_pos hlevel).trans (if_pos hphase)

end

section
variable {s s1 : State} {q : SyncReq} {w : Wait} {t : Thread} (hq : s.req? (s.argN 0) = some q)
  (hreleased : s.released q.core q.after = (true, s1)) (hwait : s1.waiting q = some w)
  (ht : s1.thread? q.core q.slot = some t) (hphase : s1.oKind q.obj = 2)
include hq hreleased hwait ht hphase

theorem exec_phaseArrival_of_stranger (hgroup : taskGroup t.task ≠ (s1.objW q.obj 3).bits 15 0) :
    exec .phaseArrival s = .next (s1.answerReq q 21) := by
  rw [exec_phaseArrival, execPhaseArrival]
  simp only [hq, hreleased, hwait, ht]
  rw [if_neg (by simp), if_neg (not_not_intro hphase), if_pos (by simp [hgroup])]

theorem exec_phaseArrival_of_member (hgroup : taskGroup t.task = (s1.objW q.obj 3).bits 15 0) (hsome : taskGroup t.task ≠ 0)
    (hnew : (s1.obj q.obj).joined.contains q.tid = false) :
    let s2 := (s1.modThread q.core q.slot (fun t => { t with arrival := some (q.obj, s1.oC q.obj) })).answerReq q 1
    exec .phaseArrival s = .next (if s2.oMode q.obj = 3 then s2.combineAt (q.core / 8) q.obj 1
      else s2.arriveHome q.obj 1 true) := by
  rw [exec_phaseArrival, execPhaseArrival]
  simp only [hq, hreleased, hwait, ht]
  rw [if_neg (by simp), if_neg (not_not_intro hphase), if_neg (by rw [← hgroup]; simp [hsome]),
    if_neg (by rw [hnew]; simp)]
  split <;> rfl

end

section
variable {s : State} {q : SyncReq} (hq : s.req? (s.argN 0) = some q)
include hq

/-- A wait for a phase of a PHASE object: answered at once where the phase is over, else it waits. -/
theorem exec_phaseWaitRequest_of_phase (hphase : s.oKind q.obj = 2) :
    let t := if q.ref = 0 then s.oC q.obj else q.ref - 1
    exec .phaseWaitRequest s = (if t < s.oC q.obj then .next (s.answerReq q 1)
      else .next ((s.modObj q.obj (fun o => { o with wait := o.wait ++ [⟨q.tid, t, q.id⟩] })).measure q.obj)) := by
  rw [exec_phaseWaitRequest, execPhaseWaitRequest]
  simp only [hq]
  exact if_neg (not_not_intro hphase)

theorem exec_phaseLeave_of_current (hphase : (s.dropReq q.id).oKind q.obj = 2) (hcur : (s.dropReq q.id).oC q.obj = q.ref) :
    exec .phaseLeave s = .next ((s.dropReq q.id).arriveHome q.obj 1 false) := by
  rw [exec_phaseLeave, execPhaseLeave]
  simp only [hq]
  exact if_pos (by simp [hphase, hcur])

end

/-- Settles O48: a lemma for each outcome of what reaches the home of a LOCK or a PHASE, and of the answers at the core. -/
theorem locusWork : Obligations.LocusWork := by
  unfold Obligations.LocusWork
  refine ⟨fun s q hq => ⟨fun hkind hwin => (exec_lockAttempt_of_plain hq hkind).trans (if_pos hwin),
      fun hkind hwin => (exec_lockAttempt_of_plain hq hkind).trans (if_neg (Bool.eq_false_iff.1 hwin)),
      fun s1 hkind hreleased => (exec_lockAttempt_of_body hq hkind hreleased).trans (if_pos rfl),
      fun s1 hkind hreleased hwin => (exec_lockAttempt_of_body hq hkind hreleased).trans (if_neg (by rw [hwin]; simp))⟩,
    fun s q => ⟨State.attempt_of_noLock, State.attempt_of_own, State.attempt_of_free, State.attempt_of_try,
      State.attempt_of_held⟩,
    fun s q hq hwin => ⟨exec_flagRetry_of_early hq, exec_flagRetry_of_spin hq hwin, exec_flagRetry_of_queued hq hwin⟩,
    fun s q s1 hq hreleased hwin hack => ⟨fun hlock hheld howner =>
        (exec_lockRelease_eq hq hreleased hwin hack hlock).trans (if_neg (by simp [hheld, howner])),
      fun hlock hother => (exec_lockRelease_eq hq hreleased hwin hack hlock).trans (if_pos ?_)⟩,
    fun s l hmode hplain => ⟨State.releaseLock_of_head hmode hplain, fun e => State.releaseLock_of_head hmode hplain⟩,
    fun s q hq hdue hwin => ⟨exec_lockWithdrawal_of_queued hq hwin hdue, exec_lockWithdrawal_of_absent hq hwin hdue⟩,
    fun s q hq hwin => ⟨exec_grantAck_of_owner hq hwin, exec_grantReturned_of_owner hq hwin⟩,
    fun s q w hq hwait => ⟨exec_locusAnswer_of_enrolled hq hwait, exec_locusAnswer_of_fail hq hwait,
      exec_locusAnswer_of_taken hq hwait, exec_locusAnswer_of_released hq hwait⟩,
    fun s q w hq hwait => ⟨exec_grant_of_phase hq hwait, exec_grant_of_acquire hq hwait, exec_timeout_of_waiting hq hwait⟩,
    fun s t ht hrun hlive => ⟨fun h => (exec_syncTimeoutExpiry_of_waiting ht hrun hlive).trans (if_pos h),
      fun h => (exec_syncTimeoutExpiry_of_waiting ht hrun hlive).trans (if_neg (by omega))⟩,
    fun s hlock => ⟨fun hset hend => (exec_locusWindowEnd_of_lock hlock).trans (if_pos ?_),
      fun hlater => (exec_locusWindowEnd_of_lock hlock).trans (if_neg ?_)⟩,
    fun s t d ht hd hremote hobj hreq hret hwin hnew => exec_delegateAdmitted_of_new ht hd hremote hobj hreq hret hwin hnew,
    fun s q w s1 hreleased hwin hq hwait => exec_delegateBodyExit_of_waiting hreleased hwin hq hwait,
    fun s y hy => ⟨exec_combinerForward_of_cluster hy, exec_combinerForward_of_die hy⟩,
    fun s q w t s1 hq hreleased hwait ht hphase => ⟨exec_phaseArrival_of_stranger hq hreleased hwait ht hphase,
      exec_phaseArrival_of_member hq hreleased hwait ht hphase⟩,
    fun s q hq hphase => ⟨fun h => (exec_phaseWaitRequest_of_phase hq hphase).trans (if_pos h),
      fun h => (exec_phaseWaitRequest_of_phase hq hphase).trans (if_neg (Nat.not_lt.2 h)), exec_phaseLeave_of_current hq⟩⟩
  · rcases hother with h | h
    · simp [h]
    · simp [h]
  · rw [windowOver_of_lock hlock]
    exact decide_eq_true ⟨hset, hend⟩
  · rw [windowOver_of_lock hlock, decide_eq_true_iff]
    omega

end Sys2Proof.Machine
end

section
/-!
SUPPORT. Fabric connections and frames (R327 to R332): O49.
-/
namespace Sys2Proof.Machine
open Sys2Proof

/-! ### Frames from the fabric (R329 to R332) -/

section
variable {s : State} {tn n : Nat}

theorem State.discards_of_unnumbered (hid : s.boot.fabid = none) : s.discards tn = some s := by
  rw [State.discards, if_pos (by rw [hid]; rfl)]

theorem State.discards_of_stranger (hid : s.boot.fabid ≠ none) (htn : SMap.get? s.tenants tn = none) :
    s.discards tn = some { s with boot := { s.boot with badFrames := s.boot.badFrames + 1 } } := by
  rw [State.discards, if_neg (by simpa using hid), if_pos (by rw [htn]; rfl)]

theorem State.discards_of_tenant (hid : s.boot.fabid ≠ none) (htn : SMap.get? s.tenants tn ≠ none) :
    s.discards tn = none := by
  rw [State.discards, if_neg (by simpa using hid), if_neg (by simpa using htn)]

theorem State.postOnce_arg (e : Event) : (s.postOnce e).arg = s.arg := by
  unfold State.postOnce
  split <;> rfl

theorem State.promptSent_arg : (s.promptSent tn n).arg = s.arg := by
  unfold State.promptSent
  split
  · split
    · exact State.postOnce_arg _
    · rfl
  · rfl

end

/-! Each event of a connection reads its entry after the adds that wait for it (R301): `u` is that state. -/

section
variable {s u : State} (hu : s.fabAdds (s.argN 0) (s.argN 1) = u)
include hu

section
variable (hkept : u.discards (s.argN 0) = none)
include hkept

theorem exec_ackFrame_of_open (hopen : u.isOpen (s.argN 0) (s.argN 1) = true) :
    exec .ackFrame s = .next (((u.modConn (s.argN 0) (s.argN 1) (fun c =>
      c.acknowledge (u.argN 2) u.now)).promptSent (s.argN 0) (s.argN 1)).pump (s.argN 0) (s.argN 1)) := by
  rw [exec_ackFrame, execAckFrame]
  simp only [hu, hkept]
  rw [if_neg (by rw [hopen]; simp)]

/-- A NACK of reason 1 has the frames sent again. -/
theorem exec_nackFrame_of_lost (hopen : u.isOpen (s.argN 0) (s.argN 1) = true) (hreason : u.argN 2 = 1) :
    exec .nackFrame s = .next (((u.modConn (s.argN 0) (s.argN 1) (fun c =>
      c.acknowledge (u.argN 3) u.now)).promptSent (s.argN 0) (s.argN 1)).resend (s.argN 0) (s.argN 1)) := by
  rw [exec_nackFrame, execNackFrame]
  simp only [hu, hkept]
  rw [if_neg (by rw [hopen]; simp), if_pos]
  rw [State.argN, State.promptSent_arg]
  exact hreason

/-- A frame of data on no open connection is refused. -/
theorem exec_dataFrame_of_closed
    (hclosed : u.isOpen (s.argN 0) (s.argN 1) = false ∨ u.fabricOn (s.argN 0) = false) :
    exec .dataFrame s = .next (u.sendNack (s.argN 0) (s.argN 1) 4) := by
  rw [exec_dataFrame, execDataFrame]
  simp only [hu, hkept]
  rw [if_pos]
  rcases hclosed with h | h
  · rw [h]; rfl
  · rw [h]; exact Bool.or_true _

section
variable (hopen : u.isOpen (s.argN 0) (s.argN 1) = true) (hon : u.fabricOn (s.argN 0) = true)
include hopen hon

/-- A frame of data that has been performed before is acknowledged again. -/
theorem exec_dataFrame_of_old
    (hold : 2 ^ 31 ≤ (u.argN 3 + 2 ^ 32 - (u.conn (s.argN 0) (s.argN 1)).expect % 2 ^ 32) % 2 ^ 32) :
    exec .dataFrame s = .next (u.sendAck (s.argN 0) (s.argN 1)) := by
  rw [exec_dataFrame, execDataFrame]
  simp only [hu, hkept]
  rw [if_neg (by rw [hopen, hon]; decide), if_pos hold]

/-- The frame that is expected, within the window and on pages that take it, is written. -/
theorem exec_dataFrame_of_expected {l : List (Tr × Nat)}
    (hexpected : (u.argN 3 + 2 ^ 32 - (u.conn (s.argN 0) (s.argN 1)).expect % 2 ^ 32) % 2 ^ 32 = 0)
    (hwindow : s.argN 4 + s.argN 6 ≤ (u.peekVa (s.argN 0) (u.fabVa (s.argN 0) (s.argN 1) + 16)).v.bits 39 0)
    (hpages : u.recvPages (s.argN 0) (s.argN 1) (((u.peekVa (s.argN 0)
      (u.fabVa (s.argN 0) (s.argN 1) + 8)).v.bits 56 0 + s.argN 4) % 2 ^ 57) (s.argN 6) 34 = .lines l) :
    exec .dataFrame s = .next ((u.recvWrite (s.argN 0) ((u.arg.vals.flatMap (fun w => leBytes 8 w.v.toNat)).take (s.argN 6))
      (s.argN 2 / 4 % 2 = 1) (s.argN 2 / 8 % 2 = 1) l).received (s.argN 0) (s.argN 1) (s.argN 2) (u.argN 5) (s.argN 6)) := by
  rw [exec_dataFrame, execDataFrame]
  simp only [hu, hkept]
  rw [if_neg (by rw [hopen, hon]; decide), if_neg (by rw [hexpected]; decide), if_neg (not_not_intro hexpected),
    if_neg (Nat.not_lt.2 hwindow)]
  simp only [hpages]

end

theorem exec_closeFrame_of_open (hopen : u.isOpen (s.argN 0) (s.argN 1) = true) :
    exec .closeFrame s = .next (u.failConn (s.argN 0) (s.argN 1)) := by
  rw [exec_closeFrame, execCloseFrame]
  simp only [hu, hkept]
  rw [if_pos hopen]

section
variable (hvalid : entV (u.fabWord (s.argN 0) (s.argN 1)) = true)
include hvalid

/-- The answers to an opener whose entry is opening. -/
theorem exec_accept_of_opening (hstate : entState (u.fabWord (s.argN 0) (s.argN 1)) = 1) :
    exec .accept s = .next (u.opened (s.argN 0) (s.argN 1)) := by
  rw [exec_accept, execAccept]
  simp only [hu, hkept]
  rw [if_pos (by rw [hvalid, hstate]; rfl)]

theorem exec_refuse_of_opening (hstate : entState (u.fabWord (s.argN 0) (s.argN 1)) = 1) :
    exec .refuse s = .next (u.refused (s.argN 0) (s.argN 1)) := by
  rw [exec_refuse, execRefuse]
  simp only [hu, hkept]
  rw [if_pos (by rw [hvalid, hstate]; rfl)]

/-- A CONNECT is accepted where the entry names its sender back. -/
theorem exec_connect_of_named (hon : u.fabricOn (s.argN 0) = true)
    (hmod : entMod (u.fabWord (s.argN 0) (s.argN 1)) = u.argN 2)
    (hten : entTen (u.fabWord (s.argN 0) (s.argN 1)) = u.argN 3)
    (hcon : entCon (u.fabWord (s.argN 0) (s.argN 1)) = u.argN 4) :
    exec .connect s = .next ((u.opened (s.argN 0) (s.argN 1)).sendShort (s.argN 0) (s.argN 1) 5 0 0) := by
  rw [exec_connect, execConnect]
  simp only [hu, hkept]
  rw [if_pos (by simp [hvalid, hon, hmod, hten, hcon])]

end
end

/-! ### Opening and closing (R328) -/

section
variable (hdoor : u.doorOpen (s.argN 0) = true) (hvalid : entV (u.fabWord (s.argN 0) (s.argN 1)) = true)
include hdoor hvalid

theorem exec_fcopenOpen_of_closed (hon : u.fabricOn (s.argN 0) = true)
    (hstate : entState (u.fabWord (s.argN 0) (s.argN 1)) = 0) :
    exec .fcopenOpen s = .next ((((u.setEntState (s.argN 0) (s.argN 1) 1).modConn (s.argN 0) (s.argN 1) (fun c =>
      { Conn.reset with xfers := c.xfers, tries := 1, since := u.now })).sendShort (s.argN 0) (s.argN 1)
      4 0 0).postOnce (evt .connectRetryTimer [s.argN 0, s.argN 1])) := by
  rw [exec_fcopenOpen, execFcopenOpen]
  simp only [hu]
  rw [if_neg (by simp [hdoor, hon, hvalid, hstate])]

section
variable (hstate : entState (u.fabWord (s.argN 0) (s.argN 1)) ≠ 0)
include hstate

theorem exec_fcopenClose_of_busy (hbusy : (u.conn (s.argN 0) (s.argN 1)).xfers ≠ []) :
    exec .fcopenClose s = .next (u.again .fcopenClose) := by
  rw [exec_fcopenClose, execFcopenClose]
  simp only [hu]
  rw [if_neg (by simp [hdoor, hvalid, hstate]), if_pos (by simpa using hbusy)]

theorem exec_fcopenClose_of_idle (hidle : (u.conn (s.argN 0) (s.argN 1)).xfers = []) :
    exec .fcopenClose s =
      .next ((u.sendShort (s.argN 0) (s.argN 1) 7 0 0).setEntState (s.argN 0) (s.argN 1) 0) := by
  rw [exec_fcopenClose, execFcopenClose]
  simp only [hu]
  rw [if_neg (by simp [hdoor, hvalid, hstate]), if_neg (by simp [hidle])]

end
end
end

/-! ### Records in submission order, and the timers (R330, R331) -/

section
variable {s : State} {x : Xfer} {r : List Xfer} (hx : (s.conn (s.argN 0) (s.argN 1)).xfers = x :: r)
include hx

/-- The oldest transfer, once it has ended, leaves the connection, with a record where it asks for one. -/
theorem exec_fsent_of_ended (hended : x.ended = true) :
    let s1 := s.modConn (s.argN 0) (s.argN 1) (fun c => { c with xfers := r })
    exec .fsent s = .next ((if x.flagA = true then s1.notify (s.argN 0)
      (w64 (0x0B * 2 ^ 56 + (x.status * 2 ^ 48 + x.tag * 2 ^ 32 + s.argN 1))) (w64 (min (4096 * x.acked) x.length))
      else s1).promptSent (s.argN 0) (s.argN 1)) := by
  rw [exec_fsent, execFsent]
  simp only [hx]
  rw [if_neg (by rw [hended]; simp)]
  rfl

theorem exec_fsent_of_running (hrunning : x.ended = false) : exec .fsent s = .next s := by
  rw [exec_fsent, execFsent]
  simp only [hx]
  rw [if_pos (by rw [hrunning]; rfl)]

end

section
variable {s : State}

theorem exec_resendTimer_of_window (hopen : s.isOpen (s.argN 0) (s.argN 1) = true)
    (hwindow : (s.conn (s.argN 0) (s.argN 1)).window ≠ []) : exec .resendTimer s =
      (if s.now < (s.conn (s.argN 0) (s.argN 1)).prog + 26000 then .next (s.again .resendTimer)
       else .next (s.resend (s.argN 0) (s.argN 1))) := by
  rw [exec_resendTimer, execResendTimer]
  exact if_neg (by rw [hopen]; simpa using hwindow)

theorem exec_ackTimer_of_unack (hunack : (s.conn (s.argN 0) (s.argN 1)).unack ≠ 0) :
    exec .ackTimer s = .next (s.sendAck (s.argN 0) (s.argN 1)) := by
  rw [exec_ackTimer, execAckTimer, if_neg hunack]

section
variable (hvalid : entV (s.fabWord (s.argN 0) (s.argN 1)) = true)
  (hstate : entState (s.fabWord (s.argN 0) (s.argN 1)) = 1)
include hvalid hstate

theorem exec_connectRetryTimer_of_early (hearly : s.now < (s.conn (s.argN 0) (s.argN 1)).since + 2 ^ 24) :
    exec .connectRetryTimer s = .next (s.again .connectRetryTimer) := by
  rw [exec_connectRetryTimer, execConnectRetryTimer]
  exact (if_neg (by simp [hvalid, hstate])).trans (if_pos hearly)

theorem exec_connectRetryTimer_of_tried (hdue : (s.conn (s.argN 0) (s.argN 1)).since + 2 ^ 24 ≤ s.now)
    (htries : 8 ≤ (s.conn (s.argN 0) (s.argN 1)).tries) :
    exec .connectRetryTimer s = .next (s.refused (s.argN 0) (s.argN 1)) := by
  rw [exec_connectRetryTimer, execConnectRetryTimer]
  exact (if_neg (by simp [hvalid, hstate])).trans ((if_neg (Nat.not_lt.2 hdue)).trans (if_pos htries))

end
end

/-! ### A cumulative acknowledgement (R331) -/

section
variable (c : Conn) (psn now : Nat)

theorem Conn.acknowledge_of_outside (hk : c.window.length < (psn + 2 ^ 32 - c.acked % 2 ^ 32) % 2 ^ 32) :
    c.acknowledge psn now = c := by
  rw [Conn.acknowledge]
  exact if_pos (by rw [decide_eq_true hk, Bool.or_true])

theorem Conn.acknowledge_of_inside (hk : (psn + 2 ^ 32 - c.acked % 2 ^ 32) % 2 ^ 32 ≠ 0)
    (hk' : (psn + 2 ^ 32 - c.acked % 2 ^ 32) % 2 ^ 32 ≤ c.window.length) : c.acknowledge psn now = { c with
      acked := c.acked + (psn + 2 ^ 32 - c.acked % 2 ^ 32) % 2 ^ 32
      window := c.window.drop ((psn + 2 ^ 32 - c.acked % 2 ^ 32) % 2 ^ 32)
      xfers := ackXfers c.xfers ((psn + 2 ^ 32 - c.acked % 2 ^ 32) % 2 ^ 32), prog := now, resent := 0 } := by
  rw [Conn.acknowledge]
  exact if_neg (by
    rw [Bool.or_eq_true, decide_eq_true_iff, decide_eq_true_iff]
    exact not_or.2 ⟨hk, Nat.not_lt.2 hk'⟩)

end

/-! ### Ports -/

section
variable (s : State)

theorem State.settleWord_boot (w : Nat) : (s.settleWord w).boot = s.boot := by
  unfold State.settleWord
  dsimp only
  split <;> split <;> rfl

theorem State.writeHome_boot (sw : Bool) (a n : Nat) (v : TWord) : (s.writeHome sw a n v).boot = s.boot := by
  unfold State.writeHome
  dsimp only
  split
  · rfl
  · exact State.settleWord_boot _ _

theorem State.writeVa_boot (tn va : Nat) (ws : List TWord) : (s.writeVa tn va ws).boot = s.boot := by
  induction ws generalizing s va with
  | nil => rfl
  | cons w r ih =>
    rw [State.writeVa, ih]
    split
    · exact State.writeHome_boot _ _ _ _ _
    · rfl

/-- What is sent leaves the ports as they are. -/
theorem State.sendFrame_ports (mask dst len : Nat) (ws : List Word) :
    (s.sendFrame mask dst len ws).boot.ports = s.boot.ports := by
  unfold State.sendFrame
  split <;> rfl

theorem State.sendWindow_ports (tn n : Nat) : (s.sendWindow tn n).boot.ports = s.boot.ports := by
  rw [State.sendWindow, State.countResends, State.writeVa_boot,
    State.foldl_keeps (fun u => u.boot.ports) (fun u f => u.sendFrame_ports ..)]

theorem State.sendWindows_ports (l : List (Nat × Nat)) :
    (l.foldl (fun u x => u.sendWindow x.1 x.2) s).boot.ports = s.boot.ports := by
  induction l generalizing s with
  | nil => rfl
  | cons x r ih => rw [List.foldl_cons, ih, State.sendWindow_ports]

end

/-- Settles O49: a lemma for each outcome of the frames, of the opening and closing of a connection, and of its timers. -/
theorem fabricWork : Obligations.FabricWork := by
  unfold Obligations.FabricWork
  refine ⟨fun s tn => ⟨State.discards_of_unnumbered, State.discards_of_stranger, State.discards_of_tenant⟩,
    ?_, ?_,
    fun s x r hx => ⟨fun hended hflag => ?_, fun hended hflag => ?_, exec_fsent_of_running hx⟩,
    fun s => exec_sendEntryTaken s,
    fun s hopen hwindow => ⟨fun h => (exec_resendTimer_of_window hopen hwindow).trans (if_pos h),
      fun h => (exec_resendTimer_of_window hopen hwindow).trans (if_neg (Nat.not_lt.2 h))⟩,
    fun s => exec_ackTimer_of_unack,
    fun s hvalid hstate => ⟨exec_connectRetryTimer_of_early hvalid hstate, exec_connectRetryTimer_of_tried hvalid hstate⟩,
    fun c psn now => ⟨c.acknowledge_of_outside psn now, fun hk hk' => ?_⟩,
    fun s => ⟨_, rfl, State.sendWindows_ports _ _⟩, exec_portLinkUp, exec_fabidAssign⟩
  · intro s tn n u hkept
    have hu : s.fabAdds (s.argN 0) (s.argN 1) = u := rfl
    clear_value u
    exact ⟨exec_ackFrame_of_open hu hkept, exec_nackFrame_of_lost hu hkept, exec_dataFrame_of_closed hu hkept,
      exec_dataFrame_of_old hu hkept, fun l hopen hon => exec_dataFrame_of_expected hu hkept hopen hon,
      exec_closeFrame_of_open hu hkept,
      fun hvalid hstate => ⟨exec_accept_of_opening hu hkept hvalid hstate, exec_refuse_of_opening hu hkept hvalid hstate⟩,
      exec_connect_of_named hu hkept⟩
  · intro s tn n u hdoor hon hvalid
    have hu : s.fabAdds (s.argN 0) (s.argN 1) = u := rfl
    clear_value u
    exact ⟨exec_fcopenOpen_of_closed hu hdoor hvalid hon, fun hstate =>
      ⟨exec_fcopenClose_of_busy hu hdoor hvalid hstate, exec_fcopenClose_of_idle hu hdoor hvalid hstate⟩⟩
  · rw [exec_fsent_of_ended hx hended, if_neg (by rw [hflag]; simp)]
  · rw [exec_fsent_of_ended hx hended, if_pos hflag]
  · rw [c.acknowledge_of_inside psn now hk hk']
    exact ⟨rfl, rfl, rfl⟩

end Sys2Proof.Machine
end

section
/-!
SUPPORT. Links between dies and the memory hubs (R320 to R326): O50.
-/
namespace Sys2Proof.Machine
open Sys2Proof

/-! ### Credits and requests across an edge (R321, R323) -/

section
variable {s s1 : State}

theorem State.takeCredit_eq {e cls n : Nat} (hok : (s.link e).ok = true) (hup : (s.link e).up = true)
    (hcredit : SMap.get (s.link e).credits cls 0 = n + 1) :
    s.takeCredit e cls = some (s.setLink e { s.link e with credits := SMap.set (s.link e).credits cls n }) := by
  rw [State.takeCredit]
  dsimp only
  rw [if_pos (by rw [hok, hup, hcredit]; simp), hcredit]
  rfl

theorem State.takeCredit_none {e cls : Nat} (hnone : (s.link e).up = false ∨ SMap.get (s.link e).credits cls 0 = 0) :
    s.takeCredit e cls = none := by
  rw [State.takeCredit]
  refine if_neg ?_
  rcases hnone with h | h
  · simp [h]
  · simp [h]

/-- A credit is taken from a link, and no more. -/
theorem State.takeCredit_setLink {e cls : Nat} (h : s.takeCredit e cls = some s1) : ∃ l, s1 = s.setLink e l := by
  unfold State.takeCredit at h
  dsimp only at h
  split at h
  · exact ⟨_, (Option.some.inj h).symm⟩
  · cases h

theorem State.takeCredit_argN {e cls : Nat} (h : s.takeCredit e cls = some s1) (i : Nat) : s1.argN i = s.argN i := by
  obtain ⟨l, rfl⟩ := State.takeCredit_setLink h
  rfl

section
variable (hcredit : s.takeCredit (s.argN 0) 3 = some s1)
include hcredit

theorem exec_iord_of_credit : exec .iord s = .next (s1.respond ⟨s.argN 2, s.argN 0, 0x31, hostBase + s.argN 1 / 8 * 8,
    [s1.curWord ((hostBase + s.argN 1 / 8 * 8) / 8)], s1.poisoned (hostBase + s.argN 1 / 8 * 8)⟩ .iorsp) := by
  rw [exec_iord, execIord]
  simp only [hcredit]
  obtain ⟨l, rfl⟩ := State.takeCredit_setLink hcredit
  rfl

theorem exec_iowr_of_sound (hsound : s1.poisoned (hostBase + s.argN 1 / 8 * 8) = false) : exec .iowr s = .next
    (((s1.writeHome false (hostBase + s.argN 1 / 8 * 8) 8 ⟨(s1.argW 0).v, false⟩).dirtyHalf
      (halfOf (hostBase + s.argN 1 / 8 * 8))).respond
        ⟨s1.argN 2, s1.argN 0, 0x32, hostBase + s.argN 1 / 8 * 8, [], false⟩ .iorsp) := by
  have harg (a : Nat) (v : TWord) (h i : Nat) : ((s1.writeHome false a 8 v).dirtyHalf h).argN i = s1.argN i := by
    rw [State.argN, ((s1.homesOnly_writeHome false a 8 v).trans (State.homesOnly_dirtyHalf _ h)).arg, State.argN]
  rw [exec_iowr, execIowr]
  simp only [hcredit]
  rw [State.takeCredit_argN hcredit, hsound, if_neg Bool.false_ne_true, harg, harg]

theorem exec_iowr_of_poisoned (hpoisoned : s1.poisoned (hostBase + s.argN 1 / 8 * 8) = true) :
    exec .iowr s = .next (s1.respond ⟨s1.argN 2, s1.argN 0, 0x32, hostBase + s.argN 1 / 8 * 8, [], false⟩ .iorsp) := by
  rw [exec_iowr, execIowr]
  simp only [hcredit]
  rw [State.takeCredit_argN hcredit, hpoisoned, if_pos rfl]

theorem exec_iomsg_of_credit : exec .iomsg s = .next s1 := by
  rw [exec_iomsg, execIomsg]
  simp only [hcredit]

end

/-- Answers to another tag stay on their way, and those of the kind that has arrived do not. -/
theorem State.mem_answered' {p : HubMsg → Bool} {m : HubMsg} :
    m ∈ (s.answered' p).hub ↔ m ∈ s.hub ∧ ¬ (m.tag = s.argN 0 ∧ p m = true) := by
  rw [State.answered', List.mem_filter]
  refine and_congr_right fun _ => ?_
  cases p m
  · simp
  · simp

end

/-! ### The memory hub (R322) -/

/-- The words of a memory written one after the other, from a base on. -/
theorem Mem.word_setWords {m : Mem} (hwf : m.wf = true) (b : Nat) (g : Nat → TWord) (ls : List Nat) {i : Nat} (hi : i ∈ ls) :
    (ls.foldl (fun (m : Mem) j => m.setWord (b + j) (g j)) m).word (b + i) = g i := by
  have hkeep (r : List Nat) (m' : Mem) (hm' : m'.wf = true) (hword : m'.word (b + i) = g i) :
      (r.foldl (fun (m : Mem) j => m.setWord (b + j) (g j)) m').word (b + i) = g i := by
    refine (List.foldlRecOn (motive := fun v : Mem => v.wf = true ∧ v.word (b + i) = g i) r _ ⟨hm', hword⟩ ?_).2
    rintro v ⟨hv, hvi⟩ j -
    refine ⟨Mem.setWord_wf hv _ _, ?_⟩
    rw [Mem.word_setWord hv]
    split
    · next h => rw [show j = i by omega]
    · exact hvi
  induction ls generalizing m with
  | nil => cases hi
  | cons j r ih =>
    rcases List.mem_cons.1 hi with rfl | hr
    · refine hkeep r _ (Mem.setWord_wf hwf _ _) ?_
      rw [Mem.word_setWord hwf, if_pos rfl]
    · exact ih (Mem.setWord_wf hwf _ _) hr

theorem Mem.readN_setPoison (m : Mem) (l : Nat) (p : Bool) (a n : Nat) : (m.setPoison l p).readN a n = m.readN a n := by
  induction n generalizing a with
  | zero => rfl
  | succ n ih => rw [Mem.readN, Mem.readN, ih]; rfl

theorem Mem.word_setPoison (m : Mem) (l : Nat) (p : Bool) (w : Nat) : (m.setPoison l p).word w = m.word w := by
  rw [Mem.word, Mem.readN_setPoison]
  rfl

theorem Mem.poisoned_setPoison (m : Mem) (l x : Nat) (p : Bool) :
    (m.setPoison l p).poisoned x = if x = l then p else m.poisoned x := contains_setMember ..

theorem Mem.tainted_zeroLine (m : Mem) (l w : Nat) :
    (m.zeroLine l).tainted w = (m.tainted w && !decide (w / 16 = l)) := by
  rw [Bool.eq_iff_iff, ← Mem.writeN_tainted m (128 * l) 128 0 w]
  simp [Mem.zeroLine, Mem.tainted]

theorem Mem.poisoned_zeroLine (m : Mem) (l : Nat) : (m.zeroLine l).poisoned l = false := by
  unfold Mem.zeroLine Mem.poisoned
  dsimp only
  rw [contains_setMember, if_pos rfl]

theorem Mem.tainted_zeroLines_keeps (ls : List Nat) {m : Mem} {w : Nat} (hm : m.tainted w = false) :
    (ls.foldl Mem.zeroLine m).tainted w = false := by
  induction ls generalizing m with
  | nil => exact hm
  | cons l r ih =>
    rw [List.foldl_cons]
    exact ih (by rw [Mem.tainted_zeroLine, hm, Bool.false_and])

theorem Mem.tainted_zeroLines (m : Mem) {ls : List Nat} {w : Nat} (hw : w / 16 ∈ ls) :
    (ls.foldl Mem.zeroLine m).tainted w = false := by
  induction ls generalizing m with
  | nil => cases hw
  | cons l r ih =>
    rw [List.foldl_cons]
    rcases List.mem_cons.1 hw with h | hr
    · exact Mem.tainted_zeroLines_keeps r (by rw [Mem.tainted_zeroLine, h]; simp)
    · exact ih _ hr

/-- Lines written as zero read zero, with no taint. -/
theorem Mem.word_zeroLines_eq_zero {m : Mem} (hwf : m.wf = true) {ls : List Nat} {w : Nat} (hw : w / 16 ∈ ls) :
    (ls.foldl Mem.zeroLine m).word w = TWord.zero := by
  have hv := Mem.word_zeroLines hwf hw
  have ht : ((ls.foldl Mem.zeroLine m).word w).t = false := Mem.tainted_zeroLines m hw
  generalize (ls.foldl Mem.zeroLine m).word w = x at hv ht
  obtain ⟨v, t⟩ := x
  subst hv ht
  rfl

/-- The bytes that a mask selects of the words at hand, written into a line. -/
def Mem.maskedLine (m : Mem) (line mask : Nat) (g : Nat → TWord) : Mem :=
  (List.range 128).foldl (fun (m : Mem) i =>
    if mask / 2 ^ i % 2 = 1 then
      m.store (128 * line + i) 1 ⟨w64 ((g (i / 8)).v.toNat / 2 ^ (8 * (i % 8)) % 256), (g (i / 8)).t⟩
    else m) m

/-- The taint of the words that a mask selects whole. -/
def Mem.maskedTaint (m : Mem) (line mask : Nat) (g : Nat → TWord) : Mem :=
  (List.range 16).foldl (fun (m : Mem) i =>
    if mask / 2 ^ (8 * i) % 256 = 255 then m.setTaint (16 * line + i) (g i).t else m) m

theorem Mem.byte_maskedLine {m : Mem} (hwf : m.wf = true) (line mask : Nat) (g : Nat → TWord) {a : Nat}
    (ha : a / 128 ≠ line) : (m.maskedLine line mask g).byte a = m.byte a := by
  refine (List.foldlRecOn (motive := fun v : Mem => v.wf = true ∧ v.byte a = m.byte a) _ _ ⟨hwf, rfl⟩ ?_).2
  rintro v ⟨hv, hva⟩ i hi
  have hi := List.mem_range.1 hi
  split
  · exact ⟨Mem.store_wf hv _ _ _, (Mem.byte_store_other hv _ (by omega)).trans hva⟩
  · exact ⟨hv, hva⟩

theorem Mem.byte_maskedTaint (m : Mem) (line mask : Nat) (g : Nat → TWord) (a : Nat) :
    (m.maskedTaint line mask g).byte a = m.byte a := by
  refine List.foldlRecOn (motive := fun v : Mem => v.byte a = m.byte a) _ _ rfl fun v hv i _ => ?_
  split
  · exact hv
  · exact hv

theorem State.mem_unresident (s : State) (line : Nat) : (s.unresident line).mem = s.mem := rfl

theorem State.arg_unresident (s : State) (line : Nat) : (s.unresident line).arg = s.arg := rfl

theorem State.mem_unresidents (s : State) (ls : List Nat) : (ls.foldl State.unresident s).mem = s.mem :=
  State.foldl_keeps State.mem (g := State.unresident) (fun _ _ => rfl) ls s

/-- The address in memory that a request to a hub names. -/
def State.hubAddr (s : State) : Nat := s.argN 0 % 4 * 2 ^ 38 + s.argN 1 % 2 ^ 38

/-- A line written whole, with its poison. -/
def Mem.wholeLine (m : Mem) (line : Nat) (g : Nat → TWord) (p : Bool) : Mem :=
  ((List.range 16).foldl (fun (m : Mem) i => m.setWord (16 * line + i) (g i)) m).setPoison line p

/-- A line of which a mask is written, unless it is poisoned. -/
def Mem.partLine (m : Mem) (line mask : Nat) (g : Nat → TWord) : Mem :=
  if m.poisoned line then m else (m.maskedLine line mask g).maskedTaint line mask g

/-- The lines of a 4 KiB frame. -/
def frameOf (pa : Nat) : List Nat := (List.range 32).map (fun i => pa / 4096 * 32 + i)

theorem Mem.word_wholeLine {m : Mem} (hwf : m.wf = true) (line : Nat) (g : Nat → TWord) (p : Bool) {i : Nat} (hi : i < 16) :
    (m.wholeLine line g p).word (16 * line + i) = g i := by
  rw [Mem.wholeLine, Mem.word_setPoison, Mem.word_setWords hwf _ _ _ (List.mem_range.2 hi)]

theorem Mem.poisoned_wholeLine (m : Mem) (line : Nat) (g : Nat → TWord) (p : Bool) :
    (m.wholeLine line g p).poisoned line = p := by
  rw [Mem.wholeLine, Mem.poisoned_setPoison, if_pos rfl]

theorem Mem.byte_partLine {m : Mem} (hwf : m.wf = true) (line mask : Nat) (g : Nat → TWord) {a : Nat}
    (ha : a / 128 ≠ line) : (m.partLine line mask g).byte a = m.byte a := by
  unfold Mem.partLine
  split
  · rfl
  · rw [Mem.byte_maskedTaint, Mem.byte_maskedLine hwf _ _ _ ha]

theorem State.ack_due (s : State) (pa : Nat) : evt .wrack [s.argN 2] ∈ (s.ack pa).due :=
  List.mem_append_right _ (List.mem_singleton_self _)

theorem State.ack_mem (s : State) (pa : Nat) : (s.ack pa).mem = s.mem := rfl

/-- A request at a hub's memory, with a credit of its edge. -/
theorem hubRequest_of_credit {s s1 : State} (i : Instr) (body : Nat → State → Out) (hpop : populated s.hubAddr = true)
    (hcredit : s.takeCredit (4 * (s.argN 0 % 4) + 2) 1 = some s1) : hubRequest i s body = body s.hubAddr s1 := by
  rw [hubRequest]
  simp only [hcredit]
  exact if_neg (by rw [Bool.not_eq_true', Bool.not_eq_false]; exact hpop)

section
variable {s s1 : State} (hpop : populated s.hubAddr = true)
  (hcredit : s.takeCredit (4 * (s.argN 0 % 4) + 2) 1 = some s1)
include hpop hcredit

theorem exec_rd_of_credit : exec .rd s = .next (s1.respond ⟨s1.argN 2, s1.argN 0 % 4, 0x21, s.hubAddr / 128 * 128,
    s1.homeWords (s.hubAddr / 128), s1.poisoned s.hubAddr⟩ .rdrsp) := by
  rw [exec_rd, execRd, hubRequest_of_credit _ _ hpop hcredit]

theorem exec_wr_of_credit : exec .wr s = .next (State.ack { s1 with
    mem := s1.mem.wholeLine (s.hubAddr / 128) s1.argW (decide (s1.argN 3 = 1)) } s.hubAddr) := by
  rw [exec_wr, execWr, hubRequest_of_credit _ _ hpop hcredit]
  rfl

theorem exec_wrm_of_credit : exec .wrm s = .next (State.ack { s1 with
    mem := s1.mem.partLine (s.hubAddr / 128) (s1.argN 3) s1.argW } s.hubAddr) := by
  rw [exec_wrm, execWrm, hubRequest_of_credit _ _ hpop hcredit]
  rfl

theorem exec_zeroLine_of_credit : exec .zeroLine s = .next ((State.unresident { s1 with
    mem := s1.mem.zeroLine (s.hubAddr / 128) } (s.hubAddr / 128)).ack s.hubAddr) := by
  rw [exec_zeroLine, execZeroLine, hubRequest_of_credit _ _ hpop hcredit]

theorem exec_scrub_of_credit : exec .scrub s = .next (((frameOf s.hubAddr).foldl State.unresident { s1 with
    mem := (frameOf s.hubAddr).foldl Mem.zeroLine s1.mem }).ack s.hubAddr) := by
  rw [exec_scrub, execScrub, hubRequest_of_credit _ _ hpop hcredit]
  rfl

end

/-! ### Training and boot (R324, R325, R336) -/

section
variable {s : State}

theorem exec_ucieLinkUp_of_down (hrefused : (s.link (s.argN 0)).refused = false) (hdown : (s.link (s.argN 0)).up = false) :
    exec .ucieLinkUp s = .next ((s.setLink (s.argN 0) { s.link (s.argN 0) with
      up := true, retrain := 0, since := s.now }).advanceBoot) := by
  rw [exec_ucieLinkUp, execUcieLinkUp]
  exact if_neg (by simp [hrefused, hdown])

theorem exec_param_of_up (hup : (s.link (s.argN 0)).up = true) (hrefused : (s.link (s.argN 0)).refused = false) :
    exec .param s = (if paramOk (s.argN 2) (s.argN 3) = true then
      .next ((s.setLink (s.argN 0) { s.link (s.argN 0) with
        ok := true, kind := s.argN 1, credits := paramCredits (s.argN 3), offered := paramCredits (s.argN 3) }).advanceBoot)
      else .next (s.refuseLink (s.argN 0))) := by
  rw [exec_param, execParam]
  exact if_neg (by simp [hup, hrefused])

theorem exec_splParamTimeout_of_late (hup : (s.link (s.argN 0)).up = true) (hok : (s.link (s.argN 0)).ok = false)
    (hlate : (s.link (s.argN 0)).since + 2 ^ 20 ≤ s.now) :
    exec .splParamTimeout s = .next (s.refuseLink (s.argN 0)) := by
  rw [exec_splParamTimeout, execSplParamTimeout]
  exact if_pos (by rw [hup, hok, decide_eq_true hlate]; rfl)

theorem exec_ucieReplayFail_of_ok (hok : (s.link (s.argN 0)).ok = true) : exec .ucieReplayFail s =
    (if (s.link (s.argN 0)).retrain < 3 then .next (s.setLink (s.argN 0) { s.link (s.argN 0) with
      up := false, retrain := (s.link (s.argN 0)).retrain + 1 }) else .next (s.loseLink (s.argN 0))) := by
  rw [exec_ucieReplayFail, execUcieReplayFail]
  exact if_neg (by rw [hok]; simp)

theorem exec_ucieTrainingFail_of_boot (hboot : s.boot.rdy = false) : exec .ucieTrainingFail s = .next (s.bootFails 4) := by
  rw [exec_ucieTrainingFail, execUcieTrainingFail]
  exact if_neg (by rw [hboot]; simp)

theorem exec_toprsp_eq :
    let s1 : State := { s with hub := s.hub.filter (fun m => !(m.op = 0x42 && m.die = s.argN 0)) }
    exec .toprsp s = (if descGood (s.arg.nums.drop 1) = true then
      .next { s1 with boot := { s.boot with
        desc := SMap.set s.boot.desc (s.argN 0) ((s.arg.nums.drop 1).map (fun x => BitVec.ofNat 8 x)) } }
      else .next (s1.bootFails 6)) := by
  rw [exec_toprsp, execToprsp]

theorem exec_topologyWalk_of_known (hstage : s.boot.stage = 6) (herr : s.boot.err = 0)
    (hknown : ∀ i, i < 10 → SMap.get? s.boot.desc i ≠ none) : exec .topologyWalk s =
      (if s.attached = true then .next { s with boot := { s.boot with stage := 7 } } else .next (s.bootFails 6)) := by
  have hall : ((List.range 10).all fun i => (SMap.get? s.boot.desc i).isSome) = true :=
    List.all_eq_true.2 fun i hi => Option.isSome_iff_ne_none.2 (hknown i (List.mem_range.1 hi))
  rw [exec_topologyWalk, execTopologyWalk, hall]
  exact if_neg (by rw [hstage, herr]; decide)

end

/-! ### The reset of a die (R99, R223) -/

/-- What a die's slices, pools and stores on their way hold, brought home or lost, and the launches of its threads marked. -/
def State.dieDrained (s : State) (d : Nat) : State :=
  let lines := (s.copies.filter (fun p => dieOf (if p.1 % 4096 < 256 then p.1 % 4096 else (p.1 % 4096 - 256) / 8) = d)).map
    (fun p => p.1 / 4096)
  let s := lines.foldl State.gather s
  let s := ((s.regw.filter (fun p => dieOf (p.2.core / 8) = d)).map Prod.fst).foldl State.unregister s
  let s := { s with flights := s.flights.filter (fun f => dieOf (f.core / 8) ≠ d) }
  (coresOnDie d).foldl (fun s c => (s.core c).lost.foldl (fun s p =>
    s.modLaunch p.2.tenant (taskLaunch p.2.task) (fun la => { la with lost := true })) s) s

/-- A core that comes back from a reset. -/
def Core.afterReset (x : Core) : Core :=
  { Core.reset with slots := x.slots.map (fun q => (q.1, { q.2 with occ := .vacant })), fenced := x.fenced,
                    dead := x.fenced, pubWin := if x.fenced then 0 else Core.reset.pubWin }

/-- The cores of a die come back from a reset. -/
def State.coresReset (s : State) (d : Nat) : State :=
  { s with cores := s.cores.map (fun p => if dieOf (p.1 / 8) = d then (p.1, p.2.afterReset) else p) }

theorem exec_dieReset_eq (s : State) :
    exec .dieReset s = .next ((s.dieDrained (s.argN 0 % 4)).coresReset (s.argN 0 % 4)) := rfl

section
variable (s : State) (d : Nat)

theorem State.dieDrained_keeps : (s.dieDrained d).cores = s.cores ∧
    (s.dieDrained d).flights = s.flights.filter (fun f => dieOf (f.core / 8) ≠ d) := by
  have hmark (l : List Nat) (u : State) : u.HomesOnly (l.foldl (fun s c => (s.core c).lost.foldl (fun s p =>
      s.modLaunch p.2.tenant (taskLaunch p.2.task) (fun la => { la with lost := true })) s) u) :=
    State.HomesOnly.foldl (fun v c => State.HomesOnly.foldl (fun w p => State.homesOnly_modTenant ..) _ v) l u
  have hgather (l : List Nat) : s.HomesOnly (l.foldl State.gather s) := State.HomesOnly.foldl State.homesOnly_gather l s
  have hregw (l : List Nat) (u : State) : u.HomesOnly (l.foldl State.unregister u) :=
    State.HomesOnly.foldl State.homesOnly_unregister l u
  unfold State.dieDrained
  dsimp only
  refine ⟨(hmark _ _).cores.trans ?_, (hmark _ _).flights.trans ?_⟩
  · exact (hregw _ _).cores.trans (hgather _).cores
  · exact congrArg (List.filter fun f => decide (dieOf (f.core / 8) ≠ d)) ((hregw _ _).flights.trans (hgather _).flights)

/-- A core of a table in which some cores come back from a reset. -/
theorem get_coresReset (m : SMap Core) (c : Nat) :
    SMap.get (m.map (fun p => if dieOf (p.1 / 8) = d then (p.1, p.2.afterReset) else p)) c Core.reset =
      if dieOf (c / 8) = d then Core.afterReset (SMap.get m c Core.reset) else SMap.get m c Core.reset := by
  induction m with
  | nil =>
    split
    · rfl
    · rfl
  | cons p r ih =>
    obtain ⟨j, x⟩ := p
    by_cases hj : j = c
    · subst hj
      by_cases hd : dieOf (j / 8) = d
      · simp [SMap.get, hd]
      · simp [SMap.get, hd]
    · by_cases hd : dieOf (j / 8) = d
      · simp [SMap.get, hd, hj, ih]
      · simp [SMap.get, hd, hj, ih]

theorem State.core_coresReset (c : Nat) :
    (s.coresReset d).core c = if dieOf (c / 8) = d then (s.core c).afterReset else s.core c :=
  get_coresReset d s.cores c

theorem State.flights_coresReset : (s.coresReset d).flights = s.flights := rfl

theorem Core.slot_afterReset (x : Core) (k : Nat) : (x.afterReset.slot k).occ = .vacant := by
  have hslot : x.afterReset.slot k = { x.slot k with occ := .vacant } :=
    SMap.get_map x.slots (fun q : Slot => ({ q with occ := .vacant } : Slot)) k Slot.reset
  rw [hslot]

end

/-- Settles O50: a lemma for each outcome of what crosses an edge, of the hub's requests, and of training, boot and reset. -/
theorem linkWork : Obligations.LinkWork := by
  unfold Obligations.LinkWork
  refine ⟨fun s n hok hup hcredit => ?_, fun s => ⟨fun hnone => ?_, fun hup => ?_, fun hdown => ?_⟩,
    fun s => exec_splCreditReturn s,
    fun s s1 hcredit => ⟨exec_iord_of_credit hcredit, exec_iowr_of_sound hcredit, exec_iowr_of_poisoned hcredit,
      exec_iomsg_of_credit hcredit⟩,
    fun s => ⟨_, _, _, exec_iorsp s, exec_rdrsp s, exec_wrack s, rfl, rfl, rfl, fun m hm htag => ?_, fun m hm hop htag => ?_,
      fun m hm hop htag => ?_⟩, ?_, fun s => exec_ucieLinkUp_of_down,
    fun s hup hrefused => ⟨fun h => (exec_param_of_up hup hrefused).trans (if_pos h),
      fun h => (exec_param_of_up hup hrefused).trans (if_neg (by rw [h]; simp)), exec_splParamTimeout_of_late hup⟩,
    fun s hok => ⟨fun h => (exec_ucieReplayFail_of_ok hok).trans (if_pos h),
      fun h => (exec_ucieReplayFail_of_ok hok).trans (if_neg (Nat.not_lt.2 h))⟩,
    fun s => exec_ucieTrainingFail_of_boot, exec_topord,
    fun s => ⟨fun h => exec_toprsp_eq.trans (if_pos h), fun h => exec_toprsp_eq.trans (if_neg (by rw [h]; simp))⟩,
    fun s hstage herr hknown => ⟨fun h => (exec_topologyWalk_of_known hstage herr hknown).trans (if_pos h),
      fun h => (exec_topologyWalk_of_known hstage herr hknown).trans (if_neg (by rw [h]; simp))⟩, exec_splErr,
    fun s => ⟨_, exec_dieReset_eq s, fun c hc k => ?_, fun c hc => ?_, fun f hf => ?_⟩⟩
  · rw [exec_mxreq, execMxreq, State.takeCredit_eq hok hup hcredit]
  · rw [exec_mxreq, execMxreq, State.takeCredit_none hnone]
  · rw [exec_mxrsp, execMxrsp, if_pos hup]
  · rw [exec_mxrsp, execMxrsp, if_neg (by rw [hdown]; simp)]
  · exact ⟨State.mem_answered'.2 ⟨hm, fun h => htag h.1⟩, State.mem_answered'.2 ⟨hm, fun h => htag h.1⟩,
      State.mem_answered'.2 ⟨hm, fun h => htag h.1⟩⟩
  · exact (State.mem_answered'.1 hm).2 ⟨htag, decide_eq_true hop⟩
  · exact (State.mem_answered'.1 hm).2 ⟨htag, decide_eq_true hop⟩
  · intro s s1 d pa hpop hcredit hwf
    have hpa : s.hubAddr = pa := rfl
    clear_value pa
    subst hpa
    have hs1 : s1.mem = s.mem ∧ s1.arg = s.arg := by
      obtain ⟨l, rfl⟩ := State.takeCredit_setLink hcredit
      exact ⟨rfl, rfl⟩
    have hargN (i : Nat) : s1.argN i = s.argN i := by rw [State.argN, hs1.2, State.argN]
    have hargW (i : Nat) : s1.argW i = s.argW i := by rw [State.argW, hs1.2, State.argW]
    have hwf1 : s1.mem.wf = true := by rw [hs1.1]; exact hwf
    have hack (u : State) (hu : u.arg = s.arg) (a : Nat) : evt .wrack [s.argN 2] ∈ (u.ack a).due := by
      have := u.ack_due a
      rwa [State.argN, hu] at this
    refine ⟨(exec_rd_of_credit hpop hcredit).trans (by rw [hargN, hargN]),
      ⟨_, exec_wr_of_credit hpop hcredit, fun i hi => ?_, ?_, ?_⟩,
      ⟨_, exec_wrm_of_credit hpop hcredit, ?_, fun a ha => ?_⟩,
      ⟨_, exec_zeroLine_of_credit hpop hcredit, ?_, ?_, fun i hi => ?_⟩,
      ⟨_, exec_scrub_of_credit hpop hcredit, ?_, fun i hi => ?_⟩⟩
    · rw [State.ack_mem, Mem.word_wholeLine hwf1 _ _ _ hi, hargW]
    · rw [State.ack_mem, Mem.poisoned_wholeLine, hargN]
    · refine hack _ ?_ _
      exact hs1.2
    · refine hack _ ?_ _
      exact hs1.2
    · rw [State.ack_mem, Mem.byte_partLine hwf1 _ _ _ ha, hs1.1]
    · refine hack _ ?_ _
      rw [State.arg_unresident]
      exact hs1.2
    · rw [State.ack_mem, State.mem_unresident, Mem.poisoned_zeroLine]
    · rw [State.ack_mem, State.mem_unresident]
      exact Mem.word_zeroLines_eq_zero (ls := [s.hubAddr / 128]) hwf1 (List.mem_singleton.2 (by omega))
    · refine hack _ ?_ _
      exact ((State.foldl_keeps State.arg (g := State.unresident) (fun _ _ => rfl) _ _).trans hs1.2)
    · rw [State.ack_mem, State.mem_unresidents]
      exact Mem.word_zeroLines_eq_zero hwf1 (List.mem_map.2 ⟨i / 16, List.mem_range.2 (by omega), by omega⟩)
  · rw [State.thread?_eq, State.core_coresReset, if_pos hc, Core.slot_afterReset]
  · rw [State.core_coresReset, if_neg hc, State.core, (State.dieDrained_keeps s _).1, State.core]
  · rw [State.flights_coresReset, (State.dieDrained_keeps s _).2] at hf
    exact of_decide_eq_true (List.mem_filter.1 hf).2

end Sys2Proof.Machine
end

section
/-!
SUPPORT. Attestation, the states of a tenant's interface, boot, reset and power (R333 to R337): O51.
-/
namespace Sys2Proof.Machine
open Sys2Proof

/-! ### Attestation (R333) -/

section
variable (s : State)

theorem State.respondSigned_eq (code : Nat) : s.respondSigned code = { s.freeVal.2.freeVal.2 with boot := { s.boot with
    responses := s.boot.responses ++ [(code, s.freeVal.1.toNat), (code, s.freeVal.2.freeVal.1.toNat)] } } := by
  have happend : s.boot.responses ++ [(code, s.freeVal.1.toNat), (code, s.freeVal.2.freeVal.1.toNat)] =
      s.boot.responses ++ [(code, s.freeVal.1.toNat)] ++ [(code, s.freeVal.2.freeVal.1.toNat)] :=
    (List.append_assoc _ [_] [_]).symm
  rw [happend]
  rfl

theorem exec_challenge_eq : exec .challenge s = .next { s.freeVal.2.freeVal.2 with boot := { s.boot with
    responses := s.boot.responses ++ [(5, s.freeVal.1.toNat), (5, s.freeVal.2.freeVal.1.toNat)] } } :=
  congrArg Host.Outcome.next (s.respondSigned_eq 5)

theorem exec_keyExchange_eq : exec .keyExchange s = .next { s.freeVal.2.freeVal.2 with boot := { s.boot with
    session := 1, responses := s.boot.responses ++ [(7, s.freeVal.1.toNat), (7, s.freeVal.2.freeVal.1.toNat)] } } :=
  congrArg Host.Outcome.next (State.respondSigned_eq { s with boot := { s.boot with session := 1 } } 7)

/-- A measurement is answered with the block and two signatures. -/
theorem exec_getMeasurements_of_block (hblock : measured (s.argN 0) = true) : exec .getMeasurements s =
    .next { s.freeVal.2.freeVal.2.freeVal.2 with boot := { s.boot with responses := s.boot.responses ++
      [(6, s.freeVal.1.toNat), (6, s.freeVal.2.freeVal.1.toNat), (6, s.freeVal.2.freeVal.2.freeVal.1.toNat)] } } := by
  have happend (a b c : Nat × Nat) : s.boot.responses ++ [a, b, c] = s.boot.responses ++ [a] ++ [b, c] :=
    (List.append_assoc _ [a] [b, c]).symm
  rw [exec_getMeasurements, execGetMeasurements, if_pos hblock, State.respondSigned_eq, happend]
  rfl

theorem exec_spdmFinish_of_handshake (hsession : s.boot.session = 1) : exec .spdmFinish s =
    .next { s.freeVal.2 with boot := { s.boot with
      session := 2, responses := s.boot.responses ++ [(8, s.freeVal.1.toNat)] } } := by
  rw [exec_spdmFinish, execSpdmFinish, if_pos hsession]
  rfl

theorem exec_endSession_of_session (hsession : s.boot.session ≠ 0) : exec .endSession s =
    .next { s.freeVal.2 with boot := { s.boot with
      session := 0, responses := s.boot.responses ++ [(9, s.freeVal.1.toNat)] } } := by
  rw [exec_endSession, execEndSession, if_neg hsession]
  rfl

end

/-! ### The states of an interface (R334) -/

section
variable (s : State)

theorem State.settleWord_tenants (w : Nat) : (s.settleWord w).tenants = s.tenants := by
  unfold State.settleWord
  dsimp only
  split <;> split <;> rfl

theorem State.writeHome_tenants (sw : Bool) (a n : Nat) (v : TWord) : (s.writeHome sw a n v).tenants = s.tenants := by
  unfold State.writeHome
  dsimp only
  split
  · rfl
  · exact State.settleWord_tenants _ _

theorem State.applyList_tenants (w : Nat) : (s.applyList w).tenants = s.tenants := by
  unfold State.applyList
  split
  · rfl
  · split
    · rfl
    · exact State.writeHome_tenants _ _ _ _ _

/-- A slot's thread is asked to stop, unless it has stopped. -/
def State.askStopSlot (s : State) (c k : Nat) : State :=
  match s.thread? c k with
  | some u => (match u.run with
    | .stopped _ => s
    | _ => s.askStop c k u)
  | none => s

/-- The threads of a core are asked to stop. -/
def State.askStopCore (s : State) (c : Nat) : State := (s.core c).slots.foldl (fun s p => s.askStopSlot c p.1) s

/-- The threads of some cores are asked to stop. -/
def State.askStops (s : State) (cs : List Nat) : State := cs.foldl State.askStopCore s

theorem State.askStopSlot_keeps (c k : Nat) :
    (s.askStopSlot c k).mem = s.mem ∧ (s.askStopSlot c k).tenants = s.tenants := by
  unfold State.askStopSlot
  split
  · split <;> exact ⟨rfl, rfl⟩
  · exact ⟨rfl, rfl⟩

theorem State.askStopCore_keeps (c : Nat) : (s.askStopCore c).mem = s.mem ∧ (s.askStopCore c).tenants = s.tenants := by
  unfold State.askStopCore
  exact ⟨State.foldl_keeps State.mem (fun u (p : Nat × Slot) => (u.askStopSlot_keeps c p.1).1) _ s,
    State.foldl_keeps State.tenants (fun u (p : Nat × Slot) => (u.askStopSlot_keeps c p.1).2) _ s⟩

/-- To ask threads to stop leaves memory and the tenants. -/
theorem State.askStops_keeps (cs : List Nat) : (s.askStops cs).mem = s.mem ∧ (s.askStops cs).tenants = s.tenants :=
  ⟨State.foldl_keeps State.mem (g := State.askStopCore) (fun v c => (v.askStopCore_keeps c).1) cs s,
    State.foldl_keeps State.tenants (g := State.askStopCore) (fun v c => (v.askStopCore_keeps c).2) cs s⟩

theorem exec_tdiError_of_locked (htdi : (s.tenant (s.argN 0)).tdi = 1 ∨ (s.tenant (s.argN 0)).tdi = 2) :
    exec .tdiError s = .next ((s.modTenant (s.argN 0) (fun t => { t with tdi := 3 })).askStops
      ((s.modTenant (s.argN 0) (fun t => { t with tdi := 3 })).allCoresOf (s.argN 0))) := by
  rw [exec_tdiError, execTdiError]
  exact if_pos (by simpa using htdi)

/-- The work of a tenant is discarded: its adds are applied, its threads and what they claimed are gone. -/
def State.workDiscarded (s : State) (tn : Nat) : State :=
  let s := (s.addl.filter (fun p => p.2.tenant = tn)).foldl (fun s p => s.applyList p.1) s
  let s : State := { s with addl := s.addl.filter (fun p => p.2.tenant ≠ tn) }
  (s.allCoresOf tn).foldl (fun s c =>
    let l := (s.core c).lost
    let s := s.modCore c Core.discarded
    l.foldl (fun s p => s.releaseTiles c (s.tid c p.1 p.2)) s) s

theorem State.workDiscarded_tenants (tn : Nat) : (s.workDiscarded tn).tenants = s.tenants := by
  have hadds (l : SMap AddList) : (l.foldl (fun s p => s.applyList p.1) s).tenants = s.tenants :=
    State.foldl_keeps State.tenants (g := fun s p => s.applyList p.1) (fun u p => u.applyList_tenants p.1) l s
  unfold State.workDiscarded
  dsimp only
  rw [State.foldl_keeps State.tenants]
  · exact hadds _
  · intro u c
    rw [State.foldl_keeps State.tenants]
    · rfl
    · exact fun v p => rfl

theorem exec_tdiUnlock_of_locked (htdi : (s.tenant (s.argN 0)).tdi ≠ 0) :
    exec .tdiUnlock s = .next ((s.workDiscarded (s.argN 0)).modTenant (s.argN 0) (fun t => { t with
      tdi := 0, locked := false, trapvec := 0, ttroot := 0, savebase := 0, savesize := 0, cvquota := 0, tntctl := 0,
      launches := [], nextLaunch := 0, groups := [], nextGroup := 1, pool := [] })) := by
  rw [exec_tdiUnlock, execTdiUnlock]
  exact if_neg htdi

end

/-! ### Bring-up (R335, R336) -/

section
variable {s : State}

theorem exec_firmwareCheck_of_good (hstage : s.boot.stage = 3) (herr : s.boot.err = 0)
    (hgood : s.argN 1 = s.boot.fuseEd ∧ s.argN 2 = s.boot.fuseMl ∧ s.argN 3 = 1 ∧ s.boot.fuseVer ≤ s.argN 4) :
    exec .firmwareCheck s = .next (({ s with boot := { s.boot with
      images := SMap.set s.boot.images (s.argN 0) (s.argN 4) } } : State).advanceBoot) := by
  obtain ⟨hed, hml, hdigest, hver⟩ := hgood
  rw [exec_firmwareCheck, execFirmwareCheck]
  dsimp only
  rw [if_neg (by simp [hstage, herr]), if_pos (by simp [hed, hml, hdigest, hver])]

/-- An image that is older than the fused counter stops the boot. -/
theorem exec_firmwareCheck_of_old (hstage : s.boot.stage = 3) (herr : s.boot.err = 0) (hold : s.argN 4 < s.boot.fuseVer) :
    exec .firmwareCheck s = .next { s with boot := { s.boot with err := 3, detail := s.argN 0 % 2 ^ 32 } } := by
  rw [exec_firmwareCheck, execFirmwareCheck]
  dsimp only
  rw [if_neg (by simp [hstage, herr]), if_neg (by
    simp only [Bool.and_eq_true, decide_eq_true_iff]
    omega), Boot.fail, hstage]

/-- Dies whose memory has trained. -/
def State.diesTrained (s : State) (ds : List Nat) : State :=
  ds.foldl (fun s d => s.modDie d (fun x => { x with trained := true })) s

theorem State.diesTrained_mem (ds : List Nat) : (s.diesTrained ds).mem = s.mem :=
  State.foldl_keeps State.mem (g := fun s d => s.modDie d (fun x => { x with trained := true })) (fun _ _ => rfl) ds s

theorem State.diesTrained_die {ds : List Nat} {d : Nat} (hd : d ∈ ds ∨ (s.die d).trained = true) :
    ((s.diesTrained ds).die d).trained = true := by
  unfold State.diesTrained
  induction ds generalizing s with
  | nil => exact hd.resolve_left List.not_mem_nil
  | cons j r ih =>
    refine ih ?_
    dsimp only
    rw [State.modDie, State.die_setDie]
    by_cases hj : d = j
    · exact .inr (by rw [if_pos hj])
    · rw [if_neg hj]
      exact hd.imp_left fun h => (List.mem_cons.1 h).resolve_left hj

theorem exec_hbmTraining_of_short (hstage : s.boot.stage = 7) (herr : s.boot.err = 0)
    (hshort : s.argN 0 < 8 ∨ s.argN 1 < 96000000000) : exec .hbmTraining s = .next (s.bootFails 7) := by
  rw [exec_hbmTraining, execHbmTraining, if_neg (by simp [hstage, herr]), if_pos (by simpa using hshort)]

theorem exec_hbmTraining_of_full (hstage : s.boot.stage = 7) (herr : s.boot.err = 0) (hstacks : 8 ≤ s.argN 0)
    (hbytes : 96000000000 ≤ s.argN 1) : ∃ hdm, exec .hbmTraining s = .next { s.diesTrained (List.range 4) with
      boot := { (s.diesTrained (List.range 4)).boot with stage := 8, hdm := hdm } } := by
  rw [exec_hbmTraining, execHbmTraining, if_neg (by simp [hstage, herr]), if_neg (by
    simp only [Bool.or_eq_true, decide_eq_true_iff]
    omega)]
  exact ⟨_, rfl⟩

theorem exec_cxlLinkUp_of_trained (hstage : s.boot.stage = 8) (herr : s.boot.err = 0) :
    exec .cxlLinkUp s = .next { s with boot := { s.boot with stage := 9, rdy := true } } := by
  rw [exec_cxlLinkUp, execCxlLinkUp, if_pos (by simp [hstage, herr])]

/-! ### Reset and power (R99, R337) -/

theorem cellGet_eq_get (l : List Host.Cell) (a : Nat) : cellGet l a = SMap.get (l : SMap Byte) a 0 := by
  induction l with
  | nil => rfl
  | cons p r ih =>
    obtain ⟨x, b⟩ := p
    rw [cellGet, SMap.get, ih]

/-- A byte of a filtered list of bytes. -/
theorem cellGet_filter (l : List Host.Cell) (p : Nat → Bool) (a : Nat) :
    cellGet (l.filter (fun b => p b.1)) a = if p a then cellGet l a else 0 := by
  rw [cellGet_eq_get, cellGet_eq_get]
  exact SMap.get_filter (l : SMap Byte) p a 0

/-- The M halves are written to the host. -/
def State.halvesHome (s : State) : State :=
  (s.halves.filter (fun p => p.2.st = 3)).foldl (fun s p => s.gather (hostBase / 128 + p.1 / 2)) s

theorem State.moduleReset_bytes : s.moduleReset.mem.bytes = s.halvesHome.mem.bytes.filter (fun b => hostBase ≤ b.1) := rfl

theorem State.moduleReset_byte (a : Nat) :
    s.moduleReset.mem.byte a = if hostBase ≤ a then s.halvesHome.mem.byte a else 0 := by
  rw [Mem.byte, State.moduleReset_bytes, cellGet_filter _ (fun b => decide (hostBase ≤ b))]
  simp only [decide_eq_true_eq]
  rfl

theorem State.halvesHome_of_none (hnone : s.halves = []) : s.halvesHome = s := by
  rw [State.halvesHome, hnone]
  rfl

/-- The lines of the bridge's halves are gathered. -/
theorem State.homesGathered_keeps (l : SMap Half) (u : State) :
    (l.foldl (fun (s : State) p => s.gather (lineOfHalf p.1)) u).cores = u.cores ∧
    (l.foldl (fun (s : State) p => s.gather (lineOfHalf p.1)) u).tenants = u.tenants :=
  ⟨State.foldl_keeps State.cores (g := fun (s : State) p => s.gather (lineOfHalf p.1)) (fun _ _ => rfl) l u,
    State.foldl_keeps State.tenants (g := fun (s : State) p => s.gather (lineOfHalf p.1)) (fun _ _ => rfl) l u⟩

theorem exec_moduleReset_of_bridge (hbridge : s.argN 0 = 1) : exec .moduleReset s =
    (if s.halves.any (fun p => s.lineBusy (lineOfHalf p.1)) = true then .next (s.again .moduleReset)
     else .next { s.halves.foldl (fun (s : State) p => s.gather (lineOfHalf p.1)) s with halves := [] }) := by
  rw [exec_moduleReset, execModuleReset, if_pos hbridge]
  rfl

theorem exec_moduleReset_of_module (hmodule : s.argN 0 ≠ 1) : exec .moduleReset s = .next s.moduleReset := by
  rw [exec_moduleReset, execModuleReset, if_neg hmodule]

/-! ### Gated clusters and new tenants (R43, R45) -/

theorem exec_clusterPowerGate_of_idle (hfree : s.ownerOf (s.argN 0) = none) (hidle : s.clusterIdle (s.argN 0) = true) :
    ∃ u : State, exec .clusterPowerGate s = .next (u.modCluster (s.argN 0) (fun x => { x with gated := true })) := by
  rw [exec_clusterPowerGate, execClusterPowerGate]
  dsimp only
  rw [if_neg (by simp [hfree, hidle])]
  exact ⟨_, rfl⟩

theorem exec_clusterPowerGate_of_used (hused : s.ownerOf (s.argN 0) ≠ none ∨ s.clusterIdle (s.argN 0) = false) :
    exec .clusterPowerGate s = .next s := by
  rw [exec_clusterPowerGate, execClusterPowerGate]
  refine if_pos ?_
  rcases hused with h | h
  · simp [Option.isSome_iff_ne_none.2 h]
  · simp [h]

/-- Clusters that are gated no longer. -/
def State.ungated (s : State) (cls : List Nat) : State :=
  cls.foldl (fun s cl => s.modCluster cl (fun x => { x with gated := false })) s

theorem State.ungated_keeps (cls : List Nat) : (s.ungated cls).mem = s.mem ∧ (s.ungated cls).tenants = s.tenants :=
  ⟨State.foldl_keeps State.mem (g := fun s cl => s.modCluster cl (fun x => { x with gated := false })) (fun _ _ => rfl) cls s,
    State.foldl_keeps State.tenants (g := fun s cl => s.modCluster cl (fun x => { x with gated := false }))
      (fun _ _ => rfl) cls s⟩

theorem State.ungated_cluster {cls : List Nat} {cl : Nat} (hcl : cl ∈ cls ∨ (s.cluster cl).gated = false) :
    ((s.ungated cls).cluster cl).gated = false := by
  unfold State.ungated
  induction cls generalizing s with
  | nil => exact hcl.resolve_left List.not_mem_nil
  | cons j r ih =>
    refine ih ?_
    dsimp only
    by_cases hj : cl = j
    · exact .inr (by rw [← hj, State.cluster_modCluster_same])
    · rw [State.modCluster_eq, State.cluster_setCluster, if_neg hj]
      exact hcl.imp_left fun h => (List.mem_cons.1 h).resolve_left hj

/-- The frames of a new window are clear. -/
def Mem.clearFrames (m : Mem) (win : SMap Nat) : Mem :=
  { bytes := m.bytes.filter (fun b => !win.any (fun p => p.2 = b.1 / 65536)),
    taint := m.taint.filter (fun w => !win.any (fun p => p.2 = w / 8192)),
    poison := m.poison.filter (fun l => !win.any (fun p => p.2 = l / 512)) }

theorem Mem.byte_clearFrames (m : Mem) {win : SMap Nat} {p : Nat × Nat} (hp : p ∈ win) {a : Nat} (ha : a / 65536 = p.2) :
    (m.clearFrames win).byte a = 0 := by
  have hany : (win.any fun p => decide (p.2 = a / 65536)) = true := List.any_eq_true.2 ⟨p, hp, by simp [ha]⟩
  rw [Mem.byte, Mem.clearFrames, cellGet_filter _ (fun b => !win.any (fun p => p.2 = b / 65536)), hany]
  rfl

/-- A tenant is created on quadrants that are free, with some window. -/
theorem exec_tenantCreated_of_free (hnum : s.argN 0 < 16) (hsome : s.arg.nums.drop 1 ≠ [])
    (hquads : ∀ q ∈ s.arg.nums.drop 1, q < 16)
    (hfree : ∀ p ∈ s.tenants, p.1 ≠ s.argN 0 ∧ ∀ q ∈ p.2.quads, q ∉ s.arg.nums.drop 1) :
    ∃ (win : SMap Nat) (l : SMap AddList), exec .tenantCreated s =
      .next ((State.ungated { s with mem := s.mem.clearFrames win, addl := l }
        ((s.arg.nums.drop 1).flatMap quadClusters)).setTenant (s.argN 0)
          { Tenant.reset with quads := s.arg.nums.drop 1, window := win }) := by
  have htaken : (s.tenants.any fun p => decide (p.1 = s.argN 0) ||
      p.2.quads.any fun q => (s.arg.nums.drop 1).contains q) = false := by
    rw [List.any_eq_false]
    intro p hp
    obtain ⟨hne, hq⟩ := hfree p hp
    simpa [hne] using hq
  have hbad : ((s.arg.nums.drop 1).any fun q => decide (16 ≤ q)) = false :=
    List.any_eq_false.2 fun q hq => by simpa using hquads q hq
  rw [exec_tenantCreated, execTenantCreated]
  dsimp only
  rw [htaken, hbad, List.isEmpty_eq_false_iff.2 hsome, if_neg (by simpa using hnum)]
  exact ⟨_, _, rfl⟩

end

/-- Settles O51: a lemma for each outcome of attestation, of the states of an interface, of boot, reset and power. -/
theorem bringUp : Obligations.BringUp := by
  unfold Obligations.BringUp
  refine ⟨exec_getVersion, fun s => ⟨s.freeVal.1.toNat, _, _, _, _, rfl, rfl, rfl, rfl, rfl, rfl, rfl, rfl⟩,
    fun s => ⟨s.freeVal.1.toNat, s.freeVal.2.freeVal.1.toNat, s.freeVal.2.freeVal.2.freeVal.1.toNat, exec_challenge_eq s,
      exec_keyExchange_eq s, exec_getMeasurements_of_block s, exec_spdmFinish_of_handshake s, exec_endSession_of_session s⟩,
    fun s => ⟨fun htdi => ⟨?_, ?_⟩, fun htdi => ?_, fun htdi => ⟨_, exec_tdiError_of_locked s htdi, ?_, ?_⟩,
      fun htdi => ⟨_, exec_tdiUnlock_of_locked s htdi, ?_⟩⟩,
    fun s hstage herr => ⟨?_, ?_⟩,
    fun s hstage herr => ⟨exec_firmwareCheck_of_good hstage herr, exec_firmwareCheck_of_old hstage herr⟩,
    fun s hstage herr => ⟨exec_hbmTraining_of_short hstage herr, fun hstacks hbytes => ?_⟩,
    fun s hstage => ⟨exec_cxlLinkUp_of_trained hstage, exec_cxlLinkTrainingFail s⟩,
    fun s => ⟨fun h => ?_, fun h => ?_⟩,
    fun s hbridge => ⟨fun h => (exec_moduleReset_of_bridge hbridge).trans (if_pos h), fun h =>
      ⟨_, (exec_moduleReset_of_bridge hbridge).trans (if_neg (by rw [h]; simp)), rfl, (State.homesGathered_keeps _ s).1,
        (State.homesGathered_keeps _ s).2⟩⟩,
    fun s hmodule => ⟨s.moduleReset, _, exec_moduleReset_of_module hmodule, exec_powerOverload s, rfl, rfl, rfl, rfl, rfl,
      fun a ha _ => ?_, fun hnone _ a ha => ?_, fun p hp => ?_⟩,
    fun s hfree hidle => ?_, fun s => exec_clusterPowerGate_of_used,
    fun s hnum hsome hquads _ hfree => ?_⟩
  · rw [exec_lockInterfaceRequest, execLockInterfaceRequest, if_pos htdi]
  · rw [exec_tdiUnlock, execTdiUnlock]
    exact if_pos htdi
  · rw [exec_startInterfaceRequest, execStartInterfaceRequest, if_pos htdi]
  · rw [State.tenant_congr (State.askStops_keeps _ _).2, State.tenant_modTenant_same]
  · exact (State.askStops_keeps _ _).1
  · rw [State.tenant_modTenant_same, State.tenant_congr (s.workDiscarded_tenants _)]
  · rw [exec_powerGood, execPowerGood, if_pos (by simp [hstage, herr])]
  · rw [exec_railTimeout, execRailTimeout, if_pos (by simp [hstage, herr])]
  · obtain ⟨hdm, hexec⟩ := exec_hbmTraining_of_full hstage herr hstacks hbytes
    exact ⟨_, hexec, rfl, State.diesTrained_mem _, fun d hd => State.diesTrained_die (.inl (List.mem_range.2 hd))⟩
  · rw [exec_cxlConfigRequest, execCxlConfigRequest, if_pos h]
  · rw [exec_cxlConfigRequest, execCxlConfigRequest, if_neg (Nat.not_lt.2 h)]
  · rw [State.moduleReset_byte, if_neg (Nat.not_le.2 ha)]
    rfl
  · rw [State.moduleReset_byte, if_pos ha, State.halvesHome_of_none hnone]
  · obtain ⟨q, -, rfl⟩ := List.mem_map.1 hp
    rfl
  · obtain ⟨u, hexec⟩ := exec_clusterPowerGate_of_idle hfree hidle
    exact ⟨_, hexec, by rw [State.cluster_modCluster_same]⟩
  · obtain ⟨win, l, hexec⟩ := exec_tenantCreated_of_free hnum hsome hquads hfree
    refine ⟨_, win, hexec, State.tenant_setTenant_same _ _ _, fun p hp a ha => ?_, fun cl hcl => ?_, fun tn htn => ?_⟩
    · exact (congrArg (fun m => Mem.byte m a) (State.ungated_keeps _).1).trans (Mem.byte_clearFrames _ hp ha)
    · exact State.ungated_cluster (.inl hcl)
    · rw [State.tenant_setTenant_other _ _ _ _ htn, State.tenant_congr (State.ungated_keeps _).2]
      rfl

end Sys2Proof.Machine
end
